-- ==== Sys2Proof/Word.lean ====
section
/-! DEFINITION. The word types of the panel and the sorted map that holds sparse state (memory, registers, cores).
Little-endian bytes, 64-bit registers (R10, Conventions "Registers"). -/

namespace Sys2Proof

abbrev Byte := BitVec 8
abbrev W32 := BitVec 32
abbrev W64 := BitVec 64
/-- A descriptor register, R40. -/
abbrev W256 := BitVec 256
/-- A panel address, R31. -/
abbrev PA := BitVec 56

/-- Sparse state by key: a list of pairs whose keys rise strictly. -/
abbrev SMap (V : Type) := List (Nat × V)

end Sys2Proof
end

