-- ==== Sys2Proof/Syntax.lean ====
section
/-! DEFINITION. The commands of the panel: one constructor of `Instr` per row of spec/opcode_table.json, with the row's
operands. A command issued by a core carries the logical core and the fields of the 64-bit instruction word (R46 to R99,
R141), its reserved fields included, because R47 gives them a meaning. A command that a timer, a wire, a host or another
panel brings carries what it brings. -/

namespace Sys2Proof

/-! ### Instruction forms (R48, R52, R55, R64, R69, R70, R93, R99, R141) -/

/-- Register form of R48. -/
structure RegForm where
  rd : BitVec 5
  ra : BitVec 5
  rb : BitVec 5
  rsvd : BitVec 41
  deriving DecidableEq, Repr

/-- Immediate form of R48; the memory form has the same fields, with `rd` the data register. -/
structure ImmForm where
  rd : BitVec 5
  ra : BitVec 5
  imm : BitVec 46
  deriving DecidableEq, Repr

/-- Memory form of DLD and DST (R48): dn in [55:52], bit 51 reserved. -/
structure DMemForm where
  dn : BitVec 4
  rsvd : BitVec 1
  ra : BitVec 5
  imm : BitVec 46
  deriving DecidableEq, Repr

/-- Descriptor field form of R48. -/
structure DFldForm where
  dn : BitVec 4
  sel : BitVec 4
  r : BitVec 5
  rsvd : BitVec 43
  deriving DecidableEq, Repr

/-- Branch form of R52. -/
structure BranchForm where
  ra : BitVec 5
  rb : BitVec 5
  rsvd : BitVec 14
  off : BitVec 32
  deriving DecidableEq, Repr

/-- Jump form of R52. -/
structure JumpForm where
  rsvd : BitVec 24
  off : BitVec 32
  deriving DecidableEq, Repr

/-- Register jump form of R52. -/
structure RJumpForm where
  rsvdHi : BitVec 5
  ra : BitVec 5
  rsvdLo : BitVec 46
  deriving DecidableEq, Repr

/-- Loop form of R52. -/
structure LoopForm where
  ra : BitVec 5
  rsvd : BitVec 3
  body : BitVec 16
  count : BitVec 32
  deriving DecidableEq, Repr

/-- TPOST of R55. -/
structure TpostForm where
  tn : BitVec 5
  remote : Bool
  target : BitVec 10
  inc : BitVec 16
  mask : BitVec 4
  rsvd : BitVec 20
  deriving DecidableEq, Repr

/-- TWAIT of R55. -/
structure TwaitForm where
  tn : BitVec 5
  ra : BitVec 5
  rsvd : BitVec 14
  threshold : BitVec 32
  deriving DecidableEq, Repr

/-- TTEST (rd, tn) and TSET (tn, ra) of R55. -/
structure TwoForm where
  a : BitVec 5
  b : BitVec 5
  rsvd : BitVec 46
  deriving DecidableEq, Repr

/-- BAR.ARRIVE and BAR.WAIT of R55: channel in [55:52], the rest reserved. -/
structure BarForm where
  channel : BitVec 4
  rsvd : BitVec 52
  deriving DecidableEq, Repr

/-- DMA.COPY of R64. -/
structure DmaCopyForm where
  ds : BitVec 4
  dd : BitVec 4
  tn : BitVec 5
  inc : BitVec 16
  rsvd : BitVec 27
  deriving DecidableEq, Repr

/-- DMA.GATHER and DMA.SCATTER of R64. -/
structure DmaListForm where
  ds : BitVec 4
  dd : BitVec 4
  di : BitVec 4
  tn : BitVec 5
  inc : BitVec 16
  rsvd : BitVec 23
  deriving DecidableEq, Repr

/-- DMA.FILL of R64. -/
structure DmaFillForm where
  dd : BitVec 4
  rs : BitVec 5
  tn : BitVec 5
  inc : BitVec 16
  rsvd : BitVec 26
  deriving DecidableEq, Repr

/-- DMA.MARK of R64. -/
structure DmaMarkForm where
  rsvdHi : BitVec 8
  tn : BitVec 5
  inc : BitVec 16
  rsvdLo : BitVec 27
  deriving DecidableEq, Repr

/-- CSRR (a = rd, b unused) and CSRW, CSRS, CSRC (a unused, b = ra) of R69. -/
structure CsrForm where
  a : BitVec 5
  b : BitVec 5
  csr : BitVec 12
  rsvd : BitVec 34
  deriving DecidableEq, Repr

/-- FENCE of R69. -/
structure FenceForm where
  mask : BitVec 4
  rsvd : BitVec 52
  deriving DecidableEq, Repr

/-- TRAP of R69. -/
structure TrapForm where
  rsvd : BitVec 24
  code : BitVec 32
  deriving DecidableEq, Repr

/-- The matrix class fields of R70. -/
structure MmaForm where
  gid : BitVec 4
  descA : BitVec 4
  descB : BitVec 4
  fmtA : BitVec 4
  fmtB : BitVec 4
  direct : Bool
  accAdd : Bool
  rsvdHi : BitVec 2
  ksteps : BitVec 16
  rsvdLo : BitVec 16
  deriving DecidableEq, Repr

/-- GRP.OPEN (r = ra) and GRP.STATUS (r = rd) of R99. -/
structure GrpRegForm where
  gid : BitVec 4
  r : BitVec 5
  rsvd : BitVec 47
  deriving DecidableEq, Repr

/-- GRP.CLOSE of R99. -/
structure GrpCloseForm where
  gid : BitVec 4
  tn : BitVec 5
  inc : BitVec 16
  rsvd : BitVec 31
  deriving DecidableEq, Repr

/-- ACC.SEND of R99. -/
structure AccSendForm where
  gid : BitVec 4
  ra : BitVec 5
  tn : BitVec 5
  inc : BitVec 16
  rsvd : BitVec 26
  deriving DecidableEq, Repr

/-- GRP.ABORT and GRP.PREFETCH of R99. -/
structure GrpForm where
  gid : BitVec 4
  rsvd : BitVec 52
  deriving DecidableEq, Repr

/-- The vector class fields of R70 and R141; `detail` is [26:0]. -/
structure VecForm where
  vd : BitVec 5
  va : BitVec 5
  vb : BitVec 5
  vc : BitVec 5
  type : BitVec 3
  sub : BitVec 5
  sb : Bool
  detail : BitVec 27
  deriving DecidableEq, Repr

/-! ### What the network, the fabric and the hosts bring -/

/-- A packet of the panel network (R210, R211); `w2` and `w3` are words 2 and 3 of its header. -/
structure Packet where
  opcode : BitVec 6
  tclass : BitVec 2
  vc : Bool
  poison : Bool
  mc : Bool
  srcUnit : BitVec 5
  srcNode : BitVec 7
  dstNode : BitVec 7
  tag : BitVec 16
  length : BitVec 10
  status : BitVec 8
  addr : BitVec 56
  w2 : BitVec 64
  w3 : BitVec 64
  payload : List Byte
  deriving DecidableEq, Repr

/-- A Hudja packet (R409, R410); `post` is word 3 bits [30:0] of an FPOST. -/
structure FPacket where
  opcode : BitVec 6
  tclass : BitVec 2
  vc : Bool
  mark : Bool
  reissue : Bool
  poison : Bool
  dstCoord : BitVec 12
  srcCoord : BitVec 12
  dstNode : BitVec 7
  srcNode : BitVec 7
  srcUnit : BitVec 5
  tag : BitVec 16
  length : BitVec 13
  residency : BitVec 32
  addr : BitVec 56
  status : BitVec 8
  echo : Bool
  post : BitVec 31
  check : BitVec 32
  payload : List Byte
  deriving DecidableEq, Repr

/-- Who performs a register access (R437, R439, R502). -/
inductive Writer where
  | hostA
  | hostB
  | pmc
  | rqe
  | mirror
  | bmc
  deriving DecidableEq, Repr

/-- A report to an error manager (R370 to R372, R378). -/
structure Report where
  event : BitVec 16
  cls : BitVec 3
  level : BitVec 3
  kind : BitVec 8
  site : BitVec 8
  sub : BitVec 8
  detail0 : BitVec 64
  detail1 : BitVec 64
  deriving DecidableEq, Repr

/-- A completion or submission entry is eight (or four) 64-bit words (R441, R443). -/
abbrev Entry := List W64

/-! ### Flacon (R343 to R346, R455, R467) -/

/-- A preset entry of R345. -/
structure Preset where
  scope : BitVec 8
  index : BitVec 8
  offset : BitVec 48
  value : W64
  deriving DecidableEq, Repr

/-- A guest entry of the SECURITY_POLICY section (R467); windows as (base, limit) words. -/
structure GuestEntry where
  admitted : Bool
  vendor : BitVec 16
  product : BitVec 16
  rateGbs : BitVec 6
  denyLimit : BitVec 16
  postEnable : Bool
  postLo : BitVec 5
  postHi : BitVec 5
  measurement : BitVec 384
  keyHash : BitVec 384
  windows : List (W64 × W64)
  deriving DecidableEq, Repr

/-- An entry of a flacon's section table (R343). -/
structure Section where
  kind : BitVec 32
  flags : BitVec 32
  offset : BitVec 32
  length : BitVec 32
  digest : BitVec 384
  deriving DecidableEq, Repr

/-- A flacon copy as read: the header of R343 with its section table, the items of R345 and R455, the SHA-384 sums of its
sections, and the verdicts of the signature checks of R346 and R454 (the spec names SHA-384 and ECDSA P-384 and defines
neither). -/
structure Flacon where
  magic : BitVec 32
  format : BitVec 16
  /-- total bytes of the copy, header included -/
  length : BitVec 32
  /-- number of section entries, and the entries of the table that are not zero, in table order -/
  sectionCount : BitVec 32
  sections : List Section
  /-- header bytes that R343 does not list are zero -/
  padZero : Bool
  /-- SHA-384 of each section's bytes as read, in table order -/
  sums : List (BitVec 384)
  version : BitVec 32
  sequence : BitVec 64
  gradeMask : BitVec 8
  level : BitVec 8
  ownerKey : BitVec 8
  /-- SHA-384 of the owner public key at index `ownerKey` (R454). -/
  ownerKeyHash : BitVec 384
  /-- both firmware signatures verify with the root key (R454) -/
  fwSigOk : Bool
  /-- the owner signature verifies with the owner key (R454) -/
  ownerSigOk : Bool
  hubSvn : BitVec 8
  coreSvn : BitVec 8
  /-- word 0 and word 1 of PANEL_CONFIG (R345) -/
  config0 : W64
  config1 : W64
  /-- droop thresholds for P0 to P4, four each (R345) -/
  droop : List (BitVec 16)
  presets : List Preset
  /-- instruction words of CORE_FW and the check entry (R344) -/
  coreFw : List W64
  checkEntry : BitVec 15
  /-- word 0 of SECURITY_POLICY (R455) -/
  policy0 : W64
  guests : List GuestEntry
  deriving DecidableEq, Repr

/-! ### What the stages of bring-up find (R351 to R361) -/

/-- Stage 2: hubs that pass their self-test. -/
structure Stage2In where
  hubsPassed : List Nat
  deriving DecidableEq, Repr

/-- Stage 3: links that failed training (link end index and port), lanes repaired at each link end and port, whether the mesh
joins the edge zones, and the hubs that pass the self-test that convergence repeats. -/
structure Stage3In where
  linksFailed : List (Nat × Nat)
  lanesRepaired : List (Nat × Nat × Nat)
  meshJoins : Bool
  retested : List Nat
  deriving DecidableEq, Repr

/-- Stage 4: failures of the die logic self-test: compute sites, core sites (site × 18 + core site), MPD sites. -/
structure Stage4In where
  computeFailed : List Nat
  coreFailed : List Nat
  mpdFailed : List Nat
  deriving DecidableEq, Repr

/-- Stage 5: failures of the SRAM self-test, with the rows repaired. -/
structure Stage5In where
  computeFailed : List Nat
  clusterFailed : List Nat
  coreFailed : List Nat
  mpdFailed : List Nat
  rowsRepaired : Nat
  deriving DecidableEq, Repr

/-- Stage 6: MPD sites whose stack failed the run, rows repaired, stack height code. -/
structure Stage6In where
  stackFailed : List Nat
  rowsRepaired : Nat
  deriving DecidableEq, Repr

/-- Stage 7: logical cores whose digest mismatched or that did not halt, and those whose replacement failed too. -/
structure Stage7In where
  mismatched : List Nat
  replacementFailed : List Nat
  deriving DecidableEq, Repr

/-- Stage 8: the margin of each island at its planned point: (node, island, code); an island that cannot hold P4. -/
structure Stage8In where
  margins : List (Nat × Nat × Nat)
  cannotHold : Bool
  deriving DecidableEq, Repr

/-- The identity a guest die presents (R467). -/
structure GuestIdent where
  site : Nat
  linkUp : Bool
  width16 : Bool
  vendor : BitVec 16
  product : BitVec 16
  measurement : BitVec 384
  /-- the guest's public key, x then y, and its signature over the challenge and its measurement -/
  key : BitVec 768
  sig : BitVec 768
  deriving DecidableEq, Repr

/-- What the partner's mirror engine says of itself at pairing (R384). -/
structure PeerInfo where
  reachable : Bool
  coord : BitVec 12
  level : BitVec 8
  planDigest : BitVec 384
  failureDomain : BitVec 8
  kvConfig : W64
  stateConfig : W64
  guestPages : W64
  partnerCoord : BitVec 12
  regions : List W64
  windows : List W64
  deriving DecidableEq, Repr

/-- Training of a fabric port (R405): the lanes that work at this end, and the width that the neighbour comes to, as in
HJF_PORT_STATUS. -/
structure Lanes where
  ok : BitVec 8
  peer : BitVec 2
  deriving DecidableEq, Repr

/-- The other end of a fabric port as it trains: the neighbour's port, and the lanes. -/
structure PortEnd where
  port : BitVec 4
  lanes : Lanes
  deriving DecidableEq, Repr

/-- How a read that a port of the panel makes of a host's memory ends (R442, R448). -/
inductive ReadEnd where
  | done
  | unsupported
  | aborted
  | poisoned
  | timedOut
  deriving DecidableEq, Repr

/-- What a host writes to a function's configuration space (R435, R445): bus mastering, and D3hot. -/
structure PciCommand where
  busMaster : Bool
  d3hot : Bool
  deriving DecidableEq, Repr

/-- Stage 9: fabric ports (0 to 15) that train, with their neighbours, what the partner answers, and guests that answer. -/
structure Stage9In where
  ports : List (Nat × BitVec 12 × PortEnd)
  peer : PeerInfo
  guests : List GuestIdent
  deriving DecidableEq, Repr

/-! ### Mirroring (R384 to R394) -/

/-- One context as a hand-off, a snapshot or a journal record names it (R250, R260, R392). The layout of context records
is not architectural (R250); the fields are those the rules use. -/
structure CtxRec where
  ctx : Nat
  state : BitVec 3
  host : Bool
  queue : BitVec 6
  cq : BitVec 6
  tag : W64
  prio : BitVec 3
  draftDepth : BitVec 3
  seed : W64
  maxNew : BitVec 32
  promptLen : Nat
  tail : Nat
  keyStep : Nat
  skips : Nat
  intakeSeq : Nat
  admitSeq : Nat
  pages : List Nat
  emitted : Nat
  tokens : List W32
  coldSlots : List Nat
  wasDecode : Bool
  origin : BitVec 12
  imported : Bool
  deriving DecidableEq, Repr

/-- An input of the request engine (R250). -/
inductive RqeInput where
  | intake (host : Bool) (queue : BitVec 6) (ctx : Nat) (entry : Entry) (prompt : List W32)
  | cancel (host : Bool) (queue : BitVec 6) (ctx : Nat) (tag : W64)
  | policy (writer : BitVec 2) (off : BitVec 16) (value : W64) (result : W64)
  | coldFail (copyIn : Bool) (ctx : Nat)
  /-- a context handed in, as it takes its place in the engine, and the pages it takes beside those of the guest range (R392) -/
  | adopt (x : CtxRec) (own : List Nat)
  /-- contexts handed out (R391, R394) -/
  | depart (ctxs : List Nat)
  deriving DecidableEq, Repr

/-- A result record as the engine reads it (R262). -/
structure Result where
  ctx : BitVec 16
  nEmit : BitVec 4
  accept : BitVec 3
  stop : BitVec 3
  step : BitVec 48
  tokens : List W32
  deriving DecidableEq, Repr

/-- A journal record (R274, R299): an input as applied, or a step's commit with its accepted results; with the seq and digest
of the last ingress record. -/
inductive JRec where
  | input (step : Nat) (i : RqeInput) (seq : Nat) (digest : BitVec 384)
  | commit (step : Nat) (results : List Result) (seq : Nat) (digest : BitVec 384)
  | heartbeat (seq : Nat) (digest : BitVec 384)
  deriving DecidableEq, Repr

/-- A cold move in flight (R270, R271); `result` none while unfinished. -/
structure ColdMove where
  ctx : Nat
  copyIn : Bool
  slots : List Nat
  pages : List Nat
  applyStep : Nat
  result : Option Bool
  /-- its failure is in the ingress log (R271) -/
  logged : Bool
  /-- failures in replay (R301) -/
  fails : Nat
  deriving DecidableEq, Repr

/-- A snapshot of a panel's serving state, for its partner's guest store (R385, R389). -/
structure MirrorState where
  ctxs : List CtxRec
  used : List Nat
  step : Nat
  seq : Nat
  digest : BitVec 384
  policy : List W64
  nextIntake : Nat
  nextAdmit : Nat
  /-- cold slots of the sender's hosts -/
  slots : Nat
  /-- cold moves under way -/
  cold : List ColdMove
  /-- requests imported and not yet in a context (R392) -/
  waiting : List CtxRec
  deriving DecidableEq, Repr

/-- Mirror control messages (R389 to R394). -/
inductive MirrorMsg where
  /-- a hand-off: last committed step, last ingress seq and digest, direction, and the contexts named -/
  | handoff (src : BitVec 12) (step seq : Nat) (digest : BitVec 384) (ret : Bool) (ctxs : List Nat)
  | handoffAck (count : Nat)
  | askReturn (coord : BitVec 12)
  | snapshot (m : MirrorState)
  /-- what a panel says of itself at an attempt to pair (R384) -/
  | pairing (x : PeerInfo)
  /-- the 64 B at an offset of a mirrored region are asked for, and given, or cannot be (R383) -/
  | repairRead (region off : Nat)
  | repairData (region off : Nat) (data : Option (List (Byte × Bool)))
  deriving DecidableEq, Repr

/-- Where a predictive margin crossed (R398). -/
structure PredictAt where
  margin : BitVec 4
  level : BitVec 3
  kind : BitVec 8
  site : BitVec 8
  sub : BitVec 8
  deriving DecidableEq, Repr

/-- Which narrow requester was refused (R157). -/
inductive NarrowReq where
  | sequencer
  | vector
  | remote
  deriving DecidableEq, Repr

/-- How a fill of a remote-cache line returned (R171, R175). -/
inductive FillStatus where
  | ok
  | poisoned
  | failed
  deriving DecidableEq, Repr

/-- How the delivery of an accord slot ended (R238). -/
inductive DeliveryEnd where
  | postAcked
  | noPost
  | postRefused
  | postTimedOut
  | rowFailed
  deriving DecidableEq, Repr

/-- Transports of MCTP (R475, R476). -/
inductive Transport where
  | i3c
  | smbus
  | pcieVdm
  deriving DecidableEq, Repr

/-- The hub and the transport over which a management message arrives (R476). -/
structure Endpoint where
  hub : Nat
  via : Transport
  deriving DecidableEq, Repr

/-- How a signed command block reaches a hub (R461, R463): a writer submits the words that stand in SEC_CMD, or an MCTP vendor-defined
message carries them. -/
inductive SecVia where
  | submit (src : Writer)
  | mctp (t : Transport) (block : List W64)
  deriving DecidableEq, Repr

/-- IEEE 1149.1 instructions (R465, R479), and those that use the debug scopes of R464: halt, step and registers of a hub's PMC, and a
read of its protected SRAM. -/
inductive JtagInstr where
  | bypass
  | idcode
  | samplePreload
  | extest
  | pmcHalt
  | pmcStep
  | pmcResume
  | pmcRegs
  | sramRead
  | other (code : Nat)
  deriving DecidableEq, Repr

/-- A Sillage rate limiter (R425): the one of a hub's network interface, or of the mirror engine there. -/
structure Limiter where
  hub : Nat
  mirror : Bool
  deriving DecidableEq, Repr

/-- The commands of the panel: every row of spec/opcode_table.json. -/
inductive Instr where
  /-- ADD, R49: Scalar add of ra and rb into rd, modulo 2^64. -/
  | add (c : Nat) (f : RegForm)
  /-- SUB, R49: Scalar subtract rb from ra into rd. -/
  | sub (c : Nat) (f : RegForm)
  /-- AND, R49: Bitwise AND of ra and rb into rd. -/
  | and_ (c : Nat) (f : RegForm)
  /-- OR, R49: Bitwise OR of ra and rb into rd. -/
  | or_ (c : Nat) (f : RegForm)
  /-- XOR, R49: Bitwise XOR of ra and rb into rd. -/
  | xor (c : Nat) (f : RegForm)
  /-- SLL, R49: Shift ra left by rb[5:0] into rd. -/
  | sll (c : Nat) (f : RegForm)
  /-- SRL, R49: Logical right shift of ra by rb[5:0]. -/
  | srl (c : Nat) (f : RegForm)
  /-- SRA, R49: Arithmetic right shift of ra by rb[5:0]. -/
  | sra (c : Nat) (f : RegForm)
  /-- MUL, R49: Low 64 bits of ra times rb into rd. -/
  | mul (c : Nat) (f : RegForm)
  /-- MULH, R49: High 64 bits of the signed 128-bit product into rd. -/
  | mulh (c : Nat) (f : RegForm)
  /-- SLT, R49: Set rd to 1 if ra is less than rb signed, else 0. -/
  | slt (c : Nat) (f : RegForm)
  /-- SLTU, R49: Set rd to 1 if ra is less than rb unsigned, else 0. -/
  | sltu (c : Nat) (f : RegForm)
  /-- MIN, R49: Signed minimum of ra and rb into rd. -/
  | min_ (c : Nat) (f : RegForm)
  /-- MAX, R49: Signed maximum of ra and rb into rd. -/
  | max_ (c : Nat) (f : RegForm)
  /-- ADDI, R49: Add the 46-bit signed immediate to ra into rd. -/
  | addi (c : Nat) (f : ImmForm)
  /-- ANDI, R49: AND of ra with the immediate into rd. -/
  | andi (c : Nat) (f : ImmForm)
  /-- ORI, R49: OR of ra with the immediate into rd. -/
  | ori (c : Nat) (f : ImmForm)
  /-- XORI, R49: XOR of ra with the immediate into rd. -/
  | xori (c : Nat) (f : ImmForm)
  /-- SLLI, R49: Left shift of ra by imm[5:0]; higher immediate bits must be zero. -/
  | slli (c : Nat) (f : ImmForm)
  /-- SRLI, R49: Logical right shift of ra by imm[5:0]. -/
  | srli (c : Nat) (f : ImmForm)
  /-- SRAI, R49: Arithmetic right shift of ra by imm[5:0]. -/
  | srai (c : Nat) (f : ImmForm)
  /-- LI, R49: Load the sign-extended immediate into rd. -/
  | li (c : Nat) (f : ImmForm)
  /-- LIH, R49: Load imm[31:0] into rd[63:32], leaving rd[31:0] unchanged. -/
  | lih (c : Nat) (f : ImmForm)
  /-- LD, R50: Load 8 B from the core's scratchpad at ra + imm into rd, with range, alignment and poison checks. -/
  | ld (c : Nat) (f : ImmForm)
  /-- LDW, R50: Load 4 B zero-extended from the scratchpad into rd. -/
  | ldw (c : Nat) (f : ImmForm)
  /-- ST, R50: Store rs as 8 B to the scratchpad at ra + imm. -/
  | st (c : Nat) (f : ImmForm)
  /-- STW, R50: Store rs[31:0] as 4 B to the scratchpad. -/
  | stw (c : Nat) (f : ImmForm)
  /-- DLD, R50: Load a 32 B descriptor from the scratchpad into dn. -/
  | dld (c : Nat) (f : DMemForm)
  /-- DST, R50: Store descriptor dn as 32 B to the scratchpad. -/
  | dst (c : Nat) (f : DMemForm)
  /-- DSET, R49: Write field sel of descriptor dn from the low bits of rs. -/
  | dset (c : Nat) (f : DFldForm)
  /-- DGET, R49: Read field sel of descriptor dn into rd, sign-extending strides. -/
  | dget (c : Nat) (f : DFldForm)
  /-- BEQ, R52: Branch by offset if ra equals rb, predicted. -/
  | beq (c : Nat) (f : BranchForm)
  /-- BNE, R52: Branch by offset if ra differs from rb. -/
  | bne (c : Nat) (f : BranchForm)
  /-- BLT, R52: Branch if ra is less than rb signed. -/
  | blt (c : Nat) (f : BranchForm)
  /-- BGE, R52: Branch if ra is at least rb signed. -/
  | bge (c : Nat) (f : BranchForm)
  /-- BLTU, R52: Branch if ra is less than rb unsigned. -/
  | bltu (c : Nat) (f : BranchForm)
  /-- BGEU, R52: Branch if ra is at least rb unsigned. -/
  | bgeu (c : Nat) (f : BranchForm)
  /-- JMP, R52: Jump by a signed instruction offset. -/
  | jmp (c : Nat) (f : JumpForm)
  /-- CALL, R52: Write pc + 1 to s31 and jump by offset. -/
  | call (c : Nat) (f : JumpForm)
  /-- JR, R53: Jump to the index in ra, checked against instruction memory range. -/
  | jr (c : Nat) (f : RJumpForm)
  /-- CALLR, R53: Write pc + 1 to s31 and jump to ra. -/
  | callr (c : Nat) (f : RJumpForm)
  /-- RET, R53: Jump to the index in s31. -/
  | ret (c : Nat) (rsvd : BitVec 56)
  /-- LOOP, R54: Open a hardware loop of body length b and count n, or skip the body when n is zero. -/
  | loop (c : Nat) (f : LoopForm)
  /-- BRANCH_RESOLVE, R75: An unresolved conditional branch resolves; held work commits in order or is squashed on mispredict. -/
  | branchResolve (c : Nat)
  /-- TPOST, R58: Issue a token post to the core's own or a remote core's counter, held until its release mask is complete. -/
  | tpost (c : Nat) (f : TpostForm)
  /-- TPOST_RELEASE, R59: The release mask of a pending post becomes complete and the post is applied locally or sent as a token-post packet. -/
  | tpostRelease (c : Nat) (k : Nat)
  /-- TWAIT, R57: Block issue until counter tn reaches the threshold. -/
  | twait (c : Nat) (f : TwaitForm)
  /-- TWAIT_SATISFY, R57: A blocked TWAIT finds tn at or above its threshold, subtracts it and lets issue continue. -/
  | twaitSatisfy (c : Nat)
  /-- TTEST, R57: Write the counter value to rd without changing it. -/
  | ttest (c : Nat) (f : TwoForm)
  /-- TSET, R57: Write ra[31:0] to counter tn. -/
  | tset (c : Nat) (f : TwoForm)
  /-- BAR_ARRIVE, R62: Issue a barrier arrival on a channel, waiting for all engine classes to complete. -/
  | barArrive (c : Nat) (f : BarForm)
  /-- BAR_ARRIVE_SIGNAL, R62: Once engine classes complete, the arrival is signalled to the barrier network and counted if the core is a member. -/
  | barArriveSignal (c : Nat)
  /-- BAR_WAIT, R62: Block until the channel releases the generation this core last arrived at. -/
  | barWait (c : Nat) (f : BarForm)
  /-- BAR_WAIT_RELEASE, R303: A release reaches a member core and its blocked BAR.WAIT completes at its next local cycle. -/
  | barWaitRelease (c : Nat)
  /-- EPOCH_ADVANCE, R63: Wait for the DMA class to complete, then advance the cluster's remote-cache epoch. -/
  | epochAdvance (c : Nat) (rsvd : BitVec 56)
  /-- WAIT_TIMEOUT, R61: A blocked TWAIT or BAR.WAIT reaches CORE_WAIT_LIMIT and raises WAIT_TIMEOUT. -/
  | waitTimeout (c : Nat)
  /-- DMA_COPY, R64: Queue a copy from slice ds to slice dd with an optional completion post. -/
  | dmaCopy (c : Nat) (f : DmaCopyForm)
  /-- DMA_GATHER, R64: Queue a copy whose dimension-2 source bases come from an address list. -/
  | dmaGather (c : Nat) (f : DmaListForm)
  /-- DMA_SCATTER, R64: Queue a copy whose dimension-2 destination bases come from an address list. -/
  | dmaScatter (c : Nat) (f : DmaListForm)
  /-- DMA_FILL, R64: Queue a fill of dd with the repeated 8-byte pattern rs. -/
  | dmaFill (c : Nat) (f : DmaFillForm)
  /-- DMA_MARK, R64: Queue a post made when every earlier DMA operation is complete. -/
  | dmaMark (c : Nat) (f : DmaMarkForm)
  /-- DMA_OP_COMPLETE, R66: Every write of a DMA operation is acknowledged by its home and its completion is posted. -/
  | dmaOpComplete (c : Nat)
  /-- CSRR, R69: Read a core CSR into rd. -/
  | csrr (c : Nat) (f : CsrForm)
  /-- CSRW, R69: Write ra to a core CSR, trapping on RO changes or firmware-only access. -/
  | csrw (c : Nat) (f : CsrForm)
  /-- CSRS, R69: Set the CSR bits that are set in ra. -/
  | csrs (c : Nat) (f : CsrForm)
  /-- CSRC, R69: Clear the CSR bits that are set in ra. -/
  | csrc (c : Nat) (f : CsrForm)
  /-- FENCE, R69: Block issue until the engine classes in mask are complete. -/
  | fence (c : Nat) (f : FenceForm)
  /-- FENCE_COMPLETE, R56: The classes a FENCE waits on become complete and issue resumes. -/
  | fenceComplete (c : Nat)
  /-- TRAP, R69: Raise a SOFTWARE trap with the code in CORE_TRAP_INFO. -/
  | trap (c : Nat) (f : TrapForm)
  /-- RETT, R69: Return from a trap to CORE_TRAP_PC in the recorded previous mode. -/
  | rett (c : Nat) (rsvd : BitVec 56)
  /-- HALT, R69: Stop issue and halt once the engines drain. -/
  | halt (c : Nat) (rsvd : BitVec 56)
  /-- HALT_COMPLETE, R69: The engines of a halting core drain and CORE_STATUS.halted is set. -/
  | haltComplete (c : Nat)
  /-- ASYNC_TRAP_DELIVERY, R77: The lowest pending asynchronous cause is delivered in program mode before the next instruction issues. -/
  | asyncTrapDelivery (c : Nat)
  /-- MMA, R93: Queue a matrix pass with both operands K-major into a group or direct region. -/
  | mma (c : Nat) (f : MmaForm)
  /-- MMA_AR, R93: Queue a matrix pass with A row-major and B K-major. -/
  | mmaAr (c : Nat) (f : MmaForm)
  /-- MMA_BR, R93: Queue a matrix pass with A K-major and B row-major. -/
  | mmaBr (c : Nat) (f : MmaForm)
  /-- MMA_ARBR, R93: Queue a matrix pass with both operands row-major. -/
  | mmaArbr (c : Nat) (f : MmaForm)
  /-- MATRIX_PASS_START, R87: A pass at the head of the matrix queue finds its group resident and starts its K-steps. -/
  | matrixPassStart (c : Nat)
  /-- GRP_OPEN, R98: Open group slot gid from a 64 B descriptor in scratchpad after its checks. -/
  | grpOpen (c : Nat) (f : GrpRegForm)
  /-- GRP_CLOSE, R107: Convert the group once to out_fmt, write the output and close the slot. -/
  | grpClose (c : Nat) (f : GrpCloseForm)
  /-- ACC_SEND, R108: Send the group's tile as contributions to an accord and close the slot. -/
  | accSend (c : Nat) (f : AccSendForm)
  /-- GRP_ABORT, R102: Discard a group with no output, spill or send. -/
  | grpAbort (c : Nat) (f : GrpForm)
  /-- GRP_STATUS, R109: Write the group's status word to rd after earlier matrix operations finish. -/
  | grpStatus (c : Nat) (f : GrpRegForm)
  /-- GRP_PREFETCH, R109: Make a FRESH or SPILLED group resident without waiting for a pass. -/
  | grpPrefetch (c : Nat) (f : GrpForm)
  /-- GROUP_SPILL_DONE, R104: A group's tile has been written to its home and the group becomes SPILLED. -/
  | groupSpillDone (c : Nat) (gid : Nat)
  /-- GROUP_FILL_DONE, R104: A group's tile has been read back from its home and the group becomes resident. -/
  | groupFillDone (c : Nat) (gid : Nat)
  /-- GROUP_CLOSE_DONE, R107: The last output byte of a close is written, the slot closes and the post is made. -/
  | groupCloseDone (c : Nat)
  /-- ACC_SEND_ACCEPTED, R108: The die router accepts the last contribution packet, the group closes and the post is made. -/
  | accSendAccepted (c : Nat)
  /-- VADD, R142: Lane-wise add of va and vb into vd. -/
  | vadd (c : Nat) (f : VecForm)
  /-- VSUB, R142: Lane-wise subtract into vd. -/
  | vsub (c : Nat) (f : VecForm)
  /-- VMUL, R142: Lane-wise multiply into vd. -/
  | vmul (c : Nat) (f : VecForm)
  /-- VFMA, R142: Lane-wise fused multiply-add with one rounding. -/
  | vfma (c : Nat) (f : VecForm)
  /-- VMIN, R143: Lane-wise minimum with NaN and signed-zero rules. -/
  | vmin (c : Nat) (f : VecForm)
  /-- VMAX, R143: Lane-wise maximum with NaN and signed-zero rules. -/
  | vmax (c : Nat) (f : VecForm)
  /-- VCMP, R143: Lane-wise comparison writing 1 or 0 as INT32. -/
  | vcmp (c : Nat) (f : VecForm)
  /-- VSEL, R142: Lane-wise select of va or vb by vc. -/
  | vsel (c : Nat) (f : VecForm)
  /-- VLOGIC, R142: Lane-wise bitwise operation or shift selected by sub. -/
  | vlogic (c : Nat) (f : VecForm)
  /-- VCVT, R144: Lane-wise type conversion with rounding and saturation rules. -/
  | vcvt (c : Nat) (f : VecForm)
  /-- VSF, R149: Correctly rounded special function of each lane. -/
  | vsf (c : Nat) (f : VecForm)
  /-- VRED, R146: Fixed-tree reduction of the 128 lanes into every lane of vd. -/
  | vred (c : Nat) (f : VecForm)
  /-- VSCAN, R147: Ascending prefix sum over the lanes. -/
  | vscan (c : Nat) (f : VecForm)
  /-- VSORT, R148: Sort or merge key/payload pairs in the total order. -/
  | vsort (c : Nat) (f : VecForm)
  /-- VBCAST, R142: Broadcast a scalar register or the lane index to every lane. -/
  | vbcast (c : Nat) (f : VecForm)
  /-- VEXTR, R152: Extract one lane into a scalar register, faulting on poison. -/
  | vextr (c : Nat) (f : VecForm)
  /-- VLD, R145: Load n lanes from scratchpad through a descriptor. -/
  | vld (c : Nat) (f : VecForm)
  /-- VST, R145: Store n lanes to scratchpad through a descriptor. -/
  | vst (c : Nat) (f : VecForm)
  /-- RNG_GEN, R150: Generate a Philox word per lane, raw or as a uniform FP32. -/
  | rngGen (c : Nat) (f : VecForm)
  /-- VMXQ, R151: Quantize 128 FP32 lanes to an MX format with block scales. -/
  | vmxq (c : Nat) (f : VecForm)
  /-- SP_STARVATION_GRANT, R157: A narrow request refused for 16 cycles is granted ahead of every wide request. -/
  | spStarvationGrant (c : Nat) (r : NarrowReq)
  /-- CMEM_SCRUB_TICK, R169: The cluster scrubber interval expires and one 64 B word is read, corrected or poisoned. -/
  | cmemScrubTick (die : Nat) (cl : Nat)
  /-- RC_LINE_FILL, R171: A remote-cache line fill returns from its home and is installed if the epoch is unchanged. -/
  | rcLineFill (die : Nat) (cl : Nat) (line : Nat) (epoch : BitVec 16) (st : FillStatus)
  /-- RC_EPOCH_CLEAR_DONE, R172: The 4,096-cycle remote-cache clear after an epoch wrap ends. -/
  | rcEpochClearDone (die : Nat) (cl : Nat)
  /-- RC_EPOCH_ADVANCE_WRITE, R172: A write of CD_RC_EPOCH.advance advances the cluster epoch, clearing on wrap. -/
  | rcEpochAdvanceWrite (die : Nat) (cl : Nat) (val : W64)
  /-- CD_CMEM_PART_WRITE, R167: A write of the cluster partition is accepted or refused with refused set. -/
  | cdCmemPartWrite (die : Nat) (cl : Nat) (val : W64)
  /-- HBM_REFRESH, R194: A refresh interval expires and the banks are refreshed. -/
  | hbmRefresh (stack : Nat)
  /-- MPD_REFRESH_MODE_WRITE, R194: A write of refresh_mode takes effect at the next interval, or is ignored if reserved. -/
  | mpdRefreshModeWrite (stack : Nat) (val : W64)
  /-- HBM_PATROL_SCRUB, R193: The patrol scrubber reads its blocks for this refresh interval and handles them as reads. -/
  | hbmPatrolScrub (stack : Nat)
  /-- HBM_ECS_READ, R193: Every 256 intervals the controller reads the stack ECS count into MPD_ECS. -/
  | hbmEcsRead (stack : Nat) (count : Nat)
  /-- HBM_TEMP_READ, R195: Every 256 intervals the stack temperature is read and the refresh, throttle and shutdown thresholds applied. -/
  | hbmTempRead (stack : Nat) (temp : BitVec 8)
  /-- STACK_LOST, R200: A stack or controller fails in service; state LOST, UF reported, later requests answered ADDRESS_ERROR. -/
  | stackLost (stack : Nat)
  /-- TPE_START, R197: A write of MPD_TPE_CONTROL.start begins a full or quick test pattern run. -/
  | tpeStart (stack : Nat) (val : W64) (src : Writer)
  /-- TPE_RUN_DONE, R198: The test pattern run ends with pass or fail and MPD_TPE_RESULT is recorded. -/
  | tpeRunDone (stack : Nat) (pass : Bool) (lastElement : BitVec 8) (rows : BitVec 16) (repairLeft : BitVec 8)
  /-- HBM_MAP_APPLY, R185: A write of HUB_HBM_MAP_CONTROL.apply checks the region table and starts loading it or refuses with an error. -/
  | hbmMapApply (src : Writer) (val : W64)
  /-- HBM_MAP_LOAD_DONE, R185: The PMC has loaded the region table into every decoder, publishes bases and clears busy. -/
  | hbmMapLoadDone 
  /-- ROUTER_PACKET_RECEIVE, R209: A router takes a whole packet, checks every flit and forwards, replicates or delivers it. -/
  | routerPacketReceive (node : Nat) (port : Nat) (flits : List (List Byte × BitVec 16))
  /-- PKT_RD, R212: A read request is delivered at its home and answered with RD_DATA or NAK. -/
  | pktRd (p : Packet)
  /-- PKT_WR, R212: A write request is delivered at its home, takes effect and is answered with WR_ACK or NAK. -/
  | pktWr (p : Packet)
  /-- PKT_TPOST, R59: A token-post request reaches the target token unit, adds its increment and is acknowledged, or gets FENCED_TARGET. -/
  | pktTpost (p : Packet)
  /-- PKT_RD_DATA, R212: Read data returns to the requesting unit. -/
  | pktRdData (p : Packet)
  /-- PKT_WR_ACK, R212: A write acknowledgement returns to the requesting unit. -/
  | pktWrAck (p : Packet)
  /-- PKT_TPOST_ACK, R59: A post acknowledgement returns and the posting core retires the post. -/
  | pktTpostAck (p : Packet)
  /-- PKT_NAK, R213: A NAK with ADDRESS_ERROR, FENCED_TARGET or DENIED returns and ends the operation. -/
  | pktNak (p : Packet)
  /-- MRD, R212: A management read of a register is served and answered with MRD_DATA or MNAK. -/
  | mrd (p : Packet)
  /-- MWR, R212: A management write of a register is served and answered with MWR_ACK or MNAK. -/
  | mwr (p : Packet)
  /-- MRD_DATA, R212: Register read data returns to the requester. -/
  | mrdData (p : Packet)
  /-- MWR_ACK, R212: A register write acknowledgement returns to the requester. -/
  | mwrAck (p : Packet)
  /-- MNAK, R213: A management NAK returns and ends the register access. -/
  | mnak (p : Packet)
  /-- NETWORK_OP_TIMEOUT, R223: An operation waiting on the network gets no response within the panel-network timeout. -/
  | networkOpTimeout (node : Nat) (unit : Nat) (tag : BitVec 16)
  /-- LINK_DOWN, R242: A panel link loses training; the port is marked down and the PMC recomputes routes. -/
  | linkDown (node : Nat) (port : Nat)
  /-- DRAIN_PAUSE, R220: The PMC pauses request and accord injection in every router to begin a route swap. -/
  | drainPause 
  /-- DRAIN_ROUTERS_EMPTY, R220: Every router reports empty; the PMC swaps banks, re-divides shares and clears pause. -/
  | drainRoutersEmpty 
  /-- DRAIN_TIMEOUT, R220: A router not empty 40 us after pause discards its packets and logs DRAIN_DISCARD. -/
  | drainTimeout (node : Nat)
  /-- MC_HOLD_EXPIRE, R229: A blocked multicast branch passes its hold limit, is abandoned and logs MULTICAST_INCOMPLETE. -/
  | mcHoldExpire (node : Nat) (k : Nat)
  /-- MC_GROUP_APPLY, R230: A write of PNW_MC_CONTROL.apply computes or withdraws a multicast group's tree in every router. -/
  | mcGroupApply (src : Writer) (val : W64)
  /-- ACC_CONTRIB, R236: An accord contribution packet is checked and added into its slot's store. -/
  | accContrib (p : Packet)
  /-- ACCORD_COMBINE_DONE, R237: A fixative slot's canonical tree combine finishes and delivery begins. -/
  | accordCombineDone (node : Nat) (slot : Nat)
  /-- ACCORD_OUTPUT_ACKED, R238: Every output row write of a close-mode slot is acknowledged and the token post is sent. -/
  | accordOutputAcked (node : Nat) (slot : Nat)
  /-- ACCORD_DELIVERY_END, R238: The slot's post is acknowledged, refused or times out; the slot logs as needed and returns to IDLE. -/
  | accordDeliveryEnd (node : Nat) (slot : Nat) (e : DeliveryEnd)
  /-- ACCORD_FORWARD_ACCEPTED, R239: The die router accepts the last packet of a forward and the slot returns to IDLE. -/
  | accordForwardAccepted (node : Nat) (slot : Nat)
  /-- ACCORD_TIMEOUT, R241: A slot still OPEN after the accord timeout is abandoned with ACCORD_INCOMPLETE. -/
  | accordTimeout (node : Nat) (slot : Nat)
  /-- ACC_DESC_WRITE, R245: A write of a slot descriptor word is ignored if the slot is busy, or an enable is refused if invalid. -/
  | accDescWrite (node : Nat) (slot : Nat) (w : Nat) (val : W64)
  /-- STEP_FORM, R256: After a commit the engine applies inputs and cold moves and forms the next step's batch and pages. -/
  | stepForm (hub : Nat)
  /-- COLD_MOVE_FINISH, R271: A cold move finishes or fails, to be applied at the formation cold_lag steps later. -/
  | coldMoveFinish (hub : Nat) (ctx : Nat) (ok : Bool)
  /-- STEP_START, R261: Page tables, mailboxes and maps are acknowledged; epochs advance and the start post is multicast. -/
  | stepStart (hub : Nat)
  /-- DONE_POLL, R264: The poll interval expires and the engine reads the done record, validating results on DONE. -/
  | donePoll (hub : Nat)
  /-- STEP_TIMEOUT, R272: No DONE within step_timeout_us; ATTENTION is raised and the step retried. -/
  | stepTimeout (hub : Nat)
  /-- ABORTED_WAIT_TIMEOUT, R273: No ABORTED record arrives within step_timeout_us after ATTENTION; UF and the engine stops. -/
  | abortedWaitTimeout (hub : Nat)
  /-- STEP_COMMIT, R266: Results, journal and partner acknowledgements are in; the step commits and formation may proceed. -/
  | stepCommit (hub : Nat)
  /-- JOURNAL_RECORD, R274: The standby receives a journal record or heartbeat, applies it and acknowledges. -/
  | journalRecord (hub : Nat) (r : JRec)
  /-- JOURNAL_ACK, R274: The active engine receives the standby's acknowledgement of a journal record. -/
  | journalAck (hub : Nat)
  /-- HEARTBEAT, R274: With nothing to send for 100 us, the active engine sends a heartbeat. -/
  | heartbeat (hub : Nat)
  /-- HEARTBEAT_MISS, R275: The standby misses 10 heartbeats in a row and reports a UF for HD0's engine. -/
  | heartbeatMiss 
  /-- RQE_ENABLE, R277: A write of RQE_CONTROL.enable checks configuration and starts serving or replay, or refuses. -/
  | rqeEnable (hub : Nat) (src : Writer) (val : W64)
  /-- RQE_DRAIN, R277: A write of RQE_CONTROL.drain commits the step in progress, forms no more and enters STOPPED. -/
  | rqeDrain (hub : Nat) (src : Writer) (val : W64)
  /-- RQE_RETRY, R272: A write of RQE_CONTROL.retry retries the step in progress, or logs RQE_LATE_RETRY. -/
  | rqeRetry (hub : Nat) (src : Writer) (val : W64)
  /-- RQE_TAKEOVER, R275: A write of takeover to the standby makes it active and re-forms the step after the last committed one. -/
  | rqeTakeover (hub : Nat) (src : Writer) (val : W64)
  /-- RQE_ILOG_STREAM_WRITE, R298: The host reports the last stored record, freeing ring room for further inputs. -/
  | rqeIlogStreamWrite (hub : Nat) (src : Writer) (val : W64)
  /-- SQ_TAIL_DOORBELL, R440: The host writes a submission queue tail, making entries below it available to the engine. -/
  | sqTailDoorbell (hub : Nat) (q : Nat) (src : Writer) (val : W64)
  /-- SUBMIT, R442: A SUBMIT entry is taken into a FREE context, logged and its head advanced, or rejected. -/
  | submit (host : Bool) (q : Nat) (e : Entry)
  /-- PROMPT_READ_COMPLETE, R442: The prompt read over the host port completes or fails, finishing or rejecting the intake. -/
  | promptReadComplete (host : Bool) (q : Nat) (ok : ReadEnd) (tokens : List W32)
  /-- CANCEL, R442: A CANCEL entry is taken as an input ending the tagged request, or answered NOT_FOUND. -/
  | cancel (host : Bool) (q : Nat) (e : Entry)
  /-- CQ_HEAD_DOORBELL, R445: The host writes a completion queue head, letting the store deliver held entries. -/
  | cqHeadDoorbell (hub : Nat) (q : Nat) (src : Writer) (val : W64)
  /-- CQ_ENABLE, R449: Enabling a completion queue restarts it at index 0 with phase 1 and clears host_lost. -/
  | cqEnable (hub : Nat) (q : Nat) (src : Writer) (val : W64)
  /-- LEASE_ACQUIRE, R439: A host takes the control lease if holder is NONE. -/
  | leaseAcquire (host : Bool)
  /-- LEASE_RENEW, R439: The holder renews the control lease. -/
  | leaseRenew (host : Bool)
  /-- LEASE_RELEASE, R439: The holder gives up the control lease. -/
  | leaseRelease (host : Bool)
  /-- LEASE_EXPIRE, R439: 1,000 ms pass without renew; holder becomes NONE and vector 0 events are raised. -/
  | leaseExpire 
  /-- PCIE_LINK_RESET, R447: Link down, hot reset, PERST_N, fatal AER or D3hot resets one port while serving continues. -/
  | pcieLinkReset (host : Bool)
  /-- PCIE_LINK_RETURN, R447: A port's link returns with bus mastering on and the store drains. -/
  | pcieLinkReturn (host : Bool)
  /-- HOST_LOSS_TIMEOUT, R447: A link stays down for host_loss_ms or the store fills; the host's requests are cancelled. -/
  | hostLossTimeout (host : Bool)
  /-- BAR0_READ_TLP, R437: A host read through BAR0 becomes MRD register reads and completes with data or an abort. -/
  | bar0ReadTlp (host : Bool) (off : Nat) (len : Nat)
  /-- BAR0_WRITE_TLP, R437: A host write through BAR0 becomes an MWR, subject to the lease and access rules. -/
  | bar0WriteTlp (host : Bool) (off : Nat) (len : Nat) (val : W64)
  /-- BAR2_READ_TLP, R437: A host read through BAR2 reaches the panel address space or completes with UR. -/
  | bar2ReadTlp (host : Bool) (off : Nat) (len : Nat)
  /-- BAR2_WRITE_TLP, R437: A host write through BAR2 is stored, with poison if marked, or discarded as UR. -/
  | bar2WriteTlp (host : Bool) (off : Nat) (data : List Byte) (poison : Bool)
  /-- REGISTER_WRITE, R11: A write to a register without behaviour of its own updates its writable fields by type. -/
  | registerWrite (src : Writer) (off : Nat) (val : W64)
  /-- CORE_ABORT_QUEUES, R85: Discard unstarted engine operations without posts and reload the slot table. -/
  | coreAbortQueues (c : Nat)
  /-- CORE_HALT_REQ, R85: Stop issue at the next boundary, abandoning any blocked instruction; halt when engines drain. -/
  | coreHaltReq (c : Nat)
  /-- CORE_ATTENTION, R79: A write of CORE_CONTROL.attention sets the ATTENTION cause pending. -/
  | coreAttention (c : Nat)
  /-- CORE_START, R36: Start a halted core in firmware mode at start_pc, clearing state when clear_state is set. -/
  | coreStart (c : Nat) (val : W64)
  /-- CORE_TOKEN_WRITE, R85: A register-space write to CORE_TOKEN_n acts as TSET. -/
  | coreTokenWrite (c : Nat) (n : Nat) (val : W64)
  /-- BARRIER_APPLY, R302: HUB_BAR_CONTROL.apply sets a channel's membership, or is refused with error. -/
  | barrierApply (src : Writer) (val : W64)
  /-- BARRIER_ABORT, R304: HUB_BAR_CONTROL.abort clears arrivals, releases the generation and completes every blocked wait. -/
  | barrierAbort (src : Writer) (val : W64)
  /-- FABRIC_BAR_ARRIVE, R305: The root barrier unit counts a member panel's arrival and broadcasts release when all have arrived. -/
  | fabricBarArrive (ch : Nat) (coord : BitVec 12)
  /-- BAR_RELEASE, R431: A member receives the extended release and starts its calibrated delay less residency. -/
  | barRelease (ch : Nat) (residency : BitVec 32)
  /-- BAR_RELEASE_DELAY_EXPIRE, R431: The calibrated delay ends and the member releases its local channel. -/
  | barReleaseDelayExpire (ch : Nat)
  /-- EXT_BARRIER_TIMEOUT, R306: The root has not counted every arrival within ext_timeout_us and sends aborts. -/
  | extBarrierTimeout (ch : Nat)
  /-- BAR_ABORT, R306: A member receives an abort message, aborts its local channel and logs BARRIER_EXT_ABORT. -/
  | barAbort (ch : Nat)
  /-- EXT_BARRIER_SELF_ABORT, R306: A member with neither release nor abort within twice ext_timeout_us aborts by itself. -/
  | extBarrierSelfAbort (ch : Nat)
  /-- BAR_JOIN, R430: A member announces itself to the root for calibration. -/
  | barJoin (ch : Nat) (coord : BitVec 12)
  /-- CAL_PROBE, R430: A member receives a calibration probe and answers with CAL_ECHO. -/
  | calProbe (ch : Nat) (residency : BitVec 32)
  /-- CAL_ECHO, R430: The root receives an echo, measures the wire latency and computes the member's delay. -/
  | calEcho (ch : Nat) (coord : BitVec 12) (roundTrip : Nat) (rOut : BitVec 32) (rBack : BitVec 32)
  /-- CAL_DELAY, R430: A member receives and stores its calibrated delay. -/
  | calDelay (ch : Nat) (delay : Nat)
  /-- CALIBRATION_TIMER, R430: Every second, or after a route swap or port loss, calibration of an extended channel runs again. -/
  | calibrationTimer (ch : Nat)
  /-- CLK_POINT_WRITE, R317: A write of CLK_ISLAND_n.point requests a new operating point, or is ignored. -/
  | clkPointWrite (node : Nat) (n : Nat) (val : W64)
  /-- POINT_CHANGE_DONE, R318: An island's divider settles and its crossings are released at the new point. -/
  | pointChangeDone (node : Nat) (n : Nat)
  /-- DROOP_STRETCH, R320: The island supply falls below a threshold and periods lengthen to that factor. -/
  | droopStretch (node : Nat) (n : Nat) (k : Nat)
  /-- STRETCH_RECOVER, R320: The supply stays above threshold 1 for 16 periods and periods return to 1.0x. -/
  | stretchRecover (node : Nat) (n : Nat)
  /-- MARGIN_SAMPLE, R324: The island margin is sampled each microsecond and warn or alarm acted on. -/
  | marginSample (node : Nat) (n : Nat) (codes : List (BitVec 6)) (warnDue : Bool) (stepDue : Bool)
  /-- MARGIN_ALARM_RELEASE, R324: The margin stays above warn for 1 ms and the forced 2x stretch ends. -/
  | marginAlarmRelease (node : Nat) (n : Nat)
  /-- ZONE_TEMP_SAMPLE, R330: Every 250 us the zone temperature is taken and throttle, shutdown and trip thresholds checked. -/
  | zoneTempSample (z : Nat) (readings : List (BitVec 8)) (dwellDown : Bool) (dwellUp : Bool)
  /-- ZONE_SHUTDOWN_TIMEOUT, R334: Shutdown steps not done in 10 ms, or 4 C over; the zone stops without drain. -/
  | zoneShutdownTimeout (z : Nat)
  /-- THROTTLE_TOKEN_GRANT, R332: The throttle token is granted to the next zone with a change pending for one point step. -/
  | throttleTokenGrant 
  /-- CEILING_CHANGE_DONE, R319: Rail and islands reach the new ceiling and the change completes. -/
  | ceilingChangeDone 
  /-- POWER_CAP_SAMPLE, R338: Every 1 ms the panel input is summed and the cap request set or cleared. -/
  | powerCapSample (watts : List (BitVec 16)) (below100ms : Bool)
  /-- EFUSE_OPEN, R327: A zone's input eFuse opens and latches; the zone is lost without drain. -/
  | efuseOpen (z : Nat)
  /-- STAGE_0, R351: Converters come up from 44 V and the edge rails rise. -/
  | stage0 
  /-- STAGE_1, R353: Hubs run ROM, verify their NVM copy, load firmware and presets, and read the fault list. -/
  | stage1 (a : List (Nat × Byte)) (b : List (Nat × Byte)) (selfOk : List Nat)
  /-- STAGE_2, R351: Hubs self-test, report behaviour levels and repair fuse sets. -/
  | stage2 (i : Stage2In)
  /-- STAGE_3, R351: Compute rails rise, sites open, links train and the flacon converges. -/
  | stage3 (i : Stage3In)
  /-- STAGE_4, R351: Die self-test, level check, fault list, spares and shape selection. -/
  | stage4 (i : Stage4In)
  /-- STAGE_5, R357: SRAM self-test and repair; shape selection completes and unused gates close. -/
  | stage5 (i : Stage5In)
  /-- STAGE_6, R351: Maceration of kept stacks; logical stacks numbered. -/
  | stage6 (i : Stage6In)
  /-- STAGE_7, R358: The atomizer loads core firmware and each core's digest is checked. -/
  | stage7 (i : Stage7In)
  /-- STAGE_8, R359: Clock calibration, margin baselines, service routes and error manager arming. -/
  | stage8 (i : Stage8In)
  /-- STAGE_9, R361: Fabric ports train, pairing and guest admission run, and service opens. -/
  | stage9 (i : Stage9In)
  /-- STAGE_BOUND_EXPIRE, R351: A stage exceeds its bound and fails with detail BOUND. -/
  | stageBoundExpire 
  /-- BRINGUP_RETRY, R365: PMC_BRINGUP_CONTROL.retry restarts bring-up from a chosen stage, or is refused. -/
  | bringupRetry (src : Writer) (val : W64)
  /-- FFL_CLEAR, R350: PMC_BRINGUP_CONTROL.ffl_clear removes a field fault list entry and writes a new bank. -/
  | fflClear (src : Writer) (val : W64)
  /-- ERROR_REPORT, R373: A unit report reaches its hub's error manager and is queued, coalesced or lost. -/
  | errorReport (hub : Nat) (r : Report)
  /-- ERROR_HANDLING_START, R374: The error manager takes the next UC, UF or PF report and starts its level's action. -/
  | errorHandlingStart (hub : Nat)
  /-- SPARE_CHECK_DONE, R381: The promoted spare's firmware check ends; the spare is started or SPARE_CHECK escalates. -/
  | spareCheckDone (ok : Bool)
  /-- CLUSTER_HALT_TIMEOUT, R382: A core not halted 1 ms into a cluster restart replaces the handling by DIE. -/
  | clusterHaltTimeout 
  /-- PMC_WATCHDOG_TRIP, R377: The PMC watchdog trips; the PMC restarts and the alternate becomes primary if needed. -/
  | pmcWatchdogTrip (hub : Nat) (within60s : Bool)
  /-- PMC_RESUME, R377: A restarted PMC reloads firmware from protected SRAM and resumes as alternate. -/
  | pmcResume (hub : Nat)
  /-- PREDICT_MARGIN_CROSS, R398: A predictive margin crosses its threshold; PREDICT is logged and the PMC_HEALTH bit set. -/
  | predictMarginCross (p : PredictAt)
  /-- SERVICE_DRYDOWN, R390: PMC_SERVICE_CONTROL.drydown starts dry-down and holds DRIED, or is refused. -/
  | serviceDrydown (src : Writer)
  /-- SERVICE_RETURN, R394: PMC_SERVICE_CONTROL.return asks the partner to return hosted requests. -/
  | serviceReturn (src : Writer)
  /-- SERVICE_RESTART, R401: PMC_SERVICE_CONTROL.restart in DRIED starts bring-up from restart_stage. -/
  | serviceRestart (src : Writer) (val : W64)
  /-- PAIRING_ATTEMPT, R384: Mirror engines exchange parameters and pair, or log PAIRING_REFUSED; retried each second. -/
  | pairingAttempt (peer : PeerInfo)
  /-- MIRROR_WR, R386: A mirrored write copy reaches the partner, is stored in the guest range and acknowledged. -/
  | mirrorWr (p : FPacket) (region : Nat)
  /-- MIRROR_DELTA, R387: A step's deltas reach the partner, are applied to its guest store and acknowledged. -/
  | mirrorDelta (p : FPacket) (step : Nat) (recs : List JRec)
  /-- MIRROR_ACK, R387: The partner's acknowledgement of copies or deltas returns, allowing commit. -/
  | mirrorAck (p : FPacket) (step : Option Nat)
  /-- MIRROR_CTRL, R391: A mirror control message such as a hand-off reaches the partner's mirror engine. -/
  | mirrorCtrl (m : MirrorMsg)
  /-- MIRROR_ACK_TIMEOUT, R388: The partner does not acknowledge within ack_timeout_us; UNPAIRED or held commits. -/
  | mirrorAckTimeout 
  /-- MIRROR_SYNC_DONE, R389: The snapshot has been applied and the mirror state becomes PAIRED. -/
  | mirrorSyncDone 
  /-- HANDOFF_ACK, R391: The partner's hand-off acknowledgement arrives; HANDOFF_OUT written and state DRIED. -/
  | handoffAck (count : Nat)
  /-- HANDOFF_ACK_TIMEOUT, R391: No hand-off acknowledgement arrives and every request ends SERVICE_LOST. -/
  | handoffAckTimeout 
  /-- RETURN_RETRY, R394: A failed return is attempted again after 1 s. -/
  | returnRetry 
  /-- FABRIC_PACKET_RECEIVE, R415: A switch takes a Hudja packet, adds residency and routes or delivers it. -/
  | fabricPacketReceive (hub : Nat) (port : Nat) (p : FPacket) (fecOk : Bool) (transit : BitVec 32)
      (corrected : Nat)
  /-- FABRIC_RD, R420: An incoming fabric read is served from an export window or answered NAK. -/
  | fabricRd (hub : Nat) (p : FPacket)
  /-- FABRIC_WR, R420: An incoming fabric write is served into a writable export window or answered NAK. -/
  | fabricWr (hub : Nat) (p : FPacket)
  /-- FPOST, R420: An incoming fabric token post is handed to the PMC if accept_post, else NAK DENIED. -/
  | fpost (hub : Nat) (p : FPacket)
  /-- FABRIC_RD_DATA, R421: Fabric read data returns to the NI and its command progresses. -/
  | fabricRdData (hub : Nat) (p : FPacket)
  /-- FABRIC_WR_ACK, R421: A fabric write acknowledgement returns to the NI, with echo handling. -/
  | fabricWrAck (hub : Nat) (p : FPacket)
  /-- FABRIC_NAK, R421: A fabric NAK returns and ends its command with the matching status. -/
  | fabricNak (hub : Nat) (p : FPacket)
  /-- FABRIC_REQUEST_TIMEOUT, R423: A fabric request times out and is re-issued once or ends with TIMEOUT. -/
  | fabricRequestTimeout (hub : Nat) (tag : BitVec 16)
  /-- SILLAGE_RECOVER, R425: Each recover_us without echo raises an entry's rate by add_step. -/
  | sillageRecover (limiter : Limiter) (coord : BitVec 12)
  /-- FQ_PRODUCER_WRITE, R418: A write of HJF_FQ_INDEX_q advances the producer index of a command queue. -/
  | fqProducerWrite (hub : Nat) (q : Nat) (val : W64)
  /-- FQ_POLL, R418: Every poll_ns the NI reads a polled queue's producer index from its header. -/
  | fqPoll (hub : Nat) (q : Nat)
  /-- GET, R419: A fabric command reading remote bytes into local memory in 4 KiB packets. -/
  | fabricGet (hub : Nat) (q : Nat) (cmd : Entry)
  /-- PUT, R419: A fabric command writing local bytes to remote memory. -/
  | fabricPut (hub : Nat) (q : Nat) (cmd : Entry)
  /-- PUT_POST, R419: As PUT, then one FPOST after every write is acknowledged. -/
  | fabricPutPost (hub : Nat) (q : Nat) (cmd : Entry)
  /-- ROUTE_APPLY, R417: HJF_CONTROL.apply_routes starts a per-port drain and swap of route entries. -/
  | routeApply (hub : Nat)
  /-- PORT_QUEUE_EMPTY, R417: A draining port's queue empties; its entries swap and the next port proceeds. -/
  | portQueueEmpty (hub : Nat) (port : Nat)
  /-- PORT_DRAIN_TIMEOUT, R417: A port queue not empty after 200 us is discarded and the swap continues. -/
  | portDrainTimeout (hub : Nat) (port : Nat)
  /-- HJF_DETACH, R427: HJF_CONTROL.detach stops injection and sends DETACH on every up port. -/
  | hjfDetach (hub : Nat)
  /-- DETACH, R427: A neighbour removes the port, sends what it holds and returns DETACH_ACK. -/
  | detach (hub : Nat) (port : Nat)
  /-- DETACH_ACK, R427: A neighbour's acknowledgement arrives; when all are in and the pool is empty, ports go DETACHED. -/
  | detachAck (hub : Nat) (port : Nat)
  /-- DETACH_TIMEOUT, R427: A detach not done in 1 ms discards held packets and completes. -/
  | detachTimeout (hub : Nat)
  /-- FABRIC_PORT_DOWN, R429: A neighbour loss is seen; the port is removed and its queue discarded. -/
  | fabricPortDown (hub : Nat) (port : Nat)
  /-- LANE_DEGRADED, R405: A lane fails and the port retrains on a working half at 100 GB/s. -/
  | laneDegraded (hub : Nat) (port : Nat) (lanesOk : Lanes)
  /-- FABRIC_PORT_UP, R428: A port comes up with the same neighbour and is put back into its entries. -/
  | fabricPortUp (hub : Nat) (port : Nat) (neighbour : BitVec 12) (nport : PortEnd)
  /-- OWNER_PROGRAM, R462: A signed command programs a blank owner key slot. -/
  | ownerProgram (hub : Nat) (v : SecVia)
  /-- OWNER_REVOKE, R462: A signed command revokes an owner slot. -/
  | ownerRevoke (hub : Nat) (v : SecVia)
  /-- FLACON_FLOOR, R462: A signed command raises the flacon anti-rollback floor. -/
  | flaconFloor (hub : Nat) (v : SecVia)
  /-- FW_FLOOR, R462: A signed command raises the firmware security version floor. -/
  | fwFloor (hub : Nat) (v : SecVia)
  /-- DEBUG_UNLOCK, R462: A signed command opens debug scopes for a window. -/
  | debugUnlock (hub : Nat) (v : SecVia)
  /-- DEBUG_RELOCK, R464: SEC_DEBUG.relock closes every open debug scope. -/
  | debugRelock (hub : Nat)
  /-- DEBUG_WINDOW_EXPIRE, R464: The debug window elapses and the scopes close. -/
  | debugWindowExpire (hub : Nat)
  /-- ENTROPY_FAIL, R458: The entropy health test fails; commands and SPDM are refused until bring-up. -/
  | entropyFail (hub : Nat)
  /-- GUEST_TRANSACTION, R468: A guest transaction is checked by the firewall and passed or denied. -/
  | guestTransaction (site : Nat) (p : Packet)
  /-- OE_READING, R470: An optical engine reading passes the firewall or is discarded as out of range. -/
  | oeReading (k : Nat) (kind : Nat) (value : BitVec 16) (lo : BitVec 16) (hi : BitVec 16)
  /-- GET_VERSION, R459: SPDM version request answered. -/
  | getVersion (hub : Nat) (t : Option Transport)
  /-- GET_CAPABILITIES, R459: SPDM capabilities request answered. -/
  | getCapabilities (hub : Nat) (t : Option Transport)
  /-- NEGOTIATE_ALGORITHMS, R459: SPDM algorithm negotiation answered with P-384 and SHA-384. -/
  | negotiateAlgorithms (hub : Nat) (t : Option Transport)
  /-- GET_DIGESTS, R459: SPDM certificate digests answered for slot 0. -/
  | getDigests (hub : Nat) (t : Option Transport)
  /-- GET_CERTIFICATE, R459: SPDM certificate chain returned for slot 0. -/
  | getCertificate (hub : Nat) (t : Option Transport) (slot : Nat)
  /-- CHALLENGE, R459: SPDM challenge signed with the alias key. -/
  | challenge (hub : Nat) (t : Option Transport) (slot : Nat) (nonce : BitVec 256)
  /-- GET_MEASUREMENTS, R460: SPDM measurements returned and signed with the alias key. -/
  | getMeasurements (hub : Nat) (t : Option Transport) (index : Nat) (nonce : BitVec 256)
  /-- SET_ENDPOINT_ID, R475: MCTP control command setting the endpoint ID. -/
  | setEndpointId (hub : Nat) (t : Transport) (eid : BitVec 8)
  /-- GET_ENDPOINT_ID, R475: MCTP control command returning the endpoint ID. -/
  | getEndpointId (hub : Nat) (t : Transport)
  /-- GET_MCTP_VERSION_SUPPORT, R475: MCTP control command returning supported versions. -/
  | getMctpVersionSupport (hub : Nat) (t : Transport)
  /-- GET_MESSAGE_TYPE_SUPPORT, R475: MCTP control command returning supported message types. -/
  | getMessageTypeSupport (hub : Nat) (t : Transport)
  /-- GET_VENDOR_DEFINED_MESSAGE_SUPPORT, R475: MCTP control command returning vendor-defined message support. -/
  | getVendorDefinedMessageSupport (hub : Nat) (t : Transport)
  /-- ENTDAA, R475: I3C dynamic address assignment gives the target a dynamic address. -/
  | entdaa (hub : Nat) (addr : BitVec 7)
  /-- SETDASA, R475: I3C command setting the dynamic address from the static address. -/
  | setdasa (hub : Nat) (static : BitVec 7) (addr : BitVec 7)
  /-- RSTDAA, R475: I3C command resetting the dynamic address so the port works as SMBus. -/
  | rstdaa (hub : Nat)
  /-- REQUEST_UPDATE, R477: PLDM type 5 update request, refused while a bring-up stage runs. -/
  | requestUpdate (e : Endpoint) (component : Nat)
  /-- VERIFY_COMPLETE, R477: PLDM type 5 verification by read-back digest of the written copy. -/
  | verifyComplete (e : Endpoint) (digestOk : Bool)
  /-- ACTIVATE_FIRMWARE, R477: PLDM type 5 activation restarts hubs from stage 1 or is held pending. -/
  | activateFirmware (hub : Nat) (t : Transport)
  /-- PLDM_SENSOR_REFRESH, R478: Every 10 ms sensors are refreshed and threshold crossings sent as events. -/
  | pldmSensorRefresh 
  /-- POWER_APPLIED, R486: The 44 V input rises and the power-up sequence begins. -/
  | powerApplied 
  /-- BROWN_OUT_SUSTAINED, R485: Input between 38 V and 40 V for over 10 ms logs INPUT_LOW and starts dry-down. -/
  | brownOutSustained 
  /-- BROWN_OUT_RAILS_OFF, R485: Dry-down ends or 100 ms pass; compute rails go down and the panel enters SAFE. -/
  | brownOutRailsOff 
  /-- INPUT_UNDER_VOLTAGE, R485: Input below 38 V for 50 us stops every converter. -/
  | inputUnderVoltage 
  /-- INPUT_OVER_VOLTAGE, R485: Input above 55 V for 10 us stops and latches every converter off. -/
  | inputOverVoltage 
  /-- POWER_REMOVED, R485: Input stays below 5 V for 1 s; eFuses and latches clear and everything ends. -/
  | powerRemoved 
  /-- PANEL_RESET_ASSERT, R487: PANEL_RESET_N held 0.5 us or more resets hubs and takes compute rails down. -/
  | panelResetAssert (widthNs : Nat)
  /-- PANEL_RESET_DEASSERT, R487: PANEL_RESET_N is released and stage 0 runs again. -/
  | panelResetDeassert 
  /-- MATRIX_PASS_DONE, R117: The last K-step of a pass completes, its products land in the tile and, for a direct pass, the region is written back, completing the matrix class. -/
  | matrixPassDone (c : Nat)
  /-- VECTOR_OP_DONE, R153: A queued vector operation finishes after its latency, writing its registers or stores and completing the vector class. -/
  | vectorOpDone (c : Nat)
  /-- STANDBY_SNAPSHOT, R274: A starting or restarting standby receives the snapshot of context records and free bitmap and, with the records after it, comes into sync. -/
  | standbySnapshot (ctxs : List CtxRec) (used : List Nat) (step : Nat)
  /-- FREF_LOSS, R482: Loss of a hub's 156.25 MHz fabric reference clock takes down that hub's fabric ports. -/
  | frefLoss (hub : Nat)
  /-- DOE_DISCOVERY, R459: A DOE discovery request on a port's mailbox is answered, even by a hub in ROM. -/
  | doeDiscovery (hub : Nat) (index : BitVec 8)
  /-- SET_EVENT_RECEIVER, R478: The management controller sets itself as event receiver, after which threshold crossings and state changes are sent as PlatformEventMessages. -/
  | setEventReceiver (e : Endpoint) (eid : BitVec 8)
  /-- PLDM_TYPE_5_TRANSFER, R477: A transfer of flacon copy data of up to 4,096 B is written to NVM A or B, or refused during stages 1 to 9. -/
  | pldmType5Transfer (e : Endpoint) (off : Nat) (data : List Byte)
  /-- CONFIGURATION_WRITE, R445: A host configuration write, such as turning bus mastering off or on, changes whether completions go to the queue or the completion store. -/
  | configurationWrite (host : Bool) (busMaster : PciCommand)
  /-- JTAG_INSTRUCTION, R465: An IEEE 1149.1 instruction is loaded into a hub's JTAG port and acts, or selects BYPASS while HUB_JTAG is closed. -/
  | jtagInstruction (hub : Nat) (i : JtagInstr)
  deriving DecidableEq, Repr

end Sys2Proof
end

