-- ==== Sys2Proof/Config.lean ====
section
/-! DEFINITION. What the spec leaves open or names without defining. Every constant here is opaque: nothing can be proved
about its value, so a statement holds whatever it is. -/

namespace Sys2Proof.Config

/-- The free values: the n-th value drawn for something the spec leaves open. The panel counts the draws (log 1). -/
opaque free : Nat → Nat

/-- SHA-384 (R283, R297, R346, R451, R457): named by the spec, not defined by it. -/
opaque sha384 : List Byte → BitVec 384

/-- HMAC-SHA-384 (R348, R457): key, message. -/
opaque hmacSha384 : BitVec 384 → List Byte → BitVec 384

/-- The public key, x then y, of a P-384 key made from a seed (R457). -/
opaque p384Public : BitVec 384 → BitVec 768

/-- An ECDSA P-384 signature, r then s, by the key of a seed over a message (R457, R459). -/
opaque ecdsaSign : BitVec 384 → List Byte → BitVec 768

/-- An ECDSA P-384 signature, r then s, by a public key, x then y, verifies over a message (R461): key, message, signature. -/
opaque ecdsaVerify : BitVec 768 → List Byte → BitVec 768 → Bool

/-- CRC-32C of the Hudja packet check (R410). -/
opaque crc32c : List Byte → BitVec 32

/-- Digest of the hub ROM (R460, measurement 1). -/
opaque romDigest : BitVec 384

/-- Prawacen's root certificate and the manufacturing key's, with which the chain of slot 0 begins (R457, R459). -/
opaque rootCert : List Byte
opaque mfgCert : List Byte

/-- The JEDEC manufacturer code of Prawacen Systems in IDCODE (R479). -/
opaque jedecCode : BitVec 11

/-- The vc_up bit the PMC chooses for a route entry, a fixed function of its inputs (R218): the routers' link ends, the
failed links and the seam cost; then the node and the destination. -/
opaque vcUp : List Nat → List (Nat × Nat) → Nat → Nat → Nat → Bool

/-- The 4-bit hash of a block's stack-local address that its check bits carry (R190): the spec names it and does not give it. -/
opaque addrHash : Nat → Nat

/-- The bank of a pseudo-channel that a stack-local address lies in (R186: the placement is not specified). -/
opaque hbmBank : Nat → Nat

/-- Page of this panel that holds the copy of a page of the partner's guest range: R385 numbers the partner's own pages only. -/
opaque hostedPage : Nat → Nat


end Sys2Proof.Config
end

