-- ==== Sys2Proof/Machine/RegTable.lean ====
section
/-! DEFINITION. The register table of the panel: every register of R514, with its block, offset, strides (R495 to R497),
where it exists, and its fields with their types (R11) and reset values (R13), as the register tables of the chapters
give them. `F.X_f` names field f of register X. -/

namespace Sys2Proof.Machine

/-- A bit field [hi:lo] of a register (Conventions). -/
structure Fld where
  hi : Nat
  lo : Nat
  deriving DecidableEq, Repr

/-- Register field types of R11. RWS is named by R11 and used by no register table. -/
inductive FKind where
  | ro
  | rw
  | rw1c
  | wo
  | rws
  | rwl
  deriving DecidableEq, Repr

/-- Where a field's reset value comes from: the table, a fuse (R507) or the flacon (R13). -/
inductive RSrc where
  | table
  | fuse
  | flacon
  deriving DecidableEq, Repr

structure FieldSpec where
  f : Fld
  kind : FKind
  src : RSrc
  deriving DecidableEq, Repr

/-- The register blocks of R496 and R497. -/
inductive Blk where
  | hub
  | rqe
  | mir
  | pwr
  | sec
  | pnw
  | pci
  | hjf
  | pmc
  | cd
  | acc
  | clk
  | mpd
  | core
  deriving DecidableEq, Repr

/-- Which hubs hold a hub register (Exists in). -/
inductive Place where
  | every
  | hd03
  | hd12
  deriving DecidableEq, Repr

/-- Whether copies of a register in several hubs are one register (R504, R434, R368, R401). -/
inductive Share where
  | own
  | pair
  | zone
  | all
  deriving DecidableEq, Repr

structure RegInfo where
  blk : Blk
  off : Nat
  n1 : Nat
  s1 : Nat
  n2 : Nat
  s2 : Nat
  place : Place
  share : Share
  /-- written by CSR instructions in firmware mode only (R39, R85) -/
  fwOnly : Bool
  reset : BitVec 64
  deriving DecidableEq, Repr

/-- The registers of R514. -/
inductive Reg where
  | CORE_ID
  | CORE_STATUS
  | CORE_CONTROL
  | CORE_TRAP_VECTOR
  | CORE_TRAP_PC
  | CORE_TRAP_CAUSE
  | CORE_TRAP_INFO
  | CORE_TRAP_PENDING
  | CORE_CYCLE
  | CORE_ISSUE_SEQ
  | CORE_MISPREDICT_COUNT
  | CORE_WAIT_LIMIT
  | CORE_TOKEN_STATUS
  | CORE_ISSUE_CONTROL
  | CORE_TOKEN
  | CORE_GRP_STATUS
  | CORE_MX_STATUS
  | CORE_MX_BUSY
  | CORE_MX_STALL
  | CORE_MX_CONTROL
  | CORE_PMAP
  | CORE_SP_ERR
  | CORE_SP_STATUS
  | CORE_DMA_STATUS
  | CORE_DMA_BYTES
  | CD_CMEM_PART
  | CD_RC_EPOCH
  | CD_RC_STATS
  | CD_CMEM_ERR
  | CD_CMEM_SCRUB
  | CD_CMEM_PMAP
  | CD_RC_WBASE
  | CD_RC_WLIMIT
  | MPD_ID
  | MPD_HBM_CONFIG
  | MPD_HBM_STATUS
  | MPD_ERR
  | MPD_SCRUB
  | MPD_ECS
  | MPD_TPE_CONTROL
  | MPD_TPE_RESULT
  | MPD_TEMP_LIMITS
  | HUB_HBM_REGION_CFG
  | HUB_HBM_REGION_BASE
  | HUB_HBM_MAP_CONTROL
  | PNW_ROUTE
  | PNW_ROUTE_SHADOW
  | PNW_MC_ENTRY
  | PNW_PORT_STATUS
  | PNW_POOL_STATUS
  | PNW_CONFIG
  | PNW_DRAIN_STATUS
  | PNW_MC_DEF
  | PNW_MC_UNIT
  | PNW_MC_CONTROL
  | PNW_TOPO
  | ACC_CONTROL
  | ACC_ERR
  | ACC_SLOT_STATUS
  | ACC_DESC
  | RQE_CONTROL
  | RQE_STATUS
  | RQE_STEP
  | RQE_BATCH
  | RQE_PRIO
  | RQE_KV_BASE
  | RQE_KV_CONFIG
  | RQE_KV_FREE
  | RQE_STATE_CONFIG
  | RQE_MBOX_CONFIG
  | RQE_STEP_CONFIG
  | RQE_STBY_STATUS
  | RQE_COUNTS
  | RQE_ILOG_BASE
  | RQE_ILOG_CONFIG
  | RQE_ILOG_SEQ
  | RQE_ILOG_STATUS
  | RQE_ILOG_STREAM
  | RQE_REPLAY_CONTROL
  | RQE_REPLAY_STATUS
  | HUB_DET_POLICY
  | HUB_BAR_DIES
  | HUB_BAR_CORES
  | HUB_BAR_EXT
  | HUB_BAR_STATUS
  | HUB_BAR_CONTROL
  | CLK_ISLAND
  | CLK_MARGIN
  | CLK_MARGIN_LIMITS
  | PWR_ZONE_STATUS
  | PWR_ZONE_CONTROL
  | PWR_THERM_LIMITS
  | PWR_PANEL
  | PWR_TOKEN_STATUS
  | PMC_STAGE
  | PMC_BRINGUP_CONTROL
  | PMC_FLACON_STATUS
  | PMC_FLACON_SEQ
  | PMC_FFL_STATUS
  | PMC_REPORT
  | PMC_ERR_STATUS
  | PMC_LOG_HEAD
  | PMC_WATCHDOG
  | PMC_SERVICE_CONTROL
  | PMC_HEALTH
  | PMC_PREDICT_LIMITS
  | PMC_LOG
  | MIR_CONFIG
  | MIR_GUEST_PAGES
  | MIR_REGION
  | MIR_GUEST_WIN
  | MIR_STATUS
  | MIR_COUNTS
  | HJF_COORD
  | HJF_CONFIG
  | HJF_SILLAGE
  | HJF_CONTROL
  | HJF_PORT_STATUS
  | HJF_ROUTE
  | HJF_POOL_STATUS
  | HJF_FQ_CONFIG
  | HJF_FQ_INDEX
  | HJF_EXPORT
  | HJF_BAR_CAL
  | HJF_RANK
  | PCI_PORT_STATUS
  | PCI_LEASE
  | PCI_BAR2_BASE
  | PCI_CSTORE
  | PCI_IMPORT_CQ
  | PCI_REGION_BASE
  | PCI_REGION_SIZE
  | PCI_SQ_BASE
  | PCI_SQ_TAIL
  | PCI_CQ_BASE
  | PCI_CQ_HEAD
  | SEC_STATUS
  | SEC_NONCE
  | SEC_CMD
  | SEC_CMD_CONTROL
  | SEC_DEBUG
  | SEC_DEVICE_ID
  | SEC_GUEST_STATUS
  | SEC_GUEST_LIMITS
  | SEC_GUEST_WIN_BASE
  | SEC_GUEST_WIN_LIMIT
  | HUB_ID
  | HUB_SHAPE
  | HUB_L2P_ROW
  | HUB_L2P_STACK
  | CD_ID
  | MPD_REV
  | PCI_EVENT_COUNT
  deriving DecidableEq, Repr

/-- A named field of a register. -/
structure RField where
  reg : Reg
  hi : Nat
  lo : Nat
  deriving DecidableEq, Repr

abbrev F.CORE_ID_valid : RField := ⟨.CORE_ID, 26, 26⟩
abbrev F.CORE_ID_core_in_cluster : RField := ⟨.CORE_ID, 25, 23⟩
abbrev F.CORE_ID_cluster : RField := ⟨.CORE_ID, 22, 22⟩
abbrev F.CORE_ID_logical_die : RField := ⟨.CORE_ID, 21, 16⟩
abbrev F.CORE_ID_logical_core : RField := ⟨.CORE_ID, 9, 0⟩
abbrev F.CORE_STATUS_posts_outstanding : RField := ⟨.CORE_STATUS, 12, 8⟩
abbrev F.CORE_STATUS_loop_depth : RField := ⟨.CORE_STATUS, 7, 5⟩
abbrev F.CORE_STATUS_spec_pending : RField := ⟨.CORE_STATUS, 4, 4⟩
abbrev F.CORE_STATUS_double_trap : RField := ⟨.CORE_STATUS, 3, 3⟩
abbrev F.CORE_STATUS_mode : RField := ⟨.CORE_STATUS, 2, 2⟩
abbrev F.CORE_STATUS_halted : RField := ⟨.CORE_STATUS, 1, 1⟩
abbrev F.CORE_STATUS_running : RField := ⟨.CORE_STATUS, 0, 0⟩
abbrev F.CORE_CONTROL_abort_queues : RField := ⟨.CORE_CONTROL, 19, 19⟩
abbrev F.CORE_CONTROL_attention : RField := ⟨.CORE_CONTROL, 18, 18⟩
abbrev F.CORE_CONTROL_halt_req : RField := ⟨.CORE_CONTROL, 17, 17⟩
abbrev F.CORE_CONTROL_start : RField := ⟨.CORE_CONTROL, 16, 16⟩
abbrev F.CORE_CONTROL_clear_state : RField := ⟨.CORE_CONTROL, 15, 15⟩
abbrev F.CORE_CONTROL_start_pc : RField := ⟨.CORE_CONTROL, 14, 0⟩
abbrev F.CORE_TRAP_VECTOR_vector : RField := ⟨.CORE_TRAP_VECTOR, 14, 0⟩
abbrev F.CORE_TRAP_PC_pc : RField := ⟨.CORE_TRAP_PC, 14, 0⟩
abbrev F.CORE_TRAP_CAUSE_prev_mode : RField := ⟨.CORE_TRAP_CAUSE, 9, 9⟩
abbrev F.CORE_TRAP_CAUSE_async : RField := ⟨.CORE_TRAP_CAUSE, 8, 8⟩
abbrev F.CORE_TRAP_CAUSE_cause : RField := ⟨.CORE_TRAP_CAUSE, 7, 0⟩
abbrev F.CORE_TRAP_INFO_info : RField := ⟨.CORE_TRAP_INFO, 63, 0⟩
abbrev F.CORE_TRAP_PENDING_pending : RField := ⟨.CORE_TRAP_PENDING, 31, 0⟩
abbrev F.CORE_CYCLE_cycle : RField := ⟨.CORE_CYCLE, 63, 0⟩
abbrev F.CORE_ISSUE_SEQ_seq : RField := ⟨.CORE_ISSUE_SEQ, 63, 0⟩
abbrev F.CORE_MISPREDICT_COUNT_count : RField := ⟨.CORE_MISPREDICT_COUNT, 31, 0⟩
abbrev F.CORE_WAIT_LIMIT_limit : RField := ⟨.CORE_WAIT_LIMIT, 39, 0⟩
abbrev F.CORE_TOKEN_STATUS_overflow : RField := ⟨.CORE_TOKEN_STATUS, 31, 0⟩
abbrev F.CORE_ISSUE_CONTROL_spec_enable : RField := ⟨.CORE_ISSUE_CONTROL, 1, 1⟩
abbrev F.CORE_ISSUE_CONTROL_predict_enable : RField := ⟨.CORE_ISSUE_CONTROL, 0, 0⟩
abbrev F.CORE_TOKEN_value : RField := ⟨.CORE_TOKEN, 31, 0⟩
abbrev F.CORE_GRP_STATUS_passes : RField := ⟨.CORE_GRP_STATUS, 63, 48⟩
abbrev F.CORE_GRP_STATUS_poison : RField := ⟨.CORE_GRP_STATUS, 15, 15⟩
abbrev F.CORE_GRP_STATUS_out_sat : RField := ⟨.CORE_GRP_STATUS, 14, 14⟩
abbrev F.CORE_GRP_STATUS_overflow : RField := ⟨.CORE_GRP_STATUS, 13, 13⟩
abbrev F.CORE_GRP_STATUS_fresh : RField := ⟨.CORE_GRP_STATUS, 12, 12⟩
abbrev F.CORE_GRP_STATUS_position : RField := ⟨.CORE_GRP_STATUS, 11, 10⟩
abbrev F.CORE_GRP_STATUS_kind : RField := ⟨.CORE_GRP_STATUS, 6, 4⟩
abbrev F.CORE_GRP_STATUS_state : RField := ⟨.CORE_GRP_STATUS, 2, 0⟩
abbrev F.CORE_MX_STATUS_queue_depth : RField := ⟨.CORE_MX_STATUS, 23, 20⟩
abbrev F.CORE_MX_STATUS_spec_copy : RField := ⟨.CORE_MX_STATUS, 17, 17⟩
abbrev F.CORE_MX_STATUS_busy : RField := ⟨.CORE_MX_STATUS, 16, 16⟩
abbrev F.CORE_MX_STATUS_p1_active : RField := ⟨.CORE_MX_STATUS, 13, 13⟩
abbrev F.CORE_MX_STATUS_p1_valid : RField := ⟨.CORE_MX_STATUS, 12, 12⟩
abbrev F.CORE_MX_STATUS_p1_gid : RField := ⟨.CORE_MX_STATUS, 11, 8⟩
abbrev F.CORE_MX_STATUS_p0_active : RField := ⟨.CORE_MX_STATUS, 5, 5⟩
abbrev F.CORE_MX_STATUS_p0_valid : RField := ⟨.CORE_MX_STATUS, 4, 4⟩
abbrev F.CORE_MX_STATUS_p0_gid : RField := ⟨.CORE_MX_STATUS, 3, 0⟩
abbrev F.CORE_MX_BUSY_cycles : RField := ⟨.CORE_MX_BUSY, 63, 0⟩
abbrev F.CORE_MX_STALL_cycles : RField := ⟨.CORE_MX_STALL, 63, 0⟩
abbrev F.CORE_MX_CONTROL_log_enable : RField := ⟨.CORE_MX_CONTROL, 0, 0⟩
abbrev F.CORE_PMAP_enable : RField := ⟨.CORE_PMAP, 63, 63⟩
abbrev F.CORE_PMAP_class : RField := ⟨.CORE_PMAP, 49, 48⟩
abbrev F.CORE_PMAP_last_row : RField := ⟨.CORE_PMAP, 25, 16⟩
abbrev F.CORE_PMAP_first_row : RField := ⟨.CORE_PMAP, 9, 0⟩
abbrev F.CORE_SP_ERR_ce_count : RField := ⟨.CORE_SP_ERR, 63, 48⟩
abbrev F.CORE_SP_ERR_uc_count : RField := ⟨.CORE_SP_ERR, 47, 40⟩
abbrev F.CORE_SP_ERR_last_class : RField := ⟨.CORE_SP_ERR, 23, 23⟩
abbrev F.CORE_SP_ERR_last_uc : RField := ⟨.CORE_SP_ERR, 22, 22⟩
abbrev F.CORE_SP_ERR_last_offset : RField := ⟨.CORE_SP_ERR, 21, 0⟩
abbrev F.CORE_SP_STATUS_starve_grants : RField := ⟨.CORE_SP_STATUS, 63, 32⟩
abbrev F.CORE_SP_STATUS_rmw_count : RField := ⟨.CORE_SP_STATUS, 31, 0⟩
abbrev F.CORE_DMA_STATUS_staging_used : RField := ⟨.CORE_DMA_STATUS, 32, 14⟩
abbrev F.CORE_DMA_STATUS_queue_depth : RField := ⟨.CORE_DMA_STATUS, 8, 4⟩
abbrev F.CORE_DMA_STATUS_busy : RField := ⟨.CORE_DMA_STATUS, 0, 0⟩
abbrev F.CORE_DMA_BYTES_bytes : RField := ⟨.CORE_DMA_BYTES, 63, 0⟩
abbrev F.CD_CMEM_PART_kv_mib : RField := ⟨.CD_CMEM_PART, 15, 8⟩
abbrev F.CD_CMEM_PART_refused : RField := ⟨.CD_CMEM_PART, 7, 7⟩
abbrev F.CD_CMEM_PART_rc_mib : RField := ⟨.CD_CMEM_PART, 6, 0⟩
abbrev F.CD_RC_EPOCH_clearing : RField := ⟨.CD_RC_EPOCH, 17, 17⟩
abbrev F.CD_RC_EPOCH_advance : RField := ⟨.CD_RC_EPOCH, 16, 16⟩
abbrev F.CD_RC_EPOCH_epoch : RField := ⟨.CD_RC_EPOCH, 15, 0⟩
abbrev F.CD_RC_STATS_misses : RField := ⟨.CD_RC_STATS, 63, 40⟩
abbrev F.CD_RC_STATS_hits : RField := ⟨.CD_RC_STATS, 39, 16⟩
abbrev F.CD_RC_STATS_line_uc : RField := ⟨.CD_RC_STATS, 15, 8⟩
abbrev F.CD_RC_STATS_line_ce : RField := ⟨.CD_RC_STATS, 7, 0⟩
abbrev F.CD_CMEM_ERR_ce_count : RField := ⟨.CD_CMEM_ERR, 63, 48⟩
abbrev F.CD_CMEM_ERR_uc_count : RField := ⟨.CD_CMEM_ERR, 47, 40⟩
abbrev F.CD_CMEM_ERR_last_uc : RField := ⟨.CD_CMEM_ERR, 28, 28⟩
abbrev F.CD_CMEM_ERR_last_offset : RField := ⟨.CD_CMEM_ERR, 26, 0⟩
abbrev F.CD_CMEM_SCRUB_enable : RField := ⟨.CD_CMEM_SCRUB, 32, 32⟩
abbrev F.CD_CMEM_SCRUB_interval : RField := ⟨.CD_CMEM_SCRUB, 31, 0⟩
abbrev F.CD_CMEM_PMAP_enable : RField := ⟨.CD_CMEM_PMAP, 63, 63⟩
abbrev F.CD_CMEM_PMAP_class : RField := ⟨.CD_CMEM_PMAP, 49, 48⟩
abbrev F.CD_CMEM_PMAP_last_unit : RField := ⟨.CD_CMEM_PMAP, 26, 16⟩
abbrev F.CD_CMEM_PMAP_first_unit : RField := ⟨.CD_CMEM_PMAP, 10, 0⟩
abbrev F.CD_RC_WBASE_enable : RField := ⟨.CD_RC_WBASE, 63, 63⟩
abbrev F.CD_RC_WBASE_base : RField := ⟨.CD_RC_WBASE, 55, 12⟩
abbrev F.CD_RC_WLIMIT_limit : RField := ⟨.CD_RC_WLIMIT, 55, 12⟩
abbrev F.MPD_ID_valid : RField := ⟨.MPD_ID, 32, 32⟩
abbrev F.MPD_ID_logical_stack : RField := ⟨.MPD_ID, 25, 20⟩
abbrev F.MPD_ID_phys_col : RField := ⟨.MPD_ID, 15, 12⟩
abbrev F.MPD_ID_phys_strip : RField := ⟨.MPD_ID, 11, 10⟩
abbrev F.MPD_ID_height : RField := ⟨.MPD_ID, 7, 6⟩
abbrev F.MPD_ID_capacity_gib : RField := ⟨.MPD_ID, 5, 0⟩
abbrev F.MPD_HBM_CONFIG_rfm_enable : RField := ⟨.MPD_HBM_CONFIG, 8, 8⟩
abbrev F.MPD_HBM_CONFIG_refresh_mode : RField := ⟨.MPD_HBM_CONFIG, 5, 4⟩
abbrev F.MPD_HBM_CONFIG_data_rate : RField := ⟨.MPD_HBM_CONFIG, 1, 0⟩
abbrev F.MPD_HBM_STATUS_temp_c : RField := ⟨.MPD_HBM_STATUS, 23, 16⟩
abbrev F.MPD_HBM_STATUS_over_temp : RField := ⟨.MPD_HBM_STATUS, 10, 10⟩
abbrev F.MPD_HBM_STATUS_throttle_req : RField := ⟨.MPD_HBM_STATUS, 9, 9⟩
abbrev F.MPD_HBM_STATUS_refresh_x2 : RField := ⟨.MPD_HBM_STATUS, 8, 8⟩
abbrev F.MPD_HBM_STATUS_state : RField := ⟨.MPD_HBM_STATUS, 2, 0⟩
abbrev F.MPD_ERR_ce_count : RField := ⟨.MPD_ERR, 63, 48⟩
abbrev F.MPD_ERR_uc_count : RField := ⟨.MPD_ERR, 47, 40⟩
abbrev F.MPD_ERR_last_uc : RField := ⟨.MPD_ERR, 31, 31⟩
abbrev F.MPD_ERR_last_block : RField := ⟨.MPD_ERR, 29, 0⟩
abbrev F.MPD_SCRUB_enable : RField := ⟨.MPD_SCRUB, 63, 63⟩
abbrev F.MPD_SCRUB_passes : RField := ⟨.MPD_SCRUB, 39, 8⟩
abbrev F.MPD_SCRUB_words_per_refi : RField := ⟨.MPD_SCRUB, 7, 0⟩
abbrev F.MPD_ECS_ecs_total : RField := ⟨.MPD_ECS, 31, 0⟩
abbrev F.MPD_TPE_CONTROL_mode : RField := ⟨.MPD_TPE_CONTROL, 1, 1⟩
abbrev F.MPD_TPE_CONTROL_start : RField := ⟨.MPD_TPE_CONTROL, 0, 0⟩
abbrev F.MPD_TPE_RESULT_last_element : RField := ⟨.MPD_TPE_RESULT, 47, 40⟩
abbrev F.MPD_TPE_RESULT_rows_repaired : RField := ⟨.MPD_TPE_RESULT, 31, 16⟩
abbrev F.MPD_TPE_RESULT_repair_left_min : RField := ⟨.MPD_TPE_RESULT, 15, 8⟩
abbrev F.MPD_TPE_RESULT_result : RField := ⟨.MPD_TPE_RESULT, 1, 0⟩
abbrev F.MPD_TEMP_LIMITS_shutdown_c : RField := ⟨.MPD_TEMP_LIMITS, 23, 16⟩
abbrev F.MPD_TEMP_LIMITS_throttle_c : RField := ⟨.MPD_TEMP_LIMITS, 15, 8⟩
abbrev F.MPD_TEMP_LIMITS_refresh_x2_c : RField := ⟨.MPD_TEMP_LIMITS, 7, 0⟩
abbrev F.HUB_HBM_REGION_CFG_enable : RField := ⟨.HUB_HBM_REGION_CFG, 63, 63⟩
abbrev F.HUB_HBM_REGION_CFG_mode : RField := ⟨.HUB_HBM_REGION_CFG, 49, 48⟩
abbrev F.HUB_HBM_REGION_CFG_strip : RField := ⟨.HUB_HBM_REGION_CFG, 41, 40⟩
abbrev F.HUB_HBM_REGION_CFG_stacks : RField := ⟨.HUB_HBM_REGION_CFG, 39, 32⟩
abbrev F.HUB_HBM_REGION_CFG_stack_base_gib : RField := ⟨.HUB_HBM_REGION_CFG, 21, 16⟩
abbrev F.HUB_HBM_REGION_CFG_stack_gib : RField := ⟨.HUB_HBM_REGION_CFG, 5, 0⟩
abbrev F.HUB_HBM_REGION_BASE_pa_base : RField := ⟨.HUB_HBM_REGION_BASE, 55, 0⟩
abbrev F.HUB_HBM_MAP_CONTROL_apply : RField := ⟨.HUB_HBM_MAP_CONTROL, 16, 16⟩
abbrev F.HUB_HBM_MAP_CONTROL_error : RField := ⟨.HUB_HBM_MAP_CONTROL, 7, 4⟩
abbrev F.HUB_HBM_MAP_CONTROL_defaulted : RField := ⟨.HUB_HBM_MAP_CONTROL, 2, 2⟩
abbrev F.HUB_HBM_MAP_CONTROL_busy : RField := ⟨.HUB_HBM_MAP_CONTROL, 1, 1⟩
abbrev F.HUB_HBM_MAP_CONTROL_applied : RField := ⟨.HUB_HBM_MAP_CONTROL, 0, 0⟩
abbrev F.PNW_ROUTE_valid : RField := ⟨.PNW_ROUTE, 63, 63⟩
abbrev F.PNW_ROUTE_vc_up : RField := ⟨.PNW_ROUTE, 4, 4⟩
abbrev F.PNW_ROUTE_port : RField := ⟨.PNW_ROUTE, 3, 0⟩
abbrev F.PNW_ROUTE_SHADOW_entry : RField := ⟨.PNW_ROUTE_SHADOW, 63, 0⟩
abbrev F.PNW_MC_ENTRY_valid : RField := ⟨.PNW_MC_ENTRY, 63, 63⟩
abbrev F.PNW_MC_ENTRY_vc_up : RField := ⟨.PNW_MC_ENTRY, 17, 17⟩
abbrev F.PNW_MC_ENTRY_local : RField := ⟨.PNW_MC_ENTRY, 16, 16⟩
abbrev F.PNW_MC_ENTRY_ports : RField := ⟨.PNW_MC_ENTRY, 15, 0⟩
abbrev F.PNW_PORT_STATUS_crc_discards : RField := ⟨.PNW_PORT_STATUS, 63, 48⟩
abbrev F.PNW_PORT_STATUS_late_responses : RField := ⟨.PNW_PORT_STATUS, 47, 32⟩
abbrev F.PNW_PORT_STATUS_lanes_repaired : RField := ⟨.PNW_PORT_STATUS, 31, 24⟩
abbrev F.PNW_PORT_STATUS_rate : RField := ⟨.PNW_PORT_STATUS, 3, 2⟩
abbrev F.PNW_PORT_STATUS_seam : RField := ⟨.PNW_PORT_STATUS, 1, 1⟩
abbrev F.PNW_PORT_STATUS_link_up : RField := ⟨.PNW_PORT_STATUS, 0, 0⟩
abbrev F.PNW_POOL_STATUS_empty : RField := ⟨.PNW_POOL_STATUS, 49, 49⟩
abbrev F.PNW_POOL_STATUS_paused : RField := ⟨.PNW_POOL_STATUS, 48, 48⟩
abbrev F.PNW_POOL_STATUS_high_water : RField := ⟨.PNW_POOL_STATUS, 47, 32⟩
abbrev F.PNW_POOL_STATUS_mc_held : RField := ⟨.PNW_POOL_STATUS, 31, 16⟩
abbrev F.PNW_POOL_STATUS_used : RField := ⟨.PNW_POOL_STATUS, 15, 0⟩
abbrev F.PNW_CONFIG_mc_hold_us : RField := ⟨.PNW_CONFIG, 29, 16⟩
abbrev F.PNW_CONFIG_timeout_us : RField := ⟨.PNW_CONFIG, 13, 0⟩
abbrev F.PNW_DRAIN_STATUS_drains : RField := ⟨.PNW_DRAIN_STATUS, 63, 32⟩
abbrev F.PNW_DRAIN_STATUS_last_discards : RField := ⟨.PNW_DRAIN_STATUS, 31, 16⟩
abbrev F.PNW_DRAIN_STATUS_last_pause_us : RField := ⟨.PNW_DRAIN_STATUS, 15, 8⟩
abbrev F.PNW_DRAIN_STATUS_in_progress : RField := ⟨.PNW_DRAIN_STATUS, 0, 0⟩
abbrev F.PNW_MC_DEF_dies : RField := ⟨.PNW_MC_DEF, 63, 0⟩
abbrev F.PNW_MC_UNIT_enable : RField := ⟨.PNW_MC_UNIT, 63, 63⟩
abbrev F.PNW_MC_UNIT_members : RField := ⟨.PNW_MC_UNIT, 26, 20⟩
abbrev F.PNW_MC_UNIT_unit_kind : RField := ⟨.PNW_MC_UNIT, 19, 18⟩
abbrev F.PNW_MC_UNIT_unit_mask : RField := ⟨.PNW_MC_UNIT, 17, 0⟩
abbrev F.PNW_MC_CONTROL_group : RField := ⟨.PNW_MC_CONTROL, 21, 16⟩
abbrev F.PNW_MC_CONTROL_apply : RField := ⟨.PNW_MC_CONTROL, 8, 8⟩
abbrev F.PNW_MC_CONTROL_error : RField := ⟨.PNW_MC_CONTROL, 1, 1⟩
abbrev F.PNW_MC_CONTROL_busy : RField := ⟨.PNW_MC_CONTROL, 0, 0⟩
abbrev F.PNW_TOPO_entry3 : RField := ⟨.PNW_TOPO, 63, 48⟩
abbrev F.PNW_TOPO_entry2 : RField := ⟨.PNW_TOPO, 47, 32⟩
abbrev F.PNW_TOPO_entry1 : RField := ⟨.PNW_TOPO, 31, 16⟩
abbrev F.PNW_TOPO_entry0 : RField := ⟨.PNW_TOPO, 15, 0⟩
abbrev F.ACC_CONTROL_timeout_us : RField := ⟨.ACC_CONTROL, 16, 0⟩
abbrev F.ACC_ERR_mismatches : RField := ⟨.ACC_ERR, 63, 48⟩
abbrev F.ACC_ERR_incompletes : RField := ⟨.ACC_ERR, 47, 32⟩
abbrev F.ACC_ERR_busy_drops : RField := ⟨.ACC_ERR, 31, 16⟩
abbrev F.ACC_ERR_last_slot : RField := ⟨.ACC_ERR, 15, 10⟩
abbrev F.ACC_ERR_delivery_error : RField := ⟨.ACC_ERR, 2, 2⟩
abbrev F.ACC_ERR_busy_write : RField := ⟨.ACC_ERR, 1, 1⟩
abbrev F.ACC_ERR_desc_error : RField := ⟨.ACC_ERR, 0, 0⟩
abbrev F.ACC_SLOT_STATUS_packets : RField := ⟨.ACC_SLOT_STATUS, 63, 44⟩
abbrev F.ACC_SLOT_STATUS_family : RField := ⟨.ACC_SLOT_STATUS, 7, 7⟩
abbrev F.ACC_SLOT_STATUS_poison : RField := ⟨.ACC_SLOT_STATUS, 6, 6⟩
abbrev F.ACC_SLOT_STATUS_out_sat : RField := ⟨.ACC_SLOT_STATUS, 5, 5⟩
abbrev F.ACC_SLOT_STATUS_overflow : RField := ⟨.ACC_SLOT_STATUS, 4, 4⟩
abbrev F.ACC_SLOT_STATUS_state : RField := ⟨.ACC_SLOT_STATUS, 2, 0⟩
abbrev F.ACC_DESC_word : RField := ⟨.ACC_DESC, 63, 0⟩
abbrev F.RQE_CONTROL_takeover : RField := ⟨.RQE_CONTROL, 7, 7⟩
abbrev F.RQE_CONTROL_drain : RField := ⟨.RQE_CONTROL, 6, 6⟩
abbrev F.RQE_CONTROL_retry : RField := ⟨.RQE_CONTROL, 5, 5⟩
abbrev F.RQE_CONTROL_enable : RField := ⟨.RQE_CONTROL, 0, 0⟩
abbrev F.RQE_STATUS_contexts_in_use : RField := ⟨.RQE_STATUS, 48, 32⟩
abbrev F.RQE_STATUS_config_error : RField := ⟨.RQE_STATUS, 27, 24⟩
abbrev F.RQE_STATUS_attempt : RField := ⟨.RQE_STATUS, 23, 16⟩
abbrev F.RQE_STATUS_cold_wait : RField := ⟨.RQE_STATUS, 11, 11⟩
abbrev F.RQE_STATUS_partner_wait : RField := ⟨.RQE_STATUS, 10, 10⟩
abbrev F.RQE_STATUS_journal_wait : RField := ⟨.RQE_STATUS, 9, 9⟩
abbrev F.RQE_STATUS_running : RField := ⟨.RQE_STATUS, 8, 8⟩
abbrev F.RQE_STATUS_role : RField := ⟨.RQE_STATUS, 2, 0⟩
abbrev F.RQE_STEP_service_epoch : RField := ⟨.RQE_STEP, 63, 48⟩
abbrev F.RQE_STEP_committed : RField := ⟨.RQE_STEP, 47, 0⟩
abbrev F.RQE_BATCH_max_skip : RField := ⟨.RQE_BATCH, 55, 49⟩
abbrev F.RQE_BATCH_chunk_tokens : RField := ⟨.RQE_BATCH, 48, 36⟩
abbrev F.RQE_BATCH_token_budget : RField := ⟨.RQE_BATCH, 35, 16⟩
abbrev F.RQE_BATCH_max_seqs : RField := ⟨.RQE_BATCH, 12, 0⟩
abbrev F.RQE_PRIO_admit_enable : RField := ⟨.RQE_PRIO, 8, 8⟩
abbrev F.RQE_PRIO_draft_cap : RField := ⟨.RQE_PRIO, 2, 0⟩
abbrev F.RQE_KV_BASE_base : RField := ⟨.RQE_KV_BASE, 55, 18⟩
abbrev F.RQE_KV_CONFIG_reserve : RField := ⟨.RQE_KV_CONFIG, 62, 40⟩
abbrev F.RQE_KV_CONFIG_ppg : RField := ⟨.RQE_KV_CONFIG, 37, 32⟩
abbrev F.RQE_KV_CONFIG_tpg_log2 : RField := ⟨.RQE_KV_CONFIG, 31, 28⟩
abbrev F.RQE_KV_CONFIG_pages : RField := ⟨.RQE_KV_CONFIG, 22, 0⟩
abbrev F.RQE_KV_FREE_low_water : RField := ⟨.RQE_KV_FREE, 54, 32⟩
abbrev F.RQE_KV_FREE_free : RField := ⟨.RQE_KV_FREE, 22, 0⟩
abbrev F.RQE_STATE_CONFIG_state_base : RField := ⟨.RQE_STATE_CONFIG, 55, 12⟩
abbrev F.RQE_STATE_CONFIG_max_pages_log2 : RField := ⟨.RQE_STATE_CONFIG, 4, 0⟩
abbrev F.RQE_MBOX_CONFIG_rc_advance : RField := ⟨.RQE_MBOX_CONFIG, 40, 40⟩
abbrev F.RQE_MBOX_CONFIG_start_counter : RField := ⟨.RQE_MBOX_CONFIG, 34, 30⟩
abbrev F.RQE_MBOX_CONFIG_start_group : RField := ⟨.RQE_MBOX_CONFIG, 29, 24⟩
abbrev F.RQE_MBOX_CONFIG_desc_group : RField := ⟨.RQE_MBOX_CONFIG, 21, 16⟩
abbrev F.RQE_MBOX_CONFIG_mbox_mib : RField := ⟨.RQE_MBOX_CONFIG, 6, 0⟩
abbrev F.RQE_STEP_CONFIG_max_retries : RField := ⟨.RQE_STEP_CONFIG, 63, 60⟩
abbrev F.RQE_STEP_CONFIG_cold_lag : RField := ⟨.RQE_STEP_CONFIG, 59, 56⟩
abbrev F.RQE_STEP_CONFIG_step_timeout_us : RField := ⟨.RQE_STEP_CONFIG, 55, 32⟩
abbrev F.RQE_STEP_CONFIG_poll_ns : RField := ⟨.RQE_STEP_CONFIG, 31, 16⟩
abbrev F.RQE_STEP_CONFIG_result_cluster : RField := ⟨.RQE_STEP_CONFIG, 6, 6⟩
abbrev F.RQE_STEP_CONFIG_result_die : RField := ⟨.RQE_STEP_CONFIG, 5, 0⟩
abbrev F.RQE_STBY_STATUS_in_sync : RField := ⟨.RQE_STBY_STATUS, 63, 63⟩
abbrev F.RQE_STBY_STATUS_missed_heartbeats : RField := ⟨.RQE_STBY_STATUS, 55, 48⟩
abbrev F.RQE_STBY_STATUS_journaled_step : RField := ⟨.RQE_STBY_STATUS, 47, 0⟩
abbrev F.RQE_COUNTS_preemptions : RField := ⟨.RQE_COUNTS, 63, 32⟩
abbrev F.RQE_COUNTS_retries : RField := ⟨.RQE_COUNTS, 31, 0⟩
abbrev F.RQE_ILOG_BASE_base : RField := ⟨.RQE_ILOG_BASE, 55, 12⟩
abbrev F.RQE_ILOG_CONFIG_size_mib : RField := ⟨.RQE_ILOG_CONFIG, 47, 32⟩
abbrev F.RQE_ILOG_CONFIG_commit_digest : RField := ⟨.RQE_ILOG_CONFIG, 2, 2⟩
abbrev F.RQE_ILOG_CONFIG_require_stream : RField := ⟨.RQE_ILOG_CONFIG, 1, 1⟩
abbrev F.RQE_ILOG_CONFIG_stream_enable : RField := ⟨.RQE_ILOG_CONFIG, 0, 0⟩
abbrev F.RQE_ILOG_SEQ_next_seq : RField := ⟨.RQE_ILOG_SEQ, 47, 0⟩
abbrev F.RQE_ILOG_STATUS_tail_unit : RField := ⟨.RQE_ILOG_STATUS, 33, 4⟩
abbrev F.RQE_ILOG_STATUS_area_error : RField := ⟨.RQE_ILOG_STATUS, 3, 3⟩
abbrev F.RQE_ILOG_STATUS_wrapped : RField := ⟨.RQE_ILOG_STATUS, 2, 2⟩
abbrev F.RQE_ILOG_STATUS_stream_wait : RField := ⟨.RQE_ILOG_STATUS, 1, 1⟩
abbrev F.RQE_ILOG_STATUS_recording : RField := ⟨.RQE_ILOG_STATUS, 0, 0⟩
abbrev F.RQE_ILOG_STREAM_consumed_seq : RField := ⟨.RQE_ILOG_STREAM, 47, 0⟩
abbrev F.RQE_REPLAY_CONTROL_stop_step : RField := ⟨.RQE_REPLAY_CONTROL, 48, 1⟩
abbrev F.RQE_REPLAY_CONTROL_replay : RField := ⟨.RQE_REPLAY_CONTROL, 0, 0⟩
abbrev F.RQE_REPLAY_STATUS_diverged_step : RField := ⟨.RQE_REPLAY_STATUS, 63, 16⟩
abbrev F.RQE_REPLAY_STATUS_error : RField := ⟨.RQE_REPLAY_STATUS, 7, 4⟩
abbrev F.RQE_REPLAY_STATUS_cross_build : RField := ⟨.RQE_REPLAY_STATUS, 3, 3⟩
abbrev F.RQE_REPLAY_STATUS_done : RField := ⟨.RQE_REPLAY_STATUS, 2, 2⟩
abbrev F.RQE_REPLAY_STATUS_diverged : RField := ⟨.RQE_REPLAY_STATUS, 1, 1⟩
abbrev F.RQE_REPLAY_STATUS_active : RField := ⟨.RQE_REPLAY_STATUS, 0, 0⟩
abbrev F.HUB_DET_POLICY_fixative_only : RField := ⟨.HUB_DET_POLICY, 1, 1⟩
abbrev F.HUB_DET_POLICY_ordered_only : RField := ⟨.HUB_DET_POLICY, 0, 0⟩
abbrev F.HUB_BAR_DIES_dies : RField := ⟨.HUB_BAR_DIES, 63, 0⟩
abbrev F.HUB_BAR_CORES_cores : RField := ⟨.HUB_BAR_CORES, 15, 0⟩
abbrev F.HUB_BAR_EXT_enable : RField := ⟨.HUB_BAR_EXT, 63, 63⟩
abbrev F.HUB_BAR_EXT_root : RField := ⟨.HUB_BAR_EXT, 62, 62⟩
abbrev F.HUB_BAR_EXT_root_coord : RField := ⟨.HUB_BAR_EXT, 61, 50⟩
abbrev F.HUB_BAR_EXT_panels : RField := ⟨.HUB_BAR_EXT, 49, 38⟩
abbrev F.HUB_BAR_EXT_delay_cycles : RField := ⟨.HUB_BAR_EXT, 15, 0⟩
abbrev F.HUB_BAR_STATUS_generation : RField := ⟨.HUB_BAR_STATUS, 63, 48⟩
abbrev F.HUB_BAR_STATUS_members : RField := ⟨.HUB_BAR_STATUS, 47, 37⟩
abbrev F.HUB_BAR_STATUS_arrived : RField := ⟨.HUB_BAR_STATUS, 36, 26⟩
abbrev F.HUB_BAR_STATUS_ext_wait : RField := ⟨.HUB_BAR_STATUS, 2, 2⟩
abbrev F.HUB_BAR_STATUS_aborted : RField := ⟨.HUB_BAR_STATUS, 1, 1⟩
abbrev F.HUB_BAR_STATUS_applied : RField := ⟨.HUB_BAR_STATUS, 0, 0⟩
abbrev F.HUB_BAR_CONTROL_ext_timeout_us : RField := ⟨.HUB_BAR_CONTROL, 63, 32⟩
abbrev F.HUB_BAR_CONTROL_channel : RField := ⟨.HUB_BAR_CONTROL, 11, 8⟩
abbrev F.HUB_BAR_CONTROL_error : RField := ⟨.HUB_BAR_CONTROL, 2, 2⟩
abbrev F.HUB_BAR_CONTROL_abort : RField := ⟨.HUB_BAR_CONTROL, 1, 1⟩
abbrev F.HUB_BAR_CONTROL_apply : RField := ⟨.HUB_BAR_CONTROL, 0, 0⟩
abbrev F.CLK_ISLAND_changes : RField := ⟨.CLK_ISLAND, 63, 48⟩
abbrev F.CLK_ISLAND_stretch_events : RField := ⟨.CLK_ISLAND, 47, 32⟩
abbrev F.CLK_ISLAND_alarm_hold : RField := ⟨.CLK_ISLAND, 16, 16⟩
abbrev F.CLK_ISLAND_stopped : RField := ⟨.CLK_ISLAND, 15, 15⟩
abbrev F.CLK_ISLAND_stretch : RField := ⟨.CLK_ISLAND, 14, 12⟩
abbrev F.CLK_ISLAND_current : RField := ⟨.CLK_ISLAND, 10, 8⟩
abbrev F.CLK_ISLAND_ceiling : RField := ⟨.CLK_ISLAND, 6, 4⟩
abbrev F.CLK_ISLAND_point : RField := ⟨.CLK_ISLAND, 2, 0⟩
abbrev F.CLK_MARGIN_alarms : RField := ⟨.CLK_MARGIN, 63, 48⟩
abbrev F.CLK_MARGIN_warns : RField := ⟨.CLK_MARGIN, 47, 32⟩
abbrev F.CLK_MARGIN_baseline : RField := ⟨.CLK_MARGIN, 29, 24⟩
abbrev F.CLK_MARGIN_low : RField := ⟨.CLK_MARGIN, 21, 16⟩
abbrev F.CLK_MARGIN_now : RField := ⟨.CLK_MARGIN, 5, 0⟩
abbrev F.CLK_MARGIN_LIMITS_warn : RField := ⟨.CLK_MARGIN_LIMITS, 13, 8⟩
abbrev F.CLK_MARGIN_LIMITS_alarm : RField := ⟨.CLK_MARGIN_LIMITS, 5, 0⟩
abbrev F.PWR_ZONE_STATUS_vin_dv : RField := ⟨.PWR_ZONE_STATUS, 63, 52⟩
abbrev F.PWR_ZONE_STATUS_thermal_offs : RField := ⟨.PWR_ZONE_STATUS, 47, 40⟩
abbrev F.PWR_ZONE_STATUS_temp_c : RField := ⟨.PWR_ZONE_STATUS, 39, 32⟩
abbrev F.PWR_ZONE_STATUS_input_w : RField := ⟨.PWR_ZONE_STATUS, 31, 16⟩
abbrev F.PWR_ZONE_STATUS_ceiling : RField := ⟨.PWR_ZONE_STATUS, 10, 8⟩
abbrev F.PWR_ZONE_STATUS_state : RField := ⟨.PWR_ZONE_STATUS, 2, 0⟩
abbrev F.PWR_ZONE_CONTROL_max_point : RField := ⟨.PWR_ZONE_CONTROL, 2, 0⟩
abbrev F.PWR_THERM_LIMITS_trip_c : RField := ⟨.PWR_THERM_LIMITS, 23, 16⟩
abbrev F.PWR_THERM_LIMITS_shutdown_c : RField := ⟨.PWR_THERM_LIMITS, 15, 8⟩
abbrev F.PWR_THERM_LIMITS_throttle_c : RField := ⟨.PWR_THERM_LIMITS, 7, 0⟩
abbrev F.PWR_PANEL_cap_active : RField := ⟨.PWR_PANEL, 48, 48⟩
abbrev F.PWR_PANEL_cap_w : RField := ⟨.PWR_PANEL, 47, 32⟩
abbrev F.PWR_PANEL_input_w : RField := ⟨.PWR_PANEL, 15, 0⟩
abbrev F.PWR_TOKEN_STATUS_grants : RField := ⟨.PWR_TOKEN_STATUS, 63, 32⟩
abbrev F.PWR_TOKEN_STATUS_pending : RField := ⟨.PWR_TOKEN_STATUS, 27, 16⟩
abbrev F.PWR_TOKEN_STATUS_alternate : RField := ⟨.PWR_TOKEN_STATUS, 8, 8⟩
abbrev F.PWR_TOKEN_STATUS_last : RField := ⟨.PWR_TOKEN_STATUS, 7, 4⟩
abbrev F.PWR_TOKEN_STATUS_busy : RField := ⟨.PWR_TOKEN_STATUS, 0, 0⟩
abbrev F.PMC_STAGE_bringups : RField := ⟨.PMC_STAGE, 63, 48⟩
abbrev F.PMC_STAGE_restarts : RField := ⟨.PMC_STAGE, 39, 32⟩
abbrev F.PMC_STAGE_failed_stage : RField := ⟨.PMC_STAGE, 11, 8⟩
abbrev F.PMC_STAGE_state : RField := ⟨.PMC_STAGE, 5, 4⟩
abbrev F.PMC_STAGE_stage : RField := ⟨.PMC_STAGE, 3, 0⟩
abbrev F.PMC_BRINGUP_CONTROL_refused : RField := ⟨.PMC_BRINGUP_CONTROL, 63, 63⟩
abbrev F.PMC_BRINGUP_CONTROL_ffl_entry : RField := ⟨.PMC_BRINGUP_CONTROL, 42, 32⟩
abbrev F.PMC_BRINGUP_CONTROL_ffl_clear : RField := ⟨.PMC_BRINGUP_CONTROL, 17, 17⟩
abbrev F.PMC_BRINGUP_CONTROL_retry : RField := ⟨.PMC_BRINGUP_CONTROL, 16, 16⟩
abbrev F.PMC_BRINGUP_CONTROL_retry_from : RField := ⟨.PMC_BRINGUP_CONTROL, 3, 0⟩
abbrev F.PMC_FLACON_STATUS_version : RField := ⟨.PMC_FLACON_STATUS, 63, 32⟩
abbrev F.PMC_FLACON_STATUS_behaviour_level : RField := ⟨.PMC_FLACON_STATUS, 31, 24⟩
abbrev F.PMC_FLACON_STATUS_copy : RField := ⟨.PMC_FLACON_STATUS, 4, 4⟩
abbrev F.PMC_FLACON_STATUS_copy_b : RField := ⟨.PMC_FLACON_STATUS, 3, 2⟩
abbrev F.PMC_FLACON_STATUS_copy_a : RField := ⟨.PMC_FLACON_STATUS, 1, 0⟩
abbrev F.PMC_FLACON_SEQ_sequence : RField := ⟨.PMC_FLACON_SEQ, 63, 0⟩
abbrev F.PMC_FFL_STATUS_entries : RField := ⟨.PMC_FFL_STATUS, 42, 32⟩
abbrev F.PMC_FFL_STATUS_bank_valid_b : RField := ⟨.PMC_FFL_STATUS, 1, 1⟩
abbrev F.PMC_FFL_STATUS_bank_valid_a : RField := ⟨.PMC_FFL_STATUS, 0, 0⟩
abbrev F.PMC_REPORT_word : RField := ⟨.PMC_REPORT, 63, 0⟩
abbrev F.PMC_ERR_STATUS_storm : RField := ⟨.PMC_ERR_STATUS, 48, 48⟩
abbrev F.PMC_ERR_STATUS_lost : RField := ⟨.PMC_ERR_STATUS, 47, 32⟩
abbrev F.PMC_ERR_STATUS_escalations : RField := ⟨.PMC_ERR_STATUS, 23, 16⟩
abbrev F.PMC_ERR_STATUS_queue_depth : RField := ⟨.PMC_ERR_STATUS, 8, 0⟩
abbrev F.PMC_LOG_HEAD_next_slot : RField := ⟨.PMC_LOG_HEAD, 43, 32⟩
abbrev F.PMC_LOG_HEAD_next_seq : RField := ⟨.PMC_LOG_HEAD, 31, 0⟩
abbrev F.PMC_WATCHDOG_trips : RField := ⟨.PMC_WATCHDOG, 63, 48⟩
abbrev F.PMC_WATCHDOG_timeout_ms : RField := ⟨.PMC_WATCHDOG, 15, 0⟩
abbrev F.PMC_SERVICE_CONTROL_refused : RField := ⟨.PMC_SERVICE_CONTROL, 63, 63⟩
abbrev F.PMC_SERVICE_CONTROL_restart_stage : RField := ⟨.PMC_SERVICE_CONTROL, 11, 8⟩
abbrev F.PMC_SERVICE_CONTROL_restart : RField := ⟨.PMC_SERVICE_CONTROL, 2, 2⟩
abbrev F.PMC_SERVICE_CONTROL_return : RField := ⟨.PMC_SERVICE_CONTROL, 1, 1⟩
abbrev F.PMC_SERVICE_CONTROL_drydown : RField := ⟨.PMC_SERVICE_CONTROL, 0, 0⟩
abbrev F.PMC_HEALTH_predicts : RField := ⟨.PMC_HEALTH, 63, 32⟩
abbrev F.PMC_HEALTH_margins : RField := ⟨.PMC_HEALTH, 8, 0⟩
abbrev F.PMC_PREDICT_LIMITS_ce_rate : RField := ⟨.PMC_PREDICT_LIMITS, 47, 32⟩
abbrev F.PMC_PREDICT_LIMITS_repair_left : RField := ⟨.PMC_PREDICT_LIMITS, 23, 16⟩
abbrev F.PMC_PREDICT_LIMITS_optical_margin : RField := ⟨.PMC_PREDICT_LIMITS, 15, 8⟩
abbrev F.PMC_PREDICT_LIMITS_margin_drop : RField := ⟨.PMC_PREDICT_LIMITS, 7, 0⟩
abbrev F.PMC_LOG_word : RField := ⟨.PMC_LOG, 63, 0⟩
abbrev F.MIR_CONFIG_partner_coord : RField := ⟨.MIR_CONFIG, 63, 52⟩
abbrev F.MIR_CONFIG_ack_timeout_us : RField := ⟨.MIR_CONFIG, 47, 32⟩
abbrev F.MIR_CONFIG_failure_domain : RField := ⟨.MIR_CONFIG, 23, 16⟩
abbrev F.MIR_CONFIG_auto_return : RField := ⟨.MIR_CONFIG, 2, 2⟩
abbrev F.MIR_CONFIG_on_loss : RField := ⟨.MIR_CONFIG, 1, 1⟩
abbrev F.MIR_CONFIG_enable : RField := ⟨.MIR_CONFIG, 0, 0⟩
abbrev F.MIR_GUEST_PAGES_count : RField := ⟨.MIR_GUEST_PAGES, 54, 32⟩
abbrev F.MIR_GUEST_PAGES_first : RField := ⟨.MIR_GUEST_PAGES, 22, 0⟩
abbrev F.MIR_REGION_enable : RField := ⟨.MIR_REGION, 63, 63⟩
abbrev F.MIR_REGION_base : RField := ⟨.MIR_REGION, 55, 20⟩
abbrev F.MIR_REGION_size_mib : RField := ⟨.MIR_REGION, 19, 0⟩
abbrev F.MIR_GUEST_WIN_enable : RField := ⟨.MIR_GUEST_WIN, 63, 63⟩
abbrev F.MIR_GUEST_WIN_base : RField := ⟨.MIR_GUEST_WIN, 55, 20⟩
abbrev F.MIR_GUEST_WIN_size_mib : RField := ⟨.MIR_GUEST_WIN, 19, 0⟩
abbrev F.MIR_STATUS_acked_step : RField := ⟨.MIR_STATUS, 63, 16⟩
abbrev F.MIR_STATUS_refuse_reason : RField := ⟨.MIR_STATUS, 11, 8⟩
abbrev F.MIR_STATUS_hosting : RField := ⟨.MIR_STATUS, 5, 5⟩
abbrev F.MIR_STATUS_commits_wait : RField := ⟨.MIR_STATUS, 4, 4⟩
abbrev F.MIR_STATUS_state : RField := ⟨.MIR_STATUS, 2, 0⟩
abbrev F.MIR_COUNTS_mirrored_mib : RField := ⟨.MIR_COUNTS, 63, 32⟩
abbrev F.MIR_COUNTS_poison_repairs : RField := ⟨.MIR_COUNTS, 31, 16⟩
abbrev F.MIR_COUNTS_handoffs_out : RField := ⟨.MIR_COUNTS, 15, 8⟩
abbrev F.MIR_COUNTS_handoffs_in : RField := ⟨.MIR_COUNTS, 7, 0⟩
abbrev F.HJF_COORD_valid : RField := ⟨.HJF_COORD, 63, 63⟩
abbrev F.HJF_COORD_coord : RField := ⟨.HJF_COORD, 11, 0⟩
abbrev F.HJF_CONFIG_accept_post : RField := ⟨.HJF_CONFIG, 45, 45⟩
abbrev F.HJF_CONFIG_reissue_enable : RField := ⟨.HJF_CONFIG, 44, 44⟩
abbrev F.HJF_CONFIG_poll_ns : RField := ⟨.HJF_CONFIG, 43, 32⟩
abbrev F.HJF_CONFIG_max_age_us : RField := ⟨.HJF_CONFIG, 31, 16⟩
abbrev F.HJF_CONFIG_timeout_us : RField := ⟨.HJF_CONFIG, 15, 0⟩
abbrev F.HJF_SILLAGE_min_rate : RField := ⟨.HJF_SILLAGE, 55, 48⟩
abbrev F.HJF_SILLAGE_recover_us : RField := ⟨.HJF_SILLAGE, 47, 32⟩
abbrev F.HJF_SILLAGE_add_step : RField := ⟨.HJF_SILLAGE, 31, 24⟩
abbrev F.HJF_SILLAGE_dec_shift : RField := ⟨.HJF_SILLAGE, 19, 16⟩
abbrev F.HJF_SILLAGE_mark_kib : RField := ⟨.HJF_SILLAGE, 15, 0⟩
abbrev F.HJF_CONTROL_forward_only : RField := ⟨.HJF_CONTROL, 12, 12⟩
abbrev F.HJF_CONTROL_domain_state : RField := ⟨.HJF_CONTROL, 11, 10⟩
abbrev F.HJF_CONTROL_route_error : RField := ⟨.HJF_CONTROL, 9, 9⟩
abbrev F.HJF_CONTROL_route_busy : RField := ⟨.HJF_CONTROL, 8, 8⟩
abbrev F.HJF_CONTROL_detach : RField := ⟨.HJF_CONTROL, 1, 1⟩
abbrev F.HJF_CONTROL_apply_routes : RField := ⟨.HJF_CONTROL, 0, 0⟩
abbrev F.HJF_PORT_STATUS_fec_uncorrected : RField := ⟨.HJF_PORT_STATUS, 63, 48⟩
abbrev F.HJF_PORT_STATUS_discards : RField := ⟨.HJF_PORT_STATUS, 47, 32⟩
abbrev F.HJF_PORT_STATUS_neighbour : RField := ⟨.HJF_PORT_STATUS, 31, 20⟩
abbrev F.HJF_PORT_STATUS_neighbour_port : RField := ⟨.HJF_PORT_STATUS, 19, 16⟩
abbrev F.HJF_PORT_STATUS_width : RField := ⟨.HJF_PORT_STATUS, 5, 4⟩
abbrev F.HJF_PORT_STATUS_state : RField := ⟨.HJF_PORT_STATUS, 3, 2⟩
abbrev F.HJF_PORT_STATUS_link_up : RField := ⟨.HJF_PORT_STATUS, 0, 0⟩
abbrev F.HJF_ROUTE_shadow_vc_up : RField := ⟨.HJF_ROUTE, 17, 17⟩
abbrev F.HJF_ROUTE_shadow_ports : RField := ⟨.HJF_ROUTE, 16, 9⟩
abbrev F.HJF_ROUTE_vc_up : RField := ⟨.HJF_ROUTE, 8, 8⟩
abbrev F.HJF_ROUTE_ports : RField := ⟨.HJF_ROUTE, 7, 0⟩
abbrev F.HJF_POOL_STATUS_age_discards : RField := ⟨.HJF_POOL_STATUS, 63, 48⟩
abbrev F.HJF_POOL_STATUS_high_water : RField := ⟨.HJF_POOL_STATUS, 47, 30⟩
abbrev F.HJF_POOL_STATUS_used : RField := ⟨.HJF_POOL_STATUS, 17, 0⟩
abbrev F.HJF_FQ_CONFIG_enable : RField := ⟨.HJF_FQ_CONFIG, 63, 63⟩
abbrev F.HJF_FQ_CONFIG_poll : RField := ⟨.HJF_FQ_CONFIG, 62, 62⟩
abbrev F.HJF_FQ_CONFIG_size_log2 : RField := ⟨.HJF_FQ_CONFIG, 61, 58⟩
abbrev F.HJF_FQ_CONFIG_base : RField := ⟨.HJF_FQ_CONFIG, 55, 6⟩
abbrev F.HJF_FQ_INDEX_failed : RField := ⟨.HJF_FQ_INDEX, 48, 48⟩
abbrev F.HJF_FQ_INDEX_consumer : RField := ⟨.HJF_FQ_INDEX, 47, 32⟩
abbrev F.HJF_FQ_INDEX_producer : RField := ⟨.HJF_FQ_INDEX, 15, 0⟩
abbrev F.HJF_EXPORT_enable : RField := ⟨.HJF_EXPORT, 63, 63⟩
abbrev F.HJF_EXPORT_write : RField := ⟨.HJF_EXPORT, 62, 62⟩
abbrev F.HJF_EXPORT_base : RField := ⟨.HJF_EXPORT, 55, 21⟩
abbrev F.HJF_EXPORT_size_mib : RField := ⟨.HJF_EXPORT, 19, 0⟩
abbrev F.HJF_BAR_CAL_calibrations : RField := ⟨.HJF_BAR_CAL, 63, 48⟩
abbrev F.HJF_BAR_CAL_late_releases : RField := ⟨.HJF_BAR_CAL, 47, 32⟩
abbrev F.HJF_BAR_CAL_delay_frac : RField := ⟨.HJF_BAR_CAL, 4, 0⟩
abbrev F.HJF_RANK_valid : RField := ⟨.HJF_RANK, 63, 63⟩
abbrev F.HJF_RANK_coord : RField := ⟨.HJF_RANK, 18, 7⟩
abbrev F.HJF_RANK_node : RField := ⟨.HJF_RANK, 6, 0⟩
abbrev F.PCI_PORT_STATUS_lease_denied : RField := ⟨.PCI_PORT_STATUS, 63, 48⟩
abbrev F.PCI_PORT_STATUS_link_resets : RField := ⟨.PCI_PORT_STATUS, 47, 32⟩
abbrev F.PCI_PORT_STATUS_width : RField := ⟨.PCI_PORT_STATUS, 10, 8⟩
abbrev F.PCI_PORT_STATUS_speed : RField := ⟨.PCI_PORT_STATUS, 7, 5⟩
abbrev F.PCI_PORT_STATUS_bus_master : RField := ⟨.PCI_PORT_STATUS, 1, 1⟩
abbrev F.PCI_PORT_STATUS_link_up : RField := ⟨.PCI_PORT_STATUS, 0, 0⟩
abbrev F.PCI_LEASE_transfers : RField := ⟨.PCI_LEASE, 63, 48⟩
abbrev F.PCI_LEASE_remaining_ms : RField := ⟨.PCI_LEASE, 41, 32⟩
abbrev F.PCI_LEASE_holder : RField := ⟨.PCI_LEASE, 9, 8⟩
abbrev F.PCI_LEASE_release : RField := ⟨.PCI_LEASE, 2, 2⟩
abbrev F.PCI_LEASE_renew : RField := ⟨.PCI_LEASE, 1, 1⟩
abbrev F.PCI_LEASE_acquire : RField := ⟨.PCI_LEASE, 0, 0⟩
abbrev F.PCI_BAR2_BASE_base : RField := ⟨.PCI_BAR2_BASE, 55, 36⟩
abbrev F.PCI_CSTORE_host_lost : RField := ⟨.PCI_CSTORE, 63, 63⟩
abbrev F.PCI_CSTORE_cq_wait : RField := ⟨.PCI_CSTORE, 62, 62⟩
abbrev F.PCI_CSTORE_held : RField := ⟨.PCI_CSTORE, 49, 32⟩
abbrev F.PCI_CSTORE_host_loss_ms : RField := ⟨.PCI_CSTORE, 15, 0⟩
abbrev F.PCI_IMPORT_CQ_host : RField := ⟨.PCI_IMPORT_CQ, 8, 8⟩
abbrev F.PCI_IMPORT_CQ_cq : RField := ⟨.PCI_IMPORT_CQ, 5, 0⟩
abbrev F.PCI_REGION_BASE_enable : RField := ⟨.PCI_REGION_BASE, 63, 63⟩
abbrev F.PCI_REGION_BASE_kind : RField := ⟨.PCI_REGION_BASE, 62, 62⟩
abbrev F.PCI_REGION_BASE_base : RField := ⟨.PCI_REGION_BASE, 45, 0⟩
abbrev F.PCI_REGION_SIZE_units : RField := ⟨.PCI_REGION_SIZE, 31, 0⟩
abbrev F.PCI_SQ_BASE_enable : RField := ⟨.PCI_SQ_BASE, 63, 63⟩
abbrev F.PCI_SQ_BASE_size_log2 : RField := ⟨.PCI_SQ_BASE, 62, 59⟩
abbrev F.PCI_SQ_BASE_base : RField := ⟨.PCI_SQ_BASE, 51, 0⟩
abbrev F.PCI_SQ_TAIL_head : RField := ⟨.PCI_SQ_TAIL, 31, 16⟩
abbrev F.PCI_SQ_TAIL_tail : RField := ⟨.PCI_SQ_TAIL, 15, 0⟩
abbrev F.PCI_CQ_BASE_enable : RField := ⟨.PCI_CQ_BASE, 63, 63⟩
abbrev F.PCI_CQ_BASE_size_log2 : RField := ⟨.PCI_CQ_BASE, 62, 59⟩
abbrev F.PCI_CQ_BASE_base : RField := ⟨.PCI_CQ_BASE, 51, 0⟩
abbrev F.PCI_CQ_HEAD_vector : RField := ⟨.PCI_CQ_HEAD, 58, 48⟩
abbrev F.PCI_CQ_HEAD_tail : RField := ⟨.PCI_CQ_HEAD, 47, 32⟩
abbrev F.PCI_CQ_HEAD_head : RField := ⟨.PCI_CQ_HEAD, 15, 0⟩
abbrev F.SEC_STATUS_debug_open : RField := ⟨.SEC_STATUS, 35, 32⟩
abbrev F.SEC_STATUS_debug_ever : RField := ⟨.SEC_STATUS, 31, 28⟩
abbrev F.SEC_STATUS_flacon_floor : RField := ⟨.SEC_STATUS, 27, 20⟩
abbrev F.SEC_STATUS_fw_floor : RField := ⟨.SEC_STATUS, 19, 14⟩
abbrev F.SEC_STATUS_owner_slots : RField := ⟨.SEC_STATUS, 13, 6⟩
abbrev F.SEC_STATUS_attestation_ready : RField := ⟨.SEC_STATUS, 2, 2⟩
abbrev F.SEC_STATUS_entropy_ok : RField := ⟨.SEC_STATUS, 1, 1⟩
abbrev F.SEC_STATUS_fuses_equal : RField := ⟨.SEC_STATUS, 0, 0⟩
abbrev F.SEC_NONCE_nonce : RField := ⟨.SEC_NONCE, 63, 0⟩
abbrev F.SEC_CMD_word : RField := ⟨.SEC_CMD, 63, 0⟩
abbrev F.SEC_CMD_CONTROL_last_command : RField := ⟨.SEC_CMD_CONTROL, 15, 8⟩
abbrev F.SEC_CMD_CONTROL_result : RField := ⟨.SEC_CMD_CONTROL, 7, 4⟩
abbrev F.SEC_CMD_CONTROL_busy : RField := ⟨.SEC_CMD_CONTROL, 1, 1⟩
abbrev F.SEC_CMD_CONTROL_submit : RField := ⟨.SEC_CMD_CONTROL, 0, 0⟩
abbrev F.SEC_DEBUG_relock : RField := ⟨.SEC_DEBUG, 40, 40⟩
abbrev F.SEC_DEBUG_remaining_ms : RField := ⟨.SEC_DEBUG, 21, 0⟩
abbrev F.SEC_DEVICE_ID_id : RField := ⟨.SEC_DEVICE_ID, 63, 0⟩
abbrev F.SEC_GUEST_STATUS_denials : RField := ⟨.SEC_GUEST_STATUS, 63, 48⟩
abbrev F.SEC_GUEST_STATUS_refuse_reason : RField := ⟨.SEC_GUEST_STATUS, 11, 8⟩
abbrev F.SEC_GUEST_STATUS_width : RField := ⟨.SEC_GUEST_STATUS, 7, 6⟩
abbrev F.SEC_GUEST_STATUS_state : RField := ⟨.SEC_GUEST_STATUS, 2, 0⟩
abbrev F.SEC_GUEST_LIMITS_post_hi : RField := ⟨.SEC_GUEST_LIMITS, 30, 26⟩
abbrev F.SEC_GUEST_LIMITS_post_lo : RField := ⟨.SEC_GUEST_LIMITS, 25, 21⟩
abbrev F.SEC_GUEST_LIMITS_post_enable : RField := ⟨.SEC_GUEST_LIMITS, 20, 20⟩
abbrev F.SEC_GUEST_LIMITS_rate_gbs : RField := ⟨.SEC_GUEST_LIMITS, 5, 0⟩
abbrev F.SEC_GUEST_WIN_BASE_enable : RField := ⟨.SEC_GUEST_WIN_BASE, 63, 63⟩
abbrev F.SEC_GUEST_WIN_BASE_read : RField := ⟨.SEC_GUEST_WIN_BASE, 62, 62⟩
abbrev F.SEC_GUEST_WIN_BASE_write : RField := ⟨.SEC_GUEST_WIN_BASE, 61, 61⟩
abbrev F.SEC_GUEST_WIN_BASE_base : RField := ⟨.SEC_GUEST_WIN_BASE, 55, 12⟩
abbrev F.SEC_GUEST_WIN_LIMIT_limit : RField := ⟨.SEC_GUEST_WIN_LIMIT, 55, 12⟩
abbrev F.HUB_ID_part : RField := ⟨.HUB_ID, 63, 48⟩
abbrev F.HUB_ID_grade : RField := ⟨.HUB_ID, 39, 36⟩
abbrev F.HUB_ID_stepping : RField := ⟨.HUB_ID, 35, 32⟩
abbrev F.HUB_ID_levels : RField := ⟨.HUB_ID, 31, 24⟩
abbrev F.HUB_ID_pinned_level : RField := ⟨.HUB_ID, 23, 16⟩
abbrev F.HUB_ID_hub : RField := ⟨.HUB_ID, 1, 0⟩
abbrev F.HUB_SHAPE_valid : RField := ⟨.HUB_SHAPE, 63, 63⟩
abbrev F.HUB_SHAPE_selections : RField := ⟨.HUB_SHAPE, 47, 32⟩
abbrev F.HUB_SHAPE_working_stacks : RField := ⟨.HUB_SHAPE, 25, 20⟩
abbrev F.HUB_SHAPE_row_pairs : RField := ⟨.HUB_SHAPE, 19, 16⟩
abbrev F.HUB_SHAPE_logical_rows : RField := ⟨.HUB_SHAPE, 15, 12⟩
abbrev F.HUB_SHAPE_logical_cores : RField := ⟨.HUB_SHAPE, 10, 0⟩
abbrev F.HUB_L2P_ROW_valid : RField := ⟨.HUB_L2P_ROW, 63, 63⟩
abbrev F.HUB_L2P_ROW_phys_row : RField := ⟨.HUB_L2P_ROW, 35, 32⟩
abbrev F.HUB_L2P_ROW_cols : RField := ⟨.HUB_L2P_ROW, 31, 0⟩
abbrev F.HUB_L2P_STACK_valid : RField := ⟨.HUB_L2P_STACK, 63, 56⟩
abbrev F.HUB_L2P_STACK_sites : RField := ⟨.HUB_L2P_STACK, 47, 0⟩
abbrev F.CD_ID_levels : RField := ⟨.CD_ID, 55, 48⟩
abbrev F.CD_ID_stepping : RField := ⟨.CD_ID, 43, 40⟩
abbrev F.CD_ID_spare_c1 : RField := ⟨.CD_ID, 39, 36⟩
abbrev F.CD_ID_spare_c0 : RField := ⟨.CD_ID, 35, 32⟩
abbrev F.CD_ID_valid : RField := ⟨.CD_ID, 6, 6⟩
abbrev F.CD_ID_logical_die : RField := ⟨.CD_ID, 5, 0⟩
abbrev F.MPD_REV_levels : RField := ⟨.MPD_REV, 55, 48⟩
abbrev F.MPD_REV_stepping : RField := ⟨.MPD_REV, 43, 40⟩
abbrev F.PCI_EVENT_COUNT_uf_records : RField := ⟨.PCI_EVENT_COUNT, 63, 48⟩
abbrev F.PCI_EVENT_COUNT_pf_records : RField := ⟨.PCI_EVENT_COUNT, 47, 40⟩
abbrev F.PCI_EVENT_COUNT_stage_changes : RField := ⟨.PCI_EVENT_COUNT, 39, 32⟩
abbrev F.PCI_EVENT_COUNT_lease_changes : RField := ⟨.PCI_EVENT_COUNT, 31, 24⟩
abbrev F.PCI_EVENT_COUNT_host_lost : RField := ⟨.PCI_EVENT_COUNT, 23, 16⟩
abbrev F.PCI_EVENT_COUNT_sent : RField := ⟨.PCI_EVENT_COUNT, 15, 0⟩

/-- Block, offset, strides, place, sharing and reset value of each register. -/
def Reg.info : Reg → RegInfo
  | .CORE_ID => ⟨.core, 0x0, 1, 0x8, 1, 0x8, .every, .own, false, 0x0#64⟩
  | .CORE_STATUS => ⟨.core, 0x8, 1, 0x8, 1, 0x8, .every, .own, false, 0x6#64⟩
  | .CORE_CONTROL => ⟨.core, 0x10, 1, 0x8, 1, 0x8, .every, .own, true, 0x0#64⟩
  | .CORE_TRAP_VECTOR => ⟨.core, 0x18, 1, 0x8, 1, 0x8, .every, .own, true, 0x0#64⟩
  | .CORE_TRAP_PC => ⟨.core, 0x20, 1, 0x8, 1, 0x8, .every, .own, true, 0x0#64⟩
  | .CORE_TRAP_CAUSE => ⟨.core, 0x28, 1, 0x8, 1, 0x8, .every, .own, true, 0x200#64⟩
  | .CORE_TRAP_INFO => ⟨.core, 0x30, 1, 0x8, 1, 0x8, .every, .own, true, 0x0#64⟩
  | .CORE_TRAP_PENDING => ⟨.core, 0x38, 1, 0x8, 1, 0x8, .every, .own, true, 0x0#64⟩
  | .CORE_CYCLE => ⟨.core, 0x40, 1, 0x8, 1, 0x8, .every, .own, false, 0x0#64⟩
  | .CORE_ISSUE_SEQ => ⟨.core, 0x48, 1, 0x8, 1, 0x8, .every, .own, false, 0x0#64⟩
  | .CORE_MISPREDICT_COUNT => ⟨.core, 0x50, 1, 0x8, 1, 0x8, .every, .own, false, 0x0#64⟩
  | .CORE_WAIT_LIMIT => ⟨.core, 0x58, 1, 0x8, 1, 0x8, .every, .own, true, 0x10000000#64⟩
  | .CORE_TOKEN_STATUS => ⟨.core, 0x60, 1, 0x8, 1, 0x8, .every, .own, false, 0x0#64⟩
  | .CORE_ISSUE_CONTROL => ⟨.core, 0x68, 1, 0x8, 1, 0x8, .every, .own, true, 0x3#64⟩
  | .CORE_TOKEN => ⟨.core, 0x100, 32, 0x8, 1, 0x8, .every, .own, false, 0x0#64⟩
  | .CORE_GRP_STATUS => ⟨.core, 0x200, 16, 0x8, 1, 0x8, .every, .own, false, 0x0#64⟩
  | .CORE_MX_STATUS => ⟨.core, 0x280, 1, 0x8, 1, 0x8, .every, .own, false, 0x0#64⟩
  | .CORE_MX_BUSY => ⟨.core, 0x288, 1, 0x8, 1, 0x8, .every, .own, false, 0x0#64⟩
  | .CORE_MX_STALL => ⟨.core, 0x290, 1, 0x8, 1, 0x8, .every, .own, false, 0x0#64⟩
  | .CORE_MX_CONTROL => ⟨.core, 0x298, 1, 0x8, 1, 0x8, .every, .own, true, 0x1#64⟩
  | .CORE_PMAP => ⟨.core, 0x300, 16, 0x8, 1, 0x8, .every, .own, true, 0x2000000000000#64⟩
  | .CORE_SP_ERR => ⟨.core, 0x380, 1, 0x8, 1, 0x8, .every, .own, false, 0x0#64⟩
  | .CORE_SP_STATUS => ⟨.core, 0x388, 1, 0x8, 1, 0x8, .every, .own, false, 0x0#64⟩
  | .CORE_DMA_STATUS => ⟨.core, 0x390, 1, 0x8, 1, 0x8, .every, .own, false, 0x0#64⟩
  | .CORE_DMA_BYTES => ⟨.core, 0x398, 1, 0x8, 1, 0x8, .every, .own, false, 0x0#64⟩
  | .CD_CMEM_PART => ⟨.cd, 0x2000, 2, 0x800, 1, 0x8, .every, .own, false, 0x0#64⟩
  | .CD_RC_EPOCH => ⟨.cd, 0x2008, 2, 0x800, 1, 0x8, .every, .own, false, 0x0#64⟩
  | .CD_RC_STATS => ⟨.cd, 0x2010, 2, 0x800, 1, 0x8, .every, .own, false, 0x0#64⟩
  | .CD_CMEM_ERR => ⟨.cd, 0x2018, 2, 0x800, 1, 0x8, .every, .own, false, 0x0#64⟩
  | .CD_CMEM_SCRUB => ⟨.cd, 0x2020, 2, 0x800, 1, 0x8, .every, .own, false, 0x1000#64⟩
  | .CD_CMEM_PMAP => ⟨.cd, 0x2100, 2, 0x800, 16, 0x8, .every, .own, false, 0x2000000000000#64⟩
  | .CD_RC_WBASE => ⟨.cd, 0x2200, 2, 0x800, 8, 0x10, .every, .own, false, 0x0#64⟩
  | .CD_RC_WLIMIT => ⟨.cd, 0x2208, 2, 0x800, 8, 0x10, .every, .own, false, 0x0#64⟩
  | .MPD_ID => ⟨.mpd, 0x0, 1, 0x8, 1, 0x8, .every, .own, false, 0x0#64⟩
  | .MPD_HBM_CONFIG => ⟨.mpd, 0x8, 1, 0x8, 1, 0x8, .every, .own, false, 0x0#64⟩
  | .MPD_HBM_STATUS => ⟨.mpd, 0x10, 1, 0x8, 1, 0x8, .every, .own, false, 0x0#64⟩
  | .MPD_ERR => ⟨.mpd, 0x18, 1, 0x8, 1, 0x8, .every, .own, false, 0x0#64⟩
  | .MPD_SCRUB => ⟨.mpd, 0x20, 1, 0x8, 1, 0x8, .every, .own, false, 0x1#64⟩
  | .MPD_ECS => ⟨.mpd, 0x28, 1, 0x8, 1, 0x8, .every, .own, false, 0x0#64⟩
  | .MPD_TPE_CONTROL => ⟨.mpd, 0x30, 1, 0x8, 1, 0x8, .every, .own, false, 0x0#64⟩
  | .MPD_TPE_RESULT => ⟨.mpd, 0x38, 1, 0x8, 1, 0x8, .every, .own, false, 0x0#64⟩
  | .MPD_TEMP_LIMITS => ⟨.mpd, 0x40, 1, 0x8, 1, 0x8, .every, .own, false, 0x0#64⟩
  | .HUB_HBM_REGION_CFG => ⟨.hub, 0x4000, 16, 0x10, 1, 0x8, .hd03, .pair, false, 0x0#64⟩
  | .HUB_HBM_REGION_BASE => ⟨.hub, 0x4008, 16, 0x10, 1, 0x8, .hd03, .pair, false, 0x0#64⟩
  | .HUB_HBM_MAP_CONTROL => ⟨.hub, 0x4100, 1, 0x8, 1, 0x8, .hd03, .pair, false, 0x0#64⟩
  | .PNW_ROUTE => ⟨.pnw, 0x0, 128, 0x8, 1, 0x8, .every, .own, false, 0xF#64⟩
  | .PNW_ROUTE_SHADOW => ⟨.pnw, 0x400, 128, 0x8, 1, 0x8, .every, .own, false, 0x0#64⟩
  | .PNW_MC_ENTRY => ⟨.pnw, 0x800, 64, 0x8, 1, 0x8, .every, .own, false, 0x0#64⟩
  | .PNW_PORT_STATUS => ⟨.pnw, 0xA00, 15, 0x8, 1, 0x8, .every, .own, false, 0x0#64⟩
  | .PNW_POOL_STATUS => ⟨.pnw, 0xA80, 1, 0x8, 1, 0x8, .every, .own, false, 0x2000000000000#64⟩
  | .PNW_CONFIG => ⟨.pnw, 0xC00, 1, 0x8, 1, 0x8, .hd03, .pair, false, 0x400014#64⟩
  | .PNW_DRAIN_STATUS => ⟨.pnw, 0xC08, 1, 0x8, 1, 0x8, .hd03, .pair, false, 0x0#64⟩
  | .PNW_MC_DEF => ⟨.pnw, 0xE00, 64, 0x10, 1, 0x8, .hd03, .pair, false, 0x0#64⟩
  | .PNW_MC_UNIT => ⟨.pnw, 0xE08, 64, 0x10, 1, 0x8, .hd03, .pair, false, 0x0#64⟩
  | .PNW_MC_CONTROL => ⟨.pnw, 0x1200, 1, 0x8, 1, 0x8, .hd03, .pair, false, 0x0#64⟩
  | .PNW_TOPO => ⟨.pnw, 0x10000, 4096, 0x8, 1, 0x8, .hd03, .pair, false, 0x0#64⟩
  | .ACC_CONTROL => ⟨.acc, 0x0, 1, 0x8, 1, 0x8, .every, .own, false, 0x7D0#64⟩
  | .ACC_ERR => ⟨.acc, 0x8, 1, 0x8, 1, 0x8, .every, .own, false, 0x0#64⟩
  | .ACC_SLOT_STATUS => ⟨.acc, 0x800, 64, 0x8, 1, 0x8, .every, .own, false, 0x0#64⟩
  | .ACC_DESC => ⟨.acc, 0x1000, 64, 0x20, 4, 0x8, .every, .own, false, 0x0#64⟩
  | .RQE_CONTROL => ⟨.rqe, 0x0, 1, 0x8, 1, 0x8, .hd03, .own, false, 0x0#64⟩
  | .RQE_STATUS => ⟨.rqe, 0x8, 1, 0x8, 1, 0x8, .hd03, .own, false, 0x0#64⟩
  | .RQE_STEP => ⟨.rqe, 0x10, 1, 0x8, 1, 0x8, .hd03, .own, false, 0x0#64⟩
  | .RQE_BATCH => ⟨.rqe, 0x18, 1, 0x8, 1, 0x8, .hd03, .pair, false, 0x10200080001000#64⟩
  | .RQE_PRIO => ⟨.rqe, 0x20, 8, 0x8, 1, 0x8, .hd03, .pair, false, 0x107#64⟩
  | .RQE_KV_BASE => ⟨.rqe, 0x60, 1, 0x8, 1, 0x8, .hd03, .pair, false, 0x0#64⟩
  | .RQE_KV_CONFIG => ⟨.rqe, 0x68, 1, 0x8, 1, 0x8, .hd03, .pair, false, 0x0#64⟩
  | .RQE_KV_FREE => ⟨.rqe, 0x70, 1, 0x8, 1, 0x8, .hd03, .own, false, 0x0#64⟩
  | .RQE_STATE_CONFIG => ⟨.rqe, 0x78, 1, 0x8, 1, 0x8, .hd03, .pair, false, 0x0#64⟩
  | .RQE_MBOX_CONFIG => ⟨.rqe, 0x80, 1, 0x8, 1, 0x8, .hd03, .pair, false, 0x10000000000#64⟩
  | .RQE_STEP_CONFIG => ⟨.rqe, 0x88, 1, 0x8, 1, 0x8, .hd03, .pair, false, 0x3207A12007D00000#64⟩
  | .RQE_STBY_STATUS => ⟨.rqe, 0x90, 1, 0x8, 1, 0x8, .hd03, .own, false, 0x0#64⟩
  | .RQE_COUNTS => ⟨.rqe, 0x98, 1, 0x8, 1, 0x8, .hd03, .own, false, 0x0#64⟩
  | .RQE_ILOG_BASE => ⟨.rqe, 0xA0, 1, 0x8, 1, 0x8, .hd03, .pair, false, 0x0#64⟩
  | .RQE_ILOG_CONFIG => ⟨.rqe, 0xA8, 1, 0x8, 1, 0x8, .hd03, .pair, false, 0x100000000000#64⟩
  | .RQE_ILOG_SEQ => ⟨.rqe, 0xB0, 1, 0x8, 1, 0x8, .hd03, .own, false, 0x0#64⟩
  | .RQE_ILOG_STATUS => ⟨.rqe, 0xB8, 1, 0x8, 1, 0x8, .hd03, .own, false, 0x0#64⟩
  | .RQE_ILOG_STREAM => ⟨.rqe, 0xC0, 1, 0x8, 1, 0x8, .hd03, .pair, false, 0x0#64⟩
  | .RQE_REPLAY_CONTROL => ⟨.rqe, 0xC8, 1, 0x8, 1, 0x8, .hd03, .pair, false, 0x0#64⟩
  | .RQE_REPLAY_STATUS => ⟨.rqe, 0xD0, 1, 0x8, 1, 0x8, .hd03, .own, false, 0x0#64⟩
  | .HUB_DET_POLICY => ⟨.hub, 0x4200, 1, 0x8, 1, 0x8, .hd03, .pair, false, 0x0#64⟩
  | .HUB_BAR_DIES => ⟨.hub, 0x4400, 16, 0x20, 1, 0x8, .hd03, .pair, false, 0x0#64⟩
  | .HUB_BAR_CORES => ⟨.hub, 0x4408, 16, 0x20, 1, 0x8, .hd03, .pair, false, 0x0#64⟩
  | .HUB_BAR_EXT => ⟨.hub, 0x4410, 16, 0x20, 1, 0x8, .hd03, .pair, false, 0x0#64⟩
  | .HUB_BAR_STATUS => ⟨.hub, 0x4418, 16, 0x20, 1, 0x8, .hd03, .pair, false, 0x0#64⟩
  | .HUB_BAR_CONTROL => ⟨.hub, 0x4600, 1, 0x8, 1, 0x8, .hd03, .pair, false, 0x3E800000000#64⟩
  | .CLK_ISLAND => ⟨.clk, 0x0, 21, 0x10, 1, 0x8, .every, .own, false, 0x8700#64⟩
  | .CLK_MARGIN => ⟨.clk, 0x8, 21, 0x10, 1, 0x8, .every, .own, false, 0x3F0000#64⟩
  | .CLK_MARGIN_LIMITS => ⟨.clk, 0x200, 1, 0x8, 1, 0x8, .every, .own, false, 0x0#64⟩
  | .PWR_ZONE_STATUS => ⟨.pwr, 0x0, 14, 0x10, 1, 0x8, .hd03, .pair, false, 0x0#64⟩
  | .PWR_ZONE_CONTROL => ⟨.pwr, 0x8, 14, 0x10, 1, 0x8, .hd03, .pair, false, 0x0#64⟩
  | .PWR_THERM_LIMITS => ⟨.pwr, 0x100, 1, 0x8, 1, 0x8, .hd03, .pair, false, 0x0#64⟩
  | .PWR_PANEL => ⟨.pwr, 0x108, 1, 0x8, 1, 0x8, .hd03, .pair, false, 0x0#64⟩
  | .PWR_TOKEN_STATUS => ⟨.pwr, 0x110, 1, 0x8, 1, 0x8, .hd03, .pair, false, 0x0#64⟩
  | .PMC_STAGE => ⟨.pmc, 0x0, 1, 0x8, 1, 0x8, .hd03, .pair, false, 0x0#64⟩
  | .PMC_BRINGUP_CONTROL => ⟨.pmc, 0x8, 1, 0x8, 1, 0x8, .hd03, .pair, false, 0x1#64⟩
  | .PMC_FLACON_STATUS => ⟨.pmc, 0x10, 1, 0x8, 1, 0x8, .hd03, .pair, false, 0x0#64⟩
  | .PMC_FLACON_SEQ => ⟨.pmc, 0x18, 1, 0x8, 1, 0x8, .hd03, .pair, false, 0x0#64⟩
  | .PMC_FFL_STATUS => ⟨.pmc, 0x20, 1, 0x8, 1, 0x8, .hd03, .pair, false, 0x0#64⟩
  | .PMC_REPORT => ⟨.pmc, 0x400, 10, 0x40, 8, 0x8, .hd03, .pair, false, 0x0#64⟩
  | .PMC_ERR_STATUS => ⟨.pmc, 0x800, 1, 0x8, 1, 0x8, .hd03, .pair, false, 0x0#64⟩
  | .PMC_LOG_HEAD => ⟨.pmc, 0x808, 1, 0x8, 1, 0x8, .hd03, .pair, false, 0x0#64⟩
  | .PMC_WATCHDOG => ⟨.pmc, 0x810, 1, 0x8, 1, 0x8, .hd03, .pair, false, 0x64#64⟩
  | .PMC_SERVICE_CONTROL => ⟨.pmc, 0x818, 1, 0x8, 1, 0x8, .hd03, .pair, false, 0x100#64⟩
  | .PMC_HEALTH => ⟨.pmc, 0x820, 1, 0x8, 1, 0x8, .hd03, .pair, false, 0x0#64⟩
  | .PMC_PREDICT_LIMITS => ⟨.pmc, 0x828, 1, 0x8, 1, 0x8, .hd03, .pair, false, 0x3E800011406#64⟩
  | .PMC_LOG => ⟨.pmc, 0x10000, 4096, 0x40, 8, 0x8, .hd03, .pair, false, 0x0#64⟩
  | .MIR_CONFIG => ⟨.mir, 0x0, 1, 0x8, 1, 0x8, .hd03, .pair, false, 0x7D000000004#64⟩
  | .MIR_GUEST_PAGES => ⟨.mir, 0x8, 1, 0x8, 1, 0x8, .hd03, .pair, false, 0x0#64⟩
  | .MIR_REGION => ⟨.mir, 0x100, 4, 0x10, 1, 0x8, .hd03, .pair, false, 0x0#64⟩
  | .MIR_GUEST_WIN => ⟨.mir, 0x108, 4, 0x10, 1, 0x8, .hd03, .pair, false, 0x0#64⟩
  | .MIR_STATUS => ⟨.mir, 0x180, 1, 0x8, 1, 0x8, .hd03, .pair, false, 0x0#64⟩
  | .MIR_COUNTS => ⟨.mir, 0x188, 1, 0x8, 1, 0x8, .hd03, .pair, false, 0x0#64⟩
  | .HJF_COORD => ⟨.hjf, 0x0, 1, 0x8, 1, 0x8, .every, .all, false, 0x0#64⟩
  | .HJF_CONFIG => ⟨.hjf, 0x8, 1, 0x8, 1, 0x8, .every, .all, false, 0x13E8019001F4#64⟩
  | .HJF_SILLAGE => ⟨.hjf, 0x10, 1, 0x8, 1, 0x8, .every, .all, false, 0x1001404030100#64⟩
  | .HJF_CONTROL => ⟨.hjf, 0x18, 1, 0x8, 1, 0x8, .every, .own, false, 0x0#64⟩
  | .HJF_PORT_STATUS => ⟨.hjf, 0x100, 4, 0x8, 1, 0x8, .every, .own, false, 0x0#64⟩
  | .HJF_ROUTE => ⟨.hjf, 0x200, 3, 0x80, 16, 0x8, .every, .zone, false, 0x0#64⟩
  | .HJF_POOL_STATUS => ⟨.hjf, 0x400, 1, 0x8, 1, 0x8, .every, .own, false, 0x0#64⟩
  | .HJF_FQ_CONFIG => ⟨.hjf, 0x500, 8, 0x10, 1, 0x8, .every, .own, false, 0x1000000000000000#64⟩
  | .HJF_FQ_INDEX => ⟨.hjf, 0x508, 8, 0x10, 1, 0x8, .every, .own, false, 0x0#64⟩
  | .HJF_EXPORT => ⟨.hjf, 0x600, 8, 0x8, 1, 0x8, .every, .all, false, 0x0#64⟩
  | .HJF_BAR_CAL => ⟨.hjf, 0x700, 16, 0x8, 1, 0x8, .hd03, .pair, false, 0x0#64⟩
  | .HJF_RANK => ⟨.hjf, 0x1000, 4096, 0x8, 1, 0x8, .every, .all, false, 0x0#64⟩
  | .PCI_PORT_STATUS => ⟨.pci, 0x0, 1, 0x8, 1, 0x8, .hd03, .own, false, 0x0#64⟩
  | .PCI_LEASE => ⟨.pci, 0x8, 1, 0x8, 1, 0x8, .hd03, .pair, false, 0x0#64⟩
  | .PCI_BAR2_BASE => ⟨.pci, 0x10, 1, 0x8, 1, 0x8, .hd03, .own, false, 0x0#64⟩
  | .PCI_CSTORE => ⟨.pci, 0x18, 1, 0x8, 1, 0x8, .hd03, .own, false, 0x1388#64⟩
  | .PCI_IMPORT_CQ => ⟨.pci, 0x20, 1, 0x8, 1, 0x8, .hd03, .pair, false, 0x0#64⟩
  | .PCI_REGION_BASE => ⟨.pci, 0x100, 8, 0x10, 1, 0x8, .hd03, .own, false, 0x0#64⟩
  | .PCI_REGION_SIZE => ⟨.pci, 0x108, 8, 0x10, 1, 0x8, .hd03, .own, false, 0x0#64⟩
  | .PCI_SQ_BASE => ⟨.pci, 0x1000, 64, 0x20, 1, 0x8, .hd03, .own, false, 0x2000000000000000#64⟩
  | .PCI_SQ_TAIL => ⟨.pci, 0x1008, 64, 0x20, 1, 0x8, .hd03, .own, false, 0x0#64⟩
  | .PCI_CQ_BASE => ⟨.pci, 0x1010, 64, 0x20, 1, 0x8, .hd03, .own, false, 0x2000000000000000#64⟩
  | .PCI_CQ_HEAD => ⟨.pci, 0x1018, 64, 0x20, 1, 0x8, .hd03, .own, false, 0x1000000000000#64⟩
  | .SEC_STATUS => ⟨.sec, 0x0, 1, 0x8, 1, 0x8, .hd03, .own, false, 0x0#64⟩
  | .SEC_NONCE => ⟨.sec, 0x40, 6, 0x8, 1, 0x8, .hd03, .own, false, 0x0#64⟩
  | .SEC_CMD => ⟨.sec, 0x100, 64, 0x8, 1, 0x8, .hd03, .own, false, 0x0#64⟩
  | .SEC_CMD_CONTROL => ⟨.sec, 0x300, 1, 0x8, 1, 0x8, .hd03, .own, false, 0x0#64⟩
  | .SEC_DEBUG => ⟨.sec, 0x308, 1, 0x8, 1, 0x8, .hd03, .own, false, 0x0#64⟩
  | .SEC_DEVICE_ID => ⟨.sec, 0x400, 6, 0x8, 1, 0x8, .hd03, .own, false, 0x0#64⟩
  | .SEC_GUEST_STATUS => ⟨.sec, 0x1000, 2, 0x400, 1, 0x8, .hd12, .own, false, 0x0#64⟩
  | .SEC_GUEST_LIMITS => ⟨.sec, 0x1008, 2, 0x400, 1, 0x8, .hd12, .own, false, 0x0#64⟩
  | .SEC_GUEST_WIN_BASE => ⟨.sec, 0x1100, 2, 0x400, 16, 0x10, .hd12, .own, false, 0x0#64⟩
  | .SEC_GUEST_WIN_LIMIT => ⟨.sec, 0x1108, 2, 0x400, 16, 0x10, .hd12, .own, false, 0x0#64⟩
  | .HUB_ID => ⟨.hub, 0x0, 1, 0x8, 1, 0x8, .every, .own, false, 0x0#64⟩
  | .HUB_SHAPE => ⟨.hub, 0x8, 1, 0x8, 1, 0x8, .hd03, .pair, false, 0x0#64⟩
  | .HUB_L2P_ROW => ⟨.hub, 0x40, 8, 0x8, 1, 0x8, .hd03, .pair, false, 0x0#64⟩
  | .HUB_L2P_STACK => ⟨.hub, 0x80, 5, 0x8, 1, 0x8, .hd03, .pair, false, 0x0#64⟩
  | .CD_ID => ⟨.cd, 0x0, 1, 0x8, 1, 0x8, .every, .own, false, 0xFF00000000#64⟩
  | .MPD_REV => ⟨.mpd, 0x48, 1, 0x8, 1, 0x8, .every, .own, false, 0x0#64⟩
  | .PCI_EVENT_COUNT => ⟨.pci, 0x40, 1, 0x8, 1, 0x8, .hd03, .own, false, 0x0#64⟩

/-- The fields of each register; bits of no field are reserved (R12). -/
def Reg.fields : Reg → List FieldSpec
  | .CORE_ID => [⟨⟨26, 26⟩, .ro, .table⟩, ⟨⟨25, 23⟩, .ro, .table⟩, ⟨⟨22, 22⟩, .ro, .table⟩, ⟨⟨21, 16⟩, .ro, .table⟩, ⟨⟨9, 0⟩, .ro, .table⟩]
  | .CORE_STATUS => [⟨⟨12, 8⟩, .ro, .table⟩, ⟨⟨7, 5⟩, .ro, .table⟩, ⟨⟨4, 4⟩, .ro, .table⟩, ⟨⟨3, 3⟩, .ro, .table⟩, ⟨⟨2, 2⟩, .ro, .table⟩, ⟨⟨1, 1⟩, .ro, .table⟩, ⟨⟨0, 0⟩, .ro, .table⟩]
  | .CORE_CONTROL => [⟨⟨19, 19⟩, .wo, .table⟩, ⟨⟨18, 18⟩, .wo, .table⟩, ⟨⟨17, 17⟩, .wo, .table⟩, ⟨⟨16, 16⟩, .wo, .table⟩, ⟨⟨15, 15⟩, .wo, .table⟩, ⟨⟨14, 0⟩, .rw, .table⟩]
  | .CORE_TRAP_VECTOR => [⟨⟨14, 0⟩, .rw, .table⟩]
  | .CORE_TRAP_PC => [⟨⟨14, 0⟩, .rw, .table⟩]
  | .CORE_TRAP_CAUSE => [⟨⟨9, 9⟩, .rw, .table⟩, ⟨⟨8, 8⟩, .rw, .table⟩, ⟨⟨7, 0⟩, .rw, .table⟩]
  | .CORE_TRAP_INFO => [⟨⟨63, 0⟩, .rw, .table⟩]
  | .CORE_TRAP_PENDING => [⟨⟨31, 0⟩, .rw1c, .table⟩]
  | .CORE_CYCLE => [⟨⟨63, 0⟩, .ro, .table⟩]
  | .CORE_ISSUE_SEQ => [⟨⟨63, 0⟩, .ro, .table⟩]
  | .CORE_MISPREDICT_COUNT => [⟨⟨31, 0⟩, .rw, .table⟩]
  | .CORE_WAIT_LIMIT => [⟨⟨39, 0⟩, .rw, .table⟩]
  | .CORE_TOKEN_STATUS => [⟨⟨31, 0⟩, .rw1c, .table⟩]
  | .CORE_ISSUE_CONTROL => [⟨⟨1, 1⟩, .rw, .table⟩, ⟨⟨0, 0⟩, .rw, .table⟩]
  | .CORE_TOKEN => [⟨⟨31, 0⟩, .rw, .table⟩]
  | .CORE_GRP_STATUS => [⟨⟨63, 48⟩, .ro, .table⟩, ⟨⟨15, 15⟩, .ro, .table⟩, ⟨⟨14, 14⟩, .ro, .table⟩, ⟨⟨13, 13⟩, .ro, .table⟩, ⟨⟨12, 12⟩, .ro, .table⟩, ⟨⟨11, 10⟩, .ro, .table⟩, ⟨⟨6, 4⟩, .ro, .table⟩, ⟨⟨2, 0⟩, .ro, .table⟩]
  | .CORE_MX_STATUS => [⟨⟨23, 20⟩, .ro, .table⟩, ⟨⟨17, 17⟩, .ro, .table⟩, ⟨⟨16, 16⟩, .ro, .table⟩, ⟨⟨13, 13⟩, .ro, .table⟩, ⟨⟨12, 12⟩, .ro, .table⟩, ⟨⟨11, 8⟩, .ro, .table⟩, ⟨⟨5, 5⟩, .ro, .table⟩, ⟨⟨4, 4⟩, .ro, .table⟩, ⟨⟨3, 0⟩, .ro, .table⟩]
  | .CORE_MX_BUSY => [⟨⟨63, 0⟩, .ro, .table⟩]
  | .CORE_MX_STALL => [⟨⟨63, 0⟩, .ro, .table⟩]
  | .CORE_MX_CONTROL => [⟨⟨0, 0⟩, .rw, .table⟩]
  | .CORE_PMAP => [⟨⟨63, 63⟩, .rw, .table⟩, ⟨⟨49, 48⟩, .rw, .table⟩, ⟨⟨25, 16⟩, .rw, .table⟩, ⟨⟨9, 0⟩, .rw, .table⟩]
  | .CORE_SP_ERR => [⟨⟨63, 48⟩, .rw1c, .table⟩, ⟨⟨47, 40⟩, .rw1c, .table⟩, ⟨⟨23, 23⟩, .ro, .table⟩, ⟨⟨22, 22⟩, .ro, .table⟩, ⟨⟨21, 0⟩, .ro, .table⟩]
  | .CORE_SP_STATUS => [⟨⟨63, 32⟩, .ro, .table⟩, ⟨⟨31, 0⟩, .ro, .table⟩]
  | .CORE_DMA_STATUS => [⟨⟨32, 14⟩, .ro, .table⟩, ⟨⟨8, 4⟩, .ro, .table⟩, ⟨⟨0, 0⟩, .ro, .table⟩]
  | .CORE_DMA_BYTES => [⟨⟨63, 0⟩, .ro, .table⟩]
  | .CD_CMEM_PART => [⟨⟨15, 8⟩, .rw, .table⟩, ⟨⟨7, 7⟩, .ro, .table⟩, ⟨⟨6, 0⟩, .rw, .table⟩]
  | .CD_RC_EPOCH => [⟨⟨17, 17⟩, .ro, .table⟩, ⟨⟨16, 16⟩, .wo, .table⟩, ⟨⟨15, 0⟩, .ro, .table⟩]
  | .CD_RC_STATS => [⟨⟨63, 40⟩, .ro, .table⟩, ⟨⟨39, 16⟩, .ro, .table⟩, ⟨⟨15, 8⟩, .rw1c, .table⟩, ⟨⟨7, 0⟩, .rw1c, .table⟩]
  | .CD_CMEM_ERR => [⟨⟨63, 48⟩, .rw1c, .table⟩, ⟨⟨47, 40⟩, .rw1c, .table⟩, ⟨⟨28, 28⟩, .ro, .table⟩, ⟨⟨26, 0⟩, .ro, .table⟩]
  | .CD_CMEM_SCRUB => [⟨⟨32, 32⟩, .rw, .flacon⟩, ⟨⟨31, 0⟩, .rw, .table⟩]
  | .CD_CMEM_PMAP => [⟨⟨63, 63⟩, .rw, .table⟩, ⟨⟨49, 48⟩, .rw, .table⟩, ⟨⟨26, 16⟩, .rw, .table⟩, ⟨⟨10, 0⟩, .rw, .table⟩]
  | .CD_RC_WBASE => [⟨⟨63, 63⟩, .rw, .table⟩, ⟨⟨55, 12⟩, .rw, .table⟩]
  | .CD_RC_WLIMIT => [⟨⟨55, 12⟩, .rw, .table⟩]
  | .MPD_ID => [⟨⟨32, 32⟩, .ro, .table⟩, ⟨⟨25, 20⟩, .ro, .table⟩, ⟨⟨15, 12⟩, .ro, .table⟩, ⟨⟨11, 10⟩, .ro, .table⟩, ⟨⟨7, 6⟩, .ro, .table⟩, ⟨⟨5, 0⟩, .ro, .table⟩]
  | .MPD_HBM_CONFIG => [⟨⟨8, 8⟩, .rwl, .flacon⟩, ⟨⟨5, 4⟩, .rw, .table⟩, ⟨⟨1, 0⟩, .rwl, .flacon⟩]
  | .MPD_HBM_STATUS => [⟨⟨23, 16⟩, .ro, .table⟩, ⟨⟨10, 10⟩, .ro, .table⟩, ⟨⟨9, 9⟩, .ro, .table⟩, ⟨⟨8, 8⟩, .ro, .table⟩, ⟨⟨2, 0⟩, .ro, .table⟩]
  | .MPD_ERR => [⟨⟨63, 48⟩, .rw1c, .table⟩, ⟨⟨47, 40⟩, .rw1c, .table⟩, ⟨⟨31, 31⟩, .ro, .table⟩, ⟨⟨29, 0⟩, .ro, .table⟩]
  | .MPD_SCRUB => [⟨⟨63, 63⟩, .rw, .flacon⟩, ⟨⟨39, 8⟩, .ro, .table⟩, ⟨⟨7, 0⟩, .rw, .table⟩]
  | .MPD_ECS => [⟨⟨31, 0⟩, .ro, .table⟩]
  | .MPD_TPE_CONTROL => [⟨⟨1, 1⟩, .rw, .flacon⟩, ⟨⟨0, 0⟩, .wo, .table⟩]
  | .MPD_TPE_RESULT => [⟨⟨47, 40⟩, .ro, .table⟩, ⟨⟨31, 16⟩, .ro, .table⟩, ⟨⟨15, 8⟩, .ro, .table⟩, ⟨⟨1, 0⟩, .ro, .table⟩]
  | .MPD_TEMP_LIMITS => [⟨⟨23, 16⟩, .rwl, .flacon⟩, ⟨⟨15, 8⟩, .rwl, .flacon⟩, ⟨⟨7, 0⟩, .rwl, .flacon⟩]
  | .HUB_HBM_REGION_CFG => [⟨⟨63, 63⟩, .rw, .table⟩, ⟨⟨49, 48⟩, .rw, .table⟩, ⟨⟨41, 40⟩, .rw, .table⟩, ⟨⟨39, 32⟩, .ro, .table⟩, ⟨⟨21, 16⟩, .rw, .table⟩, ⟨⟨5, 0⟩, .rw, .table⟩]
  | .HUB_HBM_REGION_BASE => [⟨⟨55, 0⟩, .ro, .table⟩]
  | .HUB_HBM_MAP_CONTROL => [⟨⟨16, 16⟩, .wo, .table⟩, ⟨⟨7, 4⟩, .ro, .table⟩, ⟨⟨2, 2⟩, .ro, .table⟩, ⟨⟨1, 1⟩, .ro, .table⟩, ⟨⟨0, 0⟩, .ro, .table⟩]
  | .PNW_ROUTE => [⟨⟨63, 63⟩, .ro, .table⟩, ⟨⟨4, 4⟩, .ro, .table⟩, ⟨⟨3, 0⟩, .ro, .table⟩]
  | .PNW_ROUTE_SHADOW => [⟨⟨63, 0⟩, .ro, .table⟩]
  | .PNW_MC_ENTRY => [⟨⟨63, 63⟩, .ro, .table⟩, ⟨⟨17, 17⟩, .ro, .table⟩, ⟨⟨16, 16⟩, .ro, .table⟩, ⟨⟨15, 0⟩, .ro, .table⟩]
  | .PNW_PORT_STATUS => [⟨⟨63, 48⟩, .rw1c, .table⟩, ⟨⟨47, 32⟩, .rw1c, .table⟩, ⟨⟨31, 24⟩, .ro, .table⟩, ⟨⟨3, 2⟩, .ro, .table⟩, ⟨⟨1, 1⟩, .ro, .table⟩, ⟨⟨0, 0⟩, .ro, .table⟩]
  | .PNW_POOL_STATUS => [⟨⟨49, 49⟩, .ro, .table⟩, ⟨⟨48, 48⟩, .ro, .table⟩, ⟨⟨47, 32⟩, .rw1c, .table⟩, ⟨⟨31, 16⟩, .ro, .table⟩, ⟨⟨15, 0⟩, .ro, .table⟩]
  | .PNW_CONFIG => [⟨⟨29, 16⟩, .rw, .table⟩, ⟨⟨13, 0⟩, .rw, .table⟩]
  | .PNW_DRAIN_STATUS => [⟨⟨63, 32⟩, .ro, .table⟩, ⟨⟨31, 16⟩, .ro, .table⟩, ⟨⟨15, 8⟩, .ro, .table⟩, ⟨⟨0, 0⟩, .ro, .table⟩]
  | .PNW_MC_DEF => [⟨⟨63, 0⟩, .rw, .table⟩]
  | .PNW_MC_UNIT => [⟨⟨63, 63⟩, .rw, .table⟩, ⟨⟨26, 20⟩, .ro, .table⟩, ⟨⟨19, 18⟩, .rw, .table⟩, ⟨⟨17, 0⟩, .rw, .table⟩]
  | .PNW_MC_CONTROL => [⟨⟨21, 16⟩, .rw, .table⟩, ⟨⟨8, 8⟩, .wo, .table⟩, ⟨⟨1, 1⟩, .ro, .table⟩, ⟨⟨0, 0⟩, .ro, .table⟩]
  | .PNW_TOPO => [⟨⟨63, 48⟩, .ro, .table⟩, ⟨⟨47, 32⟩, .ro, .table⟩, ⟨⟨31, 16⟩, .ro, .table⟩, ⟨⟨15, 0⟩, .ro, .table⟩]
  | .ACC_CONTROL => [⟨⟨16, 0⟩, .rw, .table⟩]
  | .ACC_ERR => [⟨⟨63, 48⟩, .rw1c, .table⟩, ⟨⟨47, 32⟩, .rw1c, .table⟩, ⟨⟨31, 16⟩, .rw1c, .table⟩, ⟨⟨15, 10⟩, .ro, .table⟩, ⟨⟨2, 2⟩, .rw1c, .table⟩, ⟨⟨1, 1⟩, .rw1c, .table⟩, ⟨⟨0, 0⟩, .rw1c, .table⟩]
  | .ACC_SLOT_STATUS => [⟨⟨63, 44⟩, .ro, .table⟩, ⟨⟨7, 7⟩, .ro, .table⟩, ⟨⟨6, 6⟩, .ro, .table⟩, ⟨⟨5, 5⟩, .ro, .table⟩, ⟨⟨4, 4⟩, .ro, .table⟩, ⟨⟨2, 0⟩, .ro, .table⟩]
  | .ACC_DESC => [⟨⟨63, 0⟩, .rw, .table⟩]
  | .RQE_CONTROL => [⟨⟨7, 7⟩, .wo, .table⟩, ⟨⟨6, 6⟩, .wo, .table⟩, ⟨⟨5, 5⟩, .wo, .table⟩, ⟨⟨0, 0⟩, .rw, .table⟩]
  | .RQE_STATUS => [⟨⟨48, 32⟩, .ro, .table⟩, ⟨⟨27, 24⟩, .ro, .table⟩, ⟨⟨23, 16⟩, .ro, .table⟩, ⟨⟨11, 11⟩, .ro, .table⟩, ⟨⟨10, 10⟩, .ro, .table⟩, ⟨⟨9, 9⟩, .ro, .table⟩, ⟨⟨8, 8⟩, .ro, .table⟩, ⟨⟨2, 0⟩, .ro, .table⟩]
  | .RQE_STEP => [⟨⟨63, 48⟩, .ro, .table⟩, ⟨⟨47, 0⟩, .ro, .table⟩]
  | .RQE_BATCH => [⟨⟨55, 49⟩, .rw, .table⟩, ⟨⟨48, 36⟩, .rw, .table⟩, ⟨⟨35, 16⟩, .rw, .table⟩, ⟨⟨12, 0⟩, .rw, .table⟩]
  | .RQE_PRIO => [⟨⟨8, 8⟩, .rw, .table⟩, ⟨⟨2, 0⟩, .rw, .table⟩]
  | .RQE_KV_BASE => [⟨⟨55, 18⟩, .rw, .table⟩]
  | .RQE_KV_CONFIG => [⟨⟨62, 40⟩, .rw, .table⟩, ⟨⟨37, 32⟩, .rw, .table⟩, ⟨⟨31, 28⟩, .rw, .table⟩, ⟨⟨22, 0⟩, .rw, .table⟩]
  | .RQE_KV_FREE => [⟨⟨54, 32⟩, .rw1c, .table⟩, ⟨⟨22, 0⟩, .ro, .table⟩]
  | .RQE_STATE_CONFIG => [⟨⟨55, 12⟩, .rw, .table⟩, ⟨⟨4, 0⟩, .rw, .table⟩]
  | .RQE_MBOX_CONFIG => [⟨⟨40, 40⟩, .rw, .table⟩, ⟨⟨34, 30⟩, .rw, .table⟩, ⟨⟨29, 24⟩, .rw, .table⟩, ⟨⟨21, 16⟩, .rw, .table⟩, ⟨⟨6, 0⟩, .rw, .table⟩]
  | .RQE_STEP_CONFIG => [⟨⟨63, 60⟩, .rw, .table⟩, ⟨⟨59, 56⟩, .rw, .table⟩, ⟨⟨55, 32⟩, .rw, .table⟩, ⟨⟨31, 16⟩, .rw, .table⟩, ⟨⟨6, 6⟩, .rw, .table⟩, ⟨⟨5, 0⟩, .rw, .table⟩]
  | .RQE_STBY_STATUS => [⟨⟨63, 63⟩, .ro, .table⟩, ⟨⟨55, 48⟩, .ro, .table⟩, ⟨⟨47, 0⟩, .ro, .table⟩]
  | .RQE_COUNTS => [⟨⟨63, 32⟩, .ro, .table⟩, ⟨⟨31, 0⟩, .ro, .table⟩]
  | .RQE_ILOG_BASE => [⟨⟨55, 12⟩, .rw, .table⟩]
  | .RQE_ILOG_CONFIG => [⟨⟨47, 32⟩, .rw, .table⟩, ⟨⟨2, 2⟩, .rw, .table⟩, ⟨⟨1, 1⟩, .rw, .table⟩, ⟨⟨0, 0⟩, .rw, .table⟩]
  | .RQE_ILOG_SEQ => [⟨⟨47, 0⟩, .ro, .table⟩]
  | .RQE_ILOG_STATUS => [⟨⟨33, 4⟩, .ro, .table⟩, ⟨⟨3, 3⟩, .ro, .table⟩, ⟨⟨2, 2⟩, .rw1c, .table⟩, ⟨⟨1, 1⟩, .ro, .table⟩, ⟨⟨0, 0⟩, .ro, .table⟩]
  | .RQE_ILOG_STREAM => [⟨⟨47, 0⟩, .rw, .table⟩]
  | .RQE_REPLAY_CONTROL => [⟨⟨48, 1⟩, .rw, .table⟩, ⟨⟨0, 0⟩, .rw, .table⟩]
  | .RQE_REPLAY_STATUS => [⟨⟨63, 16⟩, .ro, .table⟩, ⟨⟨7, 4⟩, .ro, .table⟩, ⟨⟨3, 3⟩, .ro, .table⟩, ⟨⟨2, 2⟩, .ro, .table⟩, ⟨⟨1, 1⟩, .ro, .table⟩, ⟨⟨0, 0⟩, .ro, .table⟩]
  | .HUB_DET_POLICY => [⟨⟨1, 1⟩, .rwl, .flacon⟩, ⟨⟨0, 0⟩, .rwl, .flacon⟩]
  | .HUB_BAR_DIES => [⟨⟨63, 0⟩, .rw, .table⟩]
  | .HUB_BAR_CORES => [⟨⟨15, 0⟩, .rw, .table⟩]
  | .HUB_BAR_EXT => [⟨⟨63, 63⟩, .rw, .table⟩, ⟨⟨62, 62⟩, .rw, .table⟩, ⟨⟨61, 50⟩, .rw, .table⟩, ⟨⟨49, 38⟩, .rw, .table⟩, ⟨⟨15, 0⟩, .ro, .table⟩]
  | .HUB_BAR_STATUS => [⟨⟨63, 48⟩, .ro, .table⟩, ⟨⟨47, 37⟩, .ro, .table⟩, ⟨⟨36, 26⟩, .ro, .table⟩, ⟨⟨2, 2⟩, .ro, .table⟩, ⟨⟨1, 1⟩, .rw1c, .table⟩, ⟨⟨0, 0⟩, .ro, .table⟩]
  | .HUB_BAR_CONTROL => [⟨⟨63, 32⟩, .rw, .table⟩, ⟨⟨11, 8⟩, .rw, .table⟩, ⟨⟨2, 2⟩, .ro, .table⟩, ⟨⟨1, 1⟩, .wo, .table⟩, ⟨⟨0, 0⟩, .wo, .table⟩]
  | .CLK_ISLAND => [⟨⟨63, 48⟩, .ro, .table⟩, ⟨⟨47, 32⟩, .ro, .table⟩, ⟨⟨16, 16⟩, .ro, .table⟩, ⟨⟨15, 15⟩, .ro, .table⟩, ⟨⟨14, 12⟩, .ro, .table⟩, ⟨⟨10, 8⟩, .ro, .table⟩, ⟨⟨6, 4⟩, .ro, .table⟩, ⟨⟨2, 0⟩, .rw, .flacon⟩]
  | .CLK_MARGIN => [⟨⟨63, 48⟩, .rw1c, .table⟩, ⟨⟨47, 32⟩, .rw1c, .table⟩, ⟨⟨29, 24⟩, .ro, .table⟩, ⟨⟨21, 16⟩, .rw1c, .table⟩, ⟨⟨5, 0⟩, .ro, .table⟩]
  | .CLK_MARGIN_LIMITS => [⟨⟨13, 8⟩, .rwl, .flacon⟩, ⟨⟨5, 0⟩, .rwl, .flacon⟩]
  | .PWR_ZONE_STATUS => [⟨⟨63, 52⟩, .ro, .table⟩, ⟨⟨47, 40⟩, .ro, .table⟩, ⟨⟨39, 32⟩, .ro, .table⟩, ⟨⟨31, 16⟩, .ro, .table⟩, ⟨⟨10, 8⟩, .ro, .table⟩, ⟨⟨2, 0⟩, .ro, .table⟩]
  | .PWR_ZONE_CONTROL => [⟨⟨2, 0⟩, .rw, .flacon⟩]
  | .PWR_THERM_LIMITS => [⟨⟨23, 16⟩, .rwl, .flacon⟩, ⟨⟨15, 8⟩, .rwl, .flacon⟩, ⟨⟨7, 0⟩, .rwl, .flacon⟩]
  | .PWR_PANEL => [⟨⟨48, 48⟩, .ro, .table⟩, ⟨⟨47, 32⟩, .rwl, .flacon⟩, ⟨⟨15, 0⟩, .ro, .table⟩]
  | .PWR_TOKEN_STATUS => [⟨⟨63, 32⟩, .ro, .table⟩, ⟨⟨27, 16⟩, .ro, .table⟩, ⟨⟨8, 8⟩, .ro, .table⟩, ⟨⟨7, 4⟩, .ro, .table⟩, ⟨⟨0, 0⟩, .ro, .table⟩]
  | .PMC_STAGE => [⟨⟨63, 48⟩, .ro, .table⟩, ⟨⟨39, 32⟩, .ro, .table⟩, ⟨⟨11, 8⟩, .ro, .table⟩, ⟨⟨5, 4⟩, .ro, .table⟩, ⟨⟨3, 0⟩, .ro, .table⟩]
  | .PMC_BRINGUP_CONTROL => [⟨⟨63, 63⟩, .ro, .table⟩, ⟨⟨42, 32⟩, .rw, .table⟩, ⟨⟨17, 17⟩, .wo, .table⟩, ⟨⟨16, 16⟩, .wo, .table⟩, ⟨⟨3, 0⟩, .rw, .table⟩]
  | .PMC_FLACON_STATUS => [⟨⟨63, 32⟩, .ro, .table⟩, ⟨⟨31, 24⟩, .ro, .table⟩, ⟨⟨4, 4⟩, .ro, .table⟩, ⟨⟨3, 2⟩, .ro, .table⟩, ⟨⟨1, 0⟩, .ro, .table⟩]
  | .PMC_FLACON_SEQ => [⟨⟨63, 0⟩, .ro, .table⟩]
  | .PMC_FFL_STATUS => [⟨⟨42, 32⟩, .ro, .table⟩, ⟨⟨1, 1⟩, .ro, .table⟩, ⟨⟨0, 0⟩, .ro, .table⟩]
  | .PMC_REPORT => [⟨⟨63, 0⟩, .ro, .table⟩]
  | .PMC_ERR_STATUS => [⟨⟨48, 48⟩, .ro, .table⟩, ⟨⟨47, 32⟩, .ro, .table⟩, ⟨⟨23, 16⟩, .ro, .table⟩, ⟨⟨8, 0⟩, .ro, .table⟩]
  | .PMC_LOG_HEAD => [⟨⟨43, 32⟩, .ro, .table⟩, ⟨⟨31, 0⟩, .ro, .table⟩]
  | .PMC_WATCHDOG => [⟨⟨63, 48⟩, .ro, .table⟩, ⟨⟨15, 0⟩, .rw, .table⟩]
  | .PMC_SERVICE_CONTROL => [⟨⟨63, 63⟩, .ro, .table⟩, ⟨⟨11, 8⟩, .rw, .table⟩, ⟨⟨2, 2⟩, .wo, .table⟩, ⟨⟨1, 1⟩, .wo, .table⟩, ⟨⟨0, 0⟩, .wo, .table⟩]
  | .PMC_HEALTH => [⟨⟨63, 32⟩, .ro, .table⟩, ⟨⟨8, 0⟩, .rw1c, .table⟩]
  | .PMC_PREDICT_LIMITS => [⟨⟨47, 32⟩, .rw, .table⟩, ⟨⟨23, 16⟩, .rw, .table⟩, ⟨⟨15, 8⟩, .rw, .table⟩, ⟨⟨7, 0⟩, .rw, .table⟩]
  | .PMC_LOG => [⟨⟨63, 0⟩, .ro, .table⟩]
  | .MIR_CONFIG => [⟨⟨63, 52⟩, .rw, .flacon⟩, ⟨⟨47, 32⟩, .rw, .table⟩, ⟨⟨23, 16⟩, .rw, .flacon⟩, ⟨⟨2, 2⟩, .rw, .table⟩, ⟨⟨1, 1⟩, .rw, .table⟩, ⟨⟨0, 0⟩, .rw, .flacon⟩]
  | .MIR_GUEST_PAGES => [⟨⟨54, 32⟩, .rw, .table⟩, ⟨⟨22, 0⟩, .rw, .table⟩]
  | .MIR_REGION => [⟨⟨63, 63⟩, .rw, .table⟩, ⟨⟨55, 20⟩, .rw, .table⟩, ⟨⟨19, 0⟩, .rw, .table⟩]
  | .MIR_GUEST_WIN => [⟨⟨63, 63⟩, .rw, .table⟩, ⟨⟨55, 20⟩, .rw, .table⟩, ⟨⟨19, 0⟩, .rw, .table⟩]
  | .MIR_STATUS => [⟨⟨63, 16⟩, .ro, .table⟩, ⟨⟨11, 8⟩, .ro, .table⟩, ⟨⟨5, 5⟩, .ro, .table⟩, ⟨⟨4, 4⟩, .ro, .table⟩, ⟨⟨2, 0⟩, .ro, .table⟩]
  | .MIR_COUNTS => [⟨⟨63, 32⟩, .ro, .table⟩, ⟨⟨31, 16⟩, .ro, .table⟩, ⟨⟨15, 8⟩, .ro, .table⟩, ⟨⟨7, 0⟩, .ro, .table⟩]
  | .HJF_COORD => [⟨⟨63, 63⟩, .rw, .flacon⟩, ⟨⟨11, 0⟩, .rw, .flacon⟩]
  | .HJF_CONFIG => [⟨⟨45, 45⟩, .rw, .table⟩, ⟨⟨44, 44⟩, .rw, .table⟩, ⟨⟨43, 32⟩, .rw, .table⟩, ⟨⟨31, 16⟩, .rw, .table⟩, ⟨⟨15, 0⟩, .rw, .table⟩]
  | .HJF_SILLAGE => [⟨⟨55, 48⟩, .rw, .table⟩, ⟨⟨47, 32⟩, .rw, .table⟩, ⟨⟨31, 24⟩, .rw, .table⟩, ⟨⟨19, 16⟩, .rw, .table⟩, ⟨⟨15, 0⟩, .rw, .table⟩]
  | .HJF_CONTROL => [⟨⟨12, 12⟩, .ro, .table⟩, ⟨⟨11, 10⟩, .ro, .table⟩, ⟨⟨9, 9⟩, .ro, .table⟩, ⟨⟨8, 8⟩, .ro, .table⟩, ⟨⟨1, 1⟩, .wo, .table⟩, ⟨⟨0, 0⟩, .wo, .table⟩]
  | .HJF_PORT_STATUS => [⟨⟨63, 48⟩, .rw1c, .table⟩, ⟨⟨47, 32⟩, .rw1c, .table⟩, ⟨⟨31, 20⟩, .ro, .table⟩, ⟨⟨19, 16⟩, .ro, .table⟩, ⟨⟨5, 4⟩, .ro, .table⟩, ⟨⟨3, 2⟩, .ro, .table⟩, ⟨⟨0, 0⟩, .ro, .table⟩]
  | .HJF_ROUTE => [⟨⟨17, 17⟩, .rw, .table⟩, ⟨⟨16, 9⟩, .rw, .table⟩, ⟨⟨8, 8⟩, .ro, .table⟩, ⟨⟨7, 0⟩, .ro, .table⟩]
  | .HJF_POOL_STATUS => [⟨⟨63, 48⟩, .rw1c, .table⟩, ⟨⟨47, 30⟩, .rw1c, .table⟩, ⟨⟨17, 0⟩, .ro, .table⟩]
  | .HJF_FQ_CONFIG => [⟨⟨63, 63⟩, .rw, .table⟩, ⟨⟨62, 62⟩, .rw, .table⟩, ⟨⟨61, 58⟩, .rw, .table⟩, ⟨⟨55, 6⟩, .rw, .table⟩]
  | .HJF_FQ_INDEX => [⟨⟨48, 48⟩, .rw1c, .table⟩, ⟨⟨47, 32⟩, .ro, .table⟩, ⟨⟨15, 0⟩, .rw, .table⟩]
  | .HJF_EXPORT => [⟨⟨63, 63⟩, .rw, .table⟩, ⟨⟨62, 62⟩, .rw, .table⟩, ⟨⟨55, 21⟩, .rw, .table⟩, ⟨⟨19, 0⟩, .rw, .table⟩]
  | .HJF_BAR_CAL => [⟨⟨63, 48⟩, .ro, .table⟩, ⟨⟨47, 32⟩, .rw1c, .table⟩, ⟨⟨4, 0⟩, .ro, .table⟩]
  | .HJF_RANK => [⟨⟨63, 63⟩, .rw, .table⟩, ⟨⟨18, 7⟩, .rw, .table⟩, ⟨⟨6, 0⟩, .rw, .table⟩]
  | .PCI_PORT_STATUS => [⟨⟨63, 48⟩, .rw1c, .table⟩, ⟨⟨47, 32⟩, .ro, .table⟩, ⟨⟨10, 8⟩, .ro, .table⟩, ⟨⟨7, 5⟩, .ro, .table⟩, ⟨⟨1, 1⟩, .ro, .table⟩, ⟨⟨0, 0⟩, .ro, .table⟩]
  | .PCI_LEASE => [⟨⟨63, 48⟩, .ro, .table⟩, ⟨⟨41, 32⟩, .ro, .table⟩, ⟨⟨9, 8⟩, .ro, .table⟩, ⟨⟨2, 2⟩, .wo, .table⟩, ⟨⟨1, 1⟩, .wo, .table⟩, ⟨⟨0, 0⟩, .wo, .table⟩]
  | .PCI_BAR2_BASE => [⟨⟨55, 36⟩, .rw, .table⟩]
  | .PCI_CSTORE => [⟨⟨63, 63⟩, .ro, .table⟩, ⟨⟨62, 62⟩, .ro, .table⟩, ⟨⟨49, 32⟩, .ro, .table⟩, ⟨⟨15, 0⟩, .rw, .table⟩]
  | .PCI_IMPORT_CQ => [⟨⟨8, 8⟩, .rw, .table⟩, ⟨⟨5, 0⟩, .rw, .table⟩]
  | .PCI_REGION_BASE => [⟨⟨63, 63⟩, .rw, .table⟩, ⟨⟨62, 62⟩, .rw, .table⟩, ⟨⟨45, 0⟩, .rw, .table⟩]
  | .PCI_REGION_SIZE => [⟨⟨31, 0⟩, .rw, .table⟩]
  | .PCI_SQ_BASE => [⟨⟨63, 63⟩, .rw, .table⟩, ⟨⟨62, 59⟩, .rw, .table⟩, ⟨⟨51, 0⟩, .rw, .table⟩]
  | .PCI_SQ_TAIL => [⟨⟨31, 16⟩, .ro, .table⟩, ⟨⟨15, 0⟩, .rw, .table⟩]
  | .PCI_CQ_BASE => [⟨⟨63, 63⟩, .rw, .table⟩, ⟨⟨62, 59⟩, .rw, .table⟩, ⟨⟨51, 0⟩, .rw, .table⟩]
  | .PCI_CQ_HEAD => [⟨⟨58, 48⟩, .rw, .table⟩, ⟨⟨47, 32⟩, .ro, .table⟩, ⟨⟨15, 0⟩, .rw, .table⟩]
  | .SEC_STATUS => [⟨⟨35, 32⟩, .ro, .table⟩, ⟨⟨31, 28⟩, .ro, .table⟩, ⟨⟨27, 20⟩, .ro, .table⟩, ⟨⟨19, 14⟩, .ro, .table⟩, ⟨⟨13, 6⟩, .ro, .table⟩, ⟨⟨2, 2⟩, .ro, .table⟩, ⟨⟨1, 1⟩, .ro, .table⟩, ⟨⟨0, 0⟩, .ro, .table⟩]
  | .SEC_NONCE => [⟨⟨63, 0⟩, .ro, .table⟩]
  | .SEC_CMD => [⟨⟨63, 0⟩, .rw, .table⟩]
  | .SEC_CMD_CONTROL => [⟨⟨15, 8⟩, .ro, .table⟩, ⟨⟨7, 4⟩, .ro, .table⟩, ⟨⟨1, 1⟩, .ro, .table⟩, ⟨⟨0, 0⟩, .wo, .table⟩]
  | .SEC_DEBUG => [⟨⟨40, 40⟩, .wo, .table⟩, ⟨⟨21, 0⟩, .ro, .table⟩]
  | .SEC_DEVICE_ID => [⟨⟨63, 0⟩, .ro, .table⟩]
  | .SEC_GUEST_STATUS => [⟨⟨63, 48⟩, .ro, .table⟩, ⟨⟨11, 8⟩, .ro, .table⟩, ⟨⟨7, 6⟩, .ro, .table⟩, ⟨⟨2, 0⟩, .ro, .table⟩]
  | .SEC_GUEST_LIMITS => [⟨⟨30, 26⟩, .ro, .table⟩, ⟨⟨25, 21⟩, .ro, .table⟩, ⟨⟨20, 20⟩, .ro, .table⟩, ⟨⟨5, 0⟩, .ro, .table⟩]
  | .SEC_GUEST_WIN_BASE => [⟨⟨63, 63⟩, .ro, .table⟩, ⟨⟨62, 62⟩, .ro, .table⟩, ⟨⟨61, 61⟩, .ro, .table⟩, ⟨⟨55, 12⟩, .ro, .table⟩]
  | .SEC_GUEST_WIN_LIMIT => [⟨⟨55, 12⟩, .ro, .table⟩]
  | .HUB_ID => [⟨⟨63, 48⟩, .ro, .fuse⟩, ⟨⟨39, 36⟩, .ro, .fuse⟩, ⟨⟨35, 32⟩, .ro, .fuse⟩, ⟨⟨31, 24⟩, .ro, .fuse⟩, ⟨⟨23, 16⟩, .ro, .flacon⟩, ⟨⟨1, 0⟩, .ro, .fuse⟩]
  | .HUB_SHAPE => [⟨⟨63, 63⟩, .ro, .table⟩, ⟨⟨47, 32⟩, .ro, .table⟩, ⟨⟨25, 20⟩, .ro, .table⟩, ⟨⟨19, 16⟩, .ro, .table⟩, ⟨⟨15, 12⟩, .ro, .table⟩, ⟨⟨10, 0⟩, .ro, .table⟩]
  | .HUB_L2P_ROW => [⟨⟨63, 63⟩, .ro, .table⟩, ⟨⟨35, 32⟩, .ro, .table⟩, ⟨⟨31, 0⟩, .ro, .table⟩]
  | .HUB_L2P_STACK => [⟨⟨63, 56⟩, .ro, .table⟩, ⟨⟨47, 0⟩, .ro, .table⟩]
  | .CD_ID => [⟨⟨55, 48⟩, .ro, .fuse⟩, ⟨⟨43, 40⟩, .ro, .fuse⟩, ⟨⟨39, 36⟩, .ro, .table⟩, ⟨⟨35, 32⟩, .ro, .table⟩, ⟨⟨6, 6⟩, .ro, .table⟩, ⟨⟨5, 0⟩, .ro, .table⟩]
  | .MPD_REV => [⟨⟨55, 48⟩, .ro, .fuse⟩, ⟨⟨43, 40⟩, .ro, .fuse⟩]
  | .PCI_EVENT_COUNT => [⟨⟨63, 48⟩, .ro, .table⟩, ⟨⟨47, 40⟩, .ro, .table⟩, ⟨⟨39, 32⟩, .ro, .table⟩, ⟨⟨31, 24⟩, .ro, .table⟩, ⟨⟨23, 16⟩, .ro, .table⟩, ⟨⟨15, 0⟩, .ro, .table⟩]

/-- The registers of the HUB_ block. -/
def hubRegs : List Reg := [.HUB_HBM_REGION_CFG, .HUB_HBM_REGION_BASE, .HUB_HBM_MAP_CONTROL, .HUB_DET_POLICY, .HUB_BAR_DIES, .HUB_BAR_CORES, .HUB_BAR_EXT, .HUB_BAR_STATUS, .HUB_BAR_CONTROL, .HUB_ID, .HUB_SHAPE, .HUB_L2P_ROW, .HUB_L2P_STACK]
/-- The registers of the RQE_ block. -/
def rqeRegs : List Reg := [.RQE_CONTROL, .RQE_STATUS, .RQE_STEP, .RQE_BATCH, .RQE_PRIO, .RQE_KV_BASE, .RQE_KV_CONFIG, .RQE_KV_FREE, .RQE_STATE_CONFIG, .RQE_MBOX_CONFIG, .RQE_STEP_CONFIG, .RQE_STBY_STATUS, .RQE_COUNTS, .RQE_ILOG_BASE, .RQE_ILOG_CONFIG, .RQE_ILOG_SEQ, .RQE_ILOG_STATUS, .RQE_ILOG_STREAM, .RQE_REPLAY_CONTROL, .RQE_REPLAY_STATUS]
/-- The registers of the MIR_ block. -/
def mirRegs : List Reg := [.MIR_CONFIG, .MIR_GUEST_PAGES, .MIR_REGION, .MIR_GUEST_WIN, .MIR_STATUS, .MIR_COUNTS]
/-- The registers of the PWR_ block. -/
def pwrRegs : List Reg := [.PWR_ZONE_STATUS, .PWR_ZONE_CONTROL, .PWR_THERM_LIMITS, .PWR_PANEL, .PWR_TOKEN_STATUS]
/-- The registers of the SEC_ block. -/
def secRegs : List Reg := [.SEC_STATUS, .SEC_NONCE, .SEC_CMD, .SEC_CMD_CONTROL, .SEC_DEBUG, .SEC_DEVICE_ID, .SEC_GUEST_STATUS, .SEC_GUEST_LIMITS, .SEC_GUEST_WIN_BASE, .SEC_GUEST_WIN_LIMIT]
/-- The registers of the PNW_ block. -/
def pnwRegs : List Reg := [.PNW_ROUTE, .PNW_ROUTE_SHADOW, .PNW_MC_ENTRY, .PNW_PORT_STATUS, .PNW_POOL_STATUS, .PNW_CONFIG, .PNW_DRAIN_STATUS, .PNW_MC_DEF, .PNW_MC_UNIT, .PNW_MC_CONTROL, .PNW_TOPO]
/-- The registers of the PCI_ block. -/
def pciRegs : List Reg := [.PCI_PORT_STATUS, .PCI_LEASE, .PCI_BAR2_BASE, .PCI_CSTORE, .PCI_IMPORT_CQ, .PCI_REGION_BASE, .PCI_REGION_SIZE, .PCI_SQ_BASE, .PCI_SQ_TAIL, .PCI_CQ_BASE, .PCI_CQ_HEAD, .PCI_EVENT_COUNT]
/-- The registers of the HJF_ block. -/
def hjfRegs : List Reg := [.HJF_COORD, .HJF_CONFIG, .HJF_SILLAGE, .HJF_CONTROL, .HJF_PORT_STATUS, .HJF_ROUTE, .HJF_POOL_STATUS, .HJF_FQ_CONFIG, .HJF_FQ_INDEX, .HJF_EXPORT, .HJF_BAR_CAL, .HJF_RANK]
/-- The registers of the PMC_ block. -/
def pmcRegs : List Reg := [.PMC_STAGE, .PMC_BRINGUP_CONTROL, .PMC_FLACON_STATUS, .PMC_FLACON_SEQ, .PMC_FFL_STATUS, .PMC_REPORT, .PMC_ERR_STATUS, .PMC_LOG_HEAD, .PMC_WATCHDOG, .PMC_SERVICE_CONTROL, .PMC_HEALTH, .PMC_PREDICT_LIMITS, .PMC_LOG]
/-- The registers of the CD_ block. -/
def cdRegs : List Reg := [.CD_CMEM_PART, .CD_RC_EPOCH, .CD_RC_STATS, .CD_CMEM_ERR, .CD_CMEM_SCRUB, .CD_CMEM_PMAP, .CD_RC_WBASE, .CD_RC_WLIMIT, .CD_ID]
/-- The registers of the ACC_ block. -/
def accRegs : List Reg := [.ACC_CONTROL, .ACC_ERR, .ACC_SLOT_STATUS, .ACC_DESC]
/-- The registers of the CLK_ block. -/
def clkRegs : List Reg := [.CLK_ISLAND, .CLK_MARGIN, .CLK_MARGIN_LIMITS]
/-- The registers of the MPD_ block. -/
def mpdRegs : List Reg := [.MPD_ID, .MPD_HBM_CONFIG, .MPD_HBM_STATUS, .MPD_ERR, .MPD_SCRUB, .MPD_ECS, .MPD_TPE_CONTROL, .MPD_TPE_RESULT, .MPD_TEMP_LIMITS, .MPD_REV]
/-- The registers of the CORE_ block. -/
def coreRegs : List Reg := [.CORE_ID, .CORE_STATUS, .CORE_CONTROL, .CORE_TRAP_VECTOR, .CORE_TRAP_PC, .CORE_TRAP_CAUSE, .CORE_TRAP_INFO, .CORE_TRAP_PENDING, .CORE_CYCLE, .CORE_ISSUE_SEQ, .CORE_MISPREDICT_COUNT, .CORE_WAIT_LIMIT, .CORE_TOKEN_STATUS, .CORE_ISSUE_CONTROL, .CORE_TOKEN, .CORE_GRP_STATUS, .CORE_MX_STATUS, .CORE_MX_BUSY, .CORE_MX_STALL, .CORE_MX_CONTROL, .CORE_PMAP, .CORE_SP_ERR, .CORE_SP_STATUS, .CORE_DMA_STATUS, .CORE_DMA_BYTES]

/-- The registers of a block. -/
def Blk.regs : Blk → List Reg
  | .hub => hubRegs
  | .rqe => rqeRegs
  | .mir => mirRegs
  | .pwr => pwrRegs
  | .sec => secRegs
  | .pnw => pnwRegs
  | .pci => pciRegs
  | .hjf => hjfRegs
  | .pmc => pmcRegs
  | .cd => cdRegs
  | .acc => accRegs
  | .clk => clkRegs
  | .mpd => mpdRegs
  | .core => coreRegs

end Sys2Proof.Machine
end

