-- ==== Sys2Proof/Machine/CoreState.lean ====
section
/-! DEFINITION. The state of one core as plain data (R36, R86, R95, R101, R138): registers, loop stacks, groups, queues,
what issue is blocked on, and what an unresolved branch holds. Core CSRs and token counters are registers and live in the
register file of `State`. -/

namespace Sys2Proof.Machine

/-- One active loop level of R54: body indices and iterations left, the running one included. -/
structure Loop where
  first : Nat
  last : Nat
  left : Nat
  deriving DecidableEq, Repr

/-- Group states of R101. -/
inductive GState where
  | closed
  | fresh
  | resident
  | spilling
  | spilled
  | filling
  | closing
  | sending
  deriving DecidableEq, Repr

/-- The 64 B group descriptor of R95, words 0 to 5 (6 and 7 are zero in an open group). -/
structure GDesc where
  w0 : W64
  w1 : W64
  w2 : W64
  w3 : W64
  w4 : W64
  w5 : W64
  deriving DecidableEq, Repr

/-- An accumulation group slot (R86, R95, R101, R104, R112, R114, R124). `tile` holds the cells while resident, by
m × 128 + n; `guard` holds bits [103:96] of each LA96 cell while spilled. -/
structure Group where
  state : GState
  kind : BitVec 3
  passes : Nat
  poison : Bool
  outSat : Bool
  overflow : Bool
  fresh : Bool
  /-- 0 none, 1 position 0, 2 position 1 (R119) -/
  position : Nat
  desc : GDesc
  /-- false float inputs, true integer inputs, none before the first pass (R97) -/
  family : Option Bool
  tile : SMap (BitVec 104)
  guard : SMap (BitVec 8)
  nfRow : BitVec 128
  nfCol : BitVec 128
  /-- order of the group's most recent pass, 0 for none (R103) -/
  lastPass : Nat
  /-- issue sequence number of the operation that spills it, while it is SPILLING (R56) -/
  spiller : Nat
  deriving DecidableEq, Repr

/-- An operation of the matrix queue (R71, R93, R99); descriptors are captured at issue (R45). -/
inductive MxKind where
  | pass (gid : Nat) (descA descB : W256) (arA brB : Bool) (fmtA fmtB : BitVec 4) (ksteps : Nat)
  | direct (region descA descB : W256) (arA brB : Bool) (fmtA fmtB : BitVec 4) (ksteps : Nat) (accAdd : Bool)
  | grpOpen (gid : Nat) (d : GDesc)
  | grpClose (gid : Nat) (tn : BitVec 5) (inc : BitVec 16)
  | accSend (gid : Nat) (handle : W64) (tn : BitVec 5) (inc : BitVec 16)
  | grpAbort (gid : Nat)
  | grpStatus (gid : Nat) (rd : BitVec 5)
  | grpPrefetch (gid : Nat)
  deriving DecidableEq, Repr

/-- A queued matrix operation with its issue sequence number; `spec` while it is held by an unresolved branch (R73). -/
structure MxOp where
  op : MxKind
  seq : Nat
  spec : Bool
  deriving DecidableEq, Repr

/-- A pass whose K-steps run: the tile it will leave (R117), masks and flags it sets. -/
structure Running where
  op : MxOp
  tile : SMap (BitVec 104)
  poison : Bool
  overflow : Bool
  nfRow : BitVec 128
  nfCol : BitVec 128
  position : Nat
  /-- the active position before the pass: a misprediction returns to it (R86, R116) -/
  wasActive : Nat
  deriving DecidableEq, Repr

/-- DMA operations of R64. -/
inductive DmaKind where
  | copy (ds dd : W256)
  | gather (ds dd di : W256)
  | scatter (ds dd di : W256)
  | fill (dd : W256) (pattern : W64)
  | mark
  deriving DecidableEq, Repr

/-- What an operation's reads brought into the staging buffer (R67): the list of a GATHER or SCATTER, the source bytes with their
poison, and whether every read succeeded. -/
structure Staged where
  list : List Nat
  data : List (Byte × Bool)
  ok : Bool
  deriving DecidableEq, Repr

/-- A queued DMA operation: its completion post and issue sequence number. -/
structure DmaOp where
  op : DmaKind
  tn : BitVec 5
  inc : BitVec 16
  seq : Nat
  /-- the cluster's remote-cache epoch when the read was issued (R171) -/
  epoch : BitVec 16
  spec : Bool
  /-- an access failed while a branch held the operation: its DMA_FAULT is held with it (R74) -/
  failed : Bool
  /-- what was read ahead of its turn (R67) -/
  staged : Option Staged
  deriving DecidableEq, Repr

/-- Vector operations of R142. -/
inductive VOp where
  | vadd
  | vsub
  | vmul
  | vfma
  | vmin
  | vmax
  | vcmp
  | vsel
  | vlogic
  | vcvt
  | vsf
  | vred
  | vscan
  | vsort
  | vbcast
  | vextr
  | vld
  | vst
  | rng
  | vmxq
  deriving DecidableEq, Repr

/-- A queued vector operation with the scalar registers and the descriptor it captured at issue. -/
structure VecOp where
  op : VOp
  f : VecForm
  sva : W64
  svb : W64
  svc : W64
  desc : W256
  seq : Nat
  spec : Bool
  deriving DecidableEq, Repr

/-- A token post issued and held for its release mask (R58). -/
structure Post where
  tn : BitVec 5
  remote : Bool
  target : BitVec 10
  inc : BitVec 16
  mask : BitVec 4
  /-- engine operations issued before it: sequence number of the post -/
  seq : Nat
  spec : Bool
  deriving DecidableEq, Repr

/-- What issue is blocked on. -/
inductive Blocked where
  | twait (tn : BitVec 5) (threshold : Nat)
  | barArrive (ch : Nat)
  | barWait (ch : Nat)
  | fence (mask : BitVec 4)
  | epochAdvance
  | halting
  deriving DecidableEq, Repr

/-- A trap found: cause and info (R76). -/
structure TrapInfo where
  cause : Nat
  /-- none where the spec states no detail for the cause -/
  info : Option W64
  deriving DecidableEq, Repr

/-- Scalar side of a core that a misprediction restores (R75). -/
structure SeqState where
  pc : Nat
  sregs : SMap W64
  dregs : SMap W256
  loopsP : List Loop
  loopsF : List Loop
  seq : Nat
  deriving DecidableEq, Repr

/-- An unresolved conditional branch (R73 to R75): what was held, and where the right path goes. -/
structure Spec where
  saved : SeqState
  brPc : Nat
  taken : Bool
  predTaken : Bool
  /-- the branch's signed target index -/
  target : Int
  count : Nat
  /-- held scratchpad stores, oldest first: offset and bytes -/
  held : List (Nat × List Byte)
  heldTrap : Option (Nat × TrapInfo)
  deriving DecidableEq, Repr

/-- One core (R36). -/
structure Core where
  q : SeqState
  vregs : SMap (BitVec 4096)
  vpoison : SMap Unit
  groups : SMap Group
  /-- group in position 0 and in position 1 -/
  pos0 : Option Nat
  pos1 : Option Nat
  /-- the active position (R86): 0 none yet, 1 position 0, 2 position 1 -/
  active : Nat
  /-- group of the most recent pass (R103) -/
  lastGroup : Option Nat
  passClock : Nat
  mxQ : List MxOp
  /-- passes whose K-steps run, oldest first -/
  running : List Running
  /-- closes and sends in progress, oldest first (R107, R108) -/
  closing : List MxOp
  dmaQ : List DmaOp
  vecQ : List VecOp
  posts : List Post
  postsOut : Nat
  blocked : Option Blocked
  /-- outstanding barrier arrivals: channel, generation, counted (R62, R302) -/
  arrivals : SMap (BitVec 16)
  /-- channels whose generation this core last arrived at has been released -/
  released : SMap Unit
  spec : Option Spec
  predictor : SMap (BitVec 2)
  /-- detail of each pending asynchronous cause (R77) -/
  asyncInfo : SMap W64
  fenced : Bool
  deriving DecidableEq, Repr

def SeqState.zero : SeqState := ⟨0, [], [], [], [], 0⟩

/-- A core whose state was just cleared (R36). -/
def Core.zero : Core :=
  { q := .zero, vregs := [], vpoison := [], groups := [], pos0 := none, pos1 := none, active := 0,
    lastGroup := none, passClock := 0, mxQ := [], running := [], closing := [], dmaQ := [], vecQ := [], posts := [], postsOut := 0,
    blocked := none, arrivals := [], released := [], spec := none, predictor := [], asyncInfo := [], fenced := false }

end Sys2Proof.Machine
end

