-- ==== Sys2Proof/Machine/NetState.lean ====
section
/-! DEFINITION. The state of the memories, the panel network, the accords and the barrier channels as plain data
(chapters 06 to 08 and 10). Every byte of memory has one home address (Store). -/

namespace Sys2Proof.Machine

/-- One applied HBM region (R184): panel range, the stacks it spans in order, and its stack-local base in GiB. -/
structure Region where
  base : Nat
  size : Nat
  stks : List Nat
  slBaseGib : Nat
  deriving DecidableEq, Repr

/-- A remote-cache line (R171, R172): the epoch its fill was issued in, and the 256 bytes it holds. -/
structure RcLine where
  epoch : Nat
  data : List Byte
  /-- bad bits of the stored line, as block of the line × 576 + bit of its code word (R161, R175) -/
  err : List Nat
  /-- the read that missed and had the line filled has not been served yet: it counts as the miss, not as a hit (R181) -/
  due : Bool
  deriving DecidableEq, Repr

/-- The memories. A byte's home address is its panel address for scratchpad and cluster memory (R32), and
stack × 2^36 + stack-local address for HBM (R186): the two ranges do not meet. `mem` lists no byte equal to zero. -/
structure Store where
  mem : SMap Byte
  /-- instruction words by core × 32,768 + index (R36) -/
  imem : SMap W64
  /-- poisoned 8 B words, by home address / 8 (R161, R190) -/
  poison : SMap Unit
  /-- bad bits of the 64 B blocks that have any, by home address / 64, ascending: bits 0 to 511 are data, then the check bits
  (R161: 64 of them; R190: 11 of the code, the poison bit, 4 of the hash) -/
  latent : SMap (List Nat)
  /-- HBM blocks whose stored hash is that of another stack-local address, with that address (R190) -/
  astray : SMap Nat
  /-- 8 B words whose check bits are of weight class, by home address / 8 (R161, R165) -/
  enc : SMap Unit
  /-- memories whose contents became undefined (R30, R167, R382): die × 2 + cluster, or 256 + core, with the 8 B
  words written since, by home address / 8 -/
  undef : SMap (SMap Unit)
  /-- remote-cache lines by (die × 2 + cluster) × 2^48 + line address / 256 (R171) -/
  rc : SMap RcLine
  /-- next offset of each cluster scrubber (R169), by die × 2 + cluster -/
  cmScrub : SMap Nat
  /-- next stack-local address of each patrol scrubber (R193) -/
  hbmScrub : SMap Nat
  /-- refresh mode in effect, by stack: refresh_mode as it was at the last interval boundary (R194) -/
  refreshMode : SMap Nat
  /-- activations counted per bank under refresh management, by stack × 2^20 + pseudo-channel × 2^12 + bank (R194) -/
  activations : SMap Nat
  /-- the count at which each stack asks for refresh management, as reported at training (R194) -/
  rfmLimit : SMap Nat
  /-- refresh management commands issued to each stack (R194) -/
  rfmIssued : SMap Nat
  /-- ECS count of each stack when last read (R193) -/
  ecsLast : SMap Nat
  /-- the region table in force (R185, R186) -/
  regions : List Region
  /-- the sixteen region configuration words of the held table (R187) -/
  heldTable : Option (List W64)
  /-- the table that an accepted apply is loading (R185) -/
  loading : Option (List W64)
  /-- the mirrored ranges that the memory port dies match, loaded with the region table: region, base and size (R386) -/
  mirRanges : List (Nat × Nat × Nat)
  deriving DecidableEq, Repr

def Store.empty : Store := ⟨[], [], [], [], [], [], [], [], [], [], [], [], [], [], [], [], none, none, []⟩

/-! ### The network (chapter 08) -/

/-- What waits on the network (R216, R223). -/
inductive WaitKind where
  /-- a remote post of core c to the target core (R59, R60) -/
  | post (c target : Nat)
  /-- the accesses of a DMA operation (R68) -/
  | dma (c seq : Nat)
  /-- the tile of an ACC.SEND of core c (R108) -/
  | send (c seq : Nat)
  /-- an output row of an accord slot (R238) -/
  | accordRow (slot row : Nat)
  /-- the completion post of an accord slot (R238) -/
  | accordPost (slot : Nat)
  /-- a multicast: answers still to come (R228) -/
  | multicast (left : Nat)
  /-- a read or write of a hub unit -/
  | hub
  /-- a guest's transaction, with the tag the guest chose (R468) -/
  | guest (site : Nat) (tag : BitVec 16)
  deriving DecidableEq, Repr

structure Waiting where
  node : Nat
  unit : Nat
  tag : BitVec 16
  kind : WaitKind
  deriving DecidableEq, Repr

/-- Where a router's pool holds a packet (R215): the input port it came by, the channel it came on (class × 2 + virtual channel),
and whether it took the credits of that input's share or of the channel's reserve. -/
structure Room where
  port : Nat
  chan : Nat
  share : Bool
  deriving DecidableEq, Repr

/-- A packet between its source and its destination (R209): the router that holds it and the one that takes it next. They
are equal while the packet enters at its source router and once it waits for delivery at its destination. -/
structure Flying where
  /-- node ID, or 0x80 + MPD site of a transit router (R204) -/
  holder : Nat
  next : Nat
  p : Packet
  /-- place in the order of injection; the copies of a multicast packet share one (R219, R227) -/
  born : Nat
  /-- none while the packet is still with the unit that sends it, outside every pool (R215, R220) -/
  room : Option Room
  deriving DecidableEq, Repr

/-- A TLP of a host that the hub holds during the pause of a route swap, or behind one that it holds (R220, R437). -/
inductive HeldAccess where
  | bar0Read (host : Bool) (off len : Nat)
  | bar0Write (host : Bool) (off len : Nat) (v : W64)
  | bar2Read (host : Bool) (off len : Nat)
  | bar2Write (host : Bool) (off : Nat) (data : List Byte) (poison : Bool)
  deriving DecidableEq, Repr

structure Net where
  flying : List Flying
  waiting : List Waiting
  nextTag : BitVec 16
  /-- true while a route swap waits for its drain (R220 step 1) -/
  swapDue : Bool
  nextBorn : Nat
  /-- flits of the share of each active input, by router (R215) -/
  shares : SMap Nat
  /-- the member dies each multicast group was last applied with (R230) -/
  groups : SMap W64
  /-- oldest first -/
  held : List HeldAccess
  deriving DecidableEq, Repr

def Net.empty : Net := ⟨[], [], 0, false, 0, [], [], []⟩

/-- What an accord slot holds beside its registers (R231, R236, R237): cells by row × 128 + column, plus
contributor × 16,384 for a fixative slot. A cell is the residue with the NaN flag in bit 104, or a binary32 value. -/
structure AccSlot where
  cells : SMap (BitVec 105)
  /-- packets seen, by contributor × 512 + row × 4 + colblock (contributor 0 unless fixative) -/
  seen : SMap Unit
  hasFamily : Bool
  /-- output rows not yet acknowledged (R238) -/
  rowsLeft : Nat
  rowFailed : Bool
  /-- the completion post has gone out, and once it is answered whether it was taken (R238) -/
  posted : Bool
  postOk : Option Bool
  deriving DecidableEq, Repr

def AccSlot.empty : AccSlot := ⟨[], [], false, 0, false, false, none⟩

/-! ### Barrier channels (R302 to R306, R430, R431) -/

/-- Calibration of an extended channel at its root (R430): members that joined, the wire latency of each echo in units of
1/32 ns, and whether every member has received a delay since the channel was applied. -/
structure BarCal where
  joined : List Nat
  echoes : SMap Nat
  ready : Bool
  deriving DecidableEq, Repr

def BarCal.empty : BarCal := ⟨[], [], false⟩

structure BarCh where
  /-- the members the last apply set (R302) -/
  members : List Nat
  /-- member cores that have arrived in the current generation (R303) -/
  arrived : SMap Unit
  /-- at a root: member panels that have arrived (R305) -/
  panels : SMap Unit
  /-- this panel's arrival has gone to the root and its release is awaited (R305) -/
  outside : Bool
  /-- a release received and delayed (R431) -/
  releaseDue : Bool
  cal : BarCal
  deriving DecidableEq, Repr

def BarCh.empty : BarCh := ⟨[], [], [], false, false, .empty⟩

end Sys2Proof.Machine
end

