-- ==== Sys2Proof/Machine/ServeState.lean ====
section
/-! DEFINITION. The state of the request engines, the ingress log, the host ports and the mirror engine as plain data
(chapters 09, 10, 13 and 15), and what the panel has shown the world. -/

namespace Sys2Proof.Machine

/-- A sequence entry of R260; `kind` 0 DECODE, 1 PREFILL, 2 PREFILL_LAST. -/
structure SeqEntry where
  ctx : Nat
  kind : BitVec 2
  pos : Nat
  ntok : Nat
  depth : Nat
  prio : BitVec 3
  pagesHeld : Nat
  seed : W64
  keyStep : Nat
  deriving DecidableEq, Repr

/-- Where the step in progress stands (R261 to R273). -/
inductive StepPhase where
  /-- formed, not started -/
  | formed
  /-- start posted, no accepted results -/
  | running
  /-- ATTENTION raised, awaiting the ABORTED record (R273) -/
  | aborting
  /-- results accepted, not committed -/
  | accepted
  deriving DecidableEq, Repr

/-- The step in progress (R256 to R273); `attempt` as in R259. -/
structure StepRec where
  n : Nat
  attempt : BitVec 8
  entries : List SeqEntry
  phase : StepPhase
  results : List Result
  /-- the bytes of the accepted result records, in entry order (R296) -/
  raw : List Byte
  /-- pages allocated at the formation: context, index of the first page table entry, pages (R261) -/
  alloc : List (Nat × Nat × List Nat)
  /-- formed again after a takeover: the ABORTED record awaited is the other engine's (R275) -/
  takeover : Bool
  /-- its commit record was acknowledged by the standby, its deltas by the partner (R266) -/
  journalAcked : Bool
  partnerAcked : Bool
  deriving DecidableEq, Repr

/-- The hot map and move list of one participating cluster, as (page, slot) (R268). -/
structure HotLists where
  map : List (Nat × Nat)
  moves : List (Nat × Nat)
  deriving DecidableEq, Repr

/-- A submission whose prompt is being read (R442). -/
structure Taking where
  host : Bool
  queue : Nat
  entry : Entry
  deriving DecidableEq, Repr

/-- An ingress record that is in the ring (R293 to R299): its place, its digest, and what replay reads of it. -/
structure IngressRec where
  seq : Nat
  unit : Nat
  units : Nat
  type : BitVec 8
  step : Nat
  /-- the record's bytes before its digest (R297) -/
  body : List Byte
  digest : BitVec 384
  /-- the input the record carries, for an input type (R296) -/
  input : Option RqeInput
  deriving DecidableEq, Repr

/-- An entry taken from a submission queue whose head has not passed it (R274): whether the ingress record of its input is written,
and whether the head may pass it. -/
structure HeadDue where
  host : Bool
  queue : Nat
  recorded : Bool
  ready : Bool
  deriving DecidableEq, Repr

/-- What a completion reports (R443). -/
structure Completion where
  ctx : Nat
  host : Bool
  cq : Nat
  tag : W64
  tokens : List W32
  index : Nat
  reason : Nat
  origin : BitVec 12
  imported : Bool
  deriving DecidableEq, Repr

/-- A step that the standby has committed and the active engine has not yet (R266, R275): its completions, its tokens as context,
position and token, its sequences, and its result records. -/
structure Landed where
  step : Nat
  cs : List Completion
  logs : List (Nat × Nat × W32)
  seqs : Nat
  raw : List Byte
  deriving DecidableEq, Repr

/-- One request engine (R246), in HD0 or HD3. Registers hold its role, step numbers and configuration. -/
structure Engine where
  ctxs : SMap CtxRec
  /-- pages of the page area in use, ascending; every other page outside the guest range is free (R253) -/
  used : List Nat
  /-- inputs taken and not yet applied, in ingress-log order (R250) -/
  inputs : List RqeInput
  taking : List Taking
  nextIntake : Nat
  nextAdmit : Nat
  step : Option StepRec
  /-- policy registers in force: RQE_BATCH, RQE_STEP_CONFIG, reserve, RQE_PRIO_0 to 7 (R277) -/
  policy : List W64
  hot : SMap HotLists
  cold : List ColdMove
  /-- journal records sent and not acknowledged, oldest first (R274) -/
  journal : List JRec
  /-- entries taken whose submission head has not advanced, oldest first (R274) -/
  headsDue : List HeadDue
  /-- journal records, oldest first, that the standby has applied and whose acknowledgement is awaited -/
  received : Nat
  /-- records of the inputs applied since the last commit: the deltas of the step (R387) -/
  applied : List JRec
  /-- contexts whose cancellation waits for a cold move to be applied (R271) -/
  deferred : List Nat
  draining : Bool
  /-- submission heads frozen and no step formed: dry-down (R391) -/
  frozen : Bool
  /-- the standby has a snapshot, and is in sync once it has applied the records that follow it (R274) -/
  snapshotDone : Bool
  /-- of the journal's records, the first that were sent before the standby was in sync: nothing waits for them (R274) -/
  unwaited : Nat
  /-- of a standby: seq and digest that the last journal record or the snapshot carried (R299) -/
  seen : Option (Nat × BitVec 384)
  /-- of the 128 submission queues, host A's and then host B's, the one whose turn it is (R442) -/
  turn : Nat
  /-- the engine took over, and its first formation is that of the step after the last committed one, again (R275): whether the lost
  engine had formed it, and so had written the completions of its formation -/
  takeoverDue : Option Bool
  /-- of a standby: the step it committed that the active engine has not (R275) -/
  landed : Option Landed
  deriving DecidableEq, Repr

def Engine.empty : Engine :=
  ⟨[], [], [], [], 0, 0, none, [], [], [], [], [], 0, [], [], false, false, false, 0, none, 0, none, none⟩

/-- The ingress log (R293 to R301): one chain for the two engines. -/
structure Ingress where
  recs : List IngressRec
  lastDigest : BitVec 384
  /-- records of the log still to replay, and the chain digest reached (R301) -/
  replay : List IngressRec
  replayDigest : BitVec 384
  /-- the digest of the log's COMMIT_DIGEST record of the step in progress (R301) -/
  expect : Option (BitVec 384)
  /-- records of this log that the host has stored: those of a smaller seq (R298) -/
  stored : Nat
  /-- records of this log that the stream region has: those of a smaller seq (R298) -/
  sent : Nat
  /-- body length of the record that the ring had no room for (R298) -/
  need : Option Nat
  deriving DecidableEq, Repr

def Ingress.empty : Ingress := ⟨[], 0, [], 0, none, 0, 0, none⟩

/-- One host port (R435 to R449, R498, R513). -/
structure Port where
  /-- the completion store: completion queue and entry without its phase bit, in order (R445) -/
  store : List (Nat × Entry)
  /-- the phase bit of each completion queue's current pass: true is 1 (R440) -/
  phase : SMap Bool
  /-- MSI-X table words by vector × 2 + word (R498) -/
  msix : SMap W64
  /-- pending bits (R513) -/
  pba : SMap Unit
  /-- AER counts: unsupported requests, completer aborts, poisoned TLPs, completion timeouts and fatal errors (R448) -/
  aerUr : Nat
  aerCa : Nat
  aerPoison : Nat
  aerTimeout : Nat
  aerFatal : Nat
  /-- the function is in D3hot: its BARs and bus mastering are off (R435) -/
  d3hot : Bool
  /-- the link went down and host_loss_ms has not passed (R447) -/
  lossTimer : Bool
  /-- queues in use; a change takes effect at the next formation while an engine runs (R440) -/
  sqOn : List Nat
  cqOn : List Nat
  /-- completion queues enabled and not yet restarted (R440) -/
  cqFresh : List Nat
  /-- host_loss is due: the CANCEL inputs are taken at the next formation (R447) -/
  lossDue : Bool
  /-- contents of the cold slots in this host's memory, by slot (R270) -/
  cold : SMap (List (Byte × Bool))
  deriving DecidableEq, Repr

def Port.empty : Port := ⟨[], [], [], [], 0, 0, 0, 0, 0, false, false, [], [], [], false, []⟩

/-- Where this panel's hand-off stands (R391, R394). -/
inductive Handoff where
  | none
  /-- a hand-off sent, acknowledgement awaited: direction return?, contexts moved -/
  | sent (ret : Bool) (ctxs : List Nat)
  /-- acknowledged, and HANDOFF_OUT not yet in the log -/
  | acked (ret : Bool) (ctxs : List Nat)
  /-- no acknowledgement came; the requests end once a primary PMC exists (R377, R391) -/
  | lost
  | done
  deriving DecidableEq, Repr

/-- The guest store (R385): the partner's engine as it follows it, with pages numbered as the partner numbers them, the last
step applied, and the partner's last ingress seq and digest (R391). -/
structure Guest where
  eng : Engine
  step : Nat
  seq : Nat
  digest : BitVec 384
  /-- cold slots of the partner's hosts -/
  slots : Nat
  /-- requests that the partner imported and holds without a context yet (R392), with its page numbers -/
  waiting : List CtxRec
  deriving DecidableEq, Repr

def Guest.empty : Guest := ⟨.empty, 0, 0, 0, 0, []⟩

/-- What the mirror engine has to send (R386, R387, R411). -/
inductive MirSend where
  /-- bytes of a mirrored region: its number, the offset, data and poison -/
  | copy (region off : Nat) (data : List (Byte × Bool))
  | deltas (step : Nat) (recs : List JRec)
  | msg (m : MirrorMsg)
  deriving DecidableEq, Repr

/-- A mirror packet whose answer is awaited (R423): its hub and tag, and the address whose repair it asks for (R383). -/
structure MirAwait where
  hub : Nat
  tag : BitVec 16
  repair : Option Nat
  deriving DecidableEq, Repr

/-- Deltas of an accepted step that wait for the copies accepted before its results were (R387). -/
structure Unsent where
  step : Nat
  before : Nat
  recs : List JRec
  deriving DecidableEq, Repr

/-- The mirror engine (R384 to R394). -/
structure Mirror where
  guest : Guest
  /-- the partner as it last paired -/
  peer : Option PeerInfo
  /-- what is to be sent, oldest first; it goes out as the hub injects (R425 to R427) -/
  queue : List MirSend
  awaits : List MirAwait
  /-- copies accepted and not acknowledged (R386) -/
  copies : Nat
  unsent : List Unsent
  /-- 64 B blocks whose copy the partner has been asked for (R383) -/
  repairs : List Nat
  /-- bytes of copies sent beyond the last whole MiB counted -/
  bytesSent : Nat
  /-- steps whose deltas are sent and not acknowledged (R387) -/
  deltas : List Nat
  handoff : Handoff
  /-- guest contexts waiting for a FREE context, highest priority first, with their pages as adopted (R392) -/
  imports : List CtxRec
  /-- a return asked for or to be retried (R394) -/
  returnDue : Bool
  deriving DecidableEq, Repr

def Mirror.empty : Mirror := ⟨.empty, none, [], [], 0, [], [], 0, [], .none, [], false⟩

end Sys2Proof.Machine
end

