-- ==== Sys2Proof/Machine/SysState.lean ====
section
/-! DEFINITION. The state of power, bring-up, the error managers, the fabric, security and management as plain data
(chapters 11 to 14, 16 and 17), and what the panel shows the world. -/

namespace Sys2Proof.Machine

/-- Counts since 44 V was applied, as they stood at the last PANEL_RESET_N: shape selections, watchdog trips, debug scopes ever
open in HD0 and HD3, heat shutdowns by zone (R335, R464, R510). `zonesDue` says that the zones' states, which read as reset while
PANEL_RESET_N is asserted, have yet to show again (R13). -/
structure Kept where
  selections : Nat
  trips : Nat
  debugEver : List Nat
  heatOffs : List Nat
  zonesDue : Bool
  deriving DecidableEq, Repr

/-- Power and heat (chapter 11, R485 to R487). Zone states, temperatures and ceilings are PWR_ registers. -/
structure Power where
  in44 : Bool
  convStopped : Bool
  overVolt : Bool
  resetHeld : Bool
  trip : Bool
  brownOut : Bool
  /-- rails of ZW and ZE in regulation (PWR_GOOD) -/
  railW : Bool
  railE : Bool
  /-- zones whose eFuse is latched open (R327) -/
  efuse : List Nat
  /-- panel input power sums of the last 10 ms, newest first (R338) -/
  samples : List Nat
  /-- compute zones with a down change pending for heat, for the cap, and with an up change pending (R333) -/
  heatDown : List Nat
  capDown : List Nat
  up : List Nat
  /-- the change the token's holder is making: zone and new ceiling (R332) -/
  change : Option (Nat × Nat)
  /-- rails up in each zone, by zone: the first so many in the order of R325 -/
  rails : SMap Nat
  /-- level of each compute zone's core rail in mV (R319) -/
  coreMv : SMap Nat
  /-- last temperature taken in each zone (R330) -/
  temps : SMap Nat
  /-- zones shut down for heat and not powered since (R335) -/
  hot : List Nat
  /-- points that islands are changing to, by node × 32 + island (R318 steps 2 to 4) -/
  moving : SMap Nat
  /-- droop thresholds in mV, four for each of P0 to P4, loaded at stage 8 (R320, R359) -/
  droopMv : List (BitVec 16)
  /-- bring-ups since 44 V was applied (R362), and the other counts that span a reset -/
  bringups : Nat
  kept : Kept
  /-- droop factor of each island that stretches, by node × 32 + island (R320) -/
  droop : SMap Nat
  /-- islands held at 2.00× by a margin alarm (R324) -/
  alarmed : SMap Unit
  deriving DecidableEq, Repr

def Power.off : Power :=
  { in44 := false, convStopped := false, overVolt := false, resetHeld := false, trip := false, brownOut := false, railW := false,
    railE := false, efuse := [], samples := [], heatDown := [], capDown := [], up := [], change := none, rails := [], coreMv := [],
    temps := [], hot := [], moving := [], droopMv := [], bringups := 0, kept := ⟨0, 0, [], [], false⟩, droop := [], alarmed := [] }

/-- Sites found failed: compute sites, core sites as compute site × 18 + core site, MPD sites. -/
structure FailSet where
  compute : List Nat
  core : List Nat
  mpd : List Nat
  deriving DecidableEq, Repr

def FailSet.empty : FailSet := ⟨[], [], []⟩

/-- A run of a test pattern engine (R197, R198): the element reached, whether it is a quick run, what MPD_TPE_RESULT shows of it, and
the level of the stack's HBM rail, in per mille of its nominal level (R325). -/
structure TpeRun where
  element : Nat
  quick : Bool
  result : Nat
  rows : Nat
  left : Nat
  level : Nat
  deriving DecidableEq, Repr

/-- Bring-up results kept between stages and restarts (R351 to R366). Sites are the indices of R349. -/
structure Bringup where
  /-- entries into each stage during this bring-up (R362) -/
  attempts : SMap Nat
  hubsPassed : List Nat
  /-- hubs that stay in ROM (R353) -/
  inRom : List Nat
  /-- hubs that run the panel's flacon -/
  running : List Nat
  flacon : Option Flacon
  /-- false copy A, true copy B -/
  copyB : Bool
  linksFailed : List (Nat × Nat)
  zonesLost : List Nat
  /-- found at stage 4 (R354) -/
  failed4 : FailSet
  /-- found at stage 5 (R357) -/
  failed5 : FailSet
  /-- found at stage 7 or in service (R358, R380) -/
  failed7 : FailSet
  stackFailed : List Nat
  stacksTested : List Nat
  rowPairs : List Nat
  /-- site not in use of each physical row of a kept row pair: (row, column) -/
  unused : List (Nat × Nat)
  servingHd3 : Bool
  /-- clusters whose spare has been promoted: die × 2 + cluster (R26) -/
  sparesUsed : List Nat
  /-- core site left out of a cluster's numbering when it is not site 8 (R24): die × 2 + cluster → core site -/
  skipSite : SMap Nat
  /-- core site of a logical core whose spare was promoted (R26) -/
  promoted : SMap Nat
  /-- link end indices of the sites that stage 5 has tested in this bring-up (R360) -/
  sitesTested : List Nat
  /-- stage 3 restarted a zone for convergence (R353) -/
  converged : Bool
  /-- a stage failed with PMC_RESTART and was retried (R366) -/
  pmcRetried : Bool
  /-- row pairs that a handling at ZONE or ROW_PAIR level leaves out of the next reshape (R380) -/
  dropPairs : List Nat
  /-- the runs of the test pattern engines, by MPD site (R197, R198) -/
  runs : SMap TpeRun
  /-- sites whose power gates are open, as link end indices, and core sites whose gates are, as compute site × 18 + core site
  (R326) -/
  gates : List Nat
  coreGates : List Nat
  /-- the candidate copies that HD0 and HD3 read at stage 1, and the flacon that each of them runs (R347, R353), by hub -/
  read : SMap Flacon
  own : SMap Flacon
  /-- lanes repaired, by link end index × 16 + port (R351) -/
  lanes : SMap Nat
  deriving DecidableEq, Repr

def Bringup.empty : Bringup :=
  { attempts := [], hubsPassed := [], inRom := [], running := [], flacon := none, copyB := false, linksFailed := [],
    zonesLost := [], failed4 := .empty, failed5 := .empty, failed7 := .empty, stackFailed := [], stacksTested := [],
    rowPairs := [], unused := [], servingHd3 := false, sparesUsed := [], skipSite := [], promoted := [], sitesTested := [],
    converged := false, pmcRetried := false, dropPairs := [], runs := [], gates := [], coreGates := [],
    read := [], own := [], lanes := [] }

/-- The security fuses of a hub (R450). -/
structure FuseSet where
  rootHash : BitVec 384
  /-- owner slots: key hash and revoke bit -/
  owners : List (BitVec 384 × Bool)
  floorC : Nat
  floorF : Nat
  /-- certificate OTP, 2 KiB: the device certificate, as far as it is written -/
  certOtp : List Byte
  deriving DecidableEq, Repr

def FuseSet.blank : FuseSet := ⟨0, [(0, false), (0, false), (0, false), (0, false)], 0, 0, []⟩

/-- What is fixed at manufacture (R2, R4, R450, R507 to R509) and, for the fuse sets, blown later. -/
structure Fab where
  /-- 0 DZA-7264-F, 1 DZA-7264-C, 2 DZA-7248-C (R510) -/
  grade : Nat
  fusedPair : Option Nat
  /-- behaviour-level masks that differ from 0x01, by link end index of R349 -/
  levels : SMap (BitVec 8)
  /-- steppings that differ from A0, by link end index -/
  steppings : SMap (BitVec 4)
  uds : BitVec 384
  fuses0 : FuseSet
  fuses3 : FuseSet
  deriving DecidableEq, Repr

def Fab.shipped : Fab := ⟨0, none, [], [], 0, .blank, .blank⟩

/-- A field fault list entry (R348). -/
structure FflEntry where
  kind : BitVec 8
  site : BitVec 8
  sub : BitVec 8
  reason : BitVec 8
  occurrences : Nat
  first : Nat
  deriving DecidableEq, Repr

/-- A field fault list bank (R348): its header and its entries. -/
structure FflBank where
  magic : BitVec 32
  generation : Nat
  entries : List FflEntry
  mac : BitVec 384
  deriving DecidableEq, Repr

/-- An erased bank. -/
def FflBank.erased : FflBank := ⟨0xFFFFFFFF, 2 ^ 64 - 1, [], BitVec.allOnes 384⟩

/-- An NVM (R342): the bytes of its copy region that differ from erased ones, as far as they are known, and two field fault list
banks; `known` says that what stood in the region before the panel was first powered is among them (log 48). The last 4 MiB read as
erased. -/
structure Nvm where
  image : SMap Byte
  known : Bool
  bank0 : FflBank
  bank1 : FflBank
  deriving DecidableEq, Repr

def Nvm.blank : Nvm := ⟨[], false, .erased, .erased⟩

/-- What a handling waits for (R374, R380 to R382). -/
inductive HPhase where
  /-- the spare loaded by the atomizer is being checked (R381 step 5) -/
  | spareCheck (die cluster core : Nat)
  /-- the cores of a cluster are halting (R382 step 1) -/
  | halting (die cluster : Nat)
  /-- the retried step's results are awaited (R374) -/
  | retry (step : Nat)
  /-- dry-down and reshape -/
  | reshape
  deriving DecidableEq, Repr

structure Handling where
  r : Report
  level : BitVec 3
  escalated : Bool
  replaced : Bool
  seq : BitVec 32
  phase : HPhase
  deriving DecidableEq, Repr

/-- A queued report with its count (R373), the hub that reported it, and, for one that another hub has logged and passed on to the
primary PMC at a higher level, its handling (R374). -/
structure QEntry where
  r : Report
  count : Nat
  src : Nat
  passed : Option Handling
  deriving DecidableEq, Repr

structure ErrMgr where
  queue : List QEntry
  handling : Option Handling
  deriving DecidableEq, Repr

/-- What follows a dry-down (R380, R391, R401). -/
inductive AfterDry where
  | hold
  | reshape
  | restart3
  | safe
  deriving DecidableEq, Repr

/-- The PMCs (R377) and panel-wide management state. -/
structure Pmc where
  primaryHd3 : Bool
  restarting : List Nat
  /-- PMCs that a debugger has halted (R464) -/
  halted : List Nat
  /-- the alternate PMC acts as primary while the primary's restarts (R332, R377) -/
  tookOver : Bool
  armed : Bool
  /-- dry-down in progress or done, and what follows it -/
  dry : Option AfterDry
  /-- DEs since 44 V, toward the predictive margin (R398), by memory unit × 64 + its bank or pseudo-channel -/
  deCounts : SMap Nat
  /-- CEs by memory unit, and discarded flits by 4,096 + link end × 16 + port, toward theirs (R398) -/
  ceCounts : SMap Nat
  /-- addresses of the DE records of the attempt in progress (R383) -/
  des : List Nat
  /-- threshold crossings the PLDM sensors showed last (R478), by sensor ID -/
  sensors : SMap Nat
  /-- the device key under which the banks of the field fault list were checked at stage 1 (R348, R457) -/
  bankKey : BitVec 384
  deriving DecidableEq, Repr

def Pmc.start : Pmc := ⟨false, [], [], false, false, none, [], [], [], [], 0⟩

/-! ### The fabric (chapter 14) -/

/-- A command in progress at a network interface (R418, R419, R421). -/
structure FCmd where
  q : Nat
  index : Nat
  op : BitVec 8
  coord : BitVec 12
  node : BitVec 7
  localPa : Nat
  remotePa : Nat
  remotePost : BitVec 31
  localPost : BitVec 31
  postLocal : Bool
  /-- packets not yet answered -/
  left : Nat
  status : BitVec 8
  deriving DecidableEq, Repr

/-- A request packet awaiting its answer (R423). -/
structure FOut where
  tag : BitVec 16
  q : Nat
  index : Nat
  p : FPacket
  reissued : Bool
  deriving DecidableEq, Repr

/-- A packet in a switch's pool, with what its cells were taken from (R413): the input it came in by (a local port, 4 the network
interface, 5 the edge partner), its channel there, and the count: 0 the channel's reserve, 1 the rest of the input's reserve, 2 the
input's share. -/
structure Pooled where
  p : FPacket
  input : Nat
  chan : Nat
  count : Nat
  deriving DecidableEq, Repr

structure Fabric where
  cmds : List FCmd
  waiting : List FOut
  nextTag : BitVec 16
  /-- next ring index to start, per queue; under queue + 8, the producer index last polled (R418) -/
  started : SMap Nat
  /-- statuses of ended slots at or above the consumer index, by queue × 2^16 + index -/
  ended : SMap (BitVec 8)
  /-- injection rates below 256 by destination coordinate (R425): the network interface's -/
  limiter : SMap Nat
  /-- and the mirror engine's -/
  mlimiter : SMap Nat
  /-- ports still to drain for a route apply, the first one draining (R417) -/
  swapping : List Nat
  /-- the pool: packets queued per local port, newest last; under 4, those that wait for a route swap (R417); under 5, those that wait
  for room at the edge partner (R413) -/
  queues : SMap (List Pooled)
  /-- packets of the panel's own units that wait for room in the pool -/
  ni : List FPacket
  /-- packets delivered to the network interface and not yet served (R415) -/
  arrived : List FPacket
  /-- ports whose DETACH_ACK is awaited (R427) -/
  detaching : List Nat
  /-- a detach that waits for a route apply to complete (R433) -/
  detachDue : Bool
  /-- the ports of each route entry as it was last applied, by dimension × 16 + value (R428) -/
  applied : SMap Nat
  /-- cells that each port has used of its neighbour's pool and not got back, by port × 16 + count: 0 to 7 the channel reserves, 8 the
  rest of the reserve, 9 the share (R413) -/
  credit : SMap Nat
  /-- codewords corrected at each port (R404); no register shows the count -/
  corrected : SMap Nat
  /-- answers that came after another had completed their request (R423), and marks on packets of classes that are not marked (R424);
  no register shows them -/
  late : Nat
  oddMarks : Nat
  /-- packets with a reserved opcode (R411), and packets discarded that came over no port; no register shows them -/
  malformed : Nat
  unported : Nat
  deriving DecidableEq, Repr

def Fabric.empty : Fabric := ⟨[], [], 0, [], [], [], [], [], [], [], [], [], false, [], [], [], 0, 0, 0, 0⟩

/-! ### Security (chapter 16) -/

/-- The keys that ROM derived at the hub's last boot, and what firmware got of them (R452, R457): the UDS fuses are locked, the UDS and
the DeviceID private key are erased, and HUB_FW runs from protected SRAM, under the digest that was checked there. -/
structure Sec where
  udsLocked : Bool
  sramDigest : BitVec 384
  cdi : BitVec 384
  aliasHeld : Bool
  /-- seed of the alias key (R457), the public key, and its certificate: measurements 1 to 7 as at boot, and the DeviceID key's signature -/
  aliasSeed : BitVec 384
  aliasKey : BitVec 768
  tcbInfo : List Byte
  aliasCert : BitVec 768
  deviceKey : BitVec 384
  bootRandom : BitVec 384
  entropyFailed : Bool
  /-- SECURE_SRAM opened: keys erased until the next bring-up (R464) -/
  erased : Bool
  deriving DecidableEq, Repr

def Sec.empty : Sec := ⟨false, 0, 0, false, 0, 0, [], 0, 0, 0, false, false⟩

/-- A guest site (R466 to R469). -/
structure GuestSite where
  powered : Bool
  entry : Option GuestEntry
  measurement : BitVec 384
  /-- bytes left in the bucket, and what waits for it: transactions into the panel, and answers to the guest (R469) -/
  bucket : Nat
  into : List Packet
  back : List Packet
  /-- the guest's readings over the sideband: temperature in °C and power in W (R466) -/
  tempC : Nat
  powerW : Nat
  deriving DecidableEq, Repr

def GuestSite.off : GuestSite := ⟨false, none, 0, 0, [], [], 0, 0⟩

/-! ### Management (chapter 17) -/

structure Update where
  component : Nat
  data : SMap Byte
  verified : Bool
  deriving DecidableEq, Repr

structure Mgmt where
  /-- endpoint IDs by transport: 0 I3C, 1 SMBus, 2 PCIe VDM (R476) -/
  eids : SMap (BitVec 8)
  i3cAddr : Option (BitVec 7)
  update : Option Update
  receiver : Option (BitVec 8)
  jtag : JtagInstr
  deriving DecidableEq, Repr

def Mgmt.empty : Mgmt := ⟨[], none, none, none, .idcode⟩

/-- What a hub can do as an SPDM responder, and its algorithms (R459): certificates, challenges, signed measurements; ECDSA P-384 and
SHA-384. -/
inductive SpdmCap where
  | certificates
  | challenge
  | signedMeasurements
  deriving DecidableEq, Repr

inductive SpdmAlg where
  | ecdsaP384
  | sha384
  deriving DecidableEq, Repr

/-- SPDM and management answers (R459, R460, R475, R477, R478). -/
inductive Answer where
  | spdmVersion (major minor : Nat)
  | spdmCapabilities (l : List SpdmCap)
  | spdmAlgorithms (l : List SpdmAlg)
  | spdmDigests (chain : BitVec 384)
  /-- the certificate chain of slot 0: root, manufacturing key, device certificate, alias certificate (R457, R459) -/
  | spdmCertificate (chain : List (List Byte))
  | spdmChallenge (nonce : BitVec 256) (sig : BitVec 768)
  | spdmMeasurements (blocks : List (Nat × List Byte)) (sig : BitVec 768)
  | spdmError
  | doeDiscovery (protocols : List Nat)
  | mctpEid (eid : BitVec 8)
  | mctpVersion (v : Nat)
  | mctpTypes (types : List Nat)
  | mctpVendor
  | notReady
  | pldmOk
  | pldmRetry
  | pldmNotUpdateable
  | pldmFail
  | pldmPending
  | none
  deriving DecidableEq, Repr

/-- What leaves the panel. -/
inductive Out where
  /-- a completion entry written to a host's queue -/
  | completion (host : Bool) (cq slot : Nat) (words : List W64)
  | msix (host : Bool) (vector : Nat)
  | readData (host : Bool) (data : List Byte) (poison : Bool)
  | completerAbort (host : Bool)
  | unsupported (host : Bool)
  /-- a record copied to the host stream region, at its offset (R298) -/
  | stream (off : Nat) (data : List Byte)
  /-- a fabric packet sent on a port (0 to 15) -/
  | fabric (port : Nat) (p : FPacket)
  /-- the content of the mirror packet that is injected under a tag (R411, log 16) -/
  | mirror (tag : BitVec 16) (m : MirSend)
  | answer (hub : Nat) (a : Answer)
  | platformEvent (sensor value : Nat)
  /-- neighbours of a hub's fabric ports see its link go down (R429) -/
  | linkDown (port : Nat)
  | jtag (hub : Nat) (acts : JtagInstr)
  | idcode (hub : Nat) (code : BitVec 32)
  /-- data that a debug instruction shifts out (R464) -/
  | jtagData (hub : Nat) (v : W64)
  /-- an in-band interrupt of the I3C bus: an MCTP message is pending (R475) -/
  | inBand (hub : Nat)
  /-- the challenge sent to a guest (R467) -/
  | guestChallenge (site : Nat) (c : BitVec 384)
  /-- an answer handed to the guest at a site (R468) -/
  | guest (site : Nat) (p : Packet)
  deriving DecidableEq, Repr

end Sys2Proof.Machine
end

