-- ==== Sys2Proof/Machine/State.lean ====
section
/-! DEFINITION. The state of the panel: `Panel` holds every piece of state the spec gives the hardware, `State` adds the
queue of commands that wait. `State.reset` is the panel right after reset, with 44 V not yet applied (R13, R486).
Registers live in `regs`, one entry per register whose value differs from its reset value (R13). -/

namespace Sys2Proof.Machine

/-- The panel. `freeCtr` is the model's own: it numbers the free values drawn so far (log 1). -/
structure Panel where
  regs : SMap W64
  st : Store
  /-- logical cores whose state differs from a cleared one (R36) -/
  cores : SMap Core
  net : Net
  /-- accord slots in use, by node × 64 + slot (R231) -/
  accords : SMap AccSlot
  bars : SMap BarCh
  eng0 : Engine
  eng3 : Engine
  ing : Ingress
  /-- the service image as the atomizer loaded it (R283) -/
  image : List Byte
  portA : Port
  portB : Port
  mir : Mirror
  pwr : Power
  bring : Bringup
  fab : Fab
  /-- NVM A and NVM B (R342, R348) -/
  nvmA : Nvm
  nvmB : Nvm
  /-- error managers by hub (R373, R374) and the log ring's panel-wide state (R376, R378) -/
  errs : SMap ErrMgr
  pmc : Pmc
  /-- fabric switch and network interface by hub (chapter 14) -/
  fabric : SMap Fabric
  /-- security state by hub (chapter 16) and the guest sites -/
  sec : SMap Sec
  guests : SMap GuestSite
  oe : SMap (BitVec 16)
  /-- management endpoints by hub (chapter 17) -/
  mgmt : SMap Mgmt
  /-- reports sent by units and not yet at an error manager (R372): hub and report -/
  reports : List (Nat × Report)
  /-- what the panel has shown the world, newest first -/
  out : List Out
  freeCtr : Nat
  deriving DecidableEq, Repr

/-- The panel and the commands that wait, first in, first out. -/
structure State where
  p : Panel
  pending : List Instr
  deriving DecidableEq, Repr

/-- Reasons the machine stops with a fault. No meaning of the model raises one: every condition the spec calls a fault of
the panel has an effect the spec describes, and is a next state (safe). -/
inductive Fault where
  /-- kept for the interface; raised by nobody -/
  | none
  deriving DecidableEq, Repr

/-- Reasons a command has no meaning. -/
inductive Refusal where
  /-- raised by `exec` for a row of the table that has no meaning yet (safe) -/
  | notModelled (mnemonic : String)
  deriving DecidableEq, Repr

def Panel.reset : Panel :=
  { regs := [], st := .empty, cores := [], net := .empty, accords := [], bars := [], eng0 := .empty, eng3 := .empty,
    ing := .empty, image := [], portA := .empty, portB := .empty, mir := .empty, pwr := .off,
    bring := .empty, fab := .shipped, nvmA := .blank, nvmB := .blank, errs := [], pmc := .start, fabric := [], sec := [],
    guests := [], oe := [], mgmt := [], reports := [], out := [], freeCtr := 0 }

/-- The machine right after reset: the panel with no 44 V applied, and no command waiting. -/
def State.reset : State := ⟨Panel.reset, []⟩

/-- A state with its panel changed and its queue kept. -/
def State.upd (s : State) (f : Panel → Panel) : State := { s with p := f s.p }

end Sys2Proof.Machine
end

