-- ==== Sys2Proof/Machine/Ops.lean ====
section
/-! DEFINITION. The named operations every meaning is built from: bit fields, sorted maps, the register file, free values,
reports to the error managers, outputs, and where logical units lie. -/

namespace Sys2Proof.Machine

/-! ### Bits and bytes -/

/-- Bits [hi:lo] of a number (R10). -/
def bits (w hi lo : Nat) : Nat := (w >>> lo) % 2 ^ (hi + 1 - lo)

/-- Bit k of a number. -/
def bit (w k : Nat) : Bool := (w >>> k) % 2 == 1

def b2n (b : Bool) : Nat := if b then 1 else 0

/-- Bits [hi:lo] of a register value. -/
def RField.read (f : RField) (w : W64) : Nat := bits w.toNat f.hi f.lo

/-- The mask of bits [hi:lo]. -/
def maskOf (hi lo : Nat) : W64 := BitVec.ofNat 64 ((2 ^ (hi + 1 - lo) - 1) <<< lo)

/-- A register value with bits [hi:lo] replaced by the low bits of v. -/
def putBits (w : W64) (hi lo v : Nat) : W64 :=
  (w &&& ~~~ maskOf hi lo) ||| (BitVec.ofNat 64 ((v % 2 ^ (hi + 1 - lo)) <<< lo))

def RField.write (f : RField) (w : W64) (v : Nat) : W64 := putBits w f.hi f.lo v

/-- A number as n little-endian bytes (R10). -/
def toBytes : Nat → Nat → List Byte
  | 0, _ => []
  | n + 1, v => BitVec.ofNat 8 v :: toBytes n (v / 256)

/-- Little-endian bytes as a number (R10). -/
def ofBytes : List Byte → Nat
  | [] => 0
  | b :: bs => b.toNat + 256 * ofBytes bs

/-- The two's complement value of the low n bits of v. -/
def signed (n v : Nat) : Int :=
  let m := v % 2 ^ n
  if 2 * m < 2 ^ n then (m : Int) else (m : Int) - (2 ^ n : Nat)

/-- An integer modulo 2^64. -/
def wrap64 (i : Int) : W64 := BitVec.ofInt 64 i

/-- Numbers of [0, n) that satisfy f, ascending. -/
def upTo (n : Nat) (f : Nat → Bool) : List Nat := (List.range n).filter f

/-- Sum of a list. -/
def sumL (l : List Nat) : Nat := l.foldl (· + ·) 0

/-- Number of bits set among the low n bits. -/
def popcount (n w : Nat) : Nat := (upTo n (bit w)).length

/-! ### Sorted maps -/

/-- The value at a key. The keys rise, so the search stops at the first larger key. -/
def smGet {V : Type} : SMap V → Nat → Option V
  | [], _ => none
  | (k, v) :: m, i => if k = i then some v else if i < k then none else smGet m i

def smGetD {V : Type} (m : SMap V) (i : Nat) (d : V) : V := (smGet m i).getD d

def smHas {V : Type} (m : SMap V) (i : Nat) : Bool := (smGet m i).isSome

/-- Insert or replace. -/
def smSet {V : Type} : SMap V → Nat → V → SMap V
  | [], i, x => [(i, x)]
  | (k, v) :: m, i, x =>
    if k = i then (i, x) :: m else if i < k then (i, x) :: (k, v) :: m else (k, v) :: smSet m i x

def smDel {V : Type} : SMap V → Nat → SMap V
  | [], _ => []
  | (k, v) :: m, i => if k = i then m else if i < k then (k, v) :: m else (k, v) :: smDel m i

/-- Write a value, listing nothing equal to the default: the canonical form of memory and of the register file. -/
def smPut {V : Type} [DecidableEq V] (m : SMap V) (d : V) (i : Nat) (x : V) : SMap V :=
  if x = d then smDel m i else smSet m i x

/-- Keep the entries whose key satisfies f. -/
def smFilter {V : Type} (m : SMap V) (f : Nat → Bool) : SMap V := m.filter fun e => f e.1

/-- The keys rise strictly. -/
def smSorted {V : Type} : SMap V → Bool
  | [] => true
  | [_] => true
  | (k, _) :: (k', v) :: m => decide (k < k') && smSorted ((k', v) :: m)

/-- Canonical form: keys rise strictly and no entry equals the default. -/
def smWf {V : Type} [DecidableEq V] (m : SMap V) (d : V) : Bool := smSorted m && m.all fun e => e.2 != d

/-- Insert into an ascending list without repeats. -/
def insertAsc : List Nat → Nat → List Nat
  | [], x => [x]
  | y :: l, x => if x = y then y :: l else if x < y then x :: y :: l else y :: insertAsc l x

/-! ### Registers (R11 to R13, R504) -/

/-- The home of a register that several hubs hold alike: one copy stands for all (R504). -/
def homeUnit (r : Reg) (u : Nat) : Nat :=
  match r.info.share with
  | .own => u
  | .pair => 0
  | .zone => if u < 2 then 0 else 2
  | .all => 0

/-- The key of a register in the register file: register, unit, and its two indices. -/
def rkey (r : Reg) (u i j : Nat) : Nat := ((r.ctorIdx * 2048 + u) * 8192 + i) * 128 + j

/-- The value a register holds: what was written, else its reset value (R13). -/
def Panel.get (p : Panel) (r : Reg) (u : Nat := 0) (i : Nat := 0) (j : Nat := 0) : W64 :=
  smGetD p.regs (rkey r (homeUnit r u) i j) r.info.reset

def Panel.put (p : Panel) (r : Reg) (v : W64) (u : Nat := 0) (i : Nat := 0) (j : Nat := 0) : Panel :=
  { p with regs := smPut p.regs r.info.reset (rkey r (homeUnit r u) i j) v }

def Panel.fget (p : Panel) (f : RField) (u : Nat := 0) (i : Nat := 0) (j : Nat := 0) : Nat :=
  f.read (p.get f.reg u i j)

def Panel.fput (p : Panel) (f : RField) (v : Nat) (u : Nat := 0) (i : Nat := 0) (j : Nat := 0) : Panel :=
  p.put f.reg (f.write (p.get f.reg u i j) v) u i j

def Panel.flag (p : Panel) (f : RField) (u : Nat := 0) (i : Nat := 0) (j : Nat := 0) : Bool := p.fget f u i j == 1

/-- Largest value of a field. -/
def RField.max (f : RField) : Nat := 2 ^ (f.hi + 1 - f.lo) - 1

/-- Add n to a counter that holds at its largest value. -/
def Panel.addHold (p : Panel) (f : RField) (n : Nat) (u : Nat := 0) (i : Nat := 0) (j : Nat := 0) : Panel :=
  p.fput f (min f.max (p.fget f u i j + n)) u i j

/-- Add n to a counter that wraps. -/
def Panel.addWrap (p : Panel) (f : RField) (n : Nat) (u : Nat := 0) (i : Nat := 0) (j : Nat := 0) : Panel :=
  p.fput f (p.fget f u i j + n) u i j

/-- Return a register to its reset value. -/
def Panel.resetReg (p : Panel) (r : Reg) (u : Nat := 0) (i : Nat := 0) (j : Nat := 0) : Panel :=
  p.put r r.info.reset u i j

/-- Forget every register whose key satisfies f: those registers read their reset values. -/
def Panel.dropRegs (p : Panel) (f : Reg → Nat → Bool) (all : List Reg) (units : List Nat) : Panel :=
  { p with regs := p.regs.filter fun e =>
      !(all.any fun r => units.any fun u => decide (e.1 / 2 ^ 20 = r.ctorIdx * 2048 + u) && f r u) }

/-! ### Free values -/

/-- Draw a free value below n (any value when n is 0). -/
def Panel.draw (p : Panel) (n : Nat) : Nat × Panel :=
  (if n = 0 then Config.free p.freeCtr else Config.free p.freeCtr % n, { p with freeCtr := p.freeCtr + 1 })

/-- Draw k free bytes. -/
def Panel.drawBytes (p : Panel) (k : Nat) : List Byte × Panel :=
  (toBytes k (Config.free p.freeCtr), { p with freeCtr := p.freeCtr + 1 })

/-- Draw a free word of n bits. -/
def Panel.drawBits (p : Panel) (n : Nat) : BitVec n × Panel :=
  (BitVec.ofNat n (Config.free p.freeCtr), { p with freeCtr := p.freeCtr + 1 })

/-! ### Failed sites -/

/-- Add the elements of l to an ascending list without repeats. -/
def addAll (m l : List Nat) : List Nat := l.foldl insertAsc m

/-- Failed compute sites, found at any stage. -/
def Bringup.computeFailed (b : Bringup) : List Nat := addAll (addAll b.failed4.compute b.failed5.compute) b.failed7.compute

/-- Failed core sites, as compute site × 18 + core site. -/
def Bringup.coreFailed (b : Bringup) : List Nat := addAll (addAll b.failed4.core b.failed5.core) b.failed7.core

/-- Failed MPD sites. -/
def Bringup.mpdFailed (b : Bringup) : List Nat := addAll (addAll b.failed4.mpd b.failed5.mpd) b.failed7.mpd

/-! ### The shape and where units lie (R20 to R27, R349) -/

def Panel.shapeValid (p : Panel) : Bool := p.flag F.HUB_SHAPE_valid

def Panel.nDies (p : Panel) : Nat := p.fget F.HUB_SHAPE_logical_rows * 8

def Panel.nCores (p : Panel) : Nat := p.fget F.HUB_SHAPE_logical_cores

def Panel.nStacks (p : Panel) : Nat := p.fget F.HUB_SHAPE_working_stacks

def Panel.hasDie (p : Panel) (d : Nat) : Bool := p.shapeValid && d < p.nDies

def Panel.hasCore (p : Panel) (c : Nat) : Bool := p.shapeValid && c < p.nCores

def Panel.hasStack (p : Panel) (s : Nat) : Bool := p.shapeValid && s < p.nStacks

/-- HBM capacity of a stack in GiB: 48 on the DZA-7264-F, 36 on the C grades (R33). -/
def Panel.stackGib (p : Panel) : Nat := if p.fab.grade = 0 then 48 else 36

/-- Whether a node ID names a node of the shape in force (R207). -/
def Panel.hasNode (p : Panel) (n : Nat) : Bool :=
  if n < 0x40 then p.hasDie n else if n < 0x64 then p.hasStack (n - 0x40)
  else decide (0x70 ≤ n) && decide (n < 0x74)

/-- Node ID of a hub. -/
def hubNode (h : Nat) : Nat := 0x70 + h

/-- Compute site (R349) of a logical die (R21, R22). -/
def Panel.dieSite (p : Panel) (d : Nat) : Nat :=
  p.fget F.HUB_L2P_ROW_phys_row 0 (d / 8) * 9 + bits (p.fget F.HUB_L2P_ROW_cols 0 (d / 8)) (4 * (d % 8) + 3) (4 * (d % 8))

/-- MPD site (R349) of a logical stack (R27). -/
def Panel.stackSite (p : Panel) (s : Nat) : Nat :=
  bits (p.fget F.HUB_L2P_STACK_sites 0 (s / 8)) (6 * (s % 8) + 5) (6 * (s % 8))

/-- Core site within its cluster of a logical core (R24, R26). -/
def Panel.coreSite (p : Panel) (c : Nat) : Nat :=
  match smGet p.bring.promoted c with
  | some s => s
  | none => let sk := smGetD p.bring.skipSite (c / 8) 8
            if c % 8 < sk then c % 8 else c % 8 + 1

/-- Row (0 to 7, strips doubled) and column of a link end index (R349). -/
def endPlace (e : Nat) : Nat × Nat :=
  if e < 72 then (e / 9, e % 9) else if e < 108 then ((e - 72) / 9 * 2, (e - 72) % 9) else (0, 0)

/-- Link end index of a router: a node ID, or 0x80 + MPD site of a transit router (R349). -/
def Panel.endOf (p : Panel) (n : Nat) : Nat :=
  if n < 0x40 then p.dieSite n else if n < 0x70 then 72 + p.stackSite (n - 0x40)
  else if n < 0x80 then 120 + (n - 0x70) else 72 + (n - 0x80)

/-- Whether a hub's edge zone is in regulation. -/
def Panel.hubUp (p : Panel) (h : Nat) : Bool := if h < 2 then p.pwr.railW else p.pwr.railE

/-- Hub of the primary PMC (R353, R377). -/
def Panel.primaryHub (p : Panel) : Nat := if p.pmc.primaryHd3 then 3 else 0

/-- Zone of a link end (R15): Z(3p + g) by row pair and column group, 12 for ZW, 13 for ZE. -/
def zoneOfEnd (e : Nat) : Nat :=
  if e < 72 then e / 18 * 3 + e % 9 / 3 else if e < 108 then (e - 72) / 9 * 3 + e % 9 / 3 else if e < 122 then 12 else 13

/-- Zone of a router. -/
def Panel.zoneOf (p : Panel) (n : Nat) : Nat := zoneOfEnd (p.endOf n)

/-- The node is of the shape and its zone is powered: it answers (R207, R328, R334). -/
def Panel.nodeUp (p : Panel) (n : Nat) : Bool :=
  p.hasNode n && (if 0x70 ≤ n then p.hubUp (n - 0x70) else !p.bring.zonesLost.contains (p.zoneOf n))

def Panel.coreUp (p : Panel) (c : Nat) : Bool := p.hasCore c && p.nodeUp (c / 16)

/-- Home hub of a link end (R372). -/
def homeHub (e : Nat) : Nat :=
  if 120 ≤ e then e - 120
  else
    let (r, c) := endPlace e
    if r < 4 then (if c ≤ 4 then 0 else 2) else (if c ≤ 4 then 1 else 3)

/-- A router reaches a hub: the hub has power, and once service routes are set its table has a route there (R217, R372). -/
def Panel.reaches (p : Panel) (n h : Nat) : Bool :=
  let w := (p.get .PNW_ROUTE n (0x70 + h)).toNat
  p.hubUp h && (!p.pmc.armed || n == 0x70 + h || (bit w 63 && bits w 3 0 != 15))

/-- The other hub of a hub's edge zone. -/
def edgeMate (h : Nat) : Nat := if h % 2 = 0 then h + 1 else h - 1

/-- The hub a report from a router reaches: its home hub, the other hub of that edge zone, or the primary PMC's (R372). -/
def Panel.reportHub (p : Panel) (n : Nat) : Nat :=
  let h := homeHub (p.endOf n)
  if p.reaches n h then h else if p.reaches n (edgeMate h) then edgeMate h else p.primaryHub

/-! ### Reports (R370 to R379) and outputs -/

def clsInfo : BitVec 3 := 0
def clsCE : BitVec 3 := 1
def clsDE : BitVec 3 := 2
def clsUC : BitVec 3 := 3
def clsUF : BitVec 3 := 4
def clsPF : BitVec 3 := 5
def lvCore : BitVec 3 := 0
def lvCluster : BitVec 3 := 1
def lvDie : BitVec 3 := 2
def lvZone : BitVec 3 := 3
def lvRowPair : BitVec 3 := 4
def lvPanel : BitVec 3 := 5
def lvEdge : BitVec 3 := 6

/-- A detail of a report: a free value where the spec states none (log 1). -/
def Panel.detail (p : Panel) (o : Option Nat) : W64 × Panel :=
  match o with
  | some d => (BitVec.ofNat 64 d, p)
  | none => p.drawBits 64

/-- A unit sends a report to the error manager of hub h (R370, R372, R378). -/
def Panel.sendReport (p : Panel) (h : Nat) (ev : BitVec 16) (cls lv : BitVec 3) (kind site sub : BitVec 8)
    (d0 d1 : Option Nat) : Panel :=
  let (x0, p) := p.detail d0
  let (x1, p) := p.detail d1
  { p with reports := p.reports ++ [(h, ⟨ev, cls, lv, kind, site, sub, x0, x1⟩)] }

/-- A report located at a core site. -/
def Panel.reportCore (p : Panel) (c : Nat) (ev : BitVec 16) (cls : BitVec 3) (d0 : Option Nat := none)
    (d1 : Option Nat := none) : Panel :=
  let site := p.dieSite (c / 16)
  p.sendReport (p.reportHub (c / 16)) ev cls lvCore 2 (BitVec.ofNat 8 site) (BitVec.ofNat 8 (c / 8 % 2 * 9 + p.coreSite c))
    d0 d1

/-- A report located at a cluster. -/
def Panel.reportCluster (p : Panel) (die cl : Nat) (ev : BitVec 16) (cls : BitVec 3) (d0 : Option Nat := none) :
    Panel :=
  let site := p.dieSite die
  p.sendReport (p.reportHub die) ev cls lvCluster 1 (BitVec.ofNat 8 site) (BitVec.ofNat 8 cl) d0 none

/-- Kind of a link end in a record: compute site, MPD site or hub, and its index (R378). -/
def endKind (e : Nat) : BitVec 8 × BitVec 8 :=
  if e < 72 then (1, BitVec.ofNat 8 e) else if e < 108 then (3, BitVec.ofNat 8 (e - 72)) else (5, BitVec.ofNat 8 (e - 120))

/-- A report at DIE level located at the die or MPD of a router. -/
def Panel.reportNode (p : Panel) (n : Nat) (ev : BitVec 16) (cls : BitVec 3) (d0 : Option Nat := none)
    (d1 : Option Nat := none) : Panel :=
  let e := p.endOf n
  p.sendReport (p.reportHub n) ev cls lvDie (endKind e).1 (endKind e).2 0 d0 d1

/-- A report about a link, named by one end and its port (R349). -/
def Panel.reportLink (p : Panel) (n port : Nat) (ev : BitVec 16) (cls : BitVec 3) : Panel :=
  let e := p.endOf n
  p.sendReport (p.reportHub n) ev cls lvDie 4 (BitVec.ofNat 8 e) (BitVec.ofNat 8 port) none none

/-- A report at EDGE level located at a hub. -/
def Panel.reportHubEdge (p : Panel) (h : Nat) (ev : BitVec 16) (cls : BitVec 3) (d0 : Option Nat := none) : Panel :=
  p.sendReport h ev cls lvEdge 5 (BitVec.ofNat 8 h) 0 d0 none

/-- A report at PANEL level with no location. -/
def Panel.reportPanel (p : Panel) (h : Nat) (ev : BitVec 16) (cls : BitVec 3) (d0 : Option Nat := none)
    (d1 : Option Nat := none) : Panel :=
  p.sendReport h ev cls lvPanel 0 0 0 d0 d1

/-- A report at ZONE level, kind zone (R378, R379). -/
def Panel.reportZone (p : Panel) (z : Nat) (ev : BitVec 16) (cls : BitVec 3) : Panel :=
  p.sendReport p.primaryHub ev cls lvZone 6 (BitVec.ofNat 8 z) 0 none none

/-- Key of an optical engine's reading: kind 0 temperature, 1 power, 2 least optical margin, 3 optical power (R470). -/
def oeKey (k kind : Nat) : Nat := k * 4 + kind

def Panel.emit (p : Panel) (o : Out) : Panel := { p with out := o :: p.out }

/-! ### Who may write a control register (R439, R502) -/

/-- Hub of a host's port: HD0 for host A, HD3 for host B (R435). -/
def portHub (host : Bool) : Nat := if host then 3 else 0

/-- The host a writer is. -/
def writerHost : Writer → Option Bool
  | .hostA => some false
  | .hostB => some true
  | _ => none

/-- The host holds the control lease (R439). -/
def Panel.holdsLease (p : Panel) (host : Bool) : Bool := p.fget F.PCI_LEASE_holder == if host then 2 else 1

/-- A write of a control register: a host without the lease is refused and counted, and the board management controller has no
access (R439, R502). -/
def Panel.asWriter (p : Panel) (src : Writer) (f : Panel → Panel) : Panel :=
  match src with
  | .bmc => p
  | _ =>
    match writerHost src with
    | none => f p
    | some h => if p.holdsLease h then f p else p.addHold F.PCI_PORT_STATUS_lease_denied 1 (portHub h)

/-- A command that the board management controller may also give over MCTP, without the lease (R364, R390, R439). -/
def Panel.asManager (p : Panel) (src : Writer) (f : Panel → Panel) : Panel :=
  match src with
  | .bmc => f p
  | _ => p.asWriter src f

/-! ### Guest sites (R466) -/

def Panel.guestSite (p : Panel) (g : Nat) : GuestSite := smGetD p.guests g .off

def Panel.setGuest (p : Panel) (g : Nat) (s : GuestSite) : Panel := { p with guests := smSet p.guests g s }

/-! ### Cores -/

def Panel.core (p : Panel) (c : Nat) : Core := smGetD p.cores c .zero

def Panel.setCore (p : Panel) (c : Nat) (k : Core) : Panel := { p with cores := smPut p.cores .zero c k }

def Panel.modCore (p : Panel) (c : Nat) (f : Core → Core) : Panel := p.setCore c (f (p.core c))

/-- Firmware mode: CORE_STATUS.mode 1 (R39). -/
def Panel.fwMode (p : Panel) (c : Nat) : Bool := p.flag F.CORE_STATUS_mode c

def Panel.running (p : Panel) (c : Nat) : Bool := p.flag F.CORE_STATUS_running c

def Panel.halted (p : Panel) (c : Nat) : Bool := p.flag F.CORE_STATUS_halted c

def Panel.isFenced (p : Panel) (c : Nat) : Bool := (p.core c).fenced

/-- Set an asynchronous cause pending (R77), with its detail. A cause raised again while it is pending keeps one bit and the later
detail, ENGINE_FAULT too: the spec does not say which shows (R77, R115; DESIGN CHOICE, log 53). -/
def Panel.raiseAsync (p : Panel) (c cause : Nat) (info : Nat) : Panel :=
  let p := p.fput F.CORE_TRAP_PENDING_pending (p.fget F.CORE_TRAP_PENDING_pending c ||| 2 ^ cause) c
  p.modCore c fun k => { k with asyncInfo := smSet k.asyncInfo cause (BitVec.ofNat 64 info) }

/-- Take a trap or an asynchronous cause: save pc, cause, mode and detail, enter firmware mode, go to the vector
(R76, R77). -/
def Panel.enterTrap (p : Panel) (c pc cause : Nat) (async : Bool) (info : W64) : Panel :=
  let was := p.fget F.CORE_STATUS_mode c
  let p := p.fput F.CORE_TRAP_PC_pc pc c
  let p := p.fput F.CORE_TRAP_CAUSE_cause cause c
  let p := p.fput F.CORE_TRAP_CAUSE_async (b2n async) c
  let p := p.fput F.CORE_TRAP_CAUSE_prev_mode was c
  let p := p.put .CORE_TRAP_INFO info c
  let p := p.fput F.CORE_STATUS_mode 1 c
  p.modCore c fun k => { k with q := { k.q with pc := p.fget F.CORE_TRAP_VECTOR_vector c }, blocked := none }

/-- A synchronous trap condition in firmware mode (R78): issue stops, double_trap is set, a core UC is reported. -/
def Panel.doubleTrap (p : Panel) (c : Nat) : Panel :=
  let p := p.fput F.CORE_STATUS_double_trap 1 c
  let p := p.fput F.CORE_STATUS_running 0 c
  let p := p.fput F.CORE_STATUS_halted 1 c
  let p := p.modCore c fun k => { k with blocked := none }
  p.reportCore c 0x0101 clsUC

/-- A synchronous trap at index pc (R76, R78). A detail the spec does not state is a free value (log 1). -/
def Panel.syncTrap (p : Panel) (c pc cause : Nat) (info : Option W64) : Panel :=
  if p.fwMode c then p.doubleTrap c
  else
    match info with
    | some i => p.enterTrap c pc cause false i
    | none => let (i, p) := p.drawBits 64; p.enterTrap c pc cause false i

def trapIllegal : Nat := 0x01
def trapMisaligned : Nat := 0x02
def trapRange : Nat := 0x03
def trapDesc : Nat := 0x04
def trapProt : Nat := 0x05
def trapImem : Nat := 0x06
def trapLoop : Nat := 0x07
def trapBarrier : Nat := 0x08
def trapWait : Nat := 0x09
def trapCsr : Nat := 0x0A
def trapPoison : Nat := 0x0B
def trapSoftware : Nat := 0x0C
def asyncDma : Nat := 0x10
def asyncPost : Nat := 0x11
def asyncPostTimeout : Nat := 0x12
def asyncOverflow : Nat := 0x13
def asyncEngine : Nat := 0x14
def asyncAttention : Nat := 0x15

/-- A post adds its increment to a counter, which holds at 0xFFFF_FFFF (R57). -/
def Panel.tokenAdd (p : Panel) (c n inc : Nat) : Panel :=
  let v := p.fget F.CORE_TOKEN_value c n + inc
  if v ≤ 0xFFFFFFFF then p.fput F.CORE_TOKEN_value v c n
  else
    let p := p.fput F.CORE_TOKEN_value 0xFFFFFFFF c n
    let p := p.fput F.CORE_TOKEN_STATUS_overflow (p.fget F.CORE_TOKEN_STATUS_overflow c ||| 2 ^ n) c
    p.raiseAsync c asyncOverflow 0

end Sys2Proof.Machine
end

