-- ==== Sys2Proof/Machine/Decoder.lean ====
section
/-! DEFINITION. The instruction word of a core (R46): the class and op bits name the command, and its fields lie where the
class's form puts them (R48, R52, R55, R64, R69, R70, R99, R141). `coreInstr` reads a word, `coreWord` writes it. -/

namespace Sys2Proof.Machine

/-! ### Fields of a word -/

/-- Bits [lo + n − 1 : lo] of a word. -/
def field (w : W64) (lo n : Nat) : BitVec n := w.extractLsb' lo n

def flagAt (w : W64) (k : Nat) : Bool := w.getLsbD k

def regForm (w : W64) : RegForm := ⟨field w 51 5, field w 46 5, field w 41 5, field w 0 41⟩

def immForm (w : W64) : ImmForm := ⟨field w 51 5, field w 46 5, field w 0 46⟩

def dMemForm (w : W64) : DMemForm := ⟨field w 52 4, field w 51 1, field w 46 5, field w 0 46⟩

def dFldForm (w : W64) : DFldForm := ⟨field w 52 4, field w 48 4, field w 43 5, field w 0 43⟩

def branchForm (w : W64) : BranchForm := ⟨field w 51 5, field w 46 5, field w 32 14, field w 0 32⟩

def jumpForm (w : W64) : JumpForm := ⟨field w 32 24, field w 0 32⟩

def rJumpForm (w : W64) : RJumpForm := ⟨field w 51 5, field w 46 5, field w 0 46⟩

def loopForm (w : W64) : LoopForm := ⟨field w 51 5, field w 48 3, field w 32 16, field w 0 32⟩

def tpostForm (w : W64) : TpostForm := ⟨field w 51 5, flagAt w 50, field w 40 10, field w 24 16, field w 20 4, field w 0 20⟩

def twaitForm (w : W64) : TwaitForm := ⟨field w 51 5, field w 46 5, field w 32 14, field w 0 32⟩

def twoForm (w : W64) : TwoForm := ⟨field w 51 5, field w 46 5, field w 0 46⟩

def barForm (w : W64) : BarForm := ⟨field w 52 4, field w 0 52⟩

def dmaCopyForm (w : W64) : DmaCopyForm := ⟨field w 52 4, field w 48 4, field w 43 5, field w 27 16, field w 0 27⟩

def dmaListForm (w : W64) : DmaListForm :=
  ⟨field w 52 4, field w 48 4, field w 44 4, field w 39 5, field w 23 16, field w 0 23⟩

def dmaFillForm (w : W64) : DmaFillForm := ⟨field w 52 4, field w 47 5, field w 42 5, field w 26 16, field w 0 26⟩

def dmaMarkForm (w : W64) : DmaMarkForm := ⟨field w 48 8, field w 43 5, field w 27 16, field w 0 27⟩

def csrForm (w : W64) : CsrForm := ⟨field w 51 5, field w 46 5, field w 34 12, field w 0 34⟩

def fenceForm (w : W64) : FenceForm := ⟨field w 52 4, field w 0 52⟩

def trapForm (w : W64) : TrapForm := ⟨field w 32 24, field w 0 32⟩

def mmaForm (w : W64) : MmaForm :=
  ⟨field w 52 4, field w 48 4, field w 44 4, field w 40 4, field w 36 4, flagAt w 35, flagAt w 34, field w 32 2, field w 16 16,
    field w 0 16⟩

def grpRegForm (w : W64) : GrpRegForm := ⟨field w 52 4, field w 47 5, field w 0 47⟩

def grpCloseForm (w : W64) : GrpCloseForm := ⟨field w 52 4, field w 47 5, field w 31 16, field w 0 31⟩

def accSendForm (w : W64) : AccSendForm := ⟨field w 52 4, field w 47 5, field w 42 5, field w 26 16, field w 0 26⟩

def grpForm (w : W64) : GrpForm := ⟨field w 52 4, field w 0 52⟩

def vecForm (w : W64) : VecForm :=
  ⟨field w 51 5, field w 46 5, field w 41 5, field w 36 5, field w 33 3, field w 28 5, flagAt w 27, field w 0 27⟩

/-- The unused fields of RET, EPOCH.ADVANCE, RETT and HALT. -/
def allForm (w : W64) : BitVec 56 := field w 0 56

/-! ### Reading a word (R46) -/

/-- The scalar class (R49). -/
def scalarInstr (c : Nat) (w : W64) (op : Nat) : Option Instr :=
  match op with
  | 0x00 => some (.add c (regForm w))
  | 0x01 => some (.sub c (regForm w))
  | 0x02 => some (.and_ c (regForm w))
  | 0x03 => some (.or_ c (regForm w))
  | 0x04 => some (.xor c (regForm w))
  | 0x05 => some (.sll c (regForm w))
  | 0x06 => some (.srl c (regForm w))
  | 0x07 => some (.sra c (regForm w))
  | 0x08 => some (.mul c (regForm w))
  | 0x09 => some (.mulh c (regForm w))
  | 0x0A => some (.slt c (regForm w))
  | 0x0B => some (.sltu c (regForm w))
  | 0x0C => some (.min_ c (regForm w))
  | 0x0D => some (.max_ c (regForm w))
  | 0x0E => some (.addi c (immForm w))
  | 0x0F => some (.andi c (immForm w))
  | 0x10 => some (.ori c (immForm w))
  | 0x11 => some (.xori c (immForm w))
  | 0x12 => some (.slli c (immForm w))
  | 0x13 => some (.srli c (immForm w))
  | 0x14 => some (.srai c (immForm w))
  | 0x15 => some (.li c (immForm w))
  | 0x16 => some (.lih c (immForm w))
  | 0x17 => some (.ld c (immForm w))
  | 0x18 => some (.ldw c (immForm w))
  | 0x19 => some (.st c (immForm w))
  | 0x1A => some (.stw c (immForm w))
  | 0x1B => some (.dld c (dMemForm w))
  | 0x1C => some (.dst c (dMemForm w))
  | 0x1D => some (.dset c (dFldForm w))
  | 0x1E => some (.dget c (dFldForm w))
  | _ => none

/-- The control class (R52). -/
def controlInstr (c : Nat) (w : W64) (op : Nat) : Option Instr :=
  match op with
  | 0x00 => some (.beq c (branchForm w))
  | 0x01 => some (.bne c (branchForm w))
  | 0x02 => some (.blt c (branchForm w))
  | 0x03 => some (.bge c (branchForm w))
  | 0x04 => some (.bltu c (branchForm w))
  | 0x05 => some (.bgeu c (branchForm w))
  | 0x06 => some (.jmp c (jumpForm w))
  | 0x07 => some (.call c (jumpForm w))
  | 0x08 => some (.jr c (rJumpForm w))
  | 0x09 => some (.callr c (rJumpForm w))
  | 0x0A => some (.ret c (allForm w))
  | 0x0B => some (.loop c (loopForm w))
  | _ => none

/-- The sync class (R55). -/
def syncInstr (c : Nat) (w : W64) (op : Nat) : Option Instr :=
  match op with
  | 0x00 => some (.tpost c (tpostForm w))
  | 0x01 => some (.twait c (twaitForm w))
  | 0x02 => some (.ttest c (twoForm w))
  | 0x03 => some (.tset c (twoForm w))
  | 0x04 => some (.barArrive c (barForm w))
  | 0x05 => some (.barWait c (barForm w))
  | 0x06 => some (.epochAdvance c (allForm w))
  | _ => none

/-- The DMA class (R64). -/
def dmaInstr (c : Nat) (w : W64) (op : Nat) : Option Instr :=
  match op with
  | 0x00 => some (.dmaCopy c (dmaCopyForm w))
  | 0x01 => some (.dmaGather c (dmaListForm w))
  | 0x02 => some (.dmaScatter c (dmaListForm w))
  | 0x03 => some (.dmaFill c (dmaFillForm w))
  | 0x04 => some (.dmaMark c (dmaMarkForm w))
  | _ => none

/-- The matrix class (R93). -/
def matrixInstr (c : Nat) (w : W64) (op : Nat) : Option Instr :=
  match op with
  | 0x00 => some (.mma c (mmaForm w))
  | 0x01 => some (.mmaAr c (mmaForm w))
  | 0x02 => some (.mmaBr c (mmaForm w))
  | 0x03 => some (.mmaArbr c (mmaForm w))
  | _ => none

/-- The vector class (R142). -/
def vectorInstr (c : Nat) (w : W64) (op : Nat) : Option Instr :=
  match op with
  | 0x00 => some (.vadd c (vecForm w))
  | 0x01 => some (.vsub c (vecForm w))
  | 0x02 => some (.vmul c (vecForm w))
  | 0x03 => some (.vfma c (vecForm w))
  | 0x04 => some (.vmin c (vecForm w))
  | 0x05 => some (.vmax c (vecForm w))
  | 0x06 => some (.vcmp c (vecForm w))
  | 0x07 => some (.vsel c (vecForm w))
  | 0x08 => some (.vlogic c (vecForm w))
  | 0x09 => some (.vcvt c (vecForm w))
  | 0x0A => some (.vsf c (vecForm w))
  | 0x0B => some (.vred c (vecForm w))
  | 0x0C => some (.vscan c (vecForm w))
  | 0x0D => some (.vsort c (vecForm w))
  | 0x0E => some (.vbcast c (vecForm w))
  | 0x0F => some (.vextr c (vecForm w))
  | 0x10 => some (.vld c (vecForm w))
  | 0x11 => some (.vst c (vecForm w))
  | 0x12 => some (.rngGen c (vecForm w))
  | 0x13 => some (.vmxq c (vecForm w))
  | _ => none

/-- The group and accord class (R99). -/
def groupInstr (c : Nat) (w : W64) (op : Nat) : Option Instr :=
  match op with
  | 0x00 => some (.grpOpen c (grpRegForm w))
  | 0x01 => some (.grpClose c (grpCloseForm w))
  | 0x02 => some (.accSend c (accSendForm w))
  | 0x03 => some (.grpAbort c (grpForm w))
  | 0x04 => some (.grpStatus c (grpRegForm w))
  | 0x05 => some (.grpPrefetch c (grpForm w))
  | _ => none

/-- The system class (R69). -/
def systemInstr (c : Nat) (w : W64) (op : Nat) : Option Instr :=
  match op with
  | 0x00 => some (.csrr c (csrForm w))
  | 0x01 => some (.csrw c (csrForm w))
  | 0x02 => some (.csrs c (csrForm w))
  | 0x03 => some (.csrc c (csrForm w))
  | 0x04 => some (.fence c (fenceForm w))
  | 0x05 => some (.trap c (trapForm w))
  | 0x06 => some (.rett c (allForm w))
  | 0x07 => some (.halt c (allForm w))
  | _ => none

/-- The command that core c issues for a word: none where the op is reserved in its class (R46, R47). -/
def coreInstr (c : Nat) (w : W64) : Option Instr :=
  let op := (field w 56 5).toNat
  match (field w 61 3).toNat with
  | 0 => scalarInstr c w op
  | 1 => controlInstr c w op
  | 2 => syncInstr c w op
  | 3 => dmaInstr c w op
  | 4 => matrixInstr c w op
  | 5 => vectorInstr c w op
  | 6 => groupInstr c w op
  | _ => systemInstr c w op

/-! ### Writing a word (R46) -/

def bitOf (b : Bool) : BitVec 1 := if b then 1 else 0

def ofReg (f : RegForm) : BitVec 56 := f.rd ++ f.ra ++ f.rb ++ f.rsvd

def ofImm (f : ImmForm) : BitVec 56 := f.rd ++ f.ra ++ f.imm

def ofDMem (f : DMemForm) : BitVec 56 := f.dn ++ f.rsvd ++ f.ra ++ f.imm

def ofDFld (f : DFldForm) : BitVec 56 := f.dn ++ f.sel ++ f.r ++ f.rsvd

def ofBranch (f : BranchForm) : BitVec 56 := f.ra ++ f.rb ++ f.rsvd ++ f.off

def ofJump (f : JumpForm) : BitVec 56 := f.rsvd ++ f.off

def ofRJump (f : RJumpForm) : BitVec 56 := f.rsvdHi ++ f.ra ++ f.rsvdLo

def ofLoop (f : LoopForm) : BitVec 56 := f.ra ++ f.rsvd ++ f.body ++ f.count

def ofTpost (f : TpostForm) : BitVec 56 := f.tn ++ bitOf f.remote ++ f.target ++ f.inc ++ f.mask ++ f.rsvd

def ofTwait (f : TwaitForm) : BitVec 56 := f.tn ++ f.ra ++ f.rsvd ++ f.threshold

def ofTwo (f : TwoForm) : BitVec 56 := f.a ++ f.b ++ f.rsvd

def ofBar (f : BarForm) : BitVec 56 := f.channel ++ f.rsvd

def ofDmaCopy (f : DmaCopyForm) : BitVec 56 := f.ds ++ f.dd ++ f.tn ++ f.inc ++ f.rsvd

def ofDmaList (f : DmaListForm) : BitVec 56 := f.ds ++ f.dd ++ f.di ++ f.tn ++ f.inc ++ f.rsvd

def ofDmaFill (f : DmaFillForm) : BitVec 56 := f.dd ++ f.rs ++ f.tn ++ f.inc ++ f.rsvd

def ofDmaMark (f : DmaMarkForm) : BitVec 56 := f.rsvdHi ++ f.tn ++ f.inc ++ f.rsvdLo

def ofCsr (f : CsrForm) : BitVec 56 := f.a ++ f.b ++ f.csr ++ f.rsvd

def ofFence (f : FenceForm) : BitVec 56 := f.mask ++ f.rsvd

def ofTrap (f : TrapForm) : BitVec 56 := f.rsvd ++ f.code

def ofMma (f : MmaForm) : BitVec 56 :=
  f.gid ++ f.descA ++ f.descB ++ f.fmtA ++ f.fmtB ++ bitOf f.direct ++ bitOf f.accAdd ++ f.rsvdHi ++ f.ksteps ++ f.rsvdLo

def ofGrpReg (f : GrpRegForm) : BitVec 56 := f.gid ++ f.r ++ f.rsvd

def ofGrpClose (f : GrpCloseForm) : BitVec 56 := f.gid ++ f.tn ++ f.inc ++ f.rsvd

def ofAccSend (f : AccSendForm) : BitVec 56 := f.gid ++ f.ra ++ f.tn ++ f.inc ++ f.rsvd

def ofGrp (f : GrpForm) : BitVec 56 := f.gid ++ f.rsvd

def ofVec (f : VecForm) : BitVec 56 := f.vd ++ f.va ++ f.vb ++ f.vc ++ f.type ++ f.sub ++ bitOf f.sb ++ f.detail

/-- A word of a class and an op (R46). -/
def wordOf (cls : BitVec 3) (op : BitVec 5) (fields : BitVec 56) : W64 := cls ++ op ++ fields

/-- The core that issues a command of R46, and the command's word; none for a command that is no core instruction. -/
def coreWord : Instr → Option (Nat × W64)
  | .add c f => some (c, wordOf 0 0x00 (ofReg f))
  | .sub c f => some (c, wordOf 0 0x01 (ofReg f))
  | .and_ c f => some (c, wordOf 0 0x02 (ofReg f))
  | .or_ c f => some (c, wordOf 0 0x03 (ofReg f))
  | .xor c f => some (c, wordOf 0 0x04 (ofReg f))
  | .sll c f => some (c, wordOf 0 0x05 (ofReg f))
  | .srl c f => some (c, wordOf 0 0x06 (ofReg f))
  | .sra c f => some (c, wordOf 0 0x07 (ofReg f))
  | .mul c f => some (c, wordOf 0 0x08 (ofReg f))
  | .mulh c f => some (c, wordOf 0 0x09 (ofReg f))
  | .slt c f => some (c, wordOf 0 0x0A (ofReg f))
  | .sltu c f => some (c, wordOf 0 0x0B (ofReg f))
  | .min_ c f => some (c, wordOf 0 0x0C (ofReg f))
  | .max_ c f => some (c, wordOf 0 0x0D (ofReg f))
  | .addi c f => some (c, wordOf 0 0x0E (ofImm f))
  | .andi c f => some (c, wordOf 0 0x0F (ofImm f))
  | .ori c f => some (c, wordOf 0 0x10 (ofImm f))
  | .xori c f => some (c, wordOf 0 0x11 (ofImm f))
  | .slli c f => some (c, wordOf 0 0x12 (ofImm f))
  | .srli c f => some (c, wordOf 0 0x13 (ofImm f))
  | .srai c f => some (c, wordOf 0 0x14 (ofImm f))
  | .li c f => some (c, wordOf 0 0x15 (ofImm f))
  | .lih c f => some (c, wordOf 0 0x16 (ofImm f))
  | .ld c f => some (c, wordOf 0 0x17 (ofImm f))
  | .ldw c f => some (c, wordOf 0 0x18 (ofImm f))
  | .st c f => some (c, wordOf 0 0x19 (ofImm f))
  | .stw c f => some (c, wordOf 0 0x1A (ofImm f))
  | .dld c f => some (c, wordOf 0 0x1B (ofDMem f))
  | .dst c f => some (c, wordOf 0 0x1C (ofDMem f))
  | .dset c f => some (c, wordOf 0 0x1D (ofDFld f))
  | .dget c f => some (c, wordOf 0 0x1E (ofDFld f))
  | .beq c f => some (c, wordOf 1 0x00 (ofBranch f))
  | .bne c f => some (c, wordOf 1 0x01 (ofBranch f))
  | .blt c f => some (c, wordOf 1 0x02 (ofBranch f))
  | .bge c f => some (c, wordOf 1 0x03 (ofBranch f))
  | .bltu c f => some (c, wordOf 1 0x04 (ofBranch f))
  | .bgeu c f => some (c, wordOf 1 0x05 (ofBranch f))
  | .jmp c f => some (c, wordOf 1 0x06 (ofJump f))
  | .call c f => some (c, wordOf 1 0x07 (ofJump f))
  | .jr c f => some (c, wordOf 1 0x08 (ofRJump f))
  | .callr c f => some (c, wordOf 1 0x09 (ofRJump f))
  | .ret c r => some (c, wordOf 1 0x0A r)
  | .loop c f => some (c, wordOf 1 0x0B (ofLoop f))
  | .tpost c f => some (c, wordOf 2 0x00 (ofTpost f))
  | .twait c f => some (c, wordOf 2 0x01 (ofTwait f))
  | .ttest c f => some (c, wordOf 2 0x02 (ofTwo f))
  | .tset c f => some (c, wordOf 2 0x03 (ofTwo f))
  | .barArrive c f => some (c, wordOf 2 0x04 (ofBar f))
  | .barWait c f => some (c, wordOf 2 0x05 (ofBar f))
  | .epochAdvance c r => some (c, wordOf 2 0x06 r)
  | .dmaCopy c f => some (c, wordOf 3 0x00 (ofDmaCopy f))
  | .dmaGather c f => some (c, wordOf 3 0x01 (ofDmaList f))
  | .dmaScatter c f => some (c, wordOf 3 0x02 (ofDmaList f))
  | .dmaFill c f => some (c, wordOf 3 0x03 (ofDmaFill f))
  | .dmaMark c f => some (c, wordOf 3 0x04 (ofDmaMark f))
  | .mma c f => some (c, wordOf 4 0x00 (ofMma f))
  | .mmaAr c f => some (c, wordOf 4 0x01 (ofMma f))
  | .mmaBr c f => some (c, wordOf 4 0x02 (ofMma f))
  | .mmaArbr c f => some (c, wordOf 4 0x03 (ofMma f))
  | .vadd c f => some (c, wordOf 5 0x00 (ofVec f))
  | .vsub c f => some (c, wordOf 5 0x01 (ofVec f))
  | .vmul c f => some (c, wordOf 5 0x02 (ofVec f))
  | .vfma c f => some (c, wordOf 5 0x03 (ofVec f))
  | .vmin c f => some (c, wordOf 5 0x04 (ofVec f))
  | .vmax c f => some (c, wordOf 5 0x05 (ofVec f))
  | .vcmp c f => some (c, wordOf 5 0x06 (ofVec f))
  | .vsel c f => some (c, wordOf 5 0x07 (ofVec f))
  | .vlogic c f => some (c, wordOf 5 0x08 (ofVec f))
  | .vcvt c f => some (c, wordOf 5 0x09 (ofVec f))
  | .vsf c f => some (c, wordOf 5 0x0A (ofVec f))
  | .vred c f => some (c, wordOf 5 0x0B (ofVec f))
  | .vscan c f => some (c, wordOf 5 0x0C (ofVec f))
  | .vsort c f => some (c, wordOf 5 0x0D (ofVec f))
  | .vbcast c f => some (c, wordOf 5 0x0E (ofVec f))
  | .vextr c f => some (c, wordOf 5 0x0F (ofVec f))
  | .vld c f => some (c, wordOf 5 0x10 (ofVec f))
  | .vst c f => some (c, wordOf 5 0x11 (ofVec f))
  | .rngGen c f => some (c, wordOf 5 0x12 (ofVec f))
  | .vmxq c f => some (c, wordOf 5 0x13 (ofVec f))
  | .grpOpen c f => some (c, wordOf 6 0x00 (ofGrpReg f))
  | .grpClose c f => some (c, wordOf 6 0x01 (ofGrpClose f))
  | .accSend c f => some (c, wordOf 6 0x02 (ofAccSend f))
  | .grpAbort c f => some (c, wordOf 6 0x03 (ofGrp f))
  | .grpStatus c f => some (c, wordOf 6 0x04 (ofGrpReg f))
  | .grpPrefetch c f => some (c, wordOf 6 0x05 (ofGrp f))
  | .csrr c f => some (c, wordOf 7 0x00 (ofCsr f))
  | .csrw c f => some (c, wordOf 7 0x01 (ofCsr f))
  | .csrs c f => some (c, wordOf 7 0x02 (ofCsr f))
  | .csrc c f => some (c, wordOf 7 0x03 (ofCsr f))
  | .fence c f => some (c, wordOf 7 0x04 (ofFence f))
  | .trap c f => some (c, wordOf 7 0x05 (ofTrap f))
  | .rett c r => some (c, wordOf 7 0x06 r)
  | .halt c r => some (c, wordOf 7 0x07 r)
  | _ => none

end Sys2Proof.Machine
end

