-- ==== Sys2Proof/Machine/Arith.lean ====
section
/-! DEFINITION. Arithmetic (chapter 04): element formats, exact products, the accumulator kinds, rounding at close, the
generator, and IEEE operations of the vector engine (R140). Every finite value is an exact dyadic number. -/

namespace Sys2Proof.Machine

/-! ### Values -/

/-- A value of a floating-point or integer format: finite values are (−1)^neg × mag × 2^e, both zeros kept (R120). -/
inductive FVal where
  | nan
  | inf (neg : Bool)
  | fin (neg : Bool) (mag : Nat) (e : Int)
  deriving DecidableEq, Repr

def FVal.zero : FVal := .fin false 0 0

/-- A floating-point format (R120). `special`: 0 no specials, 1 NaN only at all ones, 2 IEEE infinities and NaNs. -/
structure FFmt where
  ebits : Nat
  mbits : Nat
  bias : Nat
  special : Nat
  deriving DecidableEq, Repr

def fmtE4M3 : FFmt := ⟨4, 3, 7, 1⟩
def fmtE5M2 : FFmt := ⟨5, 2, 15, 2⟩
def fmtE3M2 : FFmt := ⟨3, 2, 3, 0⟩
def fmtE2M3 : FFmt := ⟨2, 3, 1, 0⟩
def fmtE2M1 : FFmt := ⟨2, 1, 1, 0⟩
def fmtBF16 : FFmt := ⟨8, 7, 127, 2⟩
def fmtFP16 : FFmt := ⟨5, 10, 15, 2⟩
def fmtFP32 : FFmt := ⟨8, 23, 127, 2⟩

def FFmt.signBit (f : FFmt) (neg : Bool) : Nat := b2n neg * 2 ^ (f.ebits + f.mbits)

/-- Exponent of the smallest normal. -/
def FFmt.emin (f : FFmt) : Int := 1 - (f.bias : Int)

def FFmt.infBits (f : FFmt) (neg : Bool) : Nat := f.signBit neg + (2 ^ f.ebits - 1) * 2 ^ f.mbits

/-- The NaN of a format (R130, R133, R140). -/
def FFmt.nanBits (f : FFmt) : Nat :=
  if f.special = 1 then 2 ^ (f.ebits + f.mbits) - 1 else f.infBits false + 2 ^ (f.mbits - 1)

/-- The largest finite encoding, without sign. -/
def FFmt.maxBits (f : FFmt) : Nat :=
  if f.special = 2 then f.infBits false - 1 else 2 ^ (f.ebits + f.mbits) - 1 - f.special

/-- Decode (R120). -/
def FFmt.decode (f : FFmt) (x : Nat) : FVal :=
  let neg := bit x (f.ebits + f.mbits)
  let ex := x / 2 ^ f.mbits % 2 ^ f.ebits
  let m := x % 2 ^ f.mbits
  if f.special = 2 ∧ ex = 2 ^ f.ebits - 1 then (if m = 0 then .inf neg else .nan)
  else if f.special = 1 ∧ ex = 2 ^ f.ebits - 1 ∧ m = 2 ^ f.mbits - 1 then .nan
  else if ex = 0 then .fin neg m (f.emin - f.mbits)
  else .fin neg (2 ^ f.mbits + m) ((ex : Int) - f.bias - f.mbits)

/-- Value of an element of a format code of R42 (R120, R121); integers are exact. -/
def elemVal (fmt x : Nat) : FVal :=
  match fmt with
  | 0 => fmtE4M3.decode x
  | 1 => fmtE5M2.decode x
  | 2 => fmtE4M3.decode x
  | 3 => fmtE5M2.decode x
  | 4 => fmtE3M2.decode x
  | 5 => fmtE2M3.decode x
  | 6 => fmtE2M1.decode x
  | 7 => let i := signed 8 x; .fin (decide (i < 0)) i.natAbs 0
  | 8 => let i := signed 4 x; .fin (decide (i < 0)) i.natAbs 0
  | 9 => fmtBF16.decode x
  | _ => fmtFP16.decode x

/-- Integer formats (R90). -/
def fmtInt (fmt : Nat) : Bool := fmt == 7 || fmt == 8

/-- An MX element: its value times its block's E8M0 scale (R122). -/
def scaled (v : FVal) (x : Nat) : FVal :=
  if x = 255 then .nan
  else
    match v with
    | .fin n m e => .fin n m (e + (x : Int) - 127)
    | v => v

def FVal.finite : FVal → Bool
  | .fin .. => true
  | _ => false

def FVal.isNeg : FVal → Bool
  | .nan => false
  | .inf n => n
  | .fin n _ _ => n

/-- The exact product (R123), with IEEE 754 results for infinities and NaNs. -/
def FVal.mul : FVal → FVal → FVal
  | .nan, _ => .nan
  | _, .nan => .nan
  | .inf a, .inf b => .inf (a != b)
  | .inf a, .fin b m _ => if m = 0 then .nan else .inf (a != b)
  | .fin a m _, .inf b => if m = 0 then .nan else .inf (a != b)
  | .fin a m e, .fin b m' e' => .fin (a != b) (m * m') (e + e')

def FVal.neg : FVal → FVal
  | .nan => .nan
  | .inf n => .inf (!n)
  | .fin n m e => .fin (!n) m e

/-- A finite value as an integer multiple of 2^e0, for e0 at most its exponent. -/
def toGrid (n : Bool) (m : Nat) (e e0 : Int) : Int :=
  let v : Int := (m * 2 ^ (e - e0).toNat : Nat)
  if n then -v else v

/-- The exact sum, with IEEE 754 signs of zero and results for infinities and NaNs. -/
def FVal.add : FVal → FVal → FVal
  | .nan, _ => .nan
  | _, .nan => .nan
  | .inf a, .inf b => if a = b then .inf a else .nan
  | .inf a, .fin .. => .inf a
  | .fin .., .inf b => .inf b
  | .fin a m e, .fin b m' e' =>
    let e0 := min e e'
    let v := toGrid a m e e0 + toGrid b m' e' e0
    if v = 0 then .fin (a && b) 0 e0 else .fin (decide (v < 0)) v.natAbs e0

/-- Order of two values that are no NaN; the two zeros are equal. -/
def FVal.cmp : FVal → FVal → Ordering
  | .inf a, .inf b => if a = b then .eq else if a then .lt else .gt
  | .inf a, _ => if a then .lt else .gt
  | _, .inf b => if b then .gt else .lt
  | .fin a m e, .fin b m' e' => compare (toGrid a m e (min e e')) (toGrid b m' e' (min e e'))
  | _, _ => .eq

/-! ### Rounding (R133, R136, R140) -/

/-- Rounding modes: nearest-even, toward zero, stochastic with its draw. -/
inductive Rnd where
  | ne
  | tz
  | sr (u : Nat)
  deriving DecidableEq, Repr

/-- Choose between the neighbours lo and lo + 1 of a magnitude lo + rem / d (R133, R136). -/
def pick (r : Rnd) (neg : Bool) (lo rem d : Nat) : Nat :=
  if rem = 0 then lo
  else
    match r with
    | .tz => lo
    | .ne => if 2 * rem < d then lo else if d < 2 * rem then lo + 1 else lo + lo % 2
    | .sr u =>
      if neg then (if u < (d - rem) * 2 ^ 32 / d then lo else lo + 1)
      else if u < rem * 2 ^ 32 / d then lo + 1 else lo

/-- A magnitude m × 2^e rounded to a multiple of 2^ux. -/
def roundAt (r : Rnd) (neg : Bool) (m : Nat) (e ux : Int) : Nat :=
  if ux ≤ e then m * 2 ^ (e - ux).toNat
  else
    let d := 2 ^ (ux - e).toNat
    pick r neg (m / d) (m % d) d

/-- The exponent of the spacing of a format at a magnitude with leading bit at 2^lead. -/
def FFmt.spacing (f : FFmt) (lead : Int) : Int := max lead f.emin - f.mbits

/-- The encoding, without sign, of q × 2^ux, a value of the format extended upward (R133). -/
def FFmt.encodeMag (f : FFmt) (q : Nat) (ux : Int) : Nat :=
  if q = 0 then 0
  else
    let s := f.spacing ((Nat.log2 q : Int) + ux)
    let m := if s ≤ ux then q * 2 ^ (ux - s).toNat else q / 2 ^ (s - ux).toNat
    if m < 2 ^ f.mbits then m else (s + f.mbits + f.bias).toNat * 2 ^ f.mbits + (m - 2 ^ f.mbits)

/-- A finite magnitude rounded to the extended format: its encoding without sign, above `maxBits` if beyond range. -/
def FFmt.roundMag (f : FFmt) (r : Rnd) (neg : Bool) (m : Nat) (e : Int) : Nat :=
  if m = 0 then 0
  else
    let ux := f.spacing ((Nat.log2 m : Int) + e)
    f.encodeMag (roundAt r neg m e ux) ux

/-- Round to a format as IEEE 754 does: beyond range gives infinity, or the largest finite value toward zero
(R140, R144). -/
def FFmt.ofVal (f : FFmt) (r : Rnd) : FVal → Nat
  | .nan => f.nanBits
  | .inf n => f.infBits n
  | .fin n m e =>
    let x := f.roundMag r n m e
    if f.maxBits < x then (if r = .tz then f.signBit n + f.maxBits else f.infBits n) else f.signBit n + x

/-- Round to an integer. -/
def roundInt (r : Rnd) (n : Bool) (m : Nat) (e : Int) : Int :=
  let q : Int := (roundAt r n m e 0 : Nat)
  if n then -q else q

def clampInt (lo hi v : Int) : Int := if v < lo then lo else if hi < v then hi else v

/-! ### The generator (R135) -/

def m32 (x : Nat) : Nat := x % 2 ^ 32

def philoxRounds : Nat → Nat → Nat → Nat → Nat → Nat → Nat → List Nat
  | 0, c0, c1, c2, c3, _, _ => [c0, c1, c2, c3]
  | n + 1, c0, c1, c2, c3, k0, k1 =>
    let a := 0xD2511F53 * c0
    let b := 0xCD9E8D57 * c2
    philoxRounds n ((b / 2 ^ 32) ^^^ c1 ^^^ k0) (m32 b) ((a / 2 ^ 32) ^^^ c3 ^^^ k1) (m32 a) (m32 (k0 + 0x9E3779B9))
      (m32 (k1 + 0xBB67AE85))

/-- Philox-4×32-10 (R135). -/
def philox (c0 c1 c2 c3 k0 k1 : Nat) : List Nat := philoxRounds 10 c0 c1 c2 c3 k0 k1

/-! ### Accumulators (R125 to R132) -/

/-- Accumulator kinds of R90 by value. -/
def kindLA96 : Nat := 0
def kindF32 : Nat := 1
def kindF16 : Nat := 2
def kindI32 : Nat := 3
def kindI16 : Nat := 4

/-- Bytes of a home (R90). -/
def homeBytes (kind : Nat) : Nat :=
  match kind with
  | 0 => 196608
  | 1 => 65536
  | 2 => 32768
  | 3 => 65536
  | _ => 32768

/-- The truncated product in grid units of 2^(anchor − 56) (R125). -/
def gridTerm (anchor : Int) (n : Bool) (m : Nat) (e : Int) : Int :=
  let q : Int := (roundAt .tz false m e (anchor - 56) : Nat)
  if n then -q else q

/-- Add a product to a cell of a kind: the new cell and whether overflow is set (R125, R130 to R132). A non-finite product
reaches only an F32 cell (R124). -/
def accAdd (kind : Nat) (anchor : Int) (cell : BitVec 104) (p : FVal) : BitVec 104 × Bool :=
  match kind with
  | 0 =>
    match p with
    | .fin n m e =>
      let q := gridTerm anchor n m e
      (cell + BitVec.ofInt 104 q, decide (2 ^ 95 ≤ q.natAbs))
    | _ => (cell, false)
  | 1 =>
    let v := fmtFP32.decode cell.toNat
    let x := fmtFP32.ofVal .ne (v.add p)
    (BitVec.ofNat 104 x, v.finite && p.finite && !(fmtFP32.decode x).finite)
  | 2 =>
    match p with
    | .fin .. =>
      match (fmtFP16.decode cell.toNat).add p with
      | .fin n m e =>
        let x := fmtFP16.roundMag .ne n m e
        if fmtFP16.maxBits < x then (BitVec.ofNat 104 (fmtFP16.signBit n + fmtFP16.maxBits), true)
        else (BitVec.ofNat 104 (fmtFP16.signBit n + x), false)
      | _ => (cell, false)
    | _ => (cell, false)
  | k =>
    let w := if k = kindI32 then 32 else 16
    match p with
    | .fin n m e =>
      let s := signed w cell.toNat + roundInt .tz n m e
      let t := clampInt (-(2 ^ (w - 1))) (2 ^ (w - 1) - 1) s
      (BitVec.ofNat 104 (BitVec.ofInt w t).toNat, decide (t ≠ s))
    | _ => (cell, false)

/-! ### Close (R127, R133, R134, R136) -/

/-- Width in bytes of an out_fmt of R97. -/
def outBytes (f : Nat) : Nat :=
  match f with
  | 0 => 1
  | 1 => 1
  | 2 => 2
  | 3 => 2
  | 4 => 4
  | 5 => 1
  | _ => 4

def outFmt (f : Nat) : FFmt :=
  match f with
  | 0 => fmtE4M3
  | 1 => fmtE5M2
  | 2 => fmtBF16
  | 3 => fmtFP16
  | _ => fmtFP32

/-- The value a cell brings to close, and whether the range check of R127 set overflow. -/
def closeVal (kind : Nat) (anchor : Int) (cell : BitVec 104) : FVal × Bool :=
  match kind with
  | 0 =>
    let r := cell.toInt
    let l := clampInt (-(2 ^ 95)) (2 ^ 95 - 1) r
    (.fin (decide (l < 0)) l.natAbs (anchor - 56), decide (l ≠ r))
  | 1 => (fmtFP32.decode cell.toNat, false)
  | 2 => (fmtFP16.decode cell.toNat, false)
  | k =>
    let i := signed (if k = kindI32 then 32 else 16) cell.toNat
    (.fin (decide (i < 0)) i.natAbs 0, false)

/-- Convert a value to out_fmt: its bits and whether out_sat is set (R133, R134). Beyond range is a magnitude above the largest finite
value, 2^(w−1) − 1 for an integer output: an exact −2^(w−1) is written as itself and sets out_sat (R133). -/
def closeConv (f : Nat) (r : Rnd) (v : FVal) : Nat × Bool :=
  if f = 5 ∨ f = 6 then
    let w := if f = 5 then 8 else 32
    match v with
    | .fin n m e =>
      let i := roundInt r n m e
      let t := clampInt (-(2 ^ (w - 1))) (2 ^ (w - 1) - 1) i
      ((BitVec.ofInt w t).toNat, decide (2 ^ (w - 1) - 1 < i.natAbs))
    | _ => (0, false)
  else
    let g := outFmt f
    match v with
    | .nan => (g.nanBits, false)
    | .inf n => if f = 0 then (g.signBit n + g.maxBits, true) else (g.infBits n, false)
    | .fin n m e =>
      let x := g.roundMag r n m e
      if g.maxBits < x then (if f ≤ 1 then g.signBit n + g.maxBits else g.infBits n, true) else (g.signBit n + x, false)

/-- The draw of stochastic rounding for a cell (R136). -/
def roundDraw (seed stream step row col : Nat) : Nat :=
  (philox (m32 row) (m32 col) (m32 step) (stream * 65536 ||| bits step 47 32) (m32 seed)
    (bits seed 63 32 ^^^ 0x80000000)).headD 0

end Sys2Proof.Machine
end

