-- ==== Sys2Proof/Machine/Flags.lean ====
section
/-! DEFINITION. Status a core computes rather than stores: loop levels and where an instruction's completion leads (R53,
R54), and which engine classes are complete (R56). -/

namespace Sys2Proof.Machine

/-- Number of instruction words (R36). -/
def imemWords : Nat := 32768

/-- The loop stack of the current mode (R54). -/
def SeqState.loops (q : SeqState) (fw : Bool) : List Loop := if fw then q.loopsF else q.loopsP

def SeqState.setLoops (q : SeqState) (fw : Bool) (l : List Loop) : SeqState :=
  if fw then { q with loopsF := l } else { q with loopsP := l }

/-- The completion of the instruction at an index with no taken transfer (R54), innermost level first: the levels that
stay and the next index. -/
def loopStep (i : Nat) : List Loop → List Loop × Nat
  | [] => ([], i + 1)
  | l :: ls =>
    if l.last = i then
      if 1 < l.left then ({ l with left := l.left - 1 } :: ls, l.first) else loopStep i ls
    else (l :: ls, i + 1)

/-- A taken branch, JMP or JR ends every level whose body does not hold the target, and every level inside it (R54). -/
def endLoops (target : Nat) (l : List Loop) : List Loop :=
  match l.reverse.findIdx? fun v => !(decide (v.first ≤ target) && decide (target ≤ v.last)) with
  | some k => (l.reverse.take k).reverse
  | none => l

/-- An operation of the matrix engine older than sequence number n is unfinished (R56): queued, running, closing, or with a
spill that it makes in progress. -/
def Core.matrixBusy (k : Core) (n : Nat) : Bool :=
  k.mxQ.any (fun o => decide (o.seq < n)) || k.running.any (fun r => decide (r.op.seq < n)) ||
    k.closing.any (fun o => decide (o.seq < n)) || k.groups.any fun g => g.2.state == .spilling && decide (g.2.spiller < n)

def Core.dmaBusy (k : Core) (n : Nat) : Bool := k.dmaQ.any fun o => decide (o.seq < n)

def Core.vecBusy (k : Core) (n : Nat) : Bool := k.vecQ.any fun o => decide (o.seq < n)

/-- Stores are held behind an unresolved branch (R73). -/
def Core.holdsStores (k : Core) : Bool := match k.spec with | some sp => !sp.held.isEmpty | none => false

/-- A scalar store older than sequence number n is held: every held store is younger than the branch (R56, R73). -/
def Core.storeBusy (k : Core) (n : Nat) : Bool :=
  match k.spec with
  | some sp => !sp.held.isEmpty && decide (sp.saved.seq + 1 < n)
  | none => false

/-- Every engine class of the mask is complete for an instruction of sequence number n (R56). -/
def Core.classesDone (k : Core) (mask : BitVec 4) (n : Nat) : Bool :=
  !(mask.getLsbD 0 && k.storeBusy n) && !(mask.getLsbD 1 && k.dmaBusy n) && !(mask.getLsbD 2 && k.matrixBusy n) &&
    !(mask.getLsbD 3 && k.vecBusy n)

/-- The engines have drained (R69, R85). -/
def Core.drained (k : Core) : Bool := k.dmaQ.isEmpty && k.vecQ.isEmpty && k.mxQ.isEmpty && k.running.isEmpty && k.closing.isEmpty &&
  !k.groups.any fun g => g.2.state == .spilling || g.2.state == .filling

end Sys2Proof.Machine
end

