-- ==== Sys2Proof/Machine/Memory.lean ====
section
/-! DEFINITION. The memories (chapters 06 and 07): where a panel address leads (R31 to R34, R186), reading and writing with
protection classes, check bits and poison (R161 to R165, R189 to R192), the remote cache (R170 to R175), and the commands
of scrubbers, partitions and epochs. -/

namespace Sys2Proof.Machine

/-! ### Addresses -/

/-- The memory a panel address lies in. -/
inductive MemKind where
  | hbm (stack : Nat)
  | cmem (die cl : Nat)
  | scratch (core : Nat)
  deriving DecidableEq, Repr

def cmemBase : Nat := 0x800000000000
def scratchBase : Nat := 0xC00000000000
def regBase : Nat := 0xF00000000000

/-- Panel address of offset o of a core's scratchpad (R32). -/
def scratchPa (c o : Nat) : Nat := scratchBase + c * 0x1000000 + o

/-- Panel address of offset o of a cluster memory (R32). -/
def cmemPa (die cl o : Nat) : Nat := cmemBase + die * 0x100000000 + cl * 0x8000000 + o

def inRegs (pa : Nat) : Bool := decide (regBase ≤ pa) && decide (pa < regBase + 0x10000000)

/-- Stack and stack-local address of an HBM address under the applied regions (R186). -/
def hbmDecode : List Region → Nat → Option (Nat × Nat)
  | [], _ => none
  | r :: rs, pa =>
    if r.base ≤ pa ∧ pa < r.base + r.size then
      let off := pa - r.base
      let g := off / 4096
      match r.stks[g % r.stks.length]? with
      | some s => some (s, r.slBaseGib * 2 ^ 30 + g / r.stks.length * 4096 + off % 4096)
      | none => none
    else hbmDecode rs pa

/-- The panel address of a stack-local address (the inverse of R186); zero if no region spans it. -/
def hbmEncode : List Region → Nat → Nat → Nat
  | [], _, _ => 0
  | r :: rs, stack, sl =>
    let i := r.stks.findIdx (· == stack)
    let n := r.stks.length
    let lo := r.slBaseGib * 2 ^ 30
    if i < n ∧ lo ≤ sl ∧ sl - lo < r.size / n then
      r.base + ((sl - lo) / 4096 * n + i) * 4096 + sl % 4096
    else hbmEncode rs stack sl

/-- Pseudo-channel of a stack-local address (R186). -/
def hbmPc (sl : Nat) : Nat := bits sl 11 7 ^^^ bits sl 16 12

/-- Home address of an HBM byte. -/
def hbmHome (stack sl : Nat) : Nat := stack * 2 ^ 36 + sl

/-- Size of the remote-cache part of a cluster memory (R167). -/
def Panel.rcBytes (p : Panel) (die cl : Nat) : Nat := p.fget F.CD_CMEM_PART_rc_mib die cl * 2 ^ 20

/-- The memory and home address of a panel address, or none where the access ends in ADDRESS_ERROR (R34, R168). -/
def Panel.decode (p : Panel) (pa : Nat) : Option (MemKind × Nat) :=
  if pa < 2 ^ 41 then
    match hbmDecode p.st.regions pa with
    | some (s, sl) => if p.hasStack s then some (.hbm s, hbmHome s sl) else none
    | none => none
  else if cmemBase ≤ pa ∧ pa < cmemBase + 0x4000000000 then
    let d := (pa - cmemBase) / 0x100000000
    let o := (pa - cmemBase) % 0x100000000
    let cl := o / 0x8000000
    if p.hasDie d && decide (o < 0x10000000) && decide (p.rcBytes d cl ≤ o % 0x8000000) then some (.cmem d cl, pa)
    else none
  else if scratchBase ≤ pa ∧ pa < scratchBase + 0x400000000 then
    let c := (pa - scratchBase) / 0x1000000
    if p.hasCore c && decide ((pa - scratchBase) % 0x1000000 < 0x400000) then some (.scratch c, pa) else none
  else none

/-- The window and stride of a populated address, for the box rule of R43: HBM is one window. The remote-cache part is
populated. -/
def Panel.windowOf (p : Panel) (pa : Nat) : Option Nat :=
  if pa < 2 ^ 41 then
    if p.shapeValid && decide (pa < p.nStacks * p.stackGib * 2 ^ 30) then some 0 else none
  else if cmemBase ≤ pa ∧ pa < cmemBase + 0x4000000000 then
    let d := (pa - cmemBase) / 0x100000000
    if p.hasDie d && decide ((pa - cmemBase) % 0x100000000 < 0x10000000) then some (1 + d) else none
  else if scratchBase ≤ pa ∧ pa < scratchBase + 0x400000000 then
    let c := (pa - scratchBase) / 0x1000000
    if p.hasCore c && decide ((pa - scratchBase) % 0x1000000 < 0x400000) then some (100 + c) else none
  else none

/-- A byte range lies inside the populated part of one window (R43). -/
def Panel.boxOk (p : Panel) (lo hi : Int) : Bool :=
  decide (0 ≤ lo) && decide (lo ≤ hi) && (p.windowOf lo.toNat).isSome && p.windowOf lo.toNat == p.windowOf hi.toNat

/-! ### Protection classes and errors -/

/-- First enabled entry of a map with a defined class that covers the unit: true for weight class (R162). -/
def mapClass (get : Nat → W64) (lastHi lastLo firstHi u : Nat) : Bool :=
  match (List.range 16).find? fun n =>
      let w := (get n).toNat
      bit w 63 && (bits w 49 48 == 1 || bits w 49 48 == 2) && decide (bits w firstHi 0 ≤ u) &&
        decide (u ≤ bits w lastHi lastLo) with
  | some n => bits (get n).toNat 49 48 == 1
  | none => false

/-- Whether the 64 B at a home address are of weight class (R162); HBM has no class. -/
def Panel.isWeight (p : Panel) (k : MemKind) (home : Nat) : Bool :=
  match k with
  | .hbm _ => false
  | .cmem d cl =>
    mapClass (fun n => p.get .CD_CMEM_PMAP d cl n) F.CD_CMEM_PMAP_last_unit.hi 16 F.CD_CMEM_PMAP_first_unit.hi
      (home % 0x8000000 / 65536)
  | .scratch c =>
    mapClass (fun n => p.get .CORE_PMAP c n) F.CORE_PMAP_last_row.hi 16 F.CORE_PMAP_first_row.hi (home % 0x400000 / 4096)

/-- Bytes of a code word (R161, R190). -/
def wordBytes (k : MemKind) (weight : Bool) : Nat :=
  match k with
  | .hbm _ => 64
  | _ => if weight then 64 else 8

/-- Key of a memory in `Store.undef`. -/
def undefKey : MemKind → Option Nat
  | .hbm _ => none
  | .cmem d cl => some (d * 2 + cl)
  | .scratch c => some (256 + c)

/-- The check bits of a 64 B block are of the other class: its contents are undefined (R165). -/
def Panel.misCoded (p : Panel) (k : MemKind) (home : Nat) : Bool :=
  match undefKey k with
  | none => false
  | some _ => (List.range 8).any fun j => smHas p.st.enc (home / 64 * 8 + j) != p.isWeight k home

/-- An 8 B word whose memory lost its contents and that no write has covered since (R30, R167, R382). -/
def Panel.lostWord (p : Panel) (k : MemKind) (w : Nat) : Bool :=
  match undefKey k with
  | none => false
  | some u =>
    match smGet p.st.undef u with
    | some m => !smHas m w
    | none => false

/-- A code word of these 8 B words, in the block of `home`, has no defined contents. -/
def Panel.undefWords (p : Panel) (k : MemKind) (home : Nat) (ws : List Nat) : Bool :=
  p.misCoded k home || ws.any (p.lostWord k)

/-- A memory unit in the counts of R398: a cluster memory, a stack or a scratchpad, by its site. -/
def Panel.memUnit (p : Panel) : MemKind → Nat
  | .cmem d cl => p.dieSite d * 2 + cl
  | .hbm s => 256 + p.stackSite s
  | .scratch c => 512 + p.dieSite (c / 16) * 18 + c / 8 % 2 * 9 + p.coreSite c

/-- Bank of a cluster memory (R166), or pseudo-channel of a stack, that holds a block. -/
def bankOf : MemKind → Nat → Nat
  | .cmem .., blk => blk / 256 % 64
  | .hbm _, blk => hbmPc (blk % 2 ^ 36)
  | .scratch _, _ => 0

/-- One more of a kind. -/
def countOne (m : SMap Nat) (k : Nat) : SMap Nat := smSet m k (smGetD m k 0 + 1)

/-- An error is counted toward its margin: a CE for its unit, a DE for its bank (R398). -/
def Panel.countUnit (p : Panel) (k : MemKind) (blk : Nat) (uc : Bool) : Panel :=
  if uc then { p with pmc := { p.pmc with deCounts := countOne p.pmc.deCounts (p.memUnit k * 64 + bankOf k blk) } }
  else { p with pmc := { p.pmc with ceCounts := countOne p.pmc.ceCounts (p.memUnit k) } }

/-- Count and report an error found by a read (R164, R191). -/
def Panel.countErr (p : Panel) (k : MemKind) (home : Nat) (uc : Bool) : Panel :=
  let blk := home / 64 * 64
  let p := p.countUnit k blk uc
  match k with
  | .scratch c =>
    let p := if uc then p.addHold F.CORE_SP_ERR_uc_count 1 c else p.addHold F.CORE_SP_ERR_ce_count 1 c
    let p := p.fput F.CORE_SP_ERR_last_class (b2n (p.isWeight k home)) c
    let p := p.fput F.CORE_SP_ERR_last_uc (b2n uc) c
    let p := p.fput F.CORE_SP_ERR_last_offset (blk % 0x400000) c
    p.reportCore c (if uc then 0x0104 else 0x0103) (if uc then clsDE else clsCE) (some blk)
  | .cmem d cl =>
    let p := if uc then p.addHold F.CD_CMEM_ERR_uc_count 1 d cl else p.addHold F.CD_CMEM_ERR_ce_count 1 d cl
    let p := p.fput F.CD_CMEM_ERR_last_uc (b2n uc) d cl
    let p := p.fput F.CD_CMEM_ERR_last_offset (blk % 0x8000000) d cl
    p.reportCluster d cl (if uc then 0x0112 else 0x0111) (if uc then clsDE else clsCE) (some blk)
  | .hbm s =>
    let sl := blk % 2 ^ 36
    let p := if uc then p.addHold F.MPD_ERR_uc_count 1 s else p.addHold F.MPD_ERR_ce_count 1 s
    let p := p.fput F.MPD_ERR_last_uc (b2n uc) s
    let p := p.fput F.MPD_ERR_last_block (sl / 64) s
    p.reportNode (0x40 + s) (if uc then 0x0202 else 0x0201) (if uc then clsDE else clsCE) (some (hbmEncode p.st.regions s sl))
      (some sl)

/-- The 8 B words of the code words that a range inside one 64 B block touches. -/
def touched (wb home n : Nat) : List Nat :=
  let lo := home / wb * wb / 8
  let hi := ((home + n - 1) / wb * wb + wb) / 8
  (List.range (hi - lo)).map (lo + ·)

def delAll {V : Type} (m : SMap V) (ks : List Nat) : SMap V := ks.foldl smDel m

def Panel.setPoison (p : Panel) (ks : List Nat) (on : Bool) : Panel :=
  { p with st := { p.st with
    poison := ks.foldl (fun m k => if on then smSet m k () else smDel m k) p.st.poison } }

/-- The 8 B word of its block that a bit belongs to in activation class: its data, or its 8 check bits (R161). -/
def bitWord (b : Nat) : Nat := if b < 512 then b / 64 else (b - 512) / 8

/-- Forget the bad bits of these 8 B words (all of one 64 B block): they have been written with fresh check bits. A write of a
whole block stores its own address's hash (R190). -/
def Panel.clearLatent (p : Panel) (ks : List Nat) : Panel :=
  let blk := ks.headD 0 / 8
  let left := (smGetD p.st.latent blk []).filter fun b => !ks.contains (blk * 8 + bitWord b)
  let left := if 8 ≤ ks.length then [] else left
  { p with st := { p.st with
    latent := smPut p.st.latent [] blk left
    astray := if 8 ≤ ks.length then smDel p.st.astray blk else p.st.astray } }

/-! ### What the check bits find (R161, R190) -/

/-- What decoding a code word finds: no error, a correctable error, an uncorrectable one, or bad bits that look like a
correctable or a clean word of other data. -/
inductive Found where
  | clean
  | ce
  | ue
  /-- taken for other data: with a correction, or without -/
  | other (corrected : Bool)
  deriving DecidableEq, Repr

/-- Number of different bytes that hold a bad bit. -/
def badBytes (fl : List Nat) : Nat := (fl.foldl (fun l b => insertAsc l (b / 8)) []).length

/-- Reed–Solomon over 64 data bytes and 8 check bytes: up to 4 bad bytes are corrected, 5 or more are uncorrectable unless they
fall near another code word, which the pattern decides (free, R161). -/
def foundRS (fl : List Nat) (near : Bool) : Found :=
  let n := badBytes fl
  if n = 0 then .clean else if n ≤ 4 then .ce else if near then .other true else .ue

/-- SEC-DED: one bad bit is corrected, two are detected; the spec states nothing of more, which may be taken for anything
(free, R161, R190). -/
def foundSD (fl : List Nat) (o : Nat) : Found :=
  match fl.length with
  | 0 => .clean
  | 1 => .ce
  | 2 => .ue
  | _ => if o = 0 then .ue else if o = 1 then .other true else .other false

/-- Bad bits of the code word of these 8 B words. -/
def Panel.badBits (p : Panel) (ks : List Nat) : List Nat :=
  let blk := ks.headD 0 / 8
  let fl := smGetD p.st.latent blk []
  if 8 ≤ ks.length then fl else fl.filter fun b => ks.contains (blk * 8 + bitWord b)

/-- The stored hash of an HBM block is not that of its own address (R190). -/
def Panel.hashWrong (p : Panel) (home : Nat) : Bool :=
  match smGet p.st.astray (home / 64) with
  | some sl => Config.addrHash sl % 16 != Config.addrHash (home % 2 ^ 36 / 64) % 16
  | none => false

/-- What the check bits of one code word find (R161, R190). -/
def Panel.findWord (p : Panel) (k : MemKind) (weight : Bool) (ks : List Nat) : Found × Panel :=
  let fl := p.badBits ks
  let (o, p) := if fl.length < 3 then (0, p) else p.draw 3
  match k with
  | .hbm _ => (if p.hashWrong (ks.headD 0 * 8) then .ue else foundSD fl o, p)
  | _ => (if weight then foundRS fl (o == 1) else foundSD fl o, p)

/-- A byte as stored, its bad bits flipped. -/
def flipByte (fl : List Nat) (i : Nat) (b : Byte) : Byte :=
  b ^^^ BitVec.ofNat 8 (sumL ((List.range 8).map fun j => if fl.contains (8 * i + j) then 2 ^ j else 0))

/-- The 8 B words of each code word of a block (R161, R190). -/
def codeWords (wb blk : Nat) : List (List Nat) :=
  (List.range (64 / wb)).map fun i => (List.range (wb / 8)).map fun j => blk * 8 + i * (wb / 8) + j

/-- Decode every code word of the 64 B block at a home address: its bytes as a read returns them, whether a word is correctable,
and the words found uncorrectable. A word poisoned already is found as poison alone (R164, R191). -/
def Panel.decodeBlock (p : Panel) (k : MemKind) (home : Nat) : List Byte × Bool × List Nat × Panel :=
  let blk := home / 64
  let weight := p.isWeight k home
  let fl := smGetD p.st.latent blk []
  (codeWords (wordBytes k weight) blk).foldl (fun (acc : List Byte × Bool × List Nat × Panel) ks =>
    let (d, ce, ue, p) := acc
    let lo := ks.headD 0 * 8
    let n := 8 * ks.length
    let bs := (List.range n).map fun i => smGetD p.st.mem (lo + i) 0
    let raw := (bs.zipIdx (lo % 64)).map fun e => flipByte fl e.2 e.1
    if ks.any (smHas p.st.poison) then (d ++ raw, ce, ue, p)
    else
      match p.findWord k weight ks with
      | (.clean, p) => (d ++ bs, ce, ue, p)
      | (.ce, p) => (d ++ bs, true, ue, p)
      | (.ue, p) => (d ++ raw, ce, ue ++ ks, p)
      | (.other corrected, p) =>
        let (f, p) := p.drawBytes n
        (d ++ f, ce || corrected, ue, p)) ([], false, [], p)

def Panel.bytesAt (p : Panel) (home n : Nat) : List Byte :=
  (List.range n).map fun i => smGetD p.st.mem (home + i) 0

/-- Refresh management of an HBM access (R194): the bank's activations are counted, and one command is issued, its count starting
anew, when the count reaches the threshold that the stack reported at training. Every 64 B access counts as one activation, a scrub
read and a read-modify-write too (DESIGN CHOICE, log 46). -/
def Panel.activate64 (p : Panel) (k : MemKind) (home : Nat) : Panel :=
  match k with
  | .hbm s =>
    if !p.flag F.MPD_HBM_CONFIG_rfm_enable s then p
    else
      let sl := home % 2 ^ 36
      let key := s * 2 ^ 20 + hbmPc sl * 2 ^ 12 + Config.hbmBank sl % 2 ^ 12
      let n := smGetD p.st.activations key 0 + 1
      if n < smGetD p.st.rfmLimit s 0 then { p with st := { p.st with activations := smPut p.st.activations 0 key n } }
      else { p with st := { p.st with
        activations := smDel p.st.activations key
        rfmIssued := smPut p.st.rfmIssued 0 s (smGetD p.st.rfmIssued s 0 + 1) } }
  | _ => p

/-- Bytes stored at a home address. -/
def Panel.putBytes (p : Panel) (home : Nat) (bs : List Byte) : Panel :=
  { p with st := { p.st with mem := (bs.zipIdx home).foldl (fun m e => smPut m 0 e.2 e.1) p.st.mem } }

/-- Read a range inside one 64 B block: data, poison mark, and the counting of what the read found. The whole block is read and
checked, whatever part of it is asked for (R164, R165, R191): it counts and reports at most one correctable and one uncorrectable
error, the latter last, however many of its code words are bad (DESIGN CHOICE, log 54). Words without defined contents give free data, with one of the
outcomes of R165. -/
def Panel.readBlock (p : Panel) (k : MemKind) (home n : Nat) : List Byte × Bool × Panel :=
  let ws := (List.range 8).map (home / 64 * 8 + ·)
  let mis := p.misCoded k home
  let lost (w : Nat) : Bool := mis || p.lostWord k w
  let pz := ws.any fun w => !lost w && smHas p.st.poison w
  let (blk, ce, uw, p) := (p.activate64 k home).decodeBlock k home
  let d := (blk.drop (home % 64)).take n
  let ue := uw.any fun w => !lost w
  if ws.any lost then
    let (o, p) := p.draw 4
    let (f, p) := p.drawBytes n
    let ue := ue || o == 2
    let p := if (ce && !ws.all lost) || o == 1 then p.countErr k home false else p
    let p := if ue then p.countErr k home true else p
    (((d.zip f).zipIdx home).map fun e => if lost (e.2 / 8) then e.1.2 else e.1.1, pz || ue || o == 3, p)
  else
    match k with
    | .hbm _ =>
      if pz then (d, true, p)
      else if ue then (d, true, (((p.countErr k home true).putBytes (home / 64 * 64) blk).setPoison ws true).clearLatent ws)
      else if ce then (d, false, (p.countErr k home false).clearLatent ws)
      else (d, false, p)
    | _ =>
      let p := if ce then p.countErr k home false else p
      let p := if ue then p.countErr k home true else p
      (d, pz || ue, p)

/-- The words' check bits are now of the class they lie in, over defined contents (R161, R165). -/
def Panel.encode (p : Panel) (k : MemKind) (weight : Bool) (ws : List Nat) : Panel :=
  match undefKey k with
  | none => p
  | some u =>
    { p with st := { p.st with
      enc := ws.foldl (fun m w => if weight then smSet m w () else smDel m w) p.st.enc
      undef := match smGet p.st.undef u with
        | some m => smSet p.st.undef u (ws.foldl (fun m w => smSet m w ()) m)
        | none => p.st.undef } }

/-- The word at w that a read-modify-write found is counted, and its bytes are those that decoding it gave: as stored, raw where it
is uncorrectable, or other data (R161, R163). -/
def Panel.asFound (p : Panel) (k : MemKind) (w : Nat) (raw : List Byte) (found : Found) : Panel :=
  match found with
  | .ue => (p.countErr k w true).putBytes w raw
  | .ce => p.countErr k w false
  | .other corrected => ((if corrected then p.countErr k w false else p).drawBytes raw.length).2.putBytes w (p.drawBytes raw.length).1
  | .clean => p

/-- Write the part of one code word that a write covers: a whole word takes fresh check bits, a part is merged and keeps
or takes poison (R163, R189). `w` is the word's home address, `wb` its size. A part merged into undefined contents leaves
free bytes around it, and may find them poisoned or uncorrectable. -/
def Panel.writeWord (p : Panel) (k : MemKind) (weight : Bool) (w home : Nat) (bs : List (Byte × Bool)) : Panel :=
  let wb := wordBytes k weight
  let ws := (List.range (wb / 8)).map (w / 8 + ·)
  let pz := bs.any (·.2)
  let p := p.activate64 k home
  if home = w ∧ bs.length = wb then (((p.putBytes home (bs.map (·.1))).setPoison ws pz).clearLatent ws).encode k weight ws
  else
    let p := match k with
      | .scratch c => p.addWrap F.CORE_SP_STATUS_rmw_count 1 c
      | _ => p
    if p.undefWords k w ws then
      let (o, p) := p.draw 4
      let (d, p) := p.drawBytes wb
      let p := if o = 1 then p.countErr k w false else if o = 2 then p.countErr k w true else p
      ((((p.putBytes w d).putBytes home (bs.map (·.1))).setPoison ws (pz || decide (2 ≤ o))).clearLatent ws).encode k weight ws
    else
      let was := ws.any fun x => smHas p.st.poison x
      let raw := (p.bytesAt w wb).zipIdx (w % 64) |>.map fun e => flipByte (smGetD p.st.latent (w / 64) []) e.2 e.1
      let (found, p) := if was then (Found.clean, p) else p.findWord k weight ws
      let p := p.asFound k w raw found
      ((p.putBytes home (bs.map (·.1))).setPoison ws (pz || was || found == .ue)).clearLatent ws

/-- Write tagged bytes inside one 64 B block, code word by code word. -/
def Panel.writeBlock (p : Panel) (k : MemKind) (home : Nat) (bs : List (Byte × Bool)) : Panel :=
  let weight := p.isWeight k home
  let wb := wordBytes k weight
  let blk := home / 64
  (List.range (64 / wb)).foldl (fun p i =>
    let w := blk * 64 + i * wb
    let part := (bs.zipIdx home).filter fun e => decide (w ≤ e.2) && decide (e.2 < w + wb)
    match part with
    | [] => p
    | e :: _ => p.writeWord k weight w e.2 (part.map (·.1))) p

/-! ### Ranges of panel addresses -/

/-- Split a range at 64 B boundaries: address and length of each piece. -/
def pieces : Nat → Nat → Nat → List (Nat × Nat)
  | 0, _, _ => []
  | fuel + 1, pa, n =>
    if n = 0 then []
    else
      let m := min n (64 - pa % 64)
      (pa, m) :: pieces fuel (pa + m) (n - m)

def piecesOf (pa n : Nat) : List (Nat × Nat) := pieces (n / 64 + 2) pa n

/-- Node that a memory belongs to (R207). -/
def MemKind.node : MemKind → Nat
  | .hbm s => 0x40 + s
  | .cmem d _ => d
  | .scratch c => c / 16

/-- Status of one piece: 0 OK, 1 ADDRESS_ERROR (R34, R168, R200), 2 FENCED_TARGET (R225), 3 no answer: the home lies in a
zone that is lost (R223, R328). -/
def Panel.pieceStatus (p : Panel) (pa : Nat) : Nat :=
  match p.decode pa with
  | none => 1
  | some (k, _) =>
    if !p.nodeUp k.node then 3
    else
      match k with
      | .scratch c => if p.isFenced c then 2 else 0
      | .hbm s => if p.fget F.MPD_HBM_STATUS_state s = 5 then 1 else 0
      | .cmem .. => 0

/-- Status of an access to n bytes: the first failing piece's, else OK. An access to no bytes is judged by its address. -/
def Panel.accessStatus (p : Panel) (pa n : Nat) : Nat :=
  ((piecesOf pa (max 1 n)).map fun e => p.pieceStatus e.1).find? (· != 0) |>.getD 0

/-- Read a range whose access status is OK: each byte with the poison mark of its piece. -/
def Panel.readTagged (p : Panel) (pa n : Nat) : List (Byte × Bool) × Panel :=
  (piecesOf pa n).foldl (fun (acc : List (Byte × Bool) × Panel) e =>
    match acc.2.decode e.1 with
    | none => (acc.1 ++ List.replicate e.2 (0, true), acc.2)
    | some (k, h) =>
      let (d, pz, p) := acc.2.readBlock k h e.2
      (acc.1 ++ d.map (·, pz), p)) ([], p)

def Panel.readRange (p : Panel) (pa n : Nat) : List Byte × Bool × Panel :=
  let (bs, p) := p.readTagged pa n
  (bs.map (·.1), bs.any (·.2), p)

/-- Write tagged bytes to a range whose access status is OK, in address order (R177). -/
def Panel.writeTagged (p : Panel) (pa : Nat) (bs : List (Byte × Bool)) : Panel :=
  (piecesOf pa bs.length).foldl (fun (acc : Panel × List (Byte × Bool)) e =>
    match acc.1.decode e.1 with
    | none => (acc.1, acc.2.drop e.2)
    | some (k, h) => (acc.1.writeBlock k h (acc.2.take e.2), acc.2.drop e.2)) (p, bs) |>.1

/-- Read a range in whole 64 B blocks, as the wide port and the vector engine do: the bytes asked for, and whether any
64 B read is poisoned (R114, R152, R164). -/
def Panel.readBlocks (p : Panel) (pa n : Nat) : List Byte × Bool × Panel :=
  let lo := pa / 64 * 64
  let (d, pz, p) := p.readRange lo ((pa + n + 63) / 64 * 64 - lo)
  ((d.drop (pa - lo)).take n, pz, p)

/-- Write a range; with poison every 64 B touched becomes poisoned (R114, R152). -/
def Panel.writeBlocks (p : Panel) (pa : Nat) (bs : List Byte) (pz : Bool) : Panel :=
  let p := p.writeTagged pa (bs.map (·, pz))
  if pz && !bs.isEmpty then
    let lo := pa / 64 * 8
    p.setPoison ((List.range ((pa + bs.length + 63) / 64 * 8 - lo)).map (lo + ·)) true
  else p

/-- First address of a mirrored region: 0 is the page area, 1 to 3 are those of MIR_REGION_n (R386). -/
def Panel.regionBase (p : Panel) (n : Nat) : Nat :=
  if n = 0 then p.fget F.RQE_KV_BASE_base * 2 ^ 18 else p.fget F.MIR_REGION_base 0 n * 2 ^ 20

/-- Size of a mirrored region, 0 where it is not enabled. -/
def Panel.regionSize (p : Panel) (n : Nat) : Nat :=
  if n = 0 then p.fget F.RQE_KV_CONFIG_pages * 0x40000
  else if p.flag F.MIR_REGION_enable 0 n then p.fget F.MIR_REGION_size_mib 0 n * 2 ^ 20 else 0

/-- The mirrored ranges load into the memory port dies with the region table (R386 step 2). -/
def Panel.loadRanges (p : Panel) : Panel :=
  { p with st := { p.st with mirRanges := [0, 1, 2, 3].map fun n => (n, p.regionBase n, p.regionSize n) } }

/-- The mirrored range that an address lies in, and its first address (R386). -/
def Panel.mirrored (p : Panel) (pa : Nat) : Option (Nat × Nat) :=
  (p.st.mirRanges.find? fun r => decide (r.2.1 ≤ pa) && decide (pa < r.2.1 + r.2.2)).map fun r => (r.1, r.2.1)

/-- A list in pieces of at most 4 KiB, with their offsets. -/
def pieces4k {α : Type} : Nat → Nat → List α → List (Nat × List α)
  | 0, _, _ => []
  | n + 1, off, l => if l.isEmpty then [] else (off, l.take 4096) :: pieces4k n (off + 4096) (l.drop 4096)

/-- The mirror engine has something to send. -/
def Panel.mirPush (p : Panel) (m : MirSend) : Panel := { p with mir := { p.mir with queue := p.mir.queue ++ [m] } }

/-- The mirror engine accepts a copy of bytes of a region (R386 steps 2 to 4), in packets of at most 4 KiB (R409), and counts them. -/
def Panel.mirCopy (p : Panel) (region off : Nat) (bs : List (Byte × Bool)) : Panel :=
  let ks := (pieces4k (bs.length / 4096 + 1) 0 bs).map fun e => MirSend.copy region (off + e.1) e.2
  let m := p.mir
  let bytes := m.bytesSent + bs.length
  let p := p.addWrap F.MIR_COUNTS_mirrored_mib (bytes / 2 ^ 20)
  { p with mir := { m with queue := m.queue ++ ks, copies := m.copies + ks.length, bytesSent := bytes % 2 ^ 20 } }

/-- Copy what a write stored in the mirrored ranges to the mirror engine while the state is SYNCING or PAIRED (R386, R389). -/
def Panel.mirrorCopy (p : Panel) (pa : Nat) (bs : List (Byte × Bool)) : Panel :=
  let s := p.fget F.MIR_STATUS_state
  (if s = 2 ∨ s = 3 then p.st.mirRanges else []).foldl (fun p r =>
    let lo := max pa r.2.1
    let hi := min (pa + bs.length) (r.2.1 + r.2.2)
    if lo < hi then p.mirCopy r.1 (lo - r.2.1) ((bs.drop (lo - pa)).take (hi - lo)) else p) p

/-- A write of any unit to a range whose access status is OK. -/
def Panel.storePa (p : Panel) (pa : Nat) (bs : List (Byte × Bool)) : Panel :=
  (p.writeTagged pa bs).mirrorCopy pa bs

/-! ### The remote cache (R170 to R175) -/

def rcKey (die cl line : Nat) : Nat := (die * 2 + cl) * 2 ^ 48 + line

/-- Whether a DMA read by a core of the cluster from this address is cacheable (R170). -/
def Panel.cacheable (p : Panel) (die cl pa : Nat) : Bool :=
  let other := decide (cmemBase ≤ pa) && decide (pa < cmemBase + 0x4000000000) &&
    decide ((pa - cmemBase) / 0x100000000 ≠ die)
  (decide (pa < 2 ^ 41) || other) && decide (0 < p.rcBytes die cl) && !p.flag F.CD_RC_EPOCH_clearing die cl &&
  (List.range 8).any fun n =>
    let b := p.get .CD_RC_WBASE die cl n
    let l := p.get .CD_RC_WLIMIT die cl n
    bit b.toNat 63 && decide (bits b.toNat 55 12 ≤ pa / 4096) && decide (pa / 4096 ≤ bits l.toNat 55 12)

/-- Advance the epoch of a cluster by n; a carry past 0xFFFF clears every line (R172). -/
def Panel.advanceEpoch (p : Panel) (die cl n : Nat) : Panel :=
  let e := p.fget F.CD_RC_EPOCH_epoch die cl + n
  let p := p.fput F.CD_RC_EPOCH_epoch e die cl
  if e ≤ 0xFFFF then p
  else
    let p := p.fput F.CD_RC_EPOCH_clearing 1 die cl
    { p with st := { p.st with rc := smFilter p.st.rc fun k => k / 2 ^ 48 != die * 2 + cl } }

/-- The cache of a cluster installs a fill of this epoch (R171, R172). -/
def Panel.rcTakes (p : Panel) (die cl epoch : Nat) : Bool :=
  epoch == p.fget F.CD_RC_EPOCH_epoch die cl && !p.flag F.CD_RC_EPOCH_clearing die cl && decide (0 < p.rcBytes die cl)

/-- Install a line of clean data (R171, R175). -/
def Panel.rcInstall (p : Panel) (die cl line epoch : Nat) (d : List Byte) : Panel :=
  if p.rcTakes die cl epoch then
    { p with st := { p.st with rc := smSet p.st.rc (rcKey die cl line) ⟨epoch, d, [], false⟩ } }
  else p

/-- What the weight-class check bits of the four 64 B blocks of a line find (R161, R167, R175): the worst of them. -/
def lineFound (err : List Nat) (near : Bool) : Found :=
  let of (b : Nat) : Found := foundRS ((err.filter fun e => e / 576 == b).map (· % 576)) near
  let l := (List.range 4).map of
  if l.contains .ue then .ue else if l.contains (.other true) then .other true else if l.contains .ce then .ce else .clean

/-- Read one 256 B line through the cache of a cluster: a hit on a line of the current epoch is served from it, unless
it was replaced, which is free (R171); the read whose miss filled the line counts as that miss and not as a hit (R181); a stored uncorrectable line is dropped and served as a miss (R175). -/
def Panel.rcReadLine (p : Panel) (die cl line opEpoch : Nat) : List (Byte × Bool) × Panel :=
  let miss (p : Panel) : List (Byte × Bool) × Panel :=
    let p := p.addWrap F.CD_RC_STATS_misses 1 die cl
    let (bs, p) := p.readTagged (line * 256) 256
    (bs, if bs.any (·.2) then p else p.rcInstall die cl line opEpoch (bs.map (·.1)))
  match smGet p.st.rc (rcKey die cl line) with
  | none => miss p
  | some l =>
    let (o, p) := p.draw 2
    if l.epoch ≠ p.fget F.CD_RC_EPOCH_epoch die cl ∨ o = 1 then miss p
    else
      let (near, p) := if l.err.isEmpty then (0, p) else p.draw 2
      let hit (p : Panel) (d : List Byte) : List (Byte × Bool) × Panel :=
        (d.map (·, false),
          if l.due then { p with st := { p.st with rc := smSet p.st.rc (rcKey die cl line) { l with due := false } } }
          else p.addWrap F.CD_RC_STATS_hits 1 die cl)
      match lineFound l.err (near == 1) with
      | .ue =>
        miss { p.addHold F.CD_RC_STATS_line_uc 1 die cl with
          st := { p.st with rc := smDel p.st.rc (rcKey die cl line) } }
      | .ce => hit (p.addHold F.CD_RC_STATS_line_ce 1 die cl) l.data
      | .other _ =>
        let (f, p) := p.drawBytes 256
        hit (p.addHold F.CD_RC_STATS_line_ce 1 die cl) f
      | .clean => hit p l.data

/-- A DMA read of a core of the cluster, line by line: through the cache where the line is cacheable, else from the home
(R170, R171; a window's ends are 4 KiB boundaries). -/
def Panel.dmaRead (p : Panel) (die cl opEpoch pa n : Nat) : List (Byte × Bool) × Panel :=
  if n = 0 then ([], p)
  else
    let lines := (List.range ((pa + n - 1) / 256 + 1 - pa / 256)).map (pa / 256 + ·)
    lines.foldl (fun (acc : List (Byte × Bool) × Panel) l =>
      let lo := max pa (l * 256)
      let m := min (pa + n) (l * 256 + 256) - lo
      let (d, p) :=
        if acc.2.cacheable die cl (l * 256) && acc.2.accessStatus (l * 256) 256 == 0 then
          let (d, p) := acc.2.rcReadLine die cl l opEpoch
          ((d.drop (lo - l * 256)).take m, p)
        else acc.2.readTagged lo m
      (acc.1 ++ d, p)) ([], p)

/-- A write by a core of the cluster drops the lines of its cache that hold the written bytes (R173). -/
def Panel.rcInvalidate (p : Panel) (die cl pa n : Nat) : Panel :=
  if n = 0 then p
  else
    { p with st := { p.st with
      rc := ((List.range ((pa + n - 1) / 256 + 1 - pa / 256)).map fun i => rcKey die cl (pa / 256 + i)).foldl smDel
        p.st.rc } }

/-! ### Loss of contents -/

/-- The contents of these memories become undefined (R30, R167, R382). -/
def Panel.markUndef (p : Panel) (units : List Nat) : Panel :=
  { p with st := { p.st with undef := units.foldl (fun m u => smSet m u []) p.st.undef } }

/-- Zeros with clean check bits over a whole stack (R198). -/
def Panel.zeroStack (p : Panel) (s : Nat) : Panel :=
  let keep (unit k : Nat) : Bool := k / unit != s
  { p with st := { p.st with
    mem := smFilter p.st.mem fun k => keep (2 ^ 36) k
    poison := smFilter p.st.poison fun k => keep (2 ^ 33) k
    latent := smFilter p.st.latent fun k => keep (2 ^ 30) k
    astray := smFilter p.st.astray fun k => keep (2 ^ 30) k } }

/-! ### Commands -/

/-- SP_STARVATION_GRANT (R157): a starved narrow request is granted and counted. -/
def execSpStarvationGrant (c : Nat) (_ : NarrowReq) (s : State) : Host.Outcome State Fault Refusal :=
  .next (s.upd fun p => if p.hasCore c then p.addWrap F.CORE_SP_STATUS_starve_grants 1 c else p)

/-- One word of a cluster scrubber (R169). Each bad code word of the 64 B counts and is reported, and in activation class only the bad
8 B word becomes poisoned: R164 and R169 speak of the word that is bad (DESIGN CHOICE, log 54). -/
def Panel.scrubCmem (p : Panel) (die cl : Nat) : Panel :=
  let rc := p.rcBytes die cl
  let at0 := smGetD p.st.cmScrub (die * 2 + cl) 0
  let o := if at0 < rc then rc else at0
  if 0x8000000 ≤ o then { p with st := { p.st with cmScrub := smPut p.st.cmScrub 0 (die * 2 + cl) 0 } }
  else
    let home := cmemPa die cl o
    let k := MemKind.cmem die cl
    let nxt := if o + 64 < 0x8000000 then o + 64 else rc
    let p := { p with st := { p.st with cmScrub := smPut p.st.cmScrub 0 (die * 2 + cl) nxt } }
    let wb := wordBytes k (p.isWeight k home)
    (codeWords wb (home / 64)).foldl (fun p xs =>
      if p.undefWords k home xs then
        let (out, p) := p.draw 4
        if out = 1 then p.countErr k home false else if out = 2 then (p.countErr k home true).setPoison xs true else p
      else if xs.any fun w => smHas p.st.poison w then p
      else
        let lo := xs.headD 0 * 8
        let raw := (p.bytesAt lo wb).zipIdx (lo % 64) |>.map fun e => flipByte (smGetD p.st.latent (home / 64) []) e.2 e.1
        let (found, p) := p.findWord k (p.isWeight k home) xs
        match found with
        | .clean => p
        | .other false => p
        | .ue => ((p.asFound k lo raw found).setPoison xs true).clearLatent xs
        | _ => (p.asFound k lo raw found).clearLatent xs) p

/-- CMEM_SCRUB_TICK (R169): the enabled scrubber of a cluster handles its next word. -/
def execCmemScrubTick (die cl : Nat) (s : State) : Host.Outcome State Fault Refusal :=
  .next (s.upd fun p =>
    if p.hasDie die && decide (cl < 2) && p.flag F.CD_CMEM_SCRUB_enable die cl then p.scrubCmem die cl else p)

/-- RC_EPOCH_CLEAR_DONE (R172): the clear of every line ends. -/
def execRcEpochClearDone (die cl : Nat) (s : State) : Host.Outcome State Fault Refusal :=
  .next (s.upd fun p => if p.hasDie die && decide (cl < 2) then p.fput F.CD_RC_EPOCH_clearing 0 die cl else p)

/-- A write of CD_RC_EPOCH_c: advance 1 advances the epoch (R172, R181). -/
def Panel.rcEpochWrite (p : Panel) (die cl : Nat) (v : W64) : Panel :=
  if bit v.toNat F.CD_RC_EPOCH_advance.lo then p.advanceEpoch die cl 1 else p

/-- RC_EPOCH_ADVANCE_WRITE (R172). -/
def execRcEpochAdvanceWrite (die cl : Nat) (v : W64) (s : State) : Host.Outcome State Fault Refusal :=
  .next (s.upd fun p => if p.hasDie die && decide (cl < 2) then p.rcEpochWrite die cl v else p)

/-- A write of CD_CMEM_PART_c (R167): refused while a core of the cluster is not halted or an engine is enabled, or when
the sizes exceed their limits; accepted, the contents become undefined, also where the sizes are what they were: R167 makes no exception
(DESIGN CHOICE, log 54). -/
def Panel.cmemPartWrite (p : Panel) (die cl : Nat) (v : W64) : Panel :=
  let rc := F.CD_CMEM_PART_rc_mib.read v
  let kv := F.CD_CMEM_PART_kv_mib.read v
  let idle := (List.range 8).all fun i => p.halted (die * 16 + cl * 8 + i)
  let off := !p.flag F.RQE_CONTROL_enable 0 && !p.flag F.RQE_CONTROL_enable 3
  if rc + kv ≤ 128 ∧ rc ≤ 64 ∧ idle ∧ off then
    let p := p.fput F.CD_CMEM_PART_rc_mib rc die cl
    let p := p.fput F.CD_CMEM_PART_kv_mib kv die cl
    let p := p.fput F.CD_CMEM_PART_refused 0 die cl
    let p := { p with st := { p.st with rc := smFilter p.st.rc fun k => k / 2 ^ 48 != die * 2 + cl } }
    p.markUndef [die * 2 + cl]
  else p.fput F.CD_CMEM_PART_refused 1 die cl

/-- CD_CMEM_PART_WRITE (R167). -/
def execCdCmemPartWrite (die cl : Nat) (v : W64) (s : State) : Host.Outcome State Fault Refusal :=
  .next (s.upd fun p => if p.hasDie die && decide (cl < 2) then p.cmemPartWrite die cl v else p)

end Sys2Proof.Machine
end

