-- ==== Sys2Proof/Machine/Operands.lean ====
section
/-! DEFINITION. Operands of core instructions: scalar and descriptor registers (R37, R40, R49), the checks of a descriptor
(R43, R44), scratchpad accesses with what an unresolved branch holds (R50, R51, R73), and issue itself (R71 to R78). -/

namespace Sys2Proof.Machine

/-! ### Registers -/

/-- s0 reads as zero (R37). -/
def Core.sreg (k : Core) (r : BitVec 5) : W64 := if r = 0 then 0 else smGetD k.q.sregs r.toNat 0

def setSreg (m : SMap W64) (r : BitVec 5) (v : W64) : SMap W64 := if r = 0 then m else smPut m 0 r.toNat v

/-- Writes to s0 are discarded (R37). -/
def Core.setS (k : Core) (r : BitVec 5) (v : W64) : Core := { k with q := { k.q with sregs := setSreg k.q.sregs r v } }

def Core.dreg (k : Core) (d : BitVec 4) : W256 := smGetD k.q.dregs d.toNat 0

def Core.setD (k : Core) (d : BitVec 4) (v : W256) : Core :=
  { k with q := { k.q with dregs := smPut k.q.dregs 0 d.toNat v } }

def Panel.setS (p : Panel) (c : Nat) (r : BitVec 5) (v : W64) : Panel := p.modCore c fun k => k.setS r v

/-- A scalar register that an engine operation in a queue will write: VEXTR and GRP.STATUS (R71, R109, R152). -/
def Core.unready (k : Core) (r : BitVec 5) : Bool :=
  r != 0 && (k.vecQ.any (fun o => o.op == .vextr && o.f.vd == r) ||
    k.mxQ.any fun o => match o.op with | .grpStatus _ rd => rd == r | _ => false)

/-! ### Descriptors (R40 to R44) -/

/-- The fields of a descriptor (R40, R41). -/
structure Desc where
  base : Nat
  fmt : Nat
  pclass : Nat
  stride0 : Int
  stride1 : Int
  stride2 : Int
  extent0 : Nat
  extent1 : Nat
  extent2 : Nat
  scaleOff : Nat
  rsvd : Bool
  deriving DecidableEq, Repr

def descOf (w : W256) : Desc :=
  let n := w.toNat
  { base := bits n 55 0, fmt := bits n 59 56, pclass := bits n 61 60, stride0 := signed 32 (bits n 95 64)
    stride1 := signed 32 (bits n 127 96), stride2 := signed 32 (bits n 159 128), extent0 := bits n 179 160
    extent1 := bits n 211 192, extent2 := bits n 231 212, scaleOff := bits n 255 232
    rsvd := bits n 63 62 != 0 || bits n 191 180 != 0 }

/-- Element width in bits by format code (R42); 0 for a reserved code. -/
def fmtBits (f : Nat) : Nat :=
  match f with
  | 0 => 8 | 1 => 8 | 2 => 8 | 3 => 8 | 4 => 6 | 5 => 6 | 6 => 4 | 7 => 8 | 8 => 4 | 9 => 16 | 10 => 16
  | _ => 0

/-- MX formats carry block scales (R42). -/
def fmtMx (f : Nat) : Bool := decide (2 ≤ f) && decide (f ≤ 6)

/-- Byte address of the row (i1, i2) (R41). -/
def Desc.row (d : Desc) (i1 i2 : Nat) : Int := d.base + i2 * d.stride2 + i1 * d.stride1

/-- Byte address of the first byte of element (i0, i1, i2) (R41). -/
def Desc.elemAddr (d : Desc) (i0 i1 i2 : Nat) : Int :=
  d.row i1 i2 + if d.stride0 = 0 then ((i0 * fmtBits d.fmt / 8 : Nat) : Int) else i0 * d.stride0

/-- Byte address of the block scale of element (i0, i1, i2) (R41). -/
def Desc.scaleAddr (d : Desc) (i0 i1 i2 : Nat) : Nat :=
  d.base + d.scaleOff * 64 + (i2 * d.extent1 + i1) * (d.extent0 / 32) + i0 / 32

/-- Bytes of one element that is not packed below a byte. -/
def Desc.elemBytes (d : Desc) : Nat := (fmtBits d.fmt + 7) / 8

/-- Lowest and highest byte of the elements (R43). -/
def Desc.box (d : Desc) : Int × Int :=
  let s (st : Int) (n : Nat) : Int × Int := let e := st * ((n : Int) - 1); (min 0 e, max 0 e)
  let (l2, h2) := s d.stride2 d.extent2
  let (l1, h1) := s d.stride1 d.extent1
  let (l0, h0) :=
    if d.stride0 = 0 then ((0 : Int), ((d.extent0 * fmtBits d.fmt / 8 : Nat) : Int) - 1)
    else let (a, b) := s d.stride0 d.extent0; (a, b + (d.elemBytes : Int) - 1)
  ((d.base : Int) + l2 + l1 + l0, (d.base : Int) + h2 + h1 + h0)

/-- Lowest and highest byte of the block scales (R43). -/
def Desc.scaleBox (d : Desc) : Int × Int :=
  let lo : Int := ((d.base + d.scaleOff * 64 : Nat) : Int)
  (lo, lo + ((d.extent2 * d.extent1 * (d.extent0 / 32) : Nat) : Int) - 1)

/-- The checks of R43 that need no address. -/
def Desc.fieldsOk (d : Desc) : Bool :=
  fmtBits d.fmt != 0 && d.pclass != 3 && d.extent0 != 0 && d.extent1 != 0 && d.extent2 != 0 &&
    (d.stride0 == 0 || decide (8 ≤ fmtBits d.fmt)) && d.extent0 * fmtBits d.fmt % 8 == 0 &&
    (!fmtMx d.fmt || d.extent0 % 32 == 0) && !d.rsvd

/-- Every check of R43. -/
def Panel.descOk (p : Panel) (d : Desc) : Bool :=
  d.fieldsOk && p.boxOk d.box.1 d.box.2 && (!fmtMx d.fmt || p.boxOk d.scaleBox.1 d.scaleBox.2)

/-- Two address ranges meet. -/
def boxesMeet (a b : Int × Int) : Bool := decide (a.1 ≤ b.2) && decide (b.1 ≤ a.2)

/-- The protection class of a piece against an expected class: HBM has none (R44). -/
def Panel.classOk (p : Panel) (pclass pa : Nat) : Bool :=
  if pclass = 0 then true
  else
    match p.decode pa with
    | some (.hbm _, _) => true
    | some (k, h) => p.isWeight k h == (pclass == 1)
    | none => true

/-- Every 64 B that n bytes at pa touch has the class expected (R44). -/
def Panel.classesOk (p : Panel) (pclass pa n : Nat) : Bool :=
  pclass == 0 || (piecesOf pa n).all fun e => p.classOk pclass e.1

/-- An address computed from a listed base and strides: one below zero is an unmapped address (R31, R34). -/
def placeOf (a : Int) : Nat := if a < 0 then 2 ^ 56 else a.toNat

/-- The dimension-0 rows of a descriptor as byte ranges: one range where the elements are packed, else one range for each
element. -/
def Desc.rowRanges (d : Desc) (row : Int) : List (Nat × Nat) :=
  if d.stride0 = 0 then [(placeOf row, d.extent0 * fmtBits d.fmt / 8)]
  else (List.range d.extent0).map fun (i : Nat) => (placeOf (row + i * d.stride0), d.elemBytes)

/-- All the rows of a descriptor in ascending (i2, i1) order. -/
def Desc.rows (d : Desc) : List (Nat × Nat) :=
  (List.range d.extent2).flatMap fun i2 => (List.range d.extent1).map fun i1 => (i1, i2)

/-- The byte ranges of the elements of a slice in ascending (i2, i1, i0) order. -/
def Desc.elemRanges (d : Desc) : List (Nat × Nat) := d.rows.flatMap fun r => d.rowRanges (d.row r.1 r.2)

/-- Byte ranges of a slice in ascending (i2, i1, i0) order, elements first and then, for an MX format, block scales. A
listed address replaces the base and the stride of dimension 2 (R64). -/
def Desc.ranges (d : Desc) (bases : Option (List Nat)) : List (Nat × Nat) :=
  let base (i2 : Nat) : Int := match bases with
    | some l => ((l.getD i2 0 : Nat) : Int)
    | none => d.base + i2 * d.stride2
  let elems := d.rows.flatMap fun r => d.rowRanges (base r.2 + r.1 * d.stride1)
  let n := d.extent0 / 32
  let scales := d.rows.map fun r => match bases with
    | some l => (l.getD r.2 0 + d.scaleOff * 64 + r.1 * n, n)
    | none => (d.scaleAddr 0 r.1 r.2, n)
  if fmtMx d.fmt then elems ++ scales else elems

/-- The byte ranges an access touches have the class its descriptor expects (R44). -/
def Panel.touchesOk (p : Panel) (pclass : Nat) (l : List (Nat × Nat)) : Bool :=
  pclass == 0 || l.all fun e => p.classesOk pclass e.1 e.2

/-- The whole slice and its scales have the class expected (R44). -/
def Panel.sliceClassOk (p : Panel) (d : Desc) : Bool := p.touchesOk d.pclass (d.ranges none)

/-! ### Issue (R71 to R78) -/

/-- How an instruction ends. -/
inductive Issued where
  /-- issue stalls: nothing happens (R71) -/
  | stall
  | trap (t : TrapInfo)
  /-- completes and the next instruction follows -/
  | done (p : Panel)
  /-- completes with a taken transfer; `ends` whether it may end loop levels (R54) -/
  | jump (p : Panel) (target : Int) (ends : Bool)
  /-- a LOOP whose skip counts as the completion at an index (R54) -/
  | skip (p : Panel) (index : Nat)
  /-- a LOOP that opens a level -/
  | enter (p : Panel) (l : Loop)
  /-- issue blocks at this instruction -/
  | block (b : Blocked)
  /-- a conditional branch: taken or not, signed target -/
  | branch (taken : Bool) (target : Int)
  /-- RETT -/
  | rett

/-- How an instruction behaves behind an unresolved branch (R73). -/
inductive SpecClass where
  | issues
  | waits
  deriving DecidableEq, Repr

def trapFree (cause : Nat) : Issued := .trap ⟨cause, none⟩
def trapWith (cause : Nat) (info : W64) : Issued := .trap ⟨cause, some info⟩
def illegal : Issued := trapFree trapIllegal

/-- An asynchronous cause is to be delivered before the next instruction issues (R77). -/
def Panel.asyncDue (p : Panel) (c : Nat) : Bool := !p.fwMode c && p.get .CORE_TRAP_PENDING c != 0

/-- The core can issue an instruction of this class now (R71, R73, R77). -/
def Panel.canIssue (p : Panel) (c : Nat) (cls : SpecClass) : Bool :=
  p.hasCore c && p.running c && !p.halted c && (p.core c).blocked.isNone && !p.asyncDue c &&
    (match (p.core c).spec with
     | none => true
     | some sp => cls == .issues && decide (sp.count < 24) && sp.heldTrap.isNone)

/-- A trap condition: held behind an unresolved branch, else raised (R74, R76). -/
def Panel.foundTrap (p : Panel) (c : Nat) (t : TrapInfo) : Panel :=
  let k := p.core c
  match k.spec with
  | some sp => p.setCore c { k with spec := some { sp with heldTrap := some (k.q.pc, t) } }
  | none => p.syncTrap c k.q.pc t.cause t.info

/-- The instruction completes: it takes the next sequence number, counts behind an unresolved branch, and issue goes on
at pc. -/
def Core.complete (k : Core) (pc : Nat) : Core :=
  { k with q := { k.q with pc := pc, seq := k.q.seq + 1 }
           spec := k.spec.map fun sp => { sp with count := sp.count + 1 } }

/-- Complete at an index with no taken transfer; none where control would pass the end of instruction memory (R53). -/
def Panel.completeAt (p : Panel) (c i : Nat) : Option Panel :=
  let fw := p.fwMode c
  let k := p.core c
  let (ls, pc) := loopStep i (k.q.loops fw)
  if pc < imemWords then some (p.setCore c (({ k with q := k.q.setLoops fw ls }).complete pc)) else none

/-- The predicted direction of a branch: the upper bit of its counter (R72). -/
def Panel.predict (p : Panel) (c pc : Nat) : Bool :=
  p.flag F.CORE_ISSUE_CONTROL_predict_enable c && decide (2 ≤ (smGetD (p.core c).predictor (pc % 2048) 0).toNat)

/-- A target inside instruction memory (R53). -/
def targetOk (t : Int) : Bool := decide (0 ≤ t) && decide (t < (imemWords : Int))

/-- Follow a taken transfer. -/
def Core.goTo (k : Core) (fw : Bool) (target : Nat) (ends : Bool) : Core :=
  let k := if ends then { k with q := k.q.setLoops fw (endLoops target (k.q.loops fw)) } else k
  k.complete target

/-- Open an unresolved branch (R72, R73): what a misprediction restores is saved, and issue follows the prediction. With
speculation off issue stalls until the branch resolves, as it does where the predicted path, taken or not, leaves instruction
memory; the prediction stands and counts as such. -/
def Panel.openBranch (p : Panel) (c : Nat) (taken : Bool) (target : Int) : Panel :=
  let k := p.core c
  let pc := k.q.pc
  let fw := p.fwMode c
  let pred := p.predict c pc
  let off := !p.flag F.CORE_ISSUE_CONTROL_spec_enable c
  let sp (n : Nat) : Spec := ⟨k.q, pc, taken, pred, target, n, [], none⟩
  let go (k' : Core) : Core := { k' with spec := some (sp (if off then 24 else 0)) }
  if pred then
    p.setCore c (if targetOk target then go (k.goTo fw target.toNat true) else { k with spec := some (sp 24) })
  else
    match p.completeAt c pc with
    | some p' => p'.modCore c go
    | none => p.setCore c { k with spec := some (sp 24) }

/-- Issue one instruction (R71). `bad` says that a reserved, unused or must-be-zero field is nonzero (R47). The detail of IMEM_RANGE is
the target or end index, 32,768 where control passes the end of instruction memory: the spec names none (R53, R76, R85; DESIGN
CHOICE, log 53). -/
def Panel.issue (p : Panel) (c : Nat) (cls : SpecClass) (bad : Bool) (body : Panel → Core → Issued) : Panel :=
  if !p.canIssue c cls then p
  else
    let k := p.core c
    let fw := p.fwMode c
    let range (t : Int) : Panel := p.foundTrap c ⟨trapImem, some (wrap64 t)⟩
    match if bad then illegal else body p k with
    | .stall => p
    | .trap t => p.foundTrap c t
    | .done p' =>
      match p'.completeAt c k.q.pc with
      | some q => q
      | none => range imemWords
    | .jump p' t ends => if targetOk t then p'.setCore c ((p'.core c).goTo fw t.toNat ends) else range t
    | .skip p' i =>
      match p'.completeAt c i with
      | some q => q
      | none => range imemWords
    | .enter p' l =>
      let k' := p'.core c
      p'.setCore c (({ k' with q := k'.q.setLoops fw (l :: k'.q.loops fw) }).complete (k.q.pc + 1))
    | .block b => p.setCore c { k with blocked := some b }
    | .branch taken t =>
      if taken && !targetOk t then range t
      else if !taken && (p.completeAt c k.q.pc).isNone then range imemWords
      else p.openBranch c taken t
    | .rett =>
      let pc := p.fget F.CORE_TRAP_PC_pc c
      let mode := p.fget F.CORE_TRAP_CAUSE_prev_mode c
      (p.fput F.CORE_STATUS_mode mode c).setCore c (k.complete pc)

/-- The instruction a core is blocked on completes, with the effect f (R57, R62, R63, R69). Where control would pass the
end of instruction memory it raises IMEM_RANGE instead and has no effect (R53). The blocked instruction has not issued, so a
pending asynchronous cause is delivered before it (R77, log 7). -/
def Panel.unblock (p : Panel) (c : Nat) (f : Panel → Panel) : Panel :=
  if p.asyncDue c then p else
  let i := (p.core c).q.pc
  let p' := (f p).modCore c fun k => { k with blocked := none }
  match p'.completeAt c i with
  | some q => q
  | none => p.foundTrap c ⟨trapImem, some (wrap64 imemWords)⟩

/-! ### Scratchpad accesses of the sequencer (R50, R51) -/

/-- The offset of a scalar access: its value, or the trap it raises (R50). Of an offset out of range and misaligned SCRATCHPAD_RANGE is the
trap: R50 gives no order (DESIGN CHOICE, log 53). The detail of SCRATCHPAD_RANGE, MISALIGNED and
POISON_CONSUMED is that scratchpad offset, not a panel address: R85 says a faulting address as the cause defines (DESIGN CHOICE,
log 53). -/
def offsetOf (ra : W64) (imm : BitVec 46) (size : Nat) : Nat ⊕ Issued :=
  let o := (ra + imm.signExtend 64)
  if 0x3FFFFF < o.toNat then .inr (trapWith trapRange o)
  else if o.toNat % size ≠ 0 then .inr (trapWith trapMisaligned o)
  else .inl o.toNat

def tagged (bs : List Byte) : List (Byte × Bool) := bs.map (·, false)

/-- The scratchpad with the stores held behind the branch done (R73). -/
def Panel.withHeld (p : Panel) (c : Nat) : Panel :=
  match (p.core c).spec with
  | some sp => sp.held.foldl (fun p e => p.writeTagged (scratchPa c e.1) (tagged e.2)) p
  | none => p

/-- A sequencer load: bytes, poison, and the panel with what the read counted. A load behind an unresolved branch sees the
stores held before it. -/
def Panel.spLoad (p : Panel) (c off n : Nat) : List Byte × Bool × Panel :=
  let (d, pz, pv) := (p.withHeld c).readRange (scratchPa c off) n
  if (p.core c).holdsStores then
    let (_, _, pr) := p.readRange (scratchPa c off) n
    (d, pz, { pr with freeCtr := max pr.freeCtr pv.freeCtr })
  else (d, pz, pv)

/-- A sequencer store: done at once, or held behind an unresolved branch (R73). -/
def Panel.spStore (p : Panel) (c off : Nat) (bs : List Byte) : Panel :=
  let k := p.core c
  match k.spec with
  | some sp => p.setCore c { k with spec := some { sp with held := sp.held ++ [(off, bs)] } }
  | none => p.writeTagged (scratchPa c off) (tagged bs)

end Sys2Proof.Machine
end

