-- ==== Sys2Proof/Machine/Route.lean ====
section
/-! DEFINITION. The links of the panel (R204, R205), the routes the PMC computes over them (R217, R218), the topology table
(R208) and the multicast trees (R230). Routers are named by node ID, or 0x80 + MPD site for a transit router. -/

namespace Sys2Proof.Machine

/-! ### Links -/

/-- Compute site (r, c), MPD site (s, c) and hub as link end indices (R349). -/
def endC (r c : Nat) : Nat := r * 9 + c
def endM (s c : Nat) : Nat := 72 + s * 9 + c
def endH (h : Nat) : Nat := 120 + h

def portLocal : Nat := 6
def portNone : Nat := 15

/-- The hub beside a row's west or east end (R18). -/
def hubBeside (row : Nat) (east : Bool) : Nat := endH ((if row < 4 then 0 else 1) + if east then 2 else 0)

/-- What a port of a link end leads to (R204). -/
def portEnd (e port : Nat) : Option Nat :=
  if e < 72 then
    let r := e / 9
    let c := e % 9
    match port with
    | 0 => if r % 2 = 1 then some (endM (r / 2) c) else if r = 0 then none else some (endC (r - 1) c)
    | 1 => if r % 2 = 0 then some (endM (r / 2) c) else if r = 7 then none else some (endC (r + 1) c)
    | 2 => some (if c < 8 then endC r (c + 1) else hubBeside r true)
    | 3 => some (if 0 < c then endC r (c - 1) else hubBeside r false)
    | 4 => if c ≤ 6 then some (endC r (c + 2)) else none
    | 5 => if 2 ≤ c then some (endC r (c - 2)) else none
    | _ => none
  else if e < 108 then
    let s := (e - 72) / 9
    let c := (e - 72) % 9
    match port with
    | 0 => some (endC (2 * s) c)
    | 1 => some (endC (2 * s + 1) c)
    | 2 => some (if c < 8 then endM s (c + 1) else hubBeside (2 * s) true)
    | 3 => some (if 0 < c then endM s (c - 1) else hubBeside (2 * s) false)
    | _ => none
  else if e < 120 then none
  else
    let h := e - 120
    let r := if h % 2 = 0 then 0 else 4
    let c := if h < 2 then 0 else 8
    match port with
    | 7 => some (endH (if h % 2 = 0 then h + 1 else h - 1))
    | 8 => some (endC r c)
    | 9 => some (endM (r / 2) c)
    | 10 => some (endC (r + 1) c)
    | 11 => some (endC (r + 2) c)
    | 12 => some (endM (r / 2 + 1) c)
    | 13 => some (endC (r + 3) c)
    | _ => none

/-- Rate code of R208 and whether the link is a seam link (R205). -/
def linkRate (e port : Nat) : Nat × Bool :=
  match portEnd e port with
  | none => (0, false)
  | some o =>
    if 120 ≤ e ∧ 120 ≤ o then (1, false)
    else if 120 ≤ e ∨ 120 ≤ o then (1, true)
    else
      let c := min (e % 9) (o % 9)
      let cross := decide (c = 2) || decide (c = 5)
      if e < 72 ∧ o < 72 then
        if e / 9 ≠ o / 9 then (1, true)
        else if (e % 9) + 2 = o % 9 ∨ (o % 9) + 2 = e % 9 then
          if c = 1 ∨ c = 2 ∨ c = 4 ∨ c = 5 then (2, true) else (1, false)
        else if cross then (1, true) else (0, false)
      else if 72 ≤ e ∧ 72 ≤ o then (if cross then (2, true) else (1, false))
      else (0, false)

/-- The port of the other end that leads back. -/
def portBack (e o : Nat) : Nat := ((List.range 14).find? fun q => portEnd o q == some e).getD portNone

/-- A link is named by its end of lower index (R349). -/
def linkName (e port : Nat) : Nat × Nat :=
  match portEnd e port with
  | some o => if o < e then (o, portBack e o) else (e, port)
  | none => (e, port)

/-- A link that has not failed (R353, R242). -/
def Panel.linkOk (p : Panel) (e port : Nat) : Bool :=
  match portEnd e port with
  | none => false
  | some o => !p.bring.linksFailed.contains (e, port) && !p.bring.linksFailed.contains (o, portBack e o)

/-- The routers of the network: logical dies and stacks, hubs whose zone is in regulation, and the transit routers of kept
strips (R204). -/
def Panel.routers (p : Panel) : List Nat :=
  let dies := if p.shapeValid then List.range p.nDies else []
  let sts := if p.shapeValid then List.range p.nStacks else []
  let named := sts.map p.stackSite
  let transit := upTo 36 fun s =>
    p.bring.rowPairs.contains (s / 9) && !p.bring.mpdFailed.contains s && !named.contains s
  let all := dies ++ sts.map (0x40 + ·) ++ (upTo 4 p.hubUp).map hubNode ++
    (if p.shapeValid then transit.map (0x80 + ·) else [])
  all.filter fun n => !p.bring.zonesLost.contains (p.zoneOf n)

/-- The routers that new tables use: those of a zone that is being shut down are left out (R217, R334). -/
def Panel.routersNext (p : Panel) : List Nat :=
  p.routers.filter fun n => p.fget F.PWR_ZONE_STATUS_state 0 (p.zoneOf n) != 2

/-- One link of a router: port, neighbour, cost, seam, rate code. -/
structure Hop where
  port : Nat
  dst : Nat
  cost : Nat
  seam : Bool
  rate : Nat
  deriving DecidableEq, Repr

/-- The links of every router (R217). `s` is the seam cost. -/
def Panel.graph (p : Panel) (s : Nat) : List (Nat × List Hop) :=
  let rs := p.routersNext
  let ends := rs.map fun n => (p.endOf n, n)
  rs.map fun n =>
    let e := p.endOf n
    (n, (List.range 14).filterMap fun q =>
      if !p.linkOk e q then none
      else
        match portEnd e q with
        | none => none
        | some o =>
          match ends.lookup o with
          | none => none
          | some m =>
            let (r, seam) := linkRate e q
            some ⟨q, m, 2 ^ r + (if seam then s else 0), seam, r⟩)

/-- The router a port of a router leads to, over a link that is up. -/
def Panel.neighbour (p : Panel) (n port : Nat) : Option Nat :=
  let e := p.endOf n
  if !p.linkOk e port then none
  else
    match portEnd e port with
    | none => none
    | some o => p.routers.find? fun m => p.endOf m == o

/-! ### Routes (R217) -/

/-- Cost and links of a route, compared in that order. -/
def distLt (a b : Nat × Nat) : Bool := decide (a.1 < b.1) || (a.1 == b.1 && decide (a.2 < b.2))

/-- One round of relaxation toward a destination. -/
def relax (g : List (Nat × List Hop)) (d : SMap (Nat × Nat)) : SMap (Nat × Nat) :=
  g.foldl (fun d e =>
    e.2.foldl (fun d h =>
      match smGet d h.dst with
      | none => d
      | some (c, l) =>
        let x := (c + h.cost, l + 1)
        match smGet d e.1 with
        | none => smSet d e.1 x
        | some y => if distLt x y then smSet d e.1 x else d) d) d

/-- Relax until nothing changes. -/
def relaxAll (g : List (Nat × List Hop)) : Nat → SMap (Nat × Nat) → SMap (Nat × Nat)
  | 0, d => d
  | k + 1, d => let d' := relax g d; if d' = d then d else relaxAll g k d'

/-- Route entry: valid, vc_up, port (R243). -/
def routeWord (port : Nat) (vc : Bool) : W64 := BitVec.ofNat 64 (2 ^ 63 + b2n vc * 16 + port)

/-- The seam cost of the flacon route policy (R217, R345). -/
def Panel.seamCost (p : Panel) : Nat :=
  match p.bring.flacon with
  | some f => bits f.config0.toNat 5 4
  | none => 0

/-! ### Virtual channels (R218) -/

/-- Links, as router × 16 + port, that a channel's dependencies lead to from those of `todo`. -/
def depReach (d : SMap (List Nat)) : Nat → List Nat → SMap Unit → SMap Unit
  | 0, _, seen => seen
  | _ + 1, [], seen => seen
  | k + 1, l :: todo, seen =>
    if smHas seen l then depReach d k todo seen else depReach d k (smGetD d l [] ++ todo) (smSet seen l ())

/-- One more dependency of a channel, of link a on link b; none where it would close a cycle (R218). -/
def addDep (d : SMap (List Nat)) (a b : Nat) : Option (SMap (List Nat)) :=
  let out := smGetD d a []
  if out.contains b then some d
  else if smHas (depReach d 65536 [b] []) a then none
  else some (smSet d a (b :: out))

/-- The dependencies of a packet that takes links one after another on one channel. -/
def addChain (d : SMap (List Nat)) : List Nat → Option (SMap (List Nat))
  | a :: b :: l => (addDep d a b).bind fun d => addChain d (b :: l)
  | _ => some d

/-- Routes toward one destination: for each router its hop, whether it changes channel there, and cost and links to go. -/
abbrev Tree := SMap (Hop × Bool × Nat × Nat)

def Tree.dist (t : Tree) (dst m : Nat) : Option (Nat × Nat) :=
  if m = dst then some (0, 0) else (smGet t m).map (·.2.2)

/-- The links of the route from a router, in order. -/
def Tree.links (t : Tree) (dst : Nat) : Nat → Nat → List Nat
  | 0, _ => []
  | k + 1, n =>
    if n = dst then []
    else
      match smGet t n with
      | some (h, _) => (n * 16 + h.port) :: t.links dst k h.dst
      | none => []

/-- Give a router a hop, first without a change of channel and else with one; none where either closes a cycle (R218). The
dependencies of VC0 and of VC1 go along. -/
def Tree.place (t : Tree) (dst n : Nat) (h : Hop) (v : SMap (List Nat) × SMap (List Nat)) :
    Option (Tree × SMap (List Nat) × SMap (List Nat)) :=
  match t.dist dst h.dst with
  | none => none
  | some (c, l) =>
    let put (up : Bool) : Tree := smSet t n (h, up, c + h.cost, l + 1)
    let ls := (n * 16 + h.port) :: t.links dst 128 h.dst
    let d0 := match smGet t h.dst with
      | some (_, false, _) => addChain v.1 (ls.take 2)
      | _ => some v.1
    match d0 with
    | some d0 => some (put false, d0, v.2)
    | none => (addChain v.2 ls).map fun d1 => (put true, v.1, d1)

/-- Hops in the order of their routes: cost, links, port (R217). -/
def Tree.insertHop (t : Tree) (dst : Nat) (h : Hop) : List Hop → List Hop
  | [] => [h]
  | x :: l =>
    match t.dist dst h.dst, t.dist dst x.dst with
    | some a, some b =>
      if distLt (a.1 + h.cost, a.2 + 1) (b.1 + x.cost, b.2 + 1) then h :: x :: l else x :: t.insertHop dst h l
    | some _, none => h :: x :: l
    | none, _ => x :: t.insertHop dst h l

/-- The routes toward one destination, nearest routers first: each takes its cheapest route that keeps both channels free of
cycles (R217, R218). -/
def growTree (g : List (Nat × List Hop)) (dst : Nat) (order : List Nat) (v : SMap (List Nat) × SMap (List Nat)) :
    Tree × SMap (List Nat) × SMap (List Nat) :=
  order.foldl (fun (acc : Tree × SMap (List Nat) × SMap (List Nat)) n =>
    let hops := ((g.lookup n).getD []).foldl (fun l h => acc.1.insertHop dst h l) []
    (hops.findSome? fun h => acc.1.place dst n h acc.2).getD acc) ([], v)

/-- Routers by their distance from a destination, nearest first. -/
def byDistance (d : SMap (Nat × Nat)) : List Nat :=
  (d.foldl (fun (l : List (Nat × Nat × Nat)) e => ins e l) []).map (·.1)
where
  ins (e : Nat × Nat × Nat) : List (Nat × Nat × Nat) → List (Nat × Nat × Nat)
    | [] => [e]
    | x :: l => if distLt e.2 x.2 then e :: x :: l else x :: ins e l

/-- The routes toward every destination, in ascending order of destination (R217, R218). -/
def Panel.planTrees (p : Panel) : List (Nat × Tree) :=
  let g := p.graph p.seamCost
  let dsts := p.routersNext.filter (· < 0x80)
  (dsts.foldl (fun (acc : List (Nat × Tree) × SMap (List Nat) × SMap (List Nat)) dst =>
    let d := relaxAll g g.length [(dst, (0, 0))]
    let (t, v) := growTree g dst ((byDistance d).filter (· != dst)) acc.2
    ((dst, t) :: acc.1, v)) ([], [], [])).1.reverse

/-- A choice of vc_up keeps the dependencies of both channels free of cycles over a set of routes (R218). -/
def vcFits (ts : List (Nat × Tree)) (up : Nat → Nat → Bool) : Bool :=
  (ts.foldlM (fun (v : SMap (List Nat) × SMap (List Nat)) (t : Nat × Tree) =>
    t.2.foldlM (fun (v : SMap (List Nat) × SMap (List Nat)) e =>
      let ls := t.2.links t.1 128 e.1
      let low := ls.takeWhile fun l => !up (l / 16) t.1
      (addChain v.1 low).bind fun d0 => (addChain v.2 (ls.drop low.length)).map fun d1 => (d0, d1)) v) ([], [])).isSome

/-- The PMC's own choice of vc_up, by router and destination (R218): a fixed function of the inputs of R217. Numbers from 128 on
stand for multicast groups. -/
def Panel.vcChoice (p : Panel) : Nat → Nat → Bool :=
  Config.vcUp (p.routersNext.map p.endOf) p.bring.linksFailed p.seamCost

/-- Write a table set into the active or the shadow banks of every router. The choice of vc_up is the PMC's, among those that
keep both channels free of cycles (R218). -/
def Panel.writeRoutes (p : Panel) (shadow : Bool) : Panel :=
  let reg := if shadow then Reg.PNW_ROUTE_SHADOW else Reg.PNW_ROUTE
  let none' : W64 := BitVec.ofNat 64 portNone
  let ts := p.planTrees
  let vc := p.vcChoice
  let fits := vcFits ts vc
  let p := p.routers.foldl (fun p n =>
    (List.range 128).foldl (fun p dst => p.put reg none' n dst) p) p
  ts.foldl (fun (p : Panel) (t : Nat × Tree) =>
    t.2.foldl (fun p e => p.put reg (routeWord e.2.1.port (if fits then vc e.1 t.1 else e.2.2.1)) e.1 t.1)
      (p.put reg (routeWord portLocal false) t.1 t.1)) p

/-- Output port a router's active table gives for a destination; none for NONE. -/
def Panel.routePort (p : Panel) (n dst : Nat) : Option Nat :=
  let e := (p.get .PNW_ROUTE n dst).toNat
  if bit e 63 && bits e 3 0 != portNone then some (bits e 3 0) else none

/-- Every router with its link end and the routers its ports lead to. -/
def Panel.wiring (p : Panel) : List (Nat × Nat × List (Nat × Nat)) :=
  let ends := p.routers.map fun n => (p.endOf n, n)
  ends.map fun e =>
    (e.2, e.1, (List.range 14).filterMap fun q =>
      if p.linkOk e.1 q then (portEnd e.1 q).bind fun o => (ends.lookup o).map fun m => (q, m) else none)

/-- The active tables' ports toward a destination, by router. -/
def Panel.routeColumn (p : Panel) (wire : List (Nat × Nat × List (Nat × Nat))) (dst : Nat) : List (Nat × Nat) :=
  wire.filterMap fun w => (p.routePort w.1 dst).map fun q => (w.1, q)

/-- Follow the active tables: links, seams and lowest rate of a route. -/
def follow (wire : List (Nat × Nat × List (Nat × Nat))) (col : List (Nat × Nat)) (dst : Nat) : Nat → Nat → Option (Nat × Nat × Nat)
  | 0, _ => none
  | k + 1, n =>
    if n = dst then some (0, 0, 0)
    else
      match col.lookup n, wire.lookup n with
      | some q, some w =>
        match w.2.lookup q with
        | none => none
        | some m =>
          match follow wire col dst k m with
          | none => none
          | some (l, s, r) =>
            let (r', seam) := linkRate w.1 q
            some (l + 1, s + b2n seam, max r r')
      | _, _ => none

/-- Topology entries of every source toward a destination (R208). -/
def Panel.topoColumn (p : Panel) (wire : List (Nat × Nat × List (Nat × Nat))) (dst : Nat) : List Nat :=
  let col := p.routeColumn wire dst
  (List.range 128).map fun src =>
    if !p.hasNode src || !p.hasNode dst then 0
    else if src = dst then 2 ^ 15
    else
      match follow wire col dst 128 src with
      | some (l, s, r) => 2 ^ 15 + r * 2 ^ 13 + s % 32 * 32 + l % 32
      | none => 0

def Panel.writeTopo (p : Panel) : Panel :=
  let wire := p.wiring
  let cols := (List.range 128).map (p.topoColumn wire)
  (List.range 4096).foldl (fun p n =>
    let e (k : Nat) : Nat := (cols.getD (n % 32 * 4 + k) []).getD (n / 32) 0 * 2 ^ (16 * k)
    p.put .PNW_TOPO (BitVec.ofNat 64 (e 0 + e 1 + e 2 + e 3)) 0 n) p

/-- Port status of every router: link up, seam and rate (R243). -/
def Panel.writePorts (p : Panel) : Panel :=
  p.wiring.foldl (fun p w =>
    (List.range 15).foldl (fun p q =>
      let (r, seam) := linkRate w.2.1 q
      let up := w.2.2.any fun x => x.1 == q
      let p := p.fput F.PNW_PORT_STATUS_link_up (b2n up) w.1 q
      let p := p.fput F.PNW_PORT_STATUS_seam (b2n (up && seam)) w.1 q
      let l := linkName w.2.1 q
      let p := p.fput F.PNW_PORT_STATUS_lanes_repaired (smGetD p.bring.lanes (l.1 * 16 + l.2) 0) w.1 q
      p.fput F.PNW_PORT_STATUS_rate (if up then r else 0) w.1 q) p) p

/-! ### Multicast groups (R230) -/

/-- Routers a route from n to dst passes, with the port taken at each. -/
def Panel.pathPorts (p : Panel) (dst : Nat) : Nat → Nat → List (Nat × Nat)
  | 0, _ => []
  | k + 1, n =>
    if n = dst then []
    else
      match p.routePort n dst with
      | none => []
      | some q =>
        match p.neighbour n q with
        | none => []
        | some m => (n, q) :: p.pathPorts dst k m

/-- The dies that a group's definition names, applied or not (R244). -/
def Panel.definedDies (p : Panel) (g : Nat) : List Nat := upTo 64 fun d => bit (p.get .PNW_MC_DEF 0 g).toNat d

/-- Member dies of a group: those its last apply named (R230). -/
def Panel.groupDies (p : Panel) (g : Nat) : List Nat := upTo 64 fun d => bit (smGetD p.net.groups g 0).toNat d

/-- Clear a group's entry in every router. -/
def Panel.clearGroup (p : Panel) (g : Nat) : Panel :=
  p.routers.foldl (fun p n => p.resetReg .PNW_MC_ENTRY n g) p

/-- Write a group's tree: the union of the current routes from the primary hub to its members (log 6); its vc_up is the PMC's
choice (R218). -/
def Panel.writeGroup (p : Panel) (g : Nat) : Panel :=
  let ds := p.groupDies g
  let hops := ds.flatMap fun d => p.pathPorts d 128 (hubNode p.primaryHub)
  let p := p.clearGroup g
  p.routers.foldl (fun p n =>
    let ports := ((hops.filter fun h => h.1 == n).map (·.2)).eraseDups
    let here := ds.contains n
    if ports.isEmpty && !here then p
    else p.put .PNW_MC_ENTRY (BitVec.ofNat 64
      (2 ^ 63 + b2n (p.vcChoice n (128 + g)) * 2 ^ 17 + b2n here * 65536 + sumL (ports.map (2 ^ ·)))) n g) p

/-- Recompute every enabled group over the members it was applied with, as at a route swap (R230). -/
def Panel.rewriteGroups (p : Panel) : Panel :=
  (List.range 64).foldl (fun p g =>
    if p.flag F.PNW_MC_UNIT_enable 0 g && smHas p.net.groups g then p.writeGroup g else p) p

/-! ### Credits (R215) -/

/-- Flits of a router's pool (R215). -/
def poolSize (n : Nat) : Nat := if n < 0x40 ∨ (0x70 ≤ n ∧ n < 0x80) then 4096 else 2048

/-- Flits of the reserve of a channel on an input: one full packet (R215). -/
def reserveFlits : Nat := 17

/-- Each router's pool beyond the reserves of its active inputs, the LOCAL port among them, is divided equally among them (R215). -/
def Panel.divideShares (p : Panel) : Panel :=
  { p with net := { p.net with shares := p.wiring.foldl (fun m w =>
      let k := w.2.2.length + 1
      smSet m w.1 ((poolSize w.1 - k * 8 * reserveFlits) / k)) [] } }

/-- Compute every table and make it active, as at bring-up (R215, R217). -/
def Panel.installRoutes (p : Panel) : Panel :=
  (((p.writeRoutes false).writePorts.writeTopo).rewriteGroups).divideShares

/-! ### Sending -/

/-- Put a packet at its source router, behind those that were sent before it. -/
def Panel.inject (p : Panel) (node : Nat) (k : Packet) : Panel :=
  { p with net := { p.net with
      flying := p.net.flying ++ [⟨node, node, k, p.net.nextBorn, none⟩], nextBorn := p.net.nextBorn + 1 } }

/-- Take the next tag and wait for its answer. -/
def Panel.await (p : Panel) (node unit : Nat) (kind : WaitKind) : BitVec 16 × Panel :=
  let t := p.net.nextTag
  (t, { p with net := { p.net with nextTag := t + 1, waiting := p.net.waiting ++ [⟨node, unit, t, kind⟩] } })

def Panel.unawait (p : Panel) (f : Waiting → Bool) : Panel :=
  { p with net := { p.net with waiting := p.net.waiting.filter fun w => !f w } }

/-- A packet with no payload and every optional field zero. -/
def plainPacket (opcode : Nat) (tclass : BitVec 2) (src unit dst : Nat) (tag : BitVec 16) : Packet :=
  { opcode := BitVec.ofNat 6 opcode, tclass := tclass, vc := false, poison := false, mc := false,
    srcUnit := BitVec.ofNat 5 unit, srcNode := BitVec.ofNat 7 src, dstNode := BitVec.ofNat 7 dst, tag := tag, length := 0,
    status := 0, addr := 0, w2 := 0, w3 := 0, payload := [] }

end Sys2Proof.Machine
end

