-- ==== Sys2Proof/Machine/Matrix.lean ====
section
/-! DEFINITION. The matrix engine and accumulation groups (chapter 03): the checks of each operation at issue against the
slot table (R89 to R100), group states and positions (R101 to R104), passes (R87, R88, R110, R111), close and send (R107,
R108, R112 to R115). -/

namespace Sys2Proof.Machine

/-! ### Group descriptor (R95, R96) -/

def GDesc.kind (d : GDesc) : Nat := bits d.w0.toNat 2 0
def GDesc.rounding (d : GDesc) : Nat := bits d.w0.toNat 5 4
def GDesc.ovfMode (d : GDesc) : Nat := bits d.w0.toNat 7 6
def GDesc.outFmt (d : GDesc) : Nat := bits d.w0.toNat 11 8
def GDesc.anchor (d : GDesc) : Int := signed 10 (bits d.w0.toNat 21 12)
def GDesc.home (d : GDesc) : Nat := bits d.w1.toNat 21 0
def GDesc.outBase (d : GDesc) : Nat := bits d.w1.toNat 53 32
def GDesc.outStride (d : GDesc) : Nat := bits d.w2.toNat 15 0
def GDesc.outRows (d : GDesc) : Nat := bits d.w2.toNat 23 16
def GDesc.outCols (d : GDesc) : Nat := bits d.w2.toNat 31 24
def GDesc.row0 (d : GDesc) : Nat := bits d.w3.toNat 31 0
def GDesc.col0 (d : GDesc) : Nat := bits d.w3.toNat 63 32
def GDesc.zero : GDesc := ⟨0, 0, 0, 0, 0, 0⟩

/-- out_fmt values the table of R97 allows a kind; for LA96 either family's. -/
def outAllowed (kind fmt : Nat) : Bool :=
  if kind = kindLA96 then decide (fmt ≤ 6)
  else if kind = kindF32 ∨ kind = kindF16 then decide (fmt ≤ 4)
  else decide (4 ≤ fmt) && decide (fmt ≤ 6)

/-- out_fmt suits an LA96 input family (R97). -/
def familyAllows (family : Option Bool) (fmt : Nat) : Bool :=
  match family with
  | none => decide (fmt ≤ 6)
  | some true => decide (4 ≤ fmt) && decide (fmt ≤ 6)
  | some false => decide (fmt ≤ 4)

/-- The output rows as scratchpad offsets and lengths: the gaps that out_stride leaves between rows are no output (R107). -/
def GDesc.outRanges (d : GDesc) : List (Nat × Nat) :=
  (List.range d.outRows).map fun m => (d.outBase + m * d.outStride, d.outCols * outBytes d.outFmt)

/-- Bytes the output spans from out_base (R98). -/
def GDesc.outSpan (d : GDesc) : Nat := (d.outRows - 1) * d.outStride + d.outCols * outBytes d.outFmt

/-- The checks of R98 on the descriptor's words. -/
def GDesc.ok (d : GDesc) (w6 w7 : W64) : Bool :=
  decide (bits d.w0.toNat 63 22 = 0) && !bit d.w0.toNat 3 && decide (bits d.w1.toNat 63 54 = 0) &&
    decide (bits d.w1.toNat 31 22 = 0) && decide (bits d.w2.toNat 63 32 = 0) && w6 == 0 && w7 == 0 &&
    decide (d.kind ≤ 4) && decide (d.rounding ≤ 1) && d.ovfMode != 3 && decide (d.outFmt ≤ 6) &&
    (d.kind == kindLA96 || d.anchor == 0) && outAllowed d.kind d.outFmt && d.home % 1024 == 0 && d.outStride != 0 &&
    decide (1 ≤ d.outRows ∧ d.outRows ≤ 128 ∧ 1 ≤ d.outCols ∧ d.outCols ≤ 128) &&
    decide (d.home + homeBytes d.kind ≤ 0x400000) && decide (d.outBase + d.outSpan ≤ 0x400000) &&
    (d.outRows == 1 || decide (d.outCols * outBytes d.outFmt ≤ d.outStride))

/-- Two ranges of offsets meet. -/
def rangesMeet (a n b m : Nat) : Bool := decide (a < b + m) && decide (b < a + n)

def Group.zero : Group :=
  { state := .closed, kind := 0, passes := 0, poison := false, outSat := false, overflow := false, fresh := false,
    position := 0, desc := .zero, family := none, tile := [], guard := [], nfRow := 0, nfCol := 0, lastPass := 0, spiller := 0 }

def Core.group (k : Core) (g : Nat) : Group := smGetD k.groups g .zero

def Core.setGroup (k : Core) (g : Nat) (x : Group) : Core := { k with groups := smPut k.groups .zero g x }

/-! ### The slot table (R100): every slot in program order -/

/-- A slot as the sequencer sees it. -/
structure SlotView where
  isOpen : Bool
  desc : GDesc
  family : Option Bool
  deriving DecidableEq, Repr

/-- Family of a pass's inputs: true integer (R97). -/
def fmtFamily (fmt : Nat) : Bool := fmtInt fmt

/-- The slot table entry after the operations in progress and those queued. -/
def Core.view (k : Core) (g : Nat) : SlotView :=
  let gr := k.group g
  let passOf (o : MxKind) (v : SlotView) : SlotView :=
    match o with
    | .pass g' _ _ _ _ fa _ _ => if g' = g ∧ v.family.isNone then { v with family := some (fmtFamily fa.toNat) } else v
    | .grpOpen g' d => if g' = g then ⟨true, d, none⟩ else v
    | .grpClose g' _ _ => if g' = g then { v with isOpen := false } else v
    | .accSend g' _ _ _ => if g' = g then { v with isOpen := false } else v
    | .grpAbort g' => if g' = g then { v with isOpen := false } else v
    | _ => v
  let now : SlotView :=
    ⟨gr.state != .closed && gr.state != .closing && gr.state != .sending, gr.desc, gr.family⟩
  let v := k.running.foldl (fun v r => passOf r.op.op v) now
  k.mxQ.foldl (fun v o => passOf o.op v) v

/-- A range of scratchpad offsets meets the home of an open group other than `but`. -/
def Core.homeMeets (k : Core) (but : Option Nat) (off n : Nat) : Bool :=
  (List.range 16).any fun g =>
    let v := k.view g
    some g != but && v.isOpen && rangesMeet off n v.desc.home (homeBytes v.desc.kind)

/-- DESCRIPTOR_FAULT with a reason of R115. -/
def descReason (r : Nat) : Issued := trapWith trapDesc (BitVec.ofNat 64 (r * 2 ^ 56))

/-- Detail of an ENGINE_FAULT of the matrix engine (R115). -/
def engineInfo (reason gid seq : Nat) : Nat := reason * 2 ^ 56 + gid * 2 ^ 52 + seq % 2 ^ 48

/-! ### Checks of a pass (R89, R90, R110) -/

/-- Rows of an operand (R88). -/
def opRows (d : Desc) (rowMajor : Bool) : Nat := if rowMajor then d.extent0 else d.extent1

/-- K capacity of an operand (R88). -/
def opCap (d : Desc) (rowMajor : Bool) : Nat := (if rowMajor then d.extent1 else d.extent0) * d.extent2

/-- Formats that may pair (R90). -/
def pairOk (a b : Nat) : Bool :=
  fmtInt a == fmtInt b && (a == 9) == (b == 9) && (a == 10) == (b == 10)

/-- Formats a kind accepts (R90). -/
def kindTakes (kind a b : Nat) : Bool :=
  if kind = kindLA96 then decide (a < 9) && decide (b < 9)
  else if kind = kindF32 then !fmtInt a
  else if kind = kindF16 then !fmtInt a && decide (a < 9) && decide (b < 9)
  else fmtInt a

/-- A box lies inside the core's own scratchpad. -/
def inOwn (c : Nat) (b : Int × Int) : Bool :=
  decide (((scratchPa c 0 : Nat) : Int) ≤ b.1) && decide (b.2 < ((scratchPa c 0x400000 : Nat) : Int))

/-- Boxes of an operand: elements, and scales for an MX format. -/
def Desc.boxes (d : Desc) : List (Int × Int) := if fmtMx d.fmt then [d.box, d.scaleBox] else [d.box]

def operandPlaceOk (c : Nat) (d : Desc) : Bool :=
  d.boxes.all (inOwn c) && d.base % 64 == 0 && d.stride1 % 64 == 0 && d.stride2 % 64 == 0 && d.stride0 == 0

/-- An offset range of the core's own scratchpad from a box. -/
def boxOffset (c : Nat) (b : Int × Int) : Nat × Nat := ((b.1 - (scratchPa c 0 : Nat)).toNat, (b.2 - b.1 + 1).toNat)

/-- The region of a direct pass has the form of R110; a stride0 other than zero is taken as another form, which the rule's list does not
say (DESIGN CHOICE, log 53). -/
def directOk (c : Nat) (d : Desc) : Bool :=
  d.fmt == 7 && d.stride0 == 0 && d.extent0 == 512 && d.extent1 == 128 && d.extent2 == 1 && d.base % 64 == 0 &&
    d.stride1 % 64 == 0 && inOwn c d.box

def mmaSteps (f : MmaForm) : Nat := if f.ksteps = 0 then 65536 else f.ksteps.toNat

/-- The byte ranges of an operand that a pass of ks K-steps reads: its rows as far as k goes, and the scales of those elements (R44,
R88). -/
def Desc.passRanges (d : Desc) (rowMajor : Bool) (ks : Nat) : List (Nat × Nat) :=
  if rowMajor then (List.range ks).flatMap fun k => d.rowRanges (d.row (k % d.extent1) (k / d.extent1))
  else
    (List.range ((ks + d.extent0 - 1) / d.extent0)).flatMap fun i2 => (List.range d.extent1).flatMap fun m =>
      let n := min d.extent0 (ks - i2 * d.extent0)
      (placeOf (d.row m i2), (n * fmtBits d.fmt + 7) / 8) ::
        if fmtMx d.fmt then [(d.scaleAddr 0 m i2, (n + 31) / 32)] else []

/-- Every 64 B of an operand that the pass touches has the class its descriptor expects (R44). -/
def Panel.passClassOk (p : Panel) (d : Desc) (rowMajor : Bool) (ks : Nat) : Bool :=
  p.touchesOk d.pclass (d.passRanges rowMajor ks)

/-- Issue a pass (R89 to R94, R100, R110). Where several checks fail the first of this order is the trap: R43, GROUP_STATE,
OPERAND_PLACE, FORMAT_MISMATCH, FORMAT_KIND, KSTEPS, ROWS, HOME_OVERLAP, R44; R89 gives no order (DESIGN CHOICE, log 53). -/
def Panel.mmaIssue (p : Panel) (c : Nat) (f : MmaForm) (arA brB : Bool) : Panel :=
  p.issue c .issues (f.rsvdHi != 0 || f.rsvdLo != 0 || (!f.direct && f.accAdd)) fun p k =>
    if 8 ≤ k.mxQ.length then .stall
    else
      let wa := k.dreg f.descA
      let wb := k.dreg f.descB
      let wd := k.dreg f.gid
      let a := descOf wa
      let b := descOf wb
      let d := descOf wd
      let v := k.view f.gid.toNat
      let fa := f.fmtA.toNat
      let fb := f.fmtB.toNat
      let kind := if f.direct then (if fmtInt fa then kindI32 else kindF32) else v.desc.kind
      let op : MxKind :=
        if f.direct then .direct wd wa wb arA brB f.fmtA f.fmtB (mmaSteps f) f.accAdd
        else .pass f.gid.toNat wa wb arA brB f.fmtA f.fmtB (mmaSteps f)
      let clash (x : Desc) : Bool := x.boxes.any fun bx => k.homeMeets none (boxOffset c bx).1 (boxOffset c bx).2
      if !p.descOk a || !p.descOk b || (f.direct && !p.descOk d) then trapFree trapDesc
      else if !f.direct && !v.isOpen then descReason 0x26
      else if !operandPlaceOk c a || !operandPlaceOk c b || (f.direct && !directOk c d) then descReason 0x20
      else if fa ≠ a.fmt ∨ fb ≠ b.fmt then descReason 0x21
      else if !pairOk fa fb || !kindTakes kind fa fb ||
          (!f.direct && kind == kindLA96 && v.family.isSome && v.family != some (fmtFamily fa)) then descReason 0x22
      else if opCap a arA < (mmaSteps f) ∨ opCap b brB < (mmaSteps f) then descReason 0x23
      else if (fmtMx fa && arA) || (fmtMx fb && brB) || decide (128 < opRows a arA) || decide (128 < opRows b brB) then
        descReason 0x24
      else if clash a || clash b || (f.direct && clash d) then descReason 0x25
      else if !p.passClassOk a arA (mmaSteps f) || !p.passClassOk b brB (mmaSteps f) || (f.direct && !p.sliceClassOk d) then
        trapFree trapProt
      else .done (p.setCore c { k with mxQ := k.mxQ ++ [⟨op, k.q.seq, k.spec.isSome⟩] })

/-! ### Reading operands (R88, R121, R122) -/

/-- n elements of the row (i1, i2), and whether a 64 B read was poisoned. -/
def Panel.rowElems (p : Panel) (d : Desc) (i1 i2 n : Nat) : List FVal × Bool × Panel :=
  let w := fmtBits d.fmt
  let (bs, pz, p) := p.readBlocks (d.row i1 i2).toNat ((n * w + 7) / 8)
  let x := ofBytes bs
  let raw := (List.range n).map fun i => elemVal d.fmt (x / 2 ^ (w * i) % 2 ^ w)
  if fmtMx d.fmt then
    let (ss, ps, p) := p.readBlocks (d.scaleAddr 0 i1 i2) ((n + 31) / 32)
    (raw.zipIdx.map fun e => scaled e.1 ((ss.getD (e.2 / 32) 0).toNat), pz || ps, p)
  else (raw, pz, p)

/-- The (i1, i2) rows of a list, read in order. -/
def Panel.rowsElems (p : Panel) (d : Desc) (l : List (Nat × Nat × Nat)) : List (List FVal) × Bool × Panel :=
  l.foldl (fun (acc : List (List FVal) × Bool × Panel) r =>
    let (e, pz, p) := acc.2.2.rowElems d r.1 r.2.1 r.2.2
    (acc.1 ++ [e], acc.2.1 || pz, p)) ([], false, p)

/-- For every row of an operand its elements in ascending k (R88). -/
def Panel.operand (p : Panel) (d : Desc) (rowMajor : Bool) (ksteps : Nat) : List (List FVal) × Bool × Panel :=
  if rowMajor then
    let (ks, pz, p) := p.rowsElems d ((List.range ksteps).map fun k => (k % d.extent1, k / d.extent1, d.extent0))
    ((List.range d.extent0).map (fun m => ks.map fun e => e.getD m .zero), pz, p)
  else
    let chunks := (ksteps + d.extent0 - 1) / d.extent0
    (List.range d.extent1).foldl (fun (acc : List (List FVal) × Bool × Panel) m =>
      let (es, pz, p) := acc.2.2.rowsElems d
        ((List.range chunks).map fun i2 => (m, i2, min d.extent0 (ksteps - i2 * d.extent0)))
      (acc.1 ++ [es.flatten], acc.2.1 || pz, p)) ([], false, p)

/-! ### A pass (R87, R124 to R132) -/

/-- Kinds whose non-finite inputs set the masks (R124). -/
def masksKind (kind : Nat) : Bool := kind == kindLA96 || kind == kindF16

/-- One cell through a pass. -/
def dotCell (kind : Nat) (anchor : Int) (cell : BitVec 104) (a b : List FVal) : BitVec 104 × Bool :=
  (List.zip a b).foldl (fun (acc : BitVec 104 × Bool) e =>
    if masksKind kind && !(e.1.finite && e.2.finite) then acc
    else let (c, o) := accAdd kind anchor acc.1 (e.1.mul e.2); (c, acc.2 || o)) (cell, false)

/-- The tile and the overflow flag a pass leaves. -/
def passTile (kind : Nat) (anchor : Int) (tile : SMap (BitVec 104)) (a b : List (List FVal)) :
    SMap (BitVec 104) × Bool :=
  a.zipIdx.foldl (fun (acc : SMap (BitVec 104) × Bool) ra =>
    b.zipIdx.foldl (fun (acc : SMap (BitVec 104) × Bool) rb =>
      let i := ra.2 * 128 + rb.2
      let (c, o) := dotCell kind anchor (smGetD acc.1 i 0) ra.1 rb.1
      (smPut acc.1 0 i c, acc.2 || o)) acc) (tile, false)

/-- Rows that hold a non-finite element (R124). -/
def nfMask (kind : Nat) (a : List (List FVal)) : BitVec 128 :=
  if masksKind kind then
    BitVec.ofNat 128 (sumL (a.zipIdx.map fun r => if r.1.any (!·.finite) then 2 ^ r.2 else 0))
  else 0

/-! ### Positions (R103) -/

/-- Value of a position held by a direct pass (R111). -/
def directHolder : Nat := 16

def MxKind.gid : MxKind → Option Nat
  | .pass g .. => some g
  | .direct .. => none
  | .grpOpen g _ => some g
  | .grpClose g _ _ => some g
  | .accSend g .. => some g
  | .grpAbort g => some g
  | .grpStatus g _ => some g
  | .grpPrefetch g => some g

/-- What holds a position: a group, a direct pass, or a speculative copy (R116). -/
def Core.holder (k : Core) (i : Nat) : Option Nat :=
  match (if i = 0 then k.pos0 else k.pos1) with
  | some g => some g
  | none => (k.running.find? fun r => r.position == i + 1).map fun r => r.op.op.gid.getD directHolder

def Core.setPos (k : Core) (i : Nat) (g : Option Nat) : Core :=
  if i = 0 then { k with pos0 := g } else { k with pos1 := g }

/-- Free the position a group holds. -/
def Core.freePos (k : Core) (g : Nat) : Core :=
  let k := if k.pos0 = some g then { k with pos0 := none } else k
  if k.pos1 = some g then { k with pos1 := none } else k

/-- The group of the most recent earlier pass. -/
def Core.recentGroup (k : Core) : Option Nat :=
  match (k.running.filterMap fun r => r.op.op.gid).getLast? with
  | some g => some g
  | none => k.lastGroup

def Core.runs (k : Core) (g : Nat) : Bool := k.running.any fun r => r.op.op.gid == some g

/-- The position an incoming group or direct pass takes (R103). A position in which a direct pass computes counts as holding something
and is not free: R103 speaks of groups only (DESIGN CHOICE, log 53). -/
def Core.choosePos (k : Core) : Nat :=
  let h0 := k.holder 0
  let h1 := k.holder 1
  let r := k.recentGroup
  if r.isSome ∧ h0 = r then 1
  else if r.isSome ∧ h1 = r then 0
  else if h0.isNone then 0
  else if h1.isNone then 1
  else
    let age (h : Option Nat) : Nat := match h with | some g => (k.group g).lastPass | none => 0
    if age h1 < age h0 then 1 else 0

/-- Take the position for the operation of sequence number n: none if it is free, else the core with a spill of its group
started where that is possible (R103); the spill is that operation's (R56). -/
def Core.clearPos (k : Core) (i n : Nat) : Option Core :=
  match k.holder i with
  | none => none
  | some h =>
    if h ≠ directHolder ∧ (k.group h).state = .resident ∧ !k.runs h then
      some (k.setGroup h { k.group h with state := .spilling, spiller := n })
    else some k

/-- Make a group resident for the operation of sequence number n: true once it is (R102, R103). A position is chosen in the order of the queue, so a close or a send
that is leaving a position ends first (log 23). -/
def Core.makeResident (k : Core) (g n : Nat) : Core × Bool :=
  let x := k.group g
  let i := k.choosePos
  match x.state with
  | .resident => (k, true)
  | .fresh =>
    if !k.closing.isEmpty then (k, false) else
    match k.clearPos i n with
    | some k' => (k', false)
    | none => ((k.setPos i (some g)).setGroup g { x with state := .resident, position := i + 1, tile := [] }, true)
  | .spilled =>
    if !k.closing.isEmpty then (k, false) else
    match k.clearPos i n with
    | some k' => (k', false)
    | none => ((k.setPos i (some g)).setGroup g { x with state := .filling, position := i + 1 }, false)
  | _ => (k, false)

/-- Close a slot, keeping its status flags (R101). A group opened in the slot later is another one, so no recent pass is its
(R103). -/
def Core.closeGroup (k : Core) (g : Nat) : Core :=
  { k.freePos g with lastGroup := if k.lastGroup = some g then none else k.lastGroup }.setGroup g { k.group g with state := .closed, position := 0, tile := [], guard := [], nfRow := 0, nfCol := 0 }

/-- The group status word (R119). -/
def Group.word (x : Group) : W64 :=
  let st : Nat := match x.state with
    | .closed => 0 | .fresh => 1 | .resident => 2 | .spilling => 3 | .spilled => 4 | .filling => 5 | .closing => 6
    | .sending => 7
  BitVec.ofNat 64 (x.passes * 2 ^ 48 + b2n x.poison * 2 ^ 15 + b2n x.outSat * 2 ^ 14 + b2n x.overflow * 2 ^ 13 +
    b2n x.fresh * 2 ^ 12 + x.position * 2 ^ 10 + x.kind.toNat * 16 + st)

/-! ### The queue (R102, R109) -/

/-- A handle of R232 whose die router returns ADDRESS_ERROR. -/
def Panel.handleBad (p : Panel) (h : W64) : Bool :=
  bits h.toNat 63 23 != 0 || decide (0x70 ≤ bits h.toNat 6 0) || !p.hasNode (bits h.toNat 6 0)

/-- An ACC.SEND ends with SEND_FAILED: the tile is discarded, the group closed, ENGINE_FAULT raised (R108). -/
def Panel.sendFailed (p : Panel) (c : Nat) (o : MxOp) : Panel :=
  match o.op with
  | .accSend g _ _ _ =>
    let p := p.modCore c fun k => ({ k with closing := k.closing.filter fun x => x.seq != o.seq }).closeGroup g
    let p := p.unawait fun w => w.kind == .send c o.seq
    p.raiseAsync c asyncEngine (engineInfo 0x41 g o.seq)
  | _ => p

/-- A spill, a fill, a close or a send is in progress. -/
def Core.moving (k : Core) : Bool := !k.closing.isEmpty || k.groups.any fun g => g.2.state == .spilling || g.2.state == .filling

/-- Perform the operation at the head of the matrix queue as far as it goes without a command of its own; true if it left
the queue. Behind an unresolved branch only GRP.STATUS goes on: it writes the register as renamed, and a misprediction restores
it (R116). -/
def Panel.mxHead (p : Panel) (c : Nat) : Panel × Bool :=
  let k := p.core c
  match k.mxQ with
  | [] => (p, false)
  | o :: rest =>
    let k' := { k with mxQ := rest }
    let isStatus := match o.op with | .grpStatus .. => true | _ => false
    if o.spec && !isStatus then (p, false)
    else
      match o.op with
      | .grpOpen g d =>
        if (k.group g).state ≠ .closed then (p, false)
        else
          (p.setCore c (k'.setGroup g { Group.zero with
            state := .fresh, kind := BitVec.ofNat 3 d.kind, fresh := true, desc := d }), true)
      | .grpAbort g =>
        let s := (k.group g).state
        if s = .spilling ∨ s = .filling ∨ s = .closing ∨ s = .sending ∨ k.runs g then (p, false)
        else (p.setCore c (if s = .closed then k' else k'.closeGroup g), true)
      | .grpStatus g rd =>
        if !k.running.isEmpty || k.moving then (p, false)
        else (p.setCore c ({ k' with
            q := { k'.q with sregs := setSreg k'.q.sregs rd (k.group g).word }
            spec := if o.spec then k'.spec else k'.spec.map fun sp => { sp with saved := { sp.saved with
              sregs := setSreg sp.saved.sregs rd (k.group g).word } } }), true)
      | .grpPrefetch g =>
        let (k1, _) := k.makeResident g o.seq
        let s := (k1.group g).state
        if s = .resident ∨ s = .filling then (p.setCore c { k1 with mxQ := rest }, true) else (p.setCore c k1, false)
      | .grpClose g _ _ =>
        let (k1, ready) := if (k.group g).state = .fresh then (k, true) else k.makeResident g o.seq
        if ready && !k1.runs g then
          (p.setCore c (({ k1 with mxQ := rest, closing := k1.closing ++ [o] }).setGroup g
            { k1.group g with state := .closing }), true)
        else (p.setCore c k1, false)
      | .accSend g h _ _ =>
        let (k1, ready) := if (k.group g).state = .fresh then (k, true) else k.makeResident g o.seq
        if ready && !k1.runs g then
          let p := p.setCore c (({ k1 with mxQ := rest, closing := k1.closing ++ [o] }).setGroup g
            { k1.group g with state := .sending })
          if p.handleBad h then (p.sendFailed c o, true)
          else
            let (_, p) := p.await (c / 16) (c % 16) (.send c o.seq)
            (p, true)
        else (p.setCore c k1, false)
      | .pass g .. => (p.setCore c (k.makeResident g o.seq).1, false)
      | .direct .. =>
        if k.pos0 = some directHolder ∨ k.pos1 = some directHolder ∨ !k.closing.isEmpty then (p, false)
        else
          let i := k.choosePos
          match k.clearPos i o.seq with
          | some k1 => (p.setCore c k1, false)
          | none => (p.setCore c (k.setPos i (some directHolder)), false)

/-- Perform operations until one waits. -/
def Panel.mxAdvanceN (c : Nat) : Nat → Panel → Panel
  | 0, p => p
  | n + 1, p => let (p, gone) := p.mxHead c; if gone then Panel.mxAdvanceN c n p else p

def Panel.mxAdvance (p : Panel) (c : Nat) : Panel := Panel.mxAdvanceN c ((p.core c).mxQ.length + 1) p

/-- Issue and then perform what can be performed. -/
def Panel.mxIssue (p : Panel) (c : Nat) (bad : Bool) (body : Panel → Core → Issued) : Panel :=
  (p.issue c .issues bad body).mxAdvance c

/-- Put an operation in the matrix queue (R71). -/
def Panel.mxPut (p : Panel) (c : Nat) (op : MxKind) : Issued :=
  let k := p.core c
  if 8 ≤ k.mxQ.length then .stall
  else .done (p.setCore c { k with mxQ := k.mxQ ++ [⟨op, k.q.seq, k.spec.isSome⟩] })

/-- MMA (R93). -/
def execMma (c : Nat) (f : MmaForm) (s : State) : Host.Outcome State Fault Refusal :=
  .next (s.upd fun p => (p.mmaIssue c f false false).mxAdvance c)

/-- MMA.AR (R93). -/
def execMmaAr (c : Nat) (f : MmaForm) (s : State) : Host.Outcome State Fault Refusal :=
  .next (s.upd fun p => (p.mmaIssue c f true false).mxAdvance c)

/-- MMA.BR (R93). -/
def execMmaBr (c : Nat) (f : MmaForm) (s : State) : Host.Outcome State Fault Refusal :=
  .next (s.upd fun p => (p.mmaIssue c f false true).mxAdvance c)

/-- MMA.ARBR (R93). -/
def execMmaArbr (c : Nat) (f : MmaForm) (s : State) : Host.Outcome State Fault Refusal :=
  .next (s.upd fun p => (p.mmaIssue c f true true).mxAdvance c)

/-- GRP.OPEN (R95 to R98, R100). Where several checks fail the first tested is the trap; R98 gives no order (DESIGN CHOICE,
log 53). -/
def execGrpOpen (c : Nat) (f : GrpRegForm) (s : State) : Host.Outcome State Fault Refusal :=
  .next (s.upd fun p => p.mxIssue c (f.rsvd != 0) fun p k =>
    let ra := (k.sreg f.r).toNat
    if k.unready f.r || decide (8 ≤ k.mxQ.length) then .stall
    else if (k.view f.gid.toNat).isOpen then descReason 0x26
    else if ra % 64 ≠ 0 ∨ 0x3FFFC0 < ra then descReason 0x27
    else
      let (bs, pz, p) := p.spLoad c ra 64
      let w (i : Nat) : W64 := BitVec.ofNat 64 (ofBytes ((bs.drop (8 * i)).take 8))
      let d : GDesc := ⟨w 0, w 1, w 2, w 3, w 4, w 5⟩
      if pz then trapWith trapPoison (BitVec.ofNat 64 ra)
      else if !d.ok (w 6) (w 7) then descReason 0x27
      else if k.homeMeets (some f.gid.toNat) d.home (homeBytes d.kind) then descReason 0x25
      else p.mxPut c (.grpOpen f.gid.toNat d))

/-- GRP.CLOSE (R97, R100, R107). -/
def execGrpClose (c : Nat) (f : GrpCloseForm) (s : State) : Host.Outcome State Fault Refusal :=
  .next (s.upd fun p => p.mxIssue c (f.rsvd != 0) fun p k =>
    let g := f.gid.toNat
    let v := k.view g
    if 8 ≤ k.mxQ.length then .stall
    else if !v.isOpen then descReason 0x26
    else if v.desc.kind == kindLA96 && !familyAllows v.family v.desc.outFmt then descReason 0x22
    else if v.desc.outRanges.any fun e => k.homeMeets (some g) e.1 e.2 then descReason 0x28
    else p.mxPut c (.grpClose g f.tn f.inc))

/-- ACC.SEND (R100, R108). -/
def execAccSend (c : Nat) (f : AccSendForm) (s : State) : Host.Outcome State Fault Refusal :=
  .next (s.upd fun p => p.mxIssue c (f.rsvd != 0) fun p k =>
    let g := f.gid.toNat
    let v := k.view g
    if k.unready f.ra || decide (8 ≤ k.mxQ.length) then .stall
    else if !v.isOpen || decide (kindF32 < v.desc.kind) then descReason 0x26
    else p.mxPut c (.accSend g (k.sreg f.ra) f.tn f.inc))

/-- GRP.ABORT (R100, R102). -/
def execGrpAbort (c : Nat) (f : GrpForm) (s : State) : Host.Outcome State Fault Refusal :=
  .next (s.upd fun p => p.mxIssue c (f.rsvd != 0) fun p _ => p.mxPut c (.grpAbort f.gid.toNat))

/-- GRP.STATUS (R109). -/
def execGrpStatus (c : Nat) (f : GrpRegForm) (s : State) : Host.Outcome State Fault Refusal :=
  .next (s.upd fun p => p.mxIssue c (f.rsvd != 0) fun p k =>
    if k.unready f.r then .stall else p.mxPut c (.grpStatus f.gid.toNat f.r))

/-- GRP.PREFETCH (R100, R109). -/
def execGrpPrefetch (c : Nat) (f : GrpForm) (s : State) : Host.Outcome State Fault Refusal :=
  .next (s.upd fun p => p.mxIssue c (f.rsvd != 0) fun p k =>
    if 8 ≤ k.mxQ.length then .stall
    else if !(k.view f.gid.toNat).isOpen then descReason 0x26
    else p.mxPut c (.grpPrefetch f.gid.toNat))

/-! ### Passes -/

/-- The pass at the head of the queue, with what stands before and after it: operations are taken in the order of the queue
(R102). -/
def splitPass : List MxOp → Option (List MxOp × MxOp × List MxOp)
  | [] => none
  | o :: l =>
    match o.op with
    | .pass .. => some ([], o, l)
    | .direct .. => some ([], o, l)
    | _ => none

/-- Tile of a group as the passes already running will leave it. -/
def Core.tileOf (k : Core) (g : Nat) : SMap (BitVec 104) :=
  match (k.running.filter fun r => r.op.op.gid == some g).getLast? with
  | some r => r.tile
  | none => (k.group g).tile

/-- The position a pass computes in, none where it must wait (R103, R116). -/
def Core.passPosition (k : Core) (o : MxOp) (g : Nat) : Option Nat :=
  let x := k.group g
  match (k.running.filter fun r => r.op.op.gid == some g).getLast? with
  | some r => if o.spec && !r.op.spec then (if (k.holder (2 - r.position)).isNone then some (3 - r.position) else none)
    else some r.position
  | none =>
    if !o.spec then (if x.state = .resident then some x.position else none)
    else if x.state = .resident then
      (if k.active = x.position ∧ (k.holder (2 - k.active)).isNone then some (3 - k.active) else none)
    else if x.state = .fresh then
      (if (k.holder 0).isNone then some 1 else if (k.holder 1).isNone then some 2 else none)
    else none

/-- The 32-bit cells of a direct region (R110, R111). -/
def Panel.readRegion (p : Panel) (d : Desc) : SMap (BitVec 104) × Bool × Panel :=
  (List.range 128).foldl (fun (acc : SMap (BitVec 104) × Bool × Panel) m =>
    let (bs, pz, p) := acc.2.2.readBlocks (d.row m 0).toNat 512
    ((List.range 128).foldl (fun t n =>
      smPut t 0 (m * 128 + n) (BitVec.ofNat 104 (ofBytes ((bs.drop (4 * n)).take 4)))) acc.1, acc.2.1 || pz, p))
    ([], false, p)

/-- A direct pass is running: its position is freed, and its region written, only when it is done (R111). -/
def Core.directRuns (k : Core) : Bool := k.running.any fun r => r.op.op.gid.isNone

/-- Start the K-steps of the pass found by splitPass: the position the array computes into is the active one (R86). -/
def Panel.startPass (p : Panel) (c : Nat) (before after : List MxOp) (o : MxOp) : Panel :=
  let k := p.core c
  let k' := { k with mxQ := before ++ after }
  match o.op with
  | .pass g wa wb arA brB _ _ ks =>
    match k.passPosition o g with
    | none => p
    | some pos =>
      let d := (k.group g).desc
      let (a, pa, p) := p.operand (descOf wa) arA ks
      let (b, pb, p) := p.operand (descOf wb) brB ks
      let (tile, ov) := passTile d.kind d.anchor (k.tileOf g) a b
      let run : Running := ⟨o, tile, pa || pb, ov, nfMask d.kind a, nfMask d.kind b, pos, k.active⟩
      p.setCore c { k' with running := k'.running ++ [run], active := pos }
  | .direct wd wa wb arA brB fa _ ks add =>
    if o.spec || k.directRuns then p
    else
      let pos := if k.pos0 = some directHolder then 1 else if k.pos1 = some directHolder then 2 else 0
      if pos = 0 then p
      else
        let (t0, pr, p) := if add then p.readRegion (descOf wd) else ([], false, p)
        let (a, pa, p) := p.operand (descOf wa) arA ks
        let (b, pb, p) := p.operand (descOf wb) brB ks
        let (tile, _) := passTile (if fmtInt fa.toNat then kindI32 else kindF32) 0 t0 a b
        p.setCore c { k' with
          running := k'.running ++ [⟨o, tile, pr || pa || pb, false, 0, 0, pos, k.active⟩], active := pos }
  | _ => p

/-- MATRIX_PASS_START (R87, R117): a pass at the head of the matrix queue finds its group resident. -/
def execMatrixPassStart (c : Nat) (s : State) : Host.Outcome State Fault Refusal :=
  .next (s.upd fun p =>
    match splitPass (p.core c).mxQ with
    | some (before, o, after) => (p.startPass c before after o).mxAdvance c
    | none => p)

/-- A pass's products land in its group (R87, R112, R114, R116). A resident group keeps the position it has: that of the copy once a
branch has made the copy its tile, also while an older pass of it still ran (R116). -/
def Core.landPass (k : Core) (r : Running) (g : Nat) : Core :=
  let x := k.group g
  let pos := if x.state = .resident then x.position else r.position
  let k := if x.state = .resident then k else (k.freePos g).setPos (r.position - 1) (some g)
  let fam := match r.op.op with
    | .pass _ _ _ _ _ fa _ _ => if x.family.isSome then x.family else some (fmtFamily fa.toNat)
    | _ => x.family
  let k := k.setGroup g { x with
    state := .resident, position := pos, tile := r.tile, passes := min 0xFFFF (x.passes + 1), fresh := false,
    poison := x.poison || r.poison, overflow := x.overflow || r.overflow, family := fam, nfRow := x.nfRow ||| r.nfRow,
    nfCol := x.nfCol ||| r.nfCol, lastPass := k.passClock + 1 }
  { k with passClock := k.passClock + 1, lastGroup := some g }

/-- MATRIX_PASS_DONE (R111, R117): the oldest running pass ends. One held by an unresolved branch waits (R116). -/
def execMatrixPassDone (c : Nat) (s : State) : Host.Outcome State Fault Refusal :=
  .next (s.upd fun p =>
    let k := p.core c
    match k.running with
    | [] => p
    | r :: rest =>
      if r.op.spec then p
      else
        let k := { k with running := rest }
        match r.op.op with
        | .pass g .. =>
          (p.setCore c (if (k.group g).state = .closed then k else k.landPass r g)).mxAdvance c
        | .direct wd .. =>
          let d := descOf wd
          let p := p.setCore c (k.freePos directHolder)
          let p := (List.range 128).foldl (fun p m =>
            p.writeBlocks (d.row m 0).toNat
              ((List.range 128).flatMap fun n => toBytes 4 (smGetD r.tile (m * 128 + n) 0).toNat) r.poison) p
          p.mxAdvance c
        | _ => p.setCore c k)

/-! ### Spill and fill (R104) -/

/-- GROUP_SPILL_DONE (R102, R104). -/
def execGroupSpillDone (c gid : Nat) (s : State) : Host.Outcome State Fault Refusal :=
  .next (s.upd fun p =>
    let k := p.core c
    let x := k.group gid
    if x.state ≠ .spilling then p
    else
      let cb := homeBytes x.desc.kind / 16384
      let p := p.writeBlocks (scratchPa c x.desc.home)
        ((List.range 16384).flatMap fun i => toBytes cb (smGetD x.tile i 0).toNat) false
      let guard : SMap (BitVec 8) :=
        if x.desc.kind = kindLA96 then
          x.tile.filterMap fun e => let g : BitVec 8 := BitVec.ofNat 8 (e.2.toNat / 2 ^ 96)
                                    if g = 0 then none else some (e.1, g)
        else []
      (p.modCore c fun k => (k.freePos gid).setGroup gid { x with
        state := .spilled, position := 0, tile := [], guard := guard }).mxAdvance c)

/-- GROUP_FILL_DONE (R102, R104, R114). -/
def execGroupFillDone (c gid : Nat) (s : State) : Host.Outcome State Fault Refusal :=
  .next (s.upd fun p =>
    let x := (p.core c).group gid
    if x.state ≠ .filling then p
    else
      let n := homeBytes x.desc.kind
      let cb := n / 16384
      let (bs, pz, p) := p.readBlocks (scratchPa c x.desc.home) n
      let v := ofBytes bs
      let tile := (List.range 16384).foldr (fun i (t : SMap (BitVec 104)) =>
        let w := BitVec.ofNat 104 (v / 2 ^ (8 * cb * i) % 2 ^ (8 * cb) + (smGetD x.guard i 0).toNat * 2 ^ 96)
        if w = 0 then t else (i, w) :: t) []
      (p.modCore c fun k => k.setGroup gid { x with state := .resident, tile := tile, poison := x.poison || pz }).mxAdvance
        c)

/-! ### Close and send (R107, R108, R112, R113) -/

/-- Convert one cell of a group: its bits, overflow, out_sat (R124, R127, R133, R136). -/
def Group.closeCell (x : Group) (m n : Nat) : Nat × Bool × Bool :=
  let d := x.desc
  if masksKind d.kind && (x.nfRow.getLsbD m || x.nfCol.getLsbD n) then ((closeConv d.outFmt .ne .nan).1, false, false)
  else
    let (v, ov) := closeVal d.kind d.anchor (smGetD x.tile (m * 128 + n) 0)
    let r : Rnd := if d.rounding = 1 then
      .sr (roundDraw d.w4.toNat (bits d.w5.toNat 63 48) (bits d.w5.toNat 47 0) (d.row0 + m) (d.col0 + n)) else .ne
    let (b, sat) := closeConv d.outFmt r v
    (b, ov, sat)

/-- Sticky flags after every cell is converted; a zero cell sets none (R107). -/
def Group.closeFlags (x : Group) : Bool × Bool :=
  x.tile.foldl (fun (acc : Bool × Bool) e =>
    let (_, ov, sat) := x.closeCell (e.1 / 128) (e.1 % 128)
    (acc.1 || ov, acc.2 || sat)) (x.overflow, x.outSat)

/-- Output row m, packed (R107). -/
def Group.outRow (x : Group) (m : Nat) : List Byte :=
  (List.range x.desc.outCols).flatMap fun n => toBytes (outBytes x.desc.outFmt) (x.closeCell m n).1

/-- A close of slot g ends: output, flags, post, and what ovf_mode asks for (R107, R113, R114). -/
def Panel.closeDone (p : Panel) (c g : Nat) (tn : BitVec 5) (inc : BitVec 16) (seq : Nat) : Panel :=
  let x := (p.core c).group g
  let d := x.desc
  let (ov, sat) := x.closeFlags
  let p := (List.range d.outRows).foldl (fun p m =>
    p.writeBlocks (scratchPa c (d.outBase + m * d.outStride)) (x.outRow m) x.poison) p
  let p := p.modCore c fun k => (k.setGroup g { x with overflow := ov, outSat := sat }).closeGroup g
  let p := if inc = 0 then p else p.tokenAdd c tn.toNat inc.toNat
  if (ov || sat) && d.ovfMode != 0 then
    let p := if p.flag F.CORE_MX_CONTROL_log_enable c then p.reportCore c 0x0105 clsInfo else p
    if d.ovfMode = 2 then p.raiseAsync c asyncEngine (engineInfo 0x40 g seq) else p
  else p

/-- GROUP_CLOSE_DONE (R107). -/
def execGroupCloseDone (c : Nat) (s : State) : Host.Outcome State Fault Refusal :=
  .next (s.upd fun p =>
    match (p.core c).closing.find? fun o => match o.op with | .grpClose .. => true | _ => false with
    | none => p
    | some o =>
      match o.op with
      | .grpClose g tn inc =>
        let p := p.modCore c fun k => { k with closing := k.closing.erase o }
        (p.closeDone c g tn inc o.seq).mxAdvance c
      | _ => p)

/-- Bytes of one contribution packet: cells of row m from column n0 (R235). -/
def contribBytes (la : Bool) (cell : Nat → Nat) (nf : Nat → Bool) (n0 : Nat) : List Byte :=
  if la then (List.range 32).flatMap fun i => toBytes 16 (cell (n0 + i) + b2n (nf (n0 + i)) * 2 ^ 104)
  else (List.range 128).flatMap fun i => toBytes 4 (cell i)

/-- The contribution packets of a tile to a handle, in ascending row and column-block order (R210, R232, R235). -/
def contribPackets (src unit : Nat) (tag : BitVec 16) (handle : W64) (kind : Nat) (anchor : Nat) (family nofam poison : Bool)
    (cell : Nat → Nat → Nat) (nf : Nat → Nat → Bool) : List Packet :=
  let h := handle.toNat
  let la := kind == kindLA96
  let blocks := if la then 4 else 1
  (List.range 128).flatMap fun m => (List.range blocks).map fun cb =>
    { plainPacket 0x10 2 src unit (bits h 6 0) tag with
      poison := poison, length := 512
      w2 := BitVec.ofNat 64 (b2n nofam * 2 ^ 37 + (if la then anchor else 0) * 2 ^ 27 + b2n family * 2 ^ 26 + kind * 2 ^ 25 +
        cb * 2 ^ 23 + m * 2 ^ 16 + bits h 22 13 * 2 ^ 6 + bits h 12 7)
      payload := contribBytes la (cell m) (nf m) (32 * cb) }

/-- ACC_SEND_ACCEPTED (R108): the die router has taken the last contribution packet. -/
def execAccSendAccepted (c : Nat) (s : State) : Host.Outcome State Fault Refusal :=
  .next (s.upd fun p =>
    match (p.core c).closing.find? fun o => match o.op with | .accSend .. => true | _ => false with
    | none => p
    | some o =>
      match o.op with
      | .accSend g h tn inc =>
        let x := (p.core c).group g
        let tag := ((p.net.waiting.find? fun w => w.kind == .send c o.seq).map (·.tag)).getD 0
        let la := x.desc.kind == kindLA96
        let ps := contribPackets (c / 16) (c % 16) tag h x.desc.kind (bits x.desc.w0.toNat 21 12)
          (x.family == some true) (la && x.family.isNone) x.poison
          (fun m n => (smGetD x.tile (m * 128 + n) 0).toNat)
          (fun m n => la && (x.nfRow.getLsbD m || x.nfCol.getLsbD n))
        let p := ps.foldl (fun p k => p.inject (c / 16) k) p
        let p := p.unawait fun w => w.kind == .send c o.seq
        let p := p.modCore c fun k => ({ k with closing := k.closing.erase o }).closeGroup g
        (if inc = 0 then p else p.tokenAdd c tn.toNat inc.toNat).mxAdvance c
      | _ => p)

/-! ### Views of the registers (R119) -/

/-- CORE_MX_STATUS. A position that a direct pass computes in holds no group (R86, R111). -/
def Core.mxStatus (k : Core) : W64 :=
  let side (i : Nat) : Nat := (if k.active = i + 1 then 32 else 0) + match k.holder i with
    | some h => if h = directHolder then 0 else 16 + h
    | none => 0
  BitVec.ofNat 64 (min 8 k.mxQ.length * 2 ^ 20 + b2n (k.running.any fun r => r.op.spec) * 2 ^ 17 +
    b2n (!k.running.isEmpty) * 2 ^ 16 + side 1 * 2 ^ 8 + side 0)

end Sys2Proof.Machine
end

