-- ==== Sys2Proof/Machine/Accord.lean ====
section
/-! DEFINITION. Accords (R231 to R241, R245): slot descriptors, the adding of contributions, the canonical tree of a
fixative slot, delivery and forwarding. The slot's state, flags and count live in ACC_SLOT_STATUS; its cells live in
`Panel.accords`. -/

namespace Sys2Proof.Machine

/-! ### Descriptors (R233, R234) -/

/-- The four words of a slot descriptor. -/
structure AccDesc where
  w0 : Nat
  w1 : Nat
  w2 : Nat
  w3 : Nat
  deriving DecidableEq, Repr

def AccDesc.enable (d : AccDesc) : Bool := bit d.w0 63
def AccDesc.count (d : AccDesc) : Nat := bits d.w0 58 48
def AccDesc.anchor (d : AccDesc) : Int := signed 10 (bits d.w0 37 28)
def AccDesc.outFmt (d : AccDesc) : Nat := bits d.w0 27 24
def AccDesc.ovfMode (d : AccDesc) : Nat := bits d.w0 21 20
def AccDesc.fixative (d : AccDesc) : Bool := bit d.w0 17
def AccDesc.forward (d : AccDesc) : Bool := bit d.w0 16
def AccDesc.kind (d : AccDesc) : Nat := bits d.w0 12 10
def AccDesc.storeBase (d : AccDesc) : Nat := bits d.w0 9 0
def AccDesc.outBase (d : AccDesc) : Nat := bits d.w1 55 0
def AccDesc.outCols (d : AccDesc) : Nat := bits d.w2 31 24
def AccDesc.outRows (d : AccDesc) : Nat := bits d.w2 23 16
def AccDesc.outStride (d : AccDesc) : Nat := bits d.w2 15 0
def AccDesc.increment (d : AccDesc) : Nat := bits d.w3 30 15
def AccDesc.counter (d : AccDesc) : Nat := bits d.w3 14 10
def AccDesc.core (d : AccDesc) : Nat := bits d.w3 9 0

/-- A fixative slot keeps each contributor's tile: fixative has no effect for LA96 (R234). -/
def AccDesc.tree (d : AccDesc) : Bool := d.fixative && d.kind == kindF32

/-- 4 KiB units of the store area (R234). -/
def AccDesc.units (d : AccDesc) : Nat :=
  if d.kind = kindLA96 then 64 else if d.fixative then d.count * 16 else 16

/-- Packets of a complete use (R236). -/
def AccDesc.total (d : AccDesc) : Nat := d.count * if d.kind = kindLA96 then 512 else 128

def Panel.accDesc (p : Panel) (node slot : Nat) : AccDesc :=
  let w (k : Nat) : Nat := (p.get .ACC_DESC node slot k).toNat
  ⟨w 0, w 1, w 2, w 3⟩

/-- 4 KiB units of an accord store: 4 MiB on a compute die, 2 MiB on an MPD (R231). -/
def storeUnits (node : Nat) : Nat := if node < 0x40 then 1024 else 512

/-- The checks of R234 and R287 that concern one descriptor. The output fields are read in close mode only (log 8). -/
def Panel.accFieldsOk (p : Panel) (node : Nat) (d : AccDesc) : Bool :=
  let zero (w hi lo : Nat) : Bool := bits w hi lo == 0
  zero d.w0 62 59 && zero d.w0 47 38 && zero d.w0 23 22 && zero d.w0 19 18 && zero d.w0 15 13 && zero d.w1 63 56 &&
    (!d.forward || zero d.w1 55 23) && zero d.w2 63 32 && zero d.w3 63 31 &&
    decide (d.kind ≤ 1) && !(d.kind == kindF32 && d.fixative && d.forward) && (d.kind == kindLA96 || d.anchor == 0) &&
    !(d.kind == kindF32 && !d.fixative &&
      ((p.flag F.HUB_DET_POLICY_ordered_only && decide (3 ≤ d.count)) ||
        (p.flag F.HUB_DET_POLICY_fixative_only && decide (2 ≤ d.count)))) &&
    decide (d.ovfMode ≤ 1) && decide (1 ≤ d.count ∧ d.count ≤ 1024) && decide (d.storeBase + d.units ≤ storeUnits node) &&
    (d.forward ||
      (outAllowed d.kind d.outFmt && d.outStride != 0 &&
        decide (1 ≤ d.outRows ∧ d.outRows ≤ 128 ∧ 1 ≤ d.outCols ∧ d.outCols ≤ 128) && (p.windowOf d.outBase).isSome))

/-- A descriptor is valid: its fields are, and its area meets that of no other enabled slot (R231, R234). -/
def Panel.accValid (p : Panel) (node slot : Nat) (d : AccDesc) : Bool :=
  p.accFieldsOk node d && (List.range 64).all fun n =>
    n == slot ||
      (let e := p.accDesc node n
       !e.enable || !rangesMeet d.storeBase d.units e.storeBase e.units)

/-- The node has an accord unit: a logical die or stack of the shape (R231). -/
def Panel.hasAcc (p : Panel) (node : Nat) : Bool := decide (node < 0x64) && p.nodeUp node

def accIdle : Nat := 0
def accOpen : Nat := 1
def accCombining : Nat := 2
def accDelivering : Nat := 3
def accFailed : Nat := 4

def Panel.accState (p : Panel) (node slot : Nat) : Nat := p.fget F.ACC_SLOT_STATUS_state node slot

def Panel.setAccState (p : Panel) (node slot st : Nat) : Panel := p.fput F.ACC_SLOT_STATUS_state st node slot

/-- A write of descriptor word w (R234, R245). -/
def Panel.accDescWrite (p : Panel) (node slot w : Nat) (v : W64) : Panel :=
  if p.accState node slot ≠ accIdle then (p.fput F.ACC_ERR_busy_write 1 node).fput F.ACC_ERR_last_slot slot node
  else if w = 0 ∧ bit v.toNat 63 then
    let d := { p.accDesc node slot with w0 := v.toNat }
    if p.accValid node slot d then p.put .ACC_DESC v node slot 0
    else
      let p := p.put .ACC_DESC (putBits v 63 63 0) node slot 0
      (p.fput F.ACC_ERR_desc_error 1 node).fput F.ACC_ERR_last_slot slot node
  else p.put .ACC_DESC v node slot w

/-- ACC_DESC_WRITE (R245). -/
def execAccDescWrite (node slot w : Nat) (v : W64) (s : State) : Host.Outcome State Fault Refusal :=
  .next (s.upd fun p =>
    if p.hasAcc node && decide (slot < 64) && decide (w < 4) then p.accDescWrite node slot w v else p)

/-! ### The slot store -/

def accKey (node slot : Nat) : Nat := node * 64 + slot

def Panel.accSlot (p : Panel) (node slot : Nat) : AccSlot := smGetD p.accords (accKey node slot) .empty

def Panel.setAccSlot (p : Panel) (node slot : Nat) (x : AccSlot) : Panel :=
  { p with accords := smSet p.accords (accKey node slot) x }

/-- The slot returns to IDLE (R240); its flags stay in ACC_SLOT_STATUS. -/
def Panel.accToIdle (p : Panel) (node slot : Nat) : Panel :=
  let p := { p with accords := smDel p.accords (accKey node slot) }
  let p := p.unawait fun w => w.node == node &&
    (match w.kind with | .accordRow s _ => s == slot | .accordPost s => s == slot | _ => false)
  p.setAccState node slot accIdle

/-- An error of a slot: counter, last slot and event (R241, R245). -/
def Panel.accError (p : Panel) (node slot : Nat) (f : RField) (ev : BitVec 16) (detail : Option Nat) : Panel :=
  ((p.addHold f 1 node).fput F.ACC_ERR_last_slot slot node).reportNode node ev clsInfo detail none

/-- Delivery failed: ACCORD_DELIVERY, delivery_error, IDLE (R238, R239). -/
def Panel.accFail (p : Panel) (node slot : Nat) : Panel :=
  let p := (p.fput F.ACC_ERR_delivery_error 1 node).fput F.ACC_ERR_last_slot slot node
  (p.reportNode node 0x0309 clsInfo).accToIdle node slot

/-- ACCORD_OVERFLOW where ovf_mode asks for it (R238, R239). -/
def Panel.accOvf (p : Panel) (node slot : Nat) (d : AccDesc) (ov sat : Bool) : Panel :=
  if d.ovfMode = 1 ∧ (ov || sat) then p.reportNode node 0x030A clsInfo (some slot) (some (b2n ov * 2 + b2n sat)) else p

/-! ### Delivery (R238) -/

/-- Convert a cell of a slot: bits, overflow, out_sat; NaN-flagged cells convert per R124. -/
def AccDesc.conv (d : AccDesc) (x : BitVec 105) : Nat × Bool × Bool :=
  if d.kind = kindLA96 ∧ x.getLsbD 104 then ((closeConv d.outFmt .ne .nan).1, false, false)
  else
    let (v, ov) := closeVal d.kind d.anchor (x.setWidth 104)
    let (b, sat) := closeConv d.outFmt .ne v
    (b, ov, sat)

/-- One binary32 add of a slot: the sum, and whether finite operands gave an infinity (R130, R236). -/
def f32Add (a b : Nat) : Nat × Bool :=
  let x := fmtFP32.decode a
  let y := fmtFP32.decode b
  let r := fmtFP32.ofVal .ne (x.add y)
  (r, x.finite && y.finite && !(fmtFP32.decode r).finite)

/-- The node that a panel address lies at; none where the source router refuses it (R224). -/
def Panel.homeNode (p : Panel) (pa : Nat) : Option Nat :=
  match p.decode pa with
  | some (.hbm s, _) => some (0x40 + s)
  | some (.cmem d _, _) => some d
  | some (.scratch c, _) => some (c / 16)
  | none => none

def Panel.modAcc (p : Panel) (node slot : Nat) (f : AccSlot → AccSlot) : Panel :=
  p.setAccSlot node slot (f (p.accSlot node slot))

/-- A write request (R210, R212). -/
def writePacket (src unit dst : Nat) (tag : BitVec 16) (pa : Nat) (bs : List Byte) (poison : Bool) : Packet :=
  { plainPacket 0x01 0 src unit dst tag with
    poison := poison, length := BitVec.ofNat 10 bs.length, addr := BitVec.ofNat 56 pa, payload := bs }

/-- The row packets of a delivery go to the die router; a row whose address it refuses fails the delivery (R224, R238). -/
def Panel.accRows (p : Panel) (node slot : Nat) (d : AccDesc) (x : AccSlot) : Panel :=
  let poison := p.flag F.ACC_SLOT_STATUS_poison node slot
  (List.range d.outRows).foldl (fun p m =>
    let pa := d.outBase + m * d.outStride
    match p.homeNode pa with
    | none => p.modAcc node slot fun x => { x with rowFailed := true }
    | some dst =>
      let bs := (List.range d.outCols).flatMap fun c =>
        toBytes (outBytes d.outFmt) (d.conv (smGetD x.cells (m * 128 + c) 0)).1
      let (tag, p) := p.await node 19 (.accordRow slot m)
      p.inject node (writePacket node 19 dst tag pa bs poison)) p

/-- Delivery or forwarding begins (R238, R239). A parent handle that the die router refuses ends the forward at once. -/
def Panel.accDeliver (p : Panel) (node slot : Nat) : Panel :=
  let d := p.accDesc node slot
  let x := p.accSlot node slot
  let p := p.setAccState node slot accDelivering
  if d.forward then
    if p.handleBad (BitVec.ofNat 64 (bits d.w1 55 0)) then p.accFail node slot else p
  else
    let fam := if x.hasFamily then some (p.flag F.ACC_SLOT_STATUS_family node slot) else none
    if d.kind = kindLA96 ∧ !familyAllows fam d.outFmt then
      (p.accError node slot F.ACC_ERR_mismatches 0x0306 none).accToIdle node slot
    else
      let (ov, sat) := x.cells.foldl (fun (a : Bool × Bool) e =>
        let (_, ov, sat) := d.conv e.2
        (a.1 || ov, a.2 || sat)) (p.flag F.ACC_SLOT_STATUS_overflow node slot, false)
      let p := p.fput F.ACC_SLOT_STATUS_overflow (b2n ov) node slot
      let p := p.fput F.ACC_SLOT_STATUS_out_sat (b2n sat) node slot
      (p.modAcc node slot fun x => { x with rowsLeft := d.outRows }).accRows node slot d x

/-! ### Contributions (R235, R236, R241) -/

/-- The fields of an accord contribution (R210). -/
structure Contrib where
  slot : Nat
  contributor : Nat
  row : Nat
  colblock : Nat
  kind : Nat
  family : Bool
  anchor : Int
  nofamily : Bool
  deriving DecidableEq, Repr

def contribOf (k : Packet) : Contrib :=
  let w := k.w2.toNat
  { slot := bits w 5 0, contributor := bits w 15 6, row := bits w 22 16, colblock := bits w 24 23, kind := bits w 25 25
    family := bit w 26, anchor := signed 10 (bits w 36 27), nofamily := bit w 37 }

/-- The packet does not fit the slot's use (R237, R241). -/
def AccDesc.mismatch (d : AccDesc) (x : AccSlot) (fam : Bool) (k : Contrib) : Bool :=
  k.kind != d.kind ||
    (d.kind == kindLA96 && (k.anchor != d.anchor || (!k.nofamily && x.hasFamily && k.family != fam))) ||
    (d.tree && (decide (d.count ≤ k.contributor) || smHas x.seen (k.contributor * 512 + k.row * 4)))

/-- Add a packet's cells (R236, R237): the slot, and whether an add produced an infinity from finite operands. -/
def AccDesc.addCells (d : AccDesc) (x : AccSlot) (k : Contrib) (payload : List Byte) : AccSlot × Bool :=
  let who := if d.tree then k.contributor else 0
  let key := who * 512 + k.row * 4 + k.colblock
  let first := !smHas x.seen key
  let at0 := who * 16384 + k.row * 128
  let x' := { x with seen := smSet x.seen key () }
  if d.kind = kindLA96 then
    ((List.range 32).foldl (fun x i =>
      let v := BitVec.ofNat 105 (ofBytes ((payload.drop (16 * i)).take 16))
      let a := at0 + 32 * k.colblock + i
      let old := if first then 0 else smGetD x.cells a 0
      let sum := ((old.setWidth 104 + v.setWidth 104).setWidth 105) ||| ((old ||| v) &&& BitVec.ofNat 105 (2 ^ 104))
      { x with cells := smPut x.cells 0 a sum }) x', false)
  else
    (List.range 128).foldl (fun (acc : AccSlot × Bool) i =>
      let v := ofBytes ((payload.drop (4 * i)).take 4)
      let a := at0 + i
      let (sum, ov) := if first then (v, false) else f32Add (smGetD acc.1.cells a 0).toNat v
      ({ acc.1 with cells := smPut acc.1.cells 0 a (BitVec.ofNat 105 sum) }, acc.2 || ov)) (x', false)

/-- The slot of a fixative or a plain use is complete (R236, R237). -/
def Panel.accComplete (p : Panel) (node slot : Nat) : Panel :=
  if (p.accDesc node slot).tree then p.setAccState node slot accCombining else p.accDeliver node slot

/-- A packet is taken by a slot that is OPEN. -/
def Panel.accTake (p : Panel) (node : Nat) (k : Packet) (n : Contrib) : Panel :=
  let d := p.accDesc node n.slot
  let x := p.accSlot node n.slot
  let p := p.addHold F.ACC_SLOT_STATUS_packets 1 node n.slot
  let full := decide (d.total ≤ p.fget F.ACC_SLOT_STATUS_packets node n.slot)
  if d.mismatch x (p.flag F.ACC_SLOT_STATUS_family node n.slot) n then
    let p := (p.accError node n.slot F.ACC_ERR_mismatches 0x0306 none).setAccState node n.slot accFailed
    if full then p.accToIdle node n.slot else p
  else
    let (x, ov) := d.addCells x n k.payload
    let takes := d.kind == kindLA96 && !n.nofamily && !x.hasFamily
    let p := if takes then p.fput F.ACC_SLOT_STATUS_family (b2n n.family) node n.slot else p
    let p := if k.poison then p.fput F.ACC_SLOT_STATUS_poison 1 node n.slot else p
    let p := if ov then p.fput F.ACC_SLOT_STATUS_overflow 1 node n.slot else p
    let p := p.setAccSlot node n.slot { x with hasFamily := x.hasFamily || takes }
    if full then p.accComplete node n.slot else p

/-- A contribution reaches its accord unit (R236, R241). -/
def Panel.contribution (p : Panel) (k : Packet) : Panel :=
  let node := k.dstNode.toNat
  let n := contribOf k
  let st := p.accState node n.slot
  if !(p.accDesc node n.slot).enable then p.accError node n.slot F.ACC_ERR_mismatches 0x0306 none
  else if st = accCombining ∨ st = accDelivering then p.accError node n.slot F.ACC_ERR_busy_drops 0x0307 none
  else if st = accFailed then
    let p := p.addHold F.ACC_SLOT_STATUS_packets 1 node n.slot
    if (p.accDesc node n.slot).total ≤ p.fget F.ACC_SLOT_STATUS_packets node n.slot then p.accToIdle node n.slot else p
  else if st = accIdle then
    let p := (p.put .ACC_SLOT_STATUS 0 node n.slot).setAccSlot node n.slot .empty
    (p.setAccState node n.slot accOpen).accTake node k n
  else p.accTake node k n

/-- Two packets are of one class, from one source unit to one node: the network keeps their order (R219). -/
def sameStream (a b : Packet) : Bool :=
  !a.mc && !b.mc && a.tclass == b.tclass && a.srcNode == b.srcNode && a.srcUnit == b.srcUnit && a.dstNode == b.dstNode

/-- The packet is in flight, and it has not reached its destination or an earlier one of its stream is in flight (R219). A packet
that the network does not hold comes from a unit whose accesses the model does not number (log 10). -/
def Panel.early (p : Panel) (k : Packet) : Bool :=
  match p.net.flying.filter fun f => f.p == k with
  | [] => false
  | fs =>
    let mine := p.net.flying.filter fun f => sameStream f.p k
    !fs.any fun f => (f.holder == k.dstNode.toNat && f.next == f.holder) && mine.all fun g => decide (f.born ≤ g.born)

/-- The oldest of the packets in flight that are k leaves the network. -/
def Panel.takePacket (p : Panel) (k : Packet) : Panel :=
  let fs := p.net.flying.filter fun f => f.p == k
  match fs.find? fun f => fs.all fun g => decide (f.born ≤ g.born) with
  | some f => { p with net := { p.net with flying := p.net.flying.erase f } }
  | none => p

/-- ACC_CONTRIB (R219, R236, R241). -/
def execAccContrib (k : Packet) (s : State) : Host.Outcome State Fault Refusal :=
  .next (s.upd fun p => if p.hasAcc k.dstNode.toNat && !p.early k then (p.takePacket k).contribution k else p)

/-! ### The canonical tree (R237) -/

/-- A node of the tree: absent children are empty leaves. The sum, and whether an add overflowed. -/
def treeNode (a b : Option Nat × Bool) : Option Nat × Bool :=
  match a.1, b.1 with
  | none, y => (y, a.2 || b.2)
  | x, none => (x, a.2 || b.2)
  | some x, some y => let (r, ov) := f32Add x y; (some r, a.2 || b.2 || ov)

/-- The tree over 2^n leaves from index lo. -/
def treeSum (leaf : Nat → Option Nat) : Nat → Nat → Option Nat × Bool
  | 0, lo => (leaf lo, false)
  | n + 1, lo => treeNode (treeSum leaf n lo) (treeSum leaf n (lo + 2 ^ n))

/-- Least n with count ≤ 2^n. -/
def log2Up (count : Nat) : Nat := if count ≤ 1 then 0 else (count - 1).log2 + 1

/-- ACCORD_COMBINE_DONE (R237): the tiles of a fixative slot become one, and delivery begins. -/
def execAccordCombineDone (node slot : Nat) (s : State) : Host.Outcome State Fault Refusal :=
  .next (s.upd fun p =>
    if p.hasAcc node && decide (slot < 64) && p.accState node slot == accCombining then
      let d := p.accDesc node slot
      let x := p.accSlot node slot
      let leaf (i c : Nat) : Option Nat := if c < d.count then some (smGetD x.cells (c * 16384 + i) 0).toNat else none
      let (cells, ov) := (List.range 16384).foldl (fun (acc : List (Nat × BitVec 105) × Bool) i =>
        let (r, o) := treeSum (leaf i) (log2Up d.count) 0
        let v := BitVec.ofNat 105 (r.getD 0)
        (if v = 0 then acc.1 else (i, v) :: acc.1, acc.2 || o)) ([], false)
      let p := if ov then p.fput F.ACC_SLOT_STATUS_overflow 1 node slot else p
      (p.setAccSlot node slot { x with cells := cells.reverse }).accDeliver node slot
    else p)

/-! ### The end of a use (R238 to R241) -/

/-- ACCORD_OUTPUT_ACKED (R238): every row of a close-mode slot is acknowledged, and the post is sent, once. The die router refuses
one to a core that the shape does not have (R224). -/
def execAccordOutputAcked (node slot : Nat) (s : State) : Host.Outcome State Fault Refusal :=
  .next (s.upd fun p =>
    let d := p.accDesc node slot
    let x := p.accSlot node slot
    if p.hasAcc node && decide (slot < 64) && p.accState node slot == accDelivering && !d.forward && x.rowsLeft == 0 &&
        !x.rowFailed && d.increment != 0 && !x.posted then
      let p := p.modAcc node slot fun x => { x with posted := true }
      if !p.hasCore d.core then p.modAcc node slot fun x => { x with postOk := some false }
      else
        let (tag, p) := p.await node 19 (.accordPost slot)
        let k := plainPacket 0x02 0 node 19 (d.core / 16) tag
        p.inject node { k with w2 := BitVec.ofNat 64 (d.increment * 2 ^ 15 + d.counter * 2 ^ 10 + d.core) }
    else p)

/-- How the delivery of a slot stands (R238, R239): delivered, failed, or none while it goes on. What was answered decides; where an
answer is still awaited, the end that the command names is a timeout, and no timer runs in a drain (R221). -/
def Panel.deliveryEnd (p : Panel) (node slot : Nat) (e : DeliveryEnd) : Option Bool :=
  let d := p.accDesc node slot
  let x := p.accSlot node slot
  let late := !p.flag F.PNW_DRAIN_STATUS_in_progress
  if d.forward then (if late && (e == .rowFailed || e == .postTimedOut || e == .postRefused) then some false else none)
  else if x.rowFailed then some false
  else if x.rowsLeft != 0 then (if late && e == .rowFailed then some false else none)
  else if d.increment = 0 then some true
  else if x.postOk.isSome then x.postOk
  else if x.posted && late && e == .postTimedOut then some false
  else none

/-- ACCORD_DELIVERY_END (R221, R238, R239): the delivery of a slot ends. -/
def execAccordDeliveryEnd (node slot : Nat) (e : DeliveryEnd) (s : State) : Host.Outcome State Fault Refusal :=
  .next (s.upd fun p =>
    let d := p.accDesc node slot
    if p.hasAcc node && decide (slot < 64) && p.accState node slot == accDelivering then
      match p.deliveryEnd node slot e with
      | none => p
      | some ok =>
        if d.forward then p.accFail node slot
        else
          let p := p.accOvf node slot d (p.flag F.ACC_SLOT_STATUS_overflow node slot)
            (p.flag F.ACC_SLOT_STATUS_out_sat node slot)
          if ok then p.accToIdle node slot else p.accFail node slot
    else p)

/-- ACCORD_FORWARD_ACCEPTED (R239): the die router has taken the last packet of a forward. -/
def execAccordForwardAccepted (node slot : Nat) (s : State) : Host.Outcome State Fault Refusal :=
  .next (s.upd fun p =>
    let d := p.accDesc node slot
    if p.hasAcc node && decide (slot < 64) && p.accState node slot == accDelivering && d.forward then
      let x := p.accSlot node slot
      let la := d.kind == kindLA96
      let cell (m n : Nat) : BitVec 105 := smGetD x.cells (m * 128 + n) 0
      let ps := contribPackets node 19 0 (BitVec.ofNat 64 d.w1) d.kind (bits d.w0 37 28)
        (x.hasFamily && p.flag F.ACC_SLOT_STATUS_family node slot) (la && !x.hasFamily)
        (p.flag F.ACC_SLOT_STATUS_poison node slot) (fun m n => ((cell m n).setWidth 104).toNat)
        (fun m n => la && (cell m n).getLsbD 104)
      let p := ps.foldl (fun p k => p.inject node k) p
      let p := if la then p else p.accOvf node slot d (p.flag F.ACC_SLOT_STATUS_overflow node slot) false
      p.accToIdle node slot
    else p)

/-- ACCORD_TIMEOUT (R221, R240, R241): a slot still OPEN is abandoned; a FAILED one returns to IDLE. -/
def execAccordTimeout (node slot : Nat) (s : State) : Host.Outcome State Fault Refusal :=
  .next (s.upd fun p =>
    if p.hasAcc node && decide (slot < 64) && !p.flag F.PNW_DRAIN_STATUS_in_progress then
      let st := p.accState node slot
      if st = accOpen then
        (p.accError node slot F.ACC_ERR_incompletes 0x0308
          (some (p.fget F.ACC_SLOT_STATUS_packets node slot))).accToIdle node slot
      else if st = accFailed then p.accToIdle node slot
      else p
    else p)

end Sys2Proof.Machine
end

