-- ==== Sys2Proof/Machine/Dma.lean ====
section
/-! DEFINITION. The DMA class (R64 to R68, R178): checks at issue, the queue of 16, and what an operation does when every
write it makes has been acknowledged. -/

namespace Sys2Proof.Machine

/-! ### Failure (R68) -/

/-- Operations of a core that no longer wait on the network: those that left its DMA queue. -/
def Panel.pruneDma (p : Panel) (c : Nat) : Panel :=
  let q := (p.core c).dmaQ
  p.unawait fun w =>
    match w.kind with
    | .dma c' n => c' == c && !q.any fun o => o.seq == n
    | _ => false

/-- The operation of sequence number n fails: it stops with no post, later ones are discarded, DMA_FAULT is raised
(R68). -/
def Panel.dmaFault (p : Panel) (c n : Nat) : Panel :=
  let p := p.modCore c fun k => { k with dmaQ := k.dmaQ.filter fun o => decide (o.seq < n) }
  (p.pruneDma c).raiseAsync c asyncDma n

/-- An access of the operation of sequence number n fails. One that an unresolved branch holds keeps its fault until the
branch resolves (R74). -/
def Panel.dmaFailed (p : Panel) (c n : Nat) : Panel :=
  if (p.core c).dmaQ.any fun o => o.seq == n && o.spec then
    p.modCore c fun k => { k with dmaQ := k.dmaQ.map fun o => if o.seq = n then { o with failed := true } else o }
  else p.dmaFault c n

/-- The oldest operation whose held fault is no longer held raises it (R74). -/
def Panel.dmaHeldFault (p : Panel) (c : Nat) : Panel :=
  match (p.core c).dmaQ.find? fun o => o.failed && !o.spec with
  | some o => p.dmaFault c o.seq
  | none => p

/-! ### Issue (R43, R64, R65) -/

/-- The template of a GATHER or SCATTER: its stride2 is ignored (R64). -/
def Desc.asTemplate (d : Desc) : Desc := { d with stride2 := 0, extent2 := 1 }

def Desc.count (d : Desc) : Nat := d.extent0 * d.extent1 * d.extent2

/-- Boxes of elements and of scales. -/
def Desc.allBoxes (d : Desc) : List (Int × Int) := if fmtMx d.fmt then [d.box, d.scaleBox] else [d.box]

def anyMeet (a b : Desc) : Bool := a.allBoxes.any fun x => b.allBoxes.any fun y => boxesMeet x y

/-- The byte range of an address list (R64). -/
def Desc.listRange (d : Desc) : List (Nat × Nat) := d.rowRanges (d.row 0 0)

/-- A list of addresses for a template (R64, R65). -/
def listOk (di tmpl : Desc) : Bool := di.fmt == 7 && di.extent0 == 8 * tmpl.extent2

/-- The operation leaves the core's own scratchpad, so its accesses can time out (R223). -/
def DmaKind.remote (o : DmaKind) (c : Nat) : Bool :=
  let far (w : W256) : Bool := decide ((descOf w).base / 2 ^ 24 ≠ scratchPa c 0 / 2 ^ 24)
  match o with
  | .mark => false
  | .copy a b => far a || far b
  | .fill a _ => far a
  | .gather .. => true
  | .scatter .. => true

/-- Put an operation in the DMA queue; its accesses that leave the scratchpad wait on the network under one tag (R71, R223;
log 10). -/
def Panel.dmaPut (p : Panel) (c : Nat) (op : DmaKind) (tn : BitVec 5) (inc : BitVec 16) : Issued :=
  let k := p.core c
  let ep := BitVec.ofNat 16 (p.fget F.CD_RC_EPOCH_epoch (c / 16) (c / 8 % 2))
  let p := p.setCore c { k with dmaQ := k.dmaQ ++ [⟨op, tn, inc, k.q.seq, ep, k.spec.isSome, false, none⟩] }
  .done (if op.remote c then (p.await (c / 16) (c % 16) (.dma c k.q.seq)).2 else p)

def dmaFull (k : Core) : Bool := decide (16 ≤ k.dmaQ.length)

/-- DMA.COPY (R64, R65). This and the other DMA instructions wait for room in the queue first, then test the descriptors, then the
classes: the spec gives no order of DESCRIPTOR_FAULT and PROTECTION_MISMATCH (R43, R44; DESIGN CHOICE, log 53). -/
def execDmaCopy (c : Nat) (f : DmaCopyForm) (s : State) : Host.Outcome State Fault Refusal :=
  .next (s.upd fun p => p.issue c .issues (f.rsvd != 0) fun p k =>
    let ds := descOf (k.dreg f.ds)
    let dd := descOf (k.dreg f.dd)
    if dmaFull k then .stall
    else if !p.descOk ds || !p.descOk dd || ds.fmt != dd.fmt || ds.count != dd.count || anyMeet ds dd then
      trapFree trapDesc
    else if !p.sliceClassOk ds || !p.sliceClassOk dd then trapFree trapProt
    else p.dmaPut c (.copy (k.dreg f.ds) (k.dreg f.dd)) f.tn f.inc)

/-- DMA.GATHER (R64, R65): the dimension-2 bases of the source come from a list. -/
def execDmaGather (c : Nat) (f : DmaListForm) (s : State) : Host.Outcome State Fault Refusal :=
  .next (s.upd fun p => p.issue c .issues (f.rsvd != 0) fun p k =>
    let ds := descOf (k.dreg f.ds)
    let dd := descOf (k.dreg f.dd)
    let di := descOf (k.dreg f.di)
    let t := ds.asTemplate
    if dmaFull k then .stall
    else if !(ds.fieldsOk && p.descOk t) || !p.descOk dd || !p.descOk di || !listOk di ds || ds.fmt != dd.fmt ||
        ds.count != dd.count || anyMeet t dd || anyMeet di dd then trapFree trapDesc
    else if !p.sliceClassOk dd || !p.touchesOk di.pclass di.listRange then trapFree trapProt
    else p.dmaPut c (.gather (k.dreg f.ds) (k.dreg f.dd) (k.dreg f.di)) f.tn f.inc)

/-- DMA.SCATTER (R64, R65): the dimension-2 bases of the destination come from a list. -/
def execDmaScatter (c : Nat) (f : DmaListForm) (s : State) : Host.Outcome State Fault Refusal :=
  .next (s.upd fun p => p.issue c .issues (f.rsvd != 0) fun p k =>
    let ds := descOf (k.dreg f.ds)
    let dd := descOf (k.dreg f.dd)
    let di := descOf (k.dreg f.di)
    let t := dd.asTemplate
    if dmaFull k then .stall
    else if !p.descOk ds || !(dd.fieldsOk && p.descOk t) || !p.descOk di || !listOk di dd || ds.fmt != dd.fmt ||
        ds.count != dd.count || anyMeet t ds || anyMeet di t then trapFree trapDesc
    else if !p.sliceClassOk ds || !p.touchesOk di.pclass di.listRange then trapFree trapProt
    else p.dmaPut c (.scatter (k.dreg f.ds) (k.dreg f.dd) (k.dreg f.di)) f.tn f.inc)

/-- DMA.FILL (R64). It writes elements and no block scales, so only their 64 B are checked (R44). -/
def execDmaFill (c : Nat) (f : DmaFillForm) (s : State) : Host.Outcome State Fault Refusal :=
  .next (s.upd fun p => p.issue c .issues (f.rsvd != 0) fun p k =>
    let dd := descOf (k.dreg f.dd)
    if k.unready f.rs || dmaFull k then .stall
    else if !p.descOk dd then trapFree trapDesc
    else if !p.touchesOk dd.pclass dd.elemRanges then trapFree trapProt
    else p.dmaPut c (.fill (k.dreg f.dd) (k.sreg f.rs)) f.tn f.inc)

/-- DMA.MARK (R64). -/
def execDmaMark (c : Nat) (f : DmaMarkForm) (s : State) : Host.Outcome State Fault Refusal :=
  .next (s.upd fun p => p.issue c .issues (f.rsvdHi != 0 || f.rsvdLo != 0) fun p k =>
    if dmaFull k then .stall else p.dmaPut c .mark f.tn f.inc)

/-! ### Execution (R65 to R68, R178) -/

/-- Read ranges in order until one fails: the bytes with their poison, and whether all were read (R68). `pclass` is the
class a listed row must have (R44). -/
def Panel.dmaGather (p : Panel) (c epoch pclass : Nat) (l : List (Nat × Nat)) : List (Byte × Bool) × Bool × Panel :=
  l.foldl (fun (acc : List (Byte × Bool) × Bool × Panel) r =>
    let p := acc.2.2
    if !acc.2.1 then acc
    else if p.accessStatus r.1 r.2 != 0 || !p.classesOk pclass r.1 r.2 then (acc.1, false, p)
    else
      let (bs, p) := p.dmaRead (c / 16) (c / 8 % 2) epoch r.1 r.2
      (acc.1 ++ bs, true, p)) ([], true, p)

/-- Write a byte stream to ranges in order until one fails or the stream ends: whether all were written, and how many
bytes were (R65, R68, R173). -/
def Panel.dmaScatter (p : Panel) (c pclass : Nat) (bs : List (Byte × Bool)) (l : List (Nat × Nat)) :
    Bool × Nat × Panel :=
  let r := l.foldl (fun (acc : Bool × Nat × Panel × List (Byte × Bool)) r =>
    let (ok, n, p, bs) := acc
    if !ok || decide (bs.length < r.2) then (false, n, p, bs)
    else if p.accessStatus r.1 r.2 != 0 || !p.classesOk pclass r.1 r.2 then (false, n, p, bs)
    else ((true, n + r.2, (p.storePa r.1 (bs.take r.2)).rcInvalidate (c / 16) (c / 8 % 2) r.1 r.2, bs.drop r.2)))
    (true, 0, p, bs)
  (r.1, r.2.1, r.2.2.1)

/-- The address list of a GATHER or SCATTER: none if an access fails or an entry is poisoned (R64, R68). An entry with a bit
set above bit 55 is an unmapped address (R31). -/
def Panel.dmaList (p : Panel) (c epoch n : Nat) (di : Desc) : Option (List Nat) × Panel :=
  let (bs, ok, p) := p.dmaGather c epoch 0 di.listRange
  if !ok || (bs.take (8 * n)).any (·.2) then (none, p)
  else (some ((List.range n).map fun i => ofBytes (((bs.drop (8 * i)).take 8).map (·.1))), p)

/-- The pattern of a fill for n bytes of a row (R64). -/
def fillRow (pattern : W64) (n : Nat) : List (Byte × Bool) :=
  let b := toBytes 8 pattern.toNat
  (List.range n).map fun i => (b.getD (i % 8) 0, false)

/-- The reads of an operation: its list, then its source in ascending order until one fails (R65, R68). -/
def Panel.dmaReads (p : Panel) (c : Nat) (o : DmaOp) : Staged × Panel :=
  let ep := o.epoch.toNat
  let source (list : List Nat) (pclass : Nat) (l : List (Nat × Nat)) (p : Panel) : Staged × Panel :=
    let (bs, ok, p) := p.dmaGather c ep pclass l
    (⟨list, bs, ok⟩, p)
  match o.op with
  | .mark => (⟨[], [], true⟩, p)
  | .fill .. => (⟨[], [], true⟩, p)
  | .copy ws _ => source [] 0 ((descOf ws).ranges none) p
  | .gather ws _ wi =>
    let ds := descOf ws
    match p.dmaList c ep ds.extent2 (descOf wi) with
    | (none, p) => (⟨[], [], false⟩, p)
    | (some l, p) => source l ds.pclass (ds.ranges (some l)) p
  | .scatter ws wd wi =>
    match p.dmaList c ep (descOf wd).extent2 (descOf wi) with
    | (none, p) => (⟨[], [], false⟩, p)
    | (some l, p) => source l 0 ((descOf ws).ranges none) p

/-- The writes of an operation, in ascending order: whether all were made, and how many bytes (R65). -/
def Panel.dmaWrites (p : Panel) (c : Nat) (o : DmaOp) (x : Staged) : Bool × Nat × Panel :=
  match o.op with
  | .mark => (true, 0, p)
  | .copy _ wd => p.dmaScatter c 0 x.data ((descOf wd).ranges none)
  | .gather _ wd _ => p.dmaScatter c 0 x.data ((descOf wd).ranges none)
  | .scatter _ wd _ => p.dmaScatter c (descOf wd).pclass x.data ((descOf wd).ranges (some x.list))
  | .fill wd pat =>
    let dd := descOf wd
    let row := fillRow pat (dd.extent0 * fmtBits dd.fmt / 8)
    p.dmaScatter c 0 (dd.rows.flatMap fun _ => row) dd.elemRanges

/-- Do an operation: whether it succeeded and how many bytes it wrote. What was read ahead is not read again (R67). One that fails has
written what it read before the failing access, in ascending order: R68 leaves open which writes landed (DESIGN CHOICE, log 10). -/
def Panel.dmaRun (p : Panel) (c : Nat) (o : DmaOp) : Bool × Nat × Panel :=
  let (x, p) := match o.staged with
    | some x => (x, p)
    | none => p.dmaReads c o
  let (ok, n, p) := p.dmaWrites c o x
  (x.ok && ok, n, p)

/-! ### Reading ahead (R67) -/

/-- Source slices of an operation, the template of a GATHER among them, and its list (R65, R67). -/
def DmaKind.sources : DmaKind → List Desc
  | .copy s _ => [descOf s]
  | .gather s _ i => [(descOf s).asTemplate, descOf i]
  | .scatter s _ i => [descOf s, descOf i]
  | _ => []

/-- The destination slice of an operation, the template of a SCATTER. -/
def DmaKind.dests : DmaKind → List Desc
  | .copy _ d => [descOf d]
  | .gather _ d _ => [descOf d]
  | .scatter _ d _ => [(descOf d).asTemplate]
  | .fill d _ => [descOf d]
  | .mark => []

/-- A source bounding box of the operation overlaps the destination bounding box of an earlier one (R67). -/
def heldBehind (o : DmaKind) (earlier : List DmaOp) : Bool :=
  earlier.any fun e => o.sources.any fun s => e.op.dests.any (anyMeet s)

/-- Bytes in the staging buffer (R67, R181). -/
def Core.stagingUsed (k : Core) : Nat := sumL (k.dmaQ.map fun o => match o.staged with | some x => x.data.length | none => 0)

/-- Bytes of its source (R67). -/
def DmaKind.sourceBytes : DmaKind → Nat
  | .copy s _ => sumL (((descOf s).ranges none).map (·.2))
  | .gather s _ _ => sumL (((descOf s).ranges none).map (·.2))
  | .scatter s _ _ => sumL (((descOf s).ranges none).map (·.2))
  | _ => 0

/-- The reads of the i-th operation of the queue may be made now: it is the first or one of the 8 after it, nothing earlier that is
incomplete writes what it reads, and its bytes fit the staging buffer of 256 KiB (R67). -/
def Core.mayRead (k : Core) (i : Nat) : Bool :=
  match k.dmaQ[i]? with
  | some o => decide (i ≤ 8) && o.staged.isNone && !o.op.sources.isEmpty && !heldBehind o.op (k.dmaQ.take i) &&
      decide (k.stagingUsed + o.op.sourceBytes ≤ 0x40000)
  | none => false

/-- The engine makes the reads of the i-th operation of a core's queue ahead of its turn (R67). -/
def Panel.readAhead (p : Panel) (c i : Nat) : Panel :=
  match if (p.core c).mayRead i then (p.core c).dmaQ[i]? else none with
  | none => p
  | some o =>
    let (x, p) := p.dmaReads c o
    p.modCore c fun k => { k with dmaQ := k.dmaQ.map fun e => if e.seq = o.seq then { e with staged := some x } else e }

/-- The operation, not yet read, reads the line: in its source slice, its list, or a row that its list gives (R64, R171). -/
def Panel.readsLine (p : Panel) (c : Nat) (o : DmaOp) (line : Nat) : Bool :=
  let hits (l : List (Nat × Nat)) : Bool := l.any fun r =>
    decide (r.1 < line * 256 + 256) && decide (line * 256 < r.1 + r.2)
  match o.op with
  | .copy s _ => hits ((descOf s).ranges none)
  | .gather s _ i =>
    hits (descOf i).listRange ||
      match (p.dmaList c o.epoch.toNat (descOf s).extent2 (descOf i)).1 with
      | some l => hits ((descOf s).ranges (some l))
      | none => false
  | .scatter s _ i => hits ((descOf s).ranges none) || hits (descOf i).listRange
  | _ => false

/-- The first operation of a core whose reads may be under way and that reads the line (R67, R171). -/
def Panel.lineReader (p : Panel) (c line : Nat) : Option DmaOp :=
  let k := p.core c
  ((upTo k.dmaQ.length k.mayRead).filterMap fun i => k.dmaQ[i]?).find? fun o => p.readsLine c o line

/-- The cores of a cluster. -/
def clusterCores (die cl : Nat) : List Nat := (List.range 8).map fun i => die * 16 + cl * 8 + i

/-- The reads of the cluster's cores that wait for a line fail (R68, R175). -/
def Panel.lineFails (p : Panel) (die cl line : Nat) : Panel :=
  (clusterCores die cl).foldl (fun p c =>
    match p.lineReader c line with
    | some o => if p.cacheable die cl (line * 256) then p.dmaFailed c o.seq else p
    | none => p) p

/-- A fill of a line that a read of the cluster waits for is that read's miss (R171, R181). -/
def Panel.fillMissed (p : Panel) (die cl line : Nat) : Panel :=
  if (clusterCores die cl).any fun c => (p.lineReader c line).isSome then
    let p := p.addWrap F.CD_RC_STATS_misses 1 die cl
    match smGet p.st.rc (rcKey die cl line) with
    | some l => { p with st := { p.st with rc := smSet p.st.rc (rcKey die cl line) { l with due := true } } }
    | none => p
  else p

/-- RC_LINE_FILL (R171, R175): the fill of a line returns; clean data of an unchanged epoch is installed, poisoned data is not,
and where the fill ended in ADDRESS_ERROR or a timeout the reads that wait for it fail. -/
def execRcLineFill (die cl line : Nat) (epoch : BitVec 16) (st : FillStatus) (s : State) :
    Host.Outcome State Fault Refusal :=
  .next (s.upd fun p =>
    if !(p.hasDie die && decide (cl < 2)) then p
    else if st == .failed || p.accessStatus (line * 256) 256 != 0 then p.lineFails die cl line
    else if st == .poisoned then p
    else
      let (bs, p) := p.readTagged (line * 256) 256
      if bs.any (·.2) then p
      else
        let q := p.rcInstall die cl line epoch.toNat (bs.map (·.1))
        if p.rcTakes die cl epoch.toNat then q.fillMissed die cl line else q)

/-- DMA_OP_COMPLETE (R66, R68): the operation at the head of the queue performs its accesses and posts its completion, or
fails. One held by an unresolved branch waits (R73). -/
def execDmaOpComplete (c : Nat) (s : State) : Host.Outcome State Fault Refusal :=
  .next (s.upd fun p =>
    match (p.core c).dmaQ with
    | [] => p
    | o :: rest =>
      if o.spec then p
      else
        match p.dmaRun c o with
        | (false, _, p) => p.dmaFault c o.seq
        | (true, n, p) =>
          let p := p.modCore c fun k => { k with dmaQ := rest }
          let p := (p.pruneDma c).addWrap F.CORE_DMA_BYTES_bytes n c
          if o.inc = 0 then p else p.tokenAdd c o.tn.toNat o.inc.toNat)

end Sys2Proof.Machine
end

