-- ==== Sys2Proof/Machine/Control.lean ====
section
/-! DEFINITION. The control class (R52 to R54) and the resolution of a conditional branch (R72 to R75). -/

namespace Sys2Proof.Machine

/-- A conditional branch (R52): taken where the comparison of ra and rb holds. -/
def Panel.branchOp (p : Panel) (c : Nat) (f : BranchForm) (cmp : W64 → W64 → Bool) : Panel :=
  p.issue c .waits (f.rsvd != 0) fun _ k =>
    if k.unready f.ra || k.unready f.rb then .stall
    else .branch (cmp (k.sreg f.ra) (k.sreg f.rb)) (k.q.pc + f.off.toInt)

/-- BEQ (R52). -/
def execBeq (c : Nat) (f : BranchForm) (s : State) : Host.Outcome State Fault Refusal :=
  .next (s.upd fun p => p.branchOp c f fun a b => a == b)

/-- BNE (R52). -/
def execBne (c : Nat) (f : BranchForm) (s : State) : Host.Outcome State Fault Refusal :=
  .next (s.upd fun p => p.branchOp c f fun a b => a != b)

/-- BLT (R52). -/
def execBlt (c : Nat) (f : BranchForm) (s : State) : Host.Outcome State Fault Refusal :=
  .next (s.upd fun p => p.branchOp c f fun a b => decide (a.toInt < b.toInt))

/-- BGE (R52). -/
def execBge (c : Nat) (f : BranchForm) (s : State) : Host.Outcome State Fault Refusal :=
  .next (s.upd fun p => p.branchOp c f fun a b => decide (b.toInt ≤ a.toInt))

/-- BLTU (R52). -/
def execBltu (c : Nat) (f : BranchForm) (s : State) : Host.Outcome State Fault Refusal :=
  .next (s.upd fun p => p.branchOp c f fun a b => decide (a.toNat < b.toNat))

/-- BGEU (R52). -/
def execBgeu (c : Nat) (f : BranchForm) (s : State) : Host.Outcome State Fault Refusal :=
  .next (s.upd fun p => p.branchOp c f fun a b => decide (b.toNat ≤ a.toNat))

/-- JMP (R52): pc := pc + offset. -/
def execJmp (c : Nat) (f : JumpForm) (s : State) : Host.Outcome State Fault Refusal :=
  .next (s.upd fun p => p.issue c .issues (f.rsvd != 0) fun p k => .jump p (k.q.pc + f.off.toInt) true)

/-- CALL (R52, R37): s31 := pc + 1; pc := pc + offset. -/
def execCall (c : Nat) (f : JumpForm) (s : State) : Host.Outcome State Fault Refusal :=
  .next (s.upd fun p => p.issue c .issues (f.rsvd != 0) fun p k =>
    if k.unready 31 then .stall
    else .jump (p.setS c 31 (BitVec.ofNat 64 (k.q.pc + 1))) (k.q.pc + f.off.toInt) false)

/-- JR (R53). -/
def execJr (c : Nat) (f : RJumpForm) (s : State) : Host.Outcome State Fault Refusal :=
  .next (s.upd fun p => p.issue c .waits (f.rsvdHi != 0 || f.rsvdLo != 0) fun p k =>
    if k.unready f.ra then .stall else .jump p (k.sreg f.ra).toNat true)

/-- CALLR (R53, R37). -/
def execCallr (c : Nat) (f : RJumpForm) (s : State) : Host.Outcome State Fault Refusal :=
  .next (s.upd fun p => p.issue c .waits (f.rsvdHi != 0 || f.rsvdLo != 0) fun p k =>
    if k.unready f.ra || k.unready 31 then .stall
    else .jump (p.setS c 31 (BitVec.ofNat 64 (k.q.pc + 1))) (k.sreg f.ra).toNat false)

/-- RET (R53). -/
def execRet (c : Nat) (rsvd : BitVec 56) (s : State) : Host.Outcome State Fault Refusal :=
  .next (s.upd fun p => p.issue c .waits (rsvd != 0) fun p k =>
    if k.unready 31 then .stall else .jump p (k.sreg 31).toNat false)

/-- LOOP (R54). IMEM_RANGE is tested before LOOP_NEST, and the level enclosing the LOOP is the innermost active one, also where the LOOP
lies outside that level's body, in a function called from it: R54 gives no order and says no more (DESIGN CHOICE, log 53). -/
def execLoop (c : Nat) (f : LoopForm) (s : State) : Host.Outcome State Fault Refusal :=
  .next (s.upd fun p => p.issue c .waits (f.rsvd != 0 || f.body == 0 || (f.ra != 0 && f.count != 0)) fun p k =>
    if k.unready f.ra then .stall
    else
      let e := k.q.pc + f.body.toNat
      let n := if f.ra = 0 then f.count.toNat else (k.sreg f.ra).toNat % 2 ^ 32
      let ls := k.q.loops (p.fwMode c)
      if 32767 < e then trapWith trapImem (BitVec.ofNat 64 e)
      else if (match ls with | l :: _ => decide (l.last < e) | [] => false) then trapFree trapLoop
      else if n = 0 then .skip p e
      else if 4 ≤ ls.length then trapFree trapLoop
      else .enter p ⟨k.q.pc + 1, e, n⟩)

/-- A 2-bit counter moved toward a direction (R72). -/
def counterStep (n : BitVec 2) (taken : Bool) : BitVec 2 :=
  if taken then (if n = 3 then 3 else n + 1) else (if n = 0 then 0 else n - 1)

/-- The copy that a speculative pass computes into becomes the group's tile, and its position the active one (R116): the
group is resident there from the commit on. -/
def Core.adoptCopy (k : Core) (r : Running) : Core :=
  match r.op.op with
  | .pass g .. =>
    if !r.op.spec then k
    else
      let x := k.group g
      let k := (k.freePos g).setPos (r.position - 1) (some g)
      { k.setGroup g { x with state := .resident, position := r.position } with active := r.position }
  | _ => k

/-- Everything held takes effect in program order (R75). A trap held behind the branch is dropped where halt_req has come meanwhile: the
core is to stop at the next instruction boundary, and the spec does not say whether the trap is raised first (R74, R85; DESIGN
CHOICE, log 53). -/
def Panel.commitSpec (p : Panel) (c : Nat) (sp : Spec) : Panel :=
  let p := p.modCore c fun k => { k.running.foldl Core.adoptCopy k with
    spec := none
    mxQ := k.mxQ.map fun o => { o with spec := false }
    running := k.running.map fun r => { r with op := { r.op with spec := false } }
    dmaQ := k.dmaQ.map fun o => { o with spec := false }
    vecQ := k.vecQ.map fun o => { o with spec := false }
    posts := k.posts.map fun o => { o with spec := false } }
  let p := (sp.held.foldl (fun p e => p.writeTagged (scratchPa c e.1) (tagged e.2)) p).dmaHeldFault c
  match sp.heldTrap with
  | some (pc, t) =>
    if (p.core c).blocked = some .halting then p else p.syncTrap c pc t.cause t.info
  | none => p

/-- Every younger instruction is squashed and everything held is discarded; issue goes on at the right path (R75). The active
position is again the one before the first squashed pass (R86, R116). -/
def Panel.squashSpec (p : Panel) (c : Nat) (sp : Spec) : Panel :=
  let fw := p.fwMode c
  let p := p.addWrap F.CORE_MISPREDICT_COUNT_count 1 c
  let p := p.modCore c fun k => { k with
    q := sp.saved
    spec := none
    mxQ := k.mxQ.filter fun o => !o.spec
    running := k.running.filter fun r => !r.op.spec
    active := match k.running.find? fun r => r.op.spec with | some r => r.wasActive | none => k.active
    dmaQ := k.dmaQ.filter fun o => !o.spec
    vecQ := k.vecQ.filter fun o => !o.spec
    posts := k.posts.filter fun o => !o.spec }
  if sp.taken then p.modCore c fun k => k.goTo fw sp.target.toNat true
  else (p.completeAt c sp.brPc).getD p

/-- BRANCH_RESOLVE (R75). -/
def execBranchResolve (c : Nat) (s : State) : Host.Outcome State Fault Refusal :=
  .next (s.upd fun p =>
    match (p.core c).spec with
    | none => p
    | some sp =>
      let i := sp.brPc % 2048
      let p := p.modCore c fun k => { k with
        predictor := smPut k.predictor 0 i (counterStep (smGetD k.predictor i 0) sp.taken) }
      ((if sp.taken = sp.predTaken then p.commitSpec c sp else p.squashSpec c sp).pruneDma c).mxAdvance c)

end Sys2Proof.Machine
end

