-- ==== Sys2Proof/Machine/CoreCtl.lean ====
section
/-! DEFINITION. The register file as software sees it: field types (R11, R12, R506), finding a register at an offset
(R495 to R498), and the registers of a core with the actions of CORE_CONTROL (R36, R85). -/

namespace Sys2Proof.Machine

/-! ### Field types (R11, R12) -/

/-- What a write of v leaves in a register that holds old: each field by its type. -/
def Reg.written (r : Reg) (locked : Bool) (old v : W64) : W64 :=
  r.fields.foldl (fun w f =>
    let cur := bits old.toNat f.f.hi f.f.lo
    let new := bits v.toNat f.f.hi f.f.lo
    let set := putBits w f.f.hi f.f.lo
    match f.kind with
    | .ro => w
    | .rw => set new
    | .rws => set new
    | .rw1c => set (cur - (cur &&& new))
    | .wo => w
    | .rwl => if locked then w else set new) old

/-- The bits of a register that a write can never change: fields of type RO and reserved bits (R12, R69). -/
def Reg.roMask (r : Reg) : W64 :=
  ~~~ (r.fields.foldl (fun m f => if f.kind = .ro then m else m ||| maskOf f.f.hi f.f.lo) (0 : W64))

/-- The lock of R506 would be tried: a write that would change an RWL field. -/
def Reg.triesLocked (r : Reg) (old v : W64) : Bool :=
  r.fields.any fun f => f.kind == .rwl && bits old.toNat f.f.hi f.f.lo != bits v.toNat f.f.hi f.f.lo

/-- Store a write in a register without behaviour of its own. -/
def Panel.store (p : Panel) (r : Reg) (locked : Bool) (v : W64) (u : Nat := 0) (i : Nat := 0) (j : Nat := 0) : Panel :=
  p.put r (r.written locked (p.get r u i j) v) u i j

/-- The register of a block at an offset, with its indices (R495 to R498). -/
def findReg (b : Blk) (off : Nat) : Option (Reg × Nat × Nat) :=
  b.regs.findSome? fun r =>
    let x := r.info
    if off < x.off then none
    else
      let d := off - x.off
      let i := d / x.s1
      let j := d % x.s1 / x.s2
      if i < x.n1 ∧ j < x.n2 ∧ d % x.s1 % x.s2 = 0 then some (r, i, j) else none

/-! ### Registers of a core (R85, R119, R181) -/

/-- A core register as it reads. -/
def Panel.coreRead (p : Panel) (c : Nat) (r : Reg) (i : Nat) : W64 × Panel :=
  let k := p.core c
  match r with
  | .CORE_STATUS =>
    let v := p.get r c
    let v := F.CORE_STATUS_posts_outstanding.write v (min 16 k.postsOut)
    let v := F.CORE_STATUS_loop_depth.write v (k.q.loops (p.fwMode c)).length
    (F.CORE_STATUS_spec_pending.write v (b2n k.spec.isSome), p)
  | .CORE_ISSUE_SEQ =>
    (BitVec.ofNat 64 (match k.spec with | some sp => sp.saved.seq + 1 | none => k.q.seq), p)
  | .CORE_GRP_STATUS => ((k.group i).word, p)
  | .CORE_MX_STATUS => (k.mxStatus, p)
  | .CORE_DMA_STATUS =>
    (BitVec.ofNat 64 (k.stagingUsed * 2 ^ 14 + min 16 k.dmaQ.length * 16 + b2n (!k.dmaQ.isEmpty)), p)
  | _ => (p.get r c i, p)

/-- Discard the engine operations not yet begun, without posts (R85, R100). The DMA and vector operations at the head of their
queues are in progress and complete; reading ahead of its turn does not begin one (log 47). -/
def Panel.abortQueues (p : Panel) (c : Nat) : Panel :=
  let p := p.modCore c fun k =>
    let k := { k with mxQ := [], dmaQ := k.dmaQ.take 1, vecQ := k.vecQ.take 1 }
    if k.running.any fun r => r.op.op.gid.isNone then k else k.freePos directHolder
  let p := p.unawait fun w => match w.kind with | .send c' n => c' == c && !(p.core c).closing.any (·.seq == n) | _ => false
  p.pruneDma c

/-- Stop issue: a blocked instruction is abandoned unissued, and the core halts once its engines have drained (R85). -/
def Panel.haltReq (p : Panel) (c : Nat) : Panel :=
  if p.running c then (p.fput F.CORE_STATUS_running 0 c).modCore c fun k => { k with blocked := some .halting } else p

/-- Raise ATTENTION (R79), whose detail the spec does not state (log 1). -/
def Panel.attention (p : Panel) (c : Nat) : Panel :=
  let (d, p) := p.drawBits 64
  p.raiseAsync c asyncAttention d.toNat

/-- The start values of R36. -/
def Panel.clearState (p : Panel) (c : Nat) : Panel :=
  let p := (List.range 32).foldl (fun p n => p.put .CORE_TOKEN 0 c n) p
  p.modCore c fun k =>
    let k := (List.range 16).foldl (fun k g => if (k.group g).state = .closed then k else k.closeGroup g) k
    { k with q := { k.q with sregs := [], dregs := [], loopsP := [], loopsF := [] }
             vregs := [], vpoison := [], pos0 := none, pos1 := none, active := 0, lastGroup := none }

/-- Start a halted core in firmware mode (R36, R85). -/
def Panel.startCore (p : Panel) (c pc : Nat) (clear : Bool) : Panel :=
  if !p.halted c then p
  else
    let p := if clear then p.clearState c else p
    let p := p.fput F.CORE_STATUS_double_trap 0 c
    let p := p.fput F.CORE_STATUS_mode 1 c
    let p := p.fput F.CORE_STATUS_halted 0 c
    let p := p.fput F.CORE_STATUS_running 1 c
    p.modCore c fun k => { k with q := { k.q with pc := pc }, blocked := none }

/-- A write of CORE_CONTROL: its triggers act in the order abort_queues, halt_req, attention, start; start acts only on a
core halted when the write arrives (R85). -/
def Panel.coreControl (p : Panel) (c : Nat) (v : W64) : Panel :=
  let n := v.toNat
  let was := p.halted c
  let p := p.store .CORE_CONTROL false v c
  let p := if bit n F.CORE_CONTROL_abort_queues.lo then p.abortQueues c else p
  let p := if bit n F.CORE_CONTROL_halt_req.lo then p.haltReq c else p
  let p := if bit n F.CORE_CONTROL_attention.lo then p.attention c else p
  if bit n F.CORE_CONTROL_start.lo && was then
    p.startCore c (F.CORE_CONTROL_start_pc.read v) (bit n F.CORE_CONTROL_clear_state.lo)
  else p

/-- A write of a core register, by the core or through the register space. -/
def Panel.coreWrite (p : Panel) (c : Nat) (r : Reg) (i : Nat) (v : W64) : Panel :=
  match r with
  | .CORE_CONTROL => p.coreControl c v
  | .CORE_TOKEN => p.fput F.CORE_TOKEN_value v.toNat c i
  | .CORE_TRAP_PENDING =>
    (p.store r false v c).modCore c fun k => { k with asyncInfo := smFilter k.asyncInfo fun b => !bit v.toNat b }
  | _ => p.store r false v c i

/-! ### Commands -/

/-- CORE_ABORT_QUEUES (R85, R100): the write of abort_queues. -/
def execCoreAbortQueues (c : Nat) (s : State) : Host.Outcome State Fault Refusal :=
  .next (s.upd fun p => if p.coreUp c then (p.abortQueues c).mxAdvance c else p)

/-- CORE_HALT_REQ (R85): the write of halt_req. -/
def execCoreHaltReq (c : Nat) (s : State) : Host.Outcome State Fault Refusal :=
  .next (s.upd fun p => if p.coreUp c then p.haltReq c else p)

/-- CORE_ATTENTION (R79, R85): the write of attention. -/
def execCoreAttention (c : Nat) (s : State) : Host.Outcome State Fault Refusal :=
  .next (s.upd fun p => if p.coreUp c then p.attention c else p)

/-- CORE_START (R36, R85): a write of CORE_CONTROL with start set. -/
def execCoreStart (c : Nat) (v : W64) (s : State) : Host.Outcome State Fault Refusal :=
  .next (s.upd fun p => if p.coreUp c then p.coreControl c (v ||| maskOf 16 16) else p)

/-- CORE_TOKEN_WRITE (R57, R85): acts as TSET. -/
def execCoreTokenWrite (c n : Nat) (v : W64) (s : State) : Host.Outcome State Fault Refusal :=
  .next (s.upd fun p => if p.coreUp c && decide (n < 32) then p.coreWrite c .CORE_TOKEN n v else p)

end Sys2Proof.Machine
end

