-- ==== Sys2Proof/Machine/FabricNet.lean ====
section
/-! DEFINITION. The switch of a hub (R403 to R417): its ports, its route entries, queues, discards, and the Hudja header. A
packet queued for a port leaves it while no command waits (log 2), or when its queue is said to empty. -/

namespace Sys2Proof.Machine

def Panel.fab4 (p : Panel) (hub : Nat) : Fabric := smGetD p.fabric hub .empty

def Panel.modFab (p : Panel) (hub : Nat) (f : Fabric → Fabric) : Panel :=
  { p with fabric := smPut p.fabric .empty hub (f (p.fab4 hub)) }

/-- This panel's coordinate (R407). -/
def Panel.coord (p : Panel) : BitVec 12 := BitVec.ofNat 12 (p.fget F.HJF_COORD_coord)

def portDown : Nat := 0
def portUp : Nat := 1
def portDraining : Nat := 2
def portDetached : Nat := 3

def Panel.portState (p : Panel) (hub i : Nat) : Nat := p.fget F.HJF_PORT_STATUS_state hub i

def domDown : Nat := 0
def domForwarding : Nat := 1
def domDetaching : Nat := 2
def domDetached : Nat := 3

def Panel.domain (p : Panel) (hub : Nat) : Nat := p.fget F.HJF_CONTROL_domain_state hub

/-- First hub of a hub's edge zone: ports 0 to 7 of a zone are those of its two hubs (R406). -/
def zoneHub (hub : Nat) : Nat := hub / 2 * 2

/-- Hub and local index of port k of a zone. -/
def zonePort (hub k : Nat) : Nat × Nat := (zoneHub hub + k / 4, k % 4)

/-! ### The header (R409, R410) -/

def opRd : Nat := 0x00
def opWr : Nat := 0x01
def opFpost : Nat := 0x02
def opRdData : Nat := 0x08
def opWrAck : Nat := 0x09
def opNak : Nat := 0x0A

/-- Opcodes of R411. -/
def fOpcodeOk (o : Nat) : Bool :=
  decide (o ≤ 2) || (decide (8 ≤ o) && decide (o ≤ 0xA)) || (decide (0x10 ≤ o) && decide (o ≤ 0x13)) ||
    (decide (0x18 ≤ o) && decide (o ≤ 0x1E)) || o == 0x20 || o == 0x21

/-- The header's bytes with mark, residency, echo and check taken as zero (R409, R410). -/
def fHeader (k : FPacket) : List Byte :=
  toBytes 8 (k.opcode.toNat * 2 ^ 58 + k.tclass.toNat * 2 ^ 56 + b2n k.vc * 2 ^ 55 + b2n k.reissue * 2 ^ 53 +
      b2n k.poison * 2 ^ 52 + k.dstCoord.toNat * 2 ^ 36 + k.srcCoord.toNat * 2 ^ 24 + k.dstNode.toNat * 2 ^ 17 +
      k.srcNode.toNat * 2 ^ 10 + k.srcUnit.toNat * 2 ^ 5) ++
    toBytes 8 (k.tag.toNat * 2 ^ 48 + k.length.toNat * 2 ^ 32) ++ toBytes 8 k.addr.toNat ++
    toBytes 8 (if k.opcode = 0x02 then k.post.toNat else k.status.toNat) ++ List.replicate 32 0

/-- The check field (R410). -/
def fCheck (k : FPacket) : BitVec 32 := Config.crc32c (fHeader k ++ k.payload)

def sealCheck (k : FPacket) : FPacket := { k with check := fCheck k }

/-- 64 B cells of a packet (R409, R413). -/
def fCells (k : FPacket) : Nat := 1 + (k.payload.length + 63) / 64

/-! ### Discards (R433) -/

/-- A packet is discarded at a port: counted and logged. -/
def Panel.fDiscard (p : Panel) (hub : Nat) (port : Option Nat) (ev : BitVec 16) : Panel :=
  let p := match port with
    | some i => p.addHold F.HJF_PORT_STATUS_discards 1 hub i
    | none => p.modFab hub fun f => { f with unported := f.unported + 1 }
  p.reportHubEdge hub ev clsInfo

/-- max_age_us in units of 1/32 ns; at or above the timeout it is the timeout less 1 µs (R422, R434). -/
def Panel.maxAge (p : Panel) : Nat :=
  let t := max 1 (p.fget F.HJF_CONFIG_timeout_us)
  let a := p.fget F.HJF_CONFIG_max_age_us
  (if t ≤ a then t - 1 else a) * 32000

/-! ### Pools (R413) -/

def poolCells : Nat := 196608
def inputReserve : Nat := 8192
def chanReserve : Nat := 65
def inputShare : Nat := 65536

/-- The packets in a hub's pool. -/
def Panel.pooled (p : Panel) (hub : Nat) : List Pooled := (p.fab4 hub).queues.flatMap (·.2)

def cellSum (l : List Pooled) : Nat := sumL (l.map fun x => fCells x.p)

/-- Cells in use in a hub's pool. -/
def Panel.fUsed (p : Panel) (hub : Nat) : Nat := cellSum (p.pooled hub)

/-- Active inputs: the ports that are not down, the network interface and the edge partner. -/
def Panel.fInputs (p : Panel) (hub : Nat) : Nat := 2 + (upTo 4 fun i => p.portState hub i != portDown).length

/-- Channel of a packet: its class and virtual channel (R414). -/
def fChan (k : FPacket) : Nat := k.tclass.toNat * 2 + b2n k.vc

/-- The credits a packet is sent with to an input of a hub's pool, and where it is charged: its channel's reserve, else the rest of the
input's reserve, else the input's share; none where it fits in none of them, and it waits (R413). -/
def Panel.fRoom (p : Panel) (hub input : Nat) (k : FPacket) : Option Pooled :=
  let l := p.pooled hub
  let mine := l.filter (·.input == input)
  let n := fCells k
  let used (count : Nat) : Nat := cellSum (mine.filter (·.count == count))
  if cellSum (mine.filter fun x => x.count == 0 && x.chan == fChan k) + n ≤ chanReserve then some ⟨k, input, fChan k, 0⟩
  else if used 1 + n ≤ inputReserve - 8 * chanReserve then some ⟨k, input, fChan k, 1⟩
  else if used 2 + n ≤ inputShare ∧
      cellSum (l.filter (·.count == 2)) + n ≤ poolCells - p.fInputs hub * inputReserve then some ⟨k, input, fChan k, 2⟩
  else none

/-! ### Credits of a link (R413) -/

/-- Cells in use of one of a link's counts: 0 to 7 a channel's reserve, 8 the rest of the reserve, 9 the share. -/
def Panel.linkUsed (p : Panel) (hub i c : Nat) : Nat := smGetD (p.fab4 hub).credit (i * 16 + c) 0

def Panel.linkSet (p : Panel) (hub i c n : Nat) : Panel :=
  p.modFab hub fun f => { f with credit := smPut f.credit 0 (i * 16 + c) n }

/-- The count that all of a packet's cells fit in; none where it must wait. -/
def Panel.linkCount (p : Panel) (hub i : Nat) (k : FPacket) : Option Nat :=
  let n := fCells k
  if p.linkUsed hub i (fChan k) + n ≤ chanReserve then some (fChan k)
  else if p.linkUsed hub i 8 + n ≤ inputReserve - 8 * chanReserve then some 8
  else if p.linkUsed hub i 9 + n ≤ inputShare then some 9
  else none

/-- Credits come back as the neighbour's pool lets packets go: how many is a free value (log 1). -/
def Panel.linkReturn (p : Panel) (hub i : Nat) : Panel :=
  (List.range 10).foldl (fun p c =>
    match p.linkUsed hub i c with
    | 0 => p
    | u => let (r, p) := p.draw (u + 1); p.linkSet hub i c (u - r)) p

/-- Every credit of a link is back. -/
def Panel.linkFresh (p : Panel) (hub i : Nat) : Panel :=
  p.modFab hub fun f => { f with credit := f.credit.filter fun e => e.1 / 16 != i }

def Panel.fHighWater (p : Panel) (hub : Nat) : Panel :=
  p.fput F.HJF_POOL_STATUS_high_water (max (p.fget F.HJF_POOL_STATUS_high_water hub) (p.fUsed hub)) hub

/-- HJF_POOL_STATUS as it reads. -/
def Panel.fPoolStatus (p : Panel) (hub : Nat) : W64 := F.HJF_POOL_STATUS_used.write (p.get .HJF_POOL_STATUS hub) (p.fUsed hub)

/-! ### Routing (R414, R415, R417) -/

/-- Field d of a coordinate: x, y, z (R407). -/
def coordDim (c : BitVec 12) (d : Nat) : Nat := bits c.toNat (11 - 4 * d) (8 - 4 * d)

/-- The route entry for a destination: the first dimension that differs (R415). -/
def Panel.fEntry (p : Panel) (dst : BitVec 12) : Option (Nat × Nat) :=
  ([0, 1, 2].find? fun d => coordDim dst d != coordDim p.coord d).map fun d => (d, coordDim dst d)

/-- The edge link between the two hubs of a zone, which makes their ports one plane (R18, R406). -/
def Panel.edgeJoined (p : Panel) (hub : Nat) : Bool := p.linkOk (120 + hub) 7

/-- Ports of the zone that an entry names and that are up or draining. -/
def Panel.fPorts (p : Panel) (hub : Nat) (e : Nat × Nat) : List Nat :=
  (upTo 8 (bit (p.fget F.HJF_ROUTE_ports hub e.1 e.2))).filter fun k =>
    let (h, i) := zonePort hub k
    (h == hub || p.edgeJoined hub) && (p.portState h i == portUp || p.portState h i == portDraining)

/-- A packet leaves through a port. To a packet of the panel's own, its first switch adds the residency it had there, which depends on
timing: a free value (R415, log 1); one that is too old is discarded (R422). -/
def Panel.fOut (p : Panel) (hub i : Nat) (k : FPacket) : Panel :=
  if k.srcCoord = p.coord then
    let (r, p) := p.draw (2 ^ 32)
    if p.maxAge < r then (p.addHold F.HJF_POOL_STATUS_age_discards 1 hub).fDiscard hub none 0x0704
    else p.emit (.fabric (hub * 4 + i) { k with residency := BitVec.ofNat 32 r })
  else p.emit (.fabric (hub * 4 + i) k)

/-- A packet is sent over a link on one of its counts. -/
def Panel.fLink (p : Panel) (hub i c : Nat) (k : FPacket) : Panel :=
  (p.linkSet hub i c (p.linkUsed hub i c + fCells k)).fOut hub i k

/-- Put a packet into a hub's pool under a key. -/
def Panel.fHold (p : Panel) (hub key : Nat) (x : Pooled) : Panel :=
  (p.modFab hub fun f => { f with queues := smSet f.queues key (smGetD f.queues key [] ++ [x]) }).fHighWater hub

/-- Queue a packet for an output port. A request or mirror packet is marked where the port's queue of its class holds more than mark_kib
(R424). -/
def Panel.enqueue (p : Panel) (hub i : Nat) (x : Pooled) : Panel :=
  let k := x.p
  let held := 64 * cellSum ((smGetD (p.fab4 hub).queues i []).filter (·.p.tclass == k.tclass))
  let mark := (k.tclass == 0 || k.tclass == 2) && decide (p.fget F.HJF_SILLAGE_mark_kib * 1024 < held)
  p.fHold hub i { x with p := { k with mark := k.mark || mark } }

/-- Credits of a channel at a port of the zone (R415; log 16). -/
def Panel.portCredits (p : Panel) (hub k chan : Nat) : Nat :=
  let (h, i) := zonePort hub k
  chanReserve - p.linkUsed h i chan

/-- Of ports in ascending order the one whose credits for a channel are highest, the lowest on a tie (R415). -/
def Panel.bestPort (p : Panel) (hub chan : Nat) (ks : List Nat) (q : Nat) : Nat :=
  ks.foldl (fun b k => if p.portCredits hub b chan < p.portCredits hub k chan then k else b) q

/-- Queue a packet for another panel. A control packet takes the lowest port of its mask and leaves at once; the others take
the port whose credits are highest. Each waits in its pool while that port drains, and one that is no control packet while the edge
partner that has the port has no room (R412, R413, R415, R417). False where no port is usable. -/
def Panel.fSend (p : Panel) (hub : Nat) (x : Pooled) : Panel × Bool :=
  match p.fEntry x.p.dstCoord with
  | none => (p, false)
  | some e =>
    let ports := p.fPorts hub e
    let up := x.p.vc || p.flag F.HJF_ROUTE_vc_up hub e.1 e.2
    let k := if up ≠ x.p.vc then
        (let y := { x.p with vc := up }; if fCheck x.p = x.p.check then sealCheck y else y) else x.p
    match ports with
    | [] => (p, false)
    | q :: l =>
      let (h, i) := zonePort hub (if k.tclass = 3 then q else p.bestPort hub (fChan k) l q)
      if p.portState h i = portDraining then (p.fHold hub 4 x, true)
      else if k.tclass = 3 then (p.fOut h i k, true)
      else
        if h = hub then (p.enqueue h i { x with p := k }, true)
        else
          match p.fRoom h 5 k with
          | some y => (p.enqueue h i y, true)
          | none => (p.fHold hub 5 x, true)

/-- A packet of the panel's own units enters the fabric, or waits until its hub's pool has room for it. False where no port is usable. -/
def Panel.fInject (p : Panel) (hub : Nat) (k : FPacket) : Panel × Bool :=
  match p.fEntry k.dstCoord with
  | none => (p, false)
  | some e =>
    if (p.fPorts hub e).isEmpty then (p, false)
    else if k.tclass = 3 then p.fSend hub ⟨k, 4, 6, 0⟩
    else
      match if (p.fab4 hub).ni.isEmpty then p.fRoom hub 4 k else none with
      | some x => p.fSend hub x
      | none => (p.modFab hub fun f => { f with ni := f.ni ++ [k] }, true)

/-- A packet that no port is left for is discarded and counted (R415), at the port it came over. -/
def Panel.fUnreachable (p : Panel) (hub input : Nat) : Panel := p.fDiscard hub (if input < 4 then some input else none) 0x0703

/-- Send every packet queued for a port, the credits coming back meanwhile. -/
def Panel.fFlush (p : Panel) (hub i : Nat) : Panel :=
  let q := smGetD (p.fab4 hub).queues i []
  let p := q.foldl (fun p x =>
    match p.linkCount hub i x.p with
    | some c => p.fLink hub i c x.p
    | none => (p.linkFresh hub i).fLink hub i (fChan x.p) x.p) p
  p.modFab hub fun f => { f with queues := smDel f.queues i }

/-- Route again the packets that waited under a key. -/
def Panel.fAgain (p : Panel) (hub key : Nat) : Panel :=
  let q := smGetD (p.fab4 hub).queues key []
  let p := p.modFab hub fun f => { f with queues := smDel f.queues key }
  q.foldl (fun p x => let (p, ok) := p.fSend hub x; if ok then p else p.fUnreachable hub x.input) p

/-- Route again the packets that waited for a swap (R417 step 4). -/
def Panel.fRelease (p : Panel) (hub : Nat) : Panel := p.fAgain hub 4

/-- A port sends the oldest packet of a channel that it has credits for; no channel waits for another (R413, R414). -/
def Panel.fChanTick (p : Panel) (hub i chan : Nat) : Panel :=
  let q := smGetD (p.fab4 hub).queues i []
  match q.find? fun x => fChan x.p == chan with
  | none => p
  | some x =>
    match p.linkCount hub i x.p with
    | none => p
    | some c => (p.modFab hub fun f => { f with queues := smPut f.queues [] i (q.erase x) }).fLink hub i c x.p

/-- Each port gets credits back, and sends the oldest packet of each of its channels. -/
def Panel.fPortsTick (p : Panel) : Panel :=
  (List.range 16).foldl (fun p g =>
    (List.range 8).foldl (fun p chan => p.fChanTick (g / 4) (g % 4) chan) (p.linkReturn (g / 4) (g % 4))) p

/-- The oldest packet of the panel's own units that a hub's pool has room for enters it. Outside SERVICE only answers are sent (R420,
R426). -/
def Panel.fNiTick (p : Panel) (hub : Nat) : Panel :=
  let may (k : FPacket) : Bool := k.tclass == 1 || p.fget F.PMC_STAGE_stage == 0xA
  if p.domain hub ≠ domForwarding then p
  else
    match (p.fab4 hub).ni.find? fun k => may k && (p.fRoom hub 4 k).isSome with
    | none => p
    | some k =>
      let p := p.modFab hub fun f => { f with ni := f.ni.erase k }
      match p.fRoom hub 4 k with
      | some x => let (p, ok) := p.fSend hub x; if ok then p else p.fUnreachable hub x.input
      | none => p

/-- What the switches do while no command waits (log 2). -/
def Panel.fTick (p : Panel) : Panel :=
  (List.range 4).foldl (fun p h => (p.fAgain h 5).fNiTick h) p.fPortsTick

/-- src_unit of a packet of the hub's switch and network interface, and of its mirror engine (R211, R410). -/
def unitSwitch : BitVec 5 := 27
def unitMirror : BitVec 5 := 26

/-- A packet of the panel's own units enters the fabric; where no port is usable it is discarded and counted. -/
def Panel.fStart (p : Panel) (hub : Nat) (k : FPacket) : Panel :=
  let (p', ok) := p.fInject hub k
  if ok then p' else p.fUnreachable hub 4

/-- A control message of the barrier unit, the mirror engine or the switch (R411). Its opcode-specific words have no layout
in the spec; the model names the channel in the tag and carries one number in addr (log 16). -/
def Panel.control (p : Panel) (dst : BitVec 12) (opcode : BitVec 6) (ch : Nat) (val : Nat) : FPacket :=
  sealCheck ⟨opcode, 3, false, false, false, false, dst, p.coord, 0, 0, unitSwitch, BitVec.ofNat 16 ch, 0, 0,
    BitVec.ofNat 56 val, 0, false, 0, 0, []⟩

/-- The barrier unit's hub: HD0, or HD3 when HD0 has no working fabric route (R305). -/
def Panel.barHub (p : Panel) (dst : BitVec 12) : Nat :=
  match p.fEntry dst with
  | some e => if p.hubUp 0 && p.domain 0 == domForwarding && !(p.fPorts 0 e).isEmpty then 0 else 3
  | none => 0

/-- The hub injects: its domain forwards and the panel is in SERVICE (R426, R427). -/
def Panel.mayInject (p : Panel) (hub : Nat) : Bool :=
  p.hubUp hub && p.domain hub == domForwarding && p.fget F.PMC_STAGE_stage == 0xA

/-- Send a control message of the barrier unit to another panel. -/
def Panel.sendControl (p : Panel) (dst : BitVec 12) (opcode : BitVec 6) (ch val : Nat) : Panel :=
  if p.mayInject (p.barHub dst) then p.fStart (p.barHub dst) (p.control dst opcode ch val) else p

end Sys2Proof.Machine
end

