-- ==== Sys2Proof/Machine/Barrier.lean ====
section
/-! DEFINITION. The intra-panel barrier network and extended barriers (R62, R302 to R306, R430, R431). -/

namespace Sys2Proof.Machine

def Panel.bar (p : Panel) (ch : Nat) : BarCh := smGetD p.bars ch .empty

def Panel.modBar (p : Panel) (ch : Nat) (f : BarCh → BarCh) : Panel :=
  { p with bars := smPut p.bars .empty ch (f (p.bar ch)) }

/-- Cores with an outstanding arrival on a channel see its generation released (R62, R303, R304). -/
def Panel.barDone (p : Panel) (ch : Nat) (f : Nat → Bool) : Panel :=
  { p with cores := p.cores.map fun e =>
      if smHas e.2.arrivals ch && f e.1 then (e.1, { e.2 with released := smSet e.2.released ch () }) else e }

/-- The generation advances; nobody has arrived in the next one. -/
def Panel.barNext (p : Panel) (ch : Nat) : Panel :=
  let p := p.addWrap F.HUB_BAR_STATUS_generation 1 0 ch
  let p := p.fput F.HUB_BAR_STATUS_arrived 0 0 ch
  let p := p.fput F.HUB_BAR_STATUS_ext_wait 0 0 ch
  p.modBar ch fun b => { b with arrived := [], panels := [], outside := false, releaseDue := false }

/-- Release the channel's generation to its members (R303). -/
def Panel.barReleaseLocal (p : Panel) (ch : Nat) : Panel :=
  let members := (p.bar ch).members
  (p.barDone ch members.contains).barNext ch

/-- Abort a channel: arrivals are cleared, the generation counts as released, and every wait on it completes, on members
and others alike (R304). -/
def Panel.barAbortChannel (p : Panel) (ch : Nat) : Panel :=
  ((p.barDone ch fun _ => true).barNext ch).fput F.HUB_BAR_STATUS_aborted 1 0 ch

/-! ### Extended channels (R305, R306) -/

def Panel.isRoot (p : Panel) (ch : Nat) : Bool := p.flag F.HUB_BAR_EXT_root 0 ch

def Panel.extended (p : Panel) (ch : Nat) : Bool := p.flag F.HUB_BAR_EXT_enable 0 ch

def Panel.rootCoord (p : Panel) (ch : Nat) : BitVec 12 := BitVec.ofNat 12 (p.fget F.HUB_BAR_EXT_root_coord 0 ch)

/-- The root has counted every member panel: it releases the generation, if every member has a delay (R305, R430). -/
def Panel.rootCheck (p : Panel) (ch : Nat) : Panel :=
  let b := p.bar ch
  if b.cal.ready && !b.releaseDue && decide (p.fget F.HUB_BAR_EXT_panels 0 ch ≤ b.panels.length) && b.outside then
    let p := (b.cal.joined).foldl (fun p c => p.sendControl (BitVec.ofNat 12 c) 0x1A ch 0) p
    p.modBar ch fun b => { b with releaseDue := true }
  else p

/-- Every local member has arrived: release, or tell the root and hold the local release (R303, R305). -/
def Panel.barComplete (p : Panel) (ch : Nat) : Panel :=
  if !p.extended ch then p.barReleaseLocal ch
  else
    let p := (p.modBar ch fun b => { b with outside := true }).fput F.HUB_BAR_STATUS_ext_wait 1 0 ch
    if p.isRoot ch then (p.modBar ch fun b => { b with panels := smSet b.panels p.coord.toNat () }).rootCheck ch
    else p.sendControl (p.rootCoord ch) 0x19 ch p.coord.toNat

/-- BARRIER_EXT_ABORT: the local channel is aborted and the abort logged (R306). -/
def Panel.extAbortLocal (p : Panel) (ch : Nat) : Panel :=
  (p.barAbortChannel ch).reportPanel p.primaryHub 0x0507 clsInfo (some ch)

/-- The root aborts an extended barrier on every member (R306). -/
def Panel.extAbort (p : Panel) (ch : Nat) : Panel :=
  let p := (p.bar ch).cal.joined.foldl (fun p c => p.sendControl (BitVec.ofNat 12 c) 0x1B ch 0) p
  p.extAbortLocal ch

/-! ### Calibration (R430) -/

/-- The guard G of R430 in units of 1/32 ns. -/
def calGuard : Nat := 2000 * 32

/-- Store a delay: whole hub cycles and a fraction. -/
def Panel.setDelay (p : Panel) (ch d : Nat) : Panel :=
  let p := p.fput F.HUB_BAR_EXT_delay_cycles (min 0xFFFF (d / 32)) 0 ch
  let p := p.fput F.HJF_BAR_CAL_delay_frac (d % 32) 0 ch
  p.addWrap F.HJF_BAR_CAL_calibrations 1 0 ch

/-- With an echo of every member, the root computes and sends the delays (R430 steps 3, 4). -/
def Panel.calFinish (p : Panel) (ch : Nat) : Panel :=
  let b := p.bar ch
  if b.cal.echoes.length + 1 < p.fget F.HUB_BAR_EXT_panels 0 ch then p
  else
    let wmax := b.cal.echoes.foldl (fun m e => max m e.2) 0
    let p := b.cal.echoes.foldl (fun p e => p.sendControl (BitVec.ofNat 12 e.1) 0x1E ch (wmax - e.2 + calGuard)) p
    let p := p.setDelay ch (wmax + calGuard)
    (p.modBar ch fun b => { b with cal := { b.cal with ready := true } }).rootCheck ch

/-- A calibration of an extended channel starts: a member announces itself, the root forgets earlier echoes. -/
def Panel.calibrate (p : Panel) (ch : Nat) : Panel :=
  if !p.extended ch then p
  else if p.isRoot ch then (p.modBar ch fun b => { b with cal := { b.cal with echoes := [] } }).calFinish ch
  else p.sendControl (p.rootCoord ch) 0x18 ch p.coord.toNat

/-! ### HUB_BAR_CONTROL (R302, R304) -/

/-- The members that the channel's registers name (R302). -/
def Panel.barMembers (p : Panel) (ch : Nat) : List Nat :=
  let cores := p.fget F.HUB_BAR_CORES_cores 0 ch
  (upTo 64 (bit (p.get .HUB_BAR_DIES 0 ch).toNat)).flatMap fun d => (upTo 16 (bit cores)).map (d * 16 + ·)

/-- Apply a channel's membership, or refuse: an arrival is outstanding, or a named die is absent (R302). -/
def Panel.barApply (p : Panel) (ch : Nat) : Panel :=
  let b := p.bar ch
  if !b.arrived.isEmpty || b.outside || (upTo 64 (bit (p.get .HUB_BAR_DIES 0 ch).toNat)).any (fun d => !p.hasDie d) then
    p.fput F.HUB_BAR_CONTROL_error 1
  else
    let ms := p.barMembers ch
    let p := p.fput F.HUB_BAR_CONTROL_error 0
    let p := p.fput F.HUB_BAR_STATUS_members ms.length 0 ch
    let p := p.fput F.HUB_BAR_STATUS_applied 1 0 ch
    (p.modBar ch fun b => { b with members := ms, cal := .empty }).calibrate ch

/-- A write of HUB_BAR_CONTROL: abort takes effect before apply (R304). -/
def Panel.barControl (p : Panel) (v : W64) : Panel :=
  let ch := F.HUB_BAR_CONTROL_channel.read v
  let p := p.store .HUB_BAR_CONTROL false v
  let p := if bit v.toNat F.HUB_BAR_CONTROL_abort.lo then p.barAbortChannel ch else p
  if bit v.toNat F.HUB_BAR_CONTROL_apply.lo then p.barApply ch else p

/-! ### Commands -/

/-- BARRIER_APPLY (R302): a write of HUB_BAR_CONTROL with apply set. -/
def execBarrierApply (src : Writer) (v : W64) (s : State) : Host.Outcome State Fault Refusal :=
  .next (s.upd fun p => p.asWriter src fun p => p.barControl (v ||| maskOf 0 0))

/-- BARRIER_ABORT (R304): a write of HUB_BAR_CONTROL with abort set. -/
def execBarrierAbort (src : Writer) (v : W64) (s : State) : Host.Outcome State Fault Refusal :=
  .next (s.upd fun p => p.asWriter src fun p => p.barControl (v ||| maskOf 1 1))

/-- BAR_ARRIVE_SIGNAL (R62, R302, R303): the engine classes are complete; the arrival is recorded, and counted where the core
is a member. A core that is not a member is logged. -/
def execBarArriveSignal (c : Nat) (s : State) : Host.Outcome State Fault Refusal :=
  .next (s.upd fun p =>
    let k := p.core c
    match k.blocked with
    | some (.barArrive ch) =>
      if !k.classesDone 0b1111 k.q.seq || p.asyncDue c then p
      else
        let g := BitVec.ofNat 16 (p.fget F.HUB_BAR_STATUS_generation 0 ch)
        let p := p.unblock c fun p => p.modCore c fun k =>
          { k with arrivals := smSet k.arrivals ch g, released := smDel k.released ch }
        if !smHas (p.core c).arrivals ch then p
        else if !(p.bar ch).members.contains c then
          let e := p.dieSite (c / 16)
          p.sendReport (p.reportHub (c / 16)) 0x0506 clsInfo lvDie 2 (BitVec.ofNat 8 e)
            (BitVec.ofNat 8 (c / 8 % 2 * 9 + p.coreSite c)) none none
        else
          let p := p.modBar ch fun b => { b with arrived := smSet b.arrived c () }
          let n := (p.bar ch).arrived.length
          let p := p.fput F.HUB_BAR_STATUS_arrived n 0 ch
          if n = (p.bar ch).members.length then p.barComplete ch else p
    | _ => p)

/-- BAR_ARRIVE of the fabric (R305): the root counts a member panel's arrival. -/
def execFabricBarArrive (ch : Nat) (coord : BitVec 12) (s : State) : Host.Outcome State Fault Refusal :=
  .next (s.upd fun p =>
    if p.extended ch && p.isRoot ch then
      (p.modBar ch fun b => { b with panels := smSet b.panels coord.toNat () }).rootCheck ch
    else p)

/-- BAR_RELEASE (R305, R431): a member waits its delay less the residency; a later release acts at once and is logged. -/
def execBarRelease (ch : Nat) (residency : BitVec 32) (s : State) : Host.Outcome State Fault Refusal :=
  .next (s.upd fun p =>
    if !p.extended ch || !(p.bar ch).outside then p
    else if p.fget F.HUB_BAR_EXT_delay_cycles 0 ch * 32 + p.fget F.HJF_BAR_CAL_delay_frac 0 ch < residency.toNat then
      ((p.barReleaseLocal ch).addHold F.HJF_BAR_CAL_late_releases 1 0 ch).reportPanel p.primaryHub 0x0708 clsInfo (some ch)
    else p.modBar ch fun b => { b with releaseDue := true })

/-- BAR_RELEASE_DELAY_EXPIRE (R305, R431). -/
def execBarReleaseDelayExpire (ch : Nat) (s : State) : Host.Outcome State Fault Refusal :=
  .next (s.upd fun p => if (p.bar ch).releaseDue then p.barReleaseLocal ch else p)

/-- The root has not counted every member panel (R305, R306). -/
def Panel.uncounted (p : Panel) (ch : Nat) : Bool := decide ((p.bar ch).panels.length < p.fget F.HUB_BAR_EXT_panels 0 ch)

/-- EXT_BARRIER_TIMEOUT (R306): the root's own arrival is in and not every member's. -/
def execExtBarrierTimeout (ch : Nat) (s : State) : Host.Outcome State Fault Refusal :=
  .next (s.upd fun p =>
    let b := p.bar ch
    if p.extended ch && p.isRoot ch && b.outside && p.uncounted ch then p.extAbort ch else p)

/-- BAR_ABORT (R306): a member receives the root's abort. -/
def execBarAbort (ch : Nat) (s : State) : Host.Outcome State Fault Refusal :=
  .next (s.upd fun p => if p.extended ch && decide (ch < 16) then p.extAbortLocal ch else p)

/-- EXT_BARRIER_SELF_ABORT (R306): a member that heard neither a release nor an abort. -/
def execExtBarrierSelfAbort (ch : Nat) (s : State) : Host.Outcome State Fault Refusal :=
  .next (s.upd fun p =>
    let b := p.bar ch
    if p.extended ch && !p.isRoot ch && b.outside && !b.releaseDue then p.extAbortLocal ch else p)

/-- BAR_JOIN (R430): the root probes a member that has announced itself. -/
def execBarJoin (ch : Nat) (coord : BitVec 12) (s : State) : Host.Outcome State Fault Refusal :=
  .next (s.upd fun p =>
    if p.extended ch && p.isRoot ch then
      (p.modBar ch fun b => { b with cal := { b.cal with joined := insertAsc b.cal.joined coord.toNat } }).sendControl
        coord 0x1C ch 0
    else p)

/-- CAL_PROBE (R430): a member answers at once with the residency the probe collected. -/
def execCalProbe (ch : Nat) (residency : BitVec 32) (s : State) : Host.Outcome State Fault Refusal :=
  .next (s.upd fun p =>
    if p.extended ch && !p.isRoot ch then p.sendControl (p.rootCoord ch) 0x1D ch residency.toNat else p)

/-- CAL_ECHO (R430): the wire latency of a member, times in units of 1/32 ns. -/
def execCalEcho (ch : Nat) (coord : BitVec 12) (roundTrip : Nat) (rOut rBack : BitVec 32) (s : State) :
    Host.Outcome State Fault Refusal :=
  .next (s.upd fun p =>
    if p.extended ch && p.isRoot ch && (p.bar ch).cal.joined.contains coord.toNat then
      (p.modBar ch fun b => { b with cal := { b.cal with
        echoes := smSet b.cal.echoes coord.toNat ((roundTrip - rOut.toNat - rBack.toNat) / 2) } }).calFinish ch
    else p)

/-- CAL_DELAY (R430): a member stores its delay. -/
def execCalDelay (ch : Nat) (delay : Nat) (s : State) : Host.Outcome State Fault Refusal :=
  .next (s.upd fun p => if p.extended ch && !p.isRoot ch then p.setDelay ch delay else p)

/-- CALIBRATION_TIMER (R430): calibration runs again. -/
def execCalibrationTimer (ch : Nat) (s : State) : Host.Outcome State Fault Refusal :=
  .next (s.upd fun p => if p.flag F.HUB_BAR_STATUS_applied 0 ch then p.calibrate ch else p)

end Sys2Proof.Machine
end

