-- ==== Sys2Proof/Machine/Serve.lean ====
section
/-! DEFINITION. The decisions of the request engine (chapter 09) as functions of the engine's state, its configuration and
its inputs (R247): pages (R252, R253), applying inputs and cold moves (R250, R271), forming a step (R256, R257), checking
results (R262) and committing them (R265). The active engine, the standby, a replay and the guest store all use them. -/

namespace Sys2Proof.Machine

/-! ### Configuration and policy -/

/-- The configuration the decisions depend on (R252, R255, R270, R385). -/
structure RqeCfg where
  pages : Nat
  guestFirst : Nat
  guestCount : Nat
  tpg : Nat
  ppg : Nat
  maxPages : Nat
  /-- cold slots of both hosts -/
  slots : Nat
  deriving DecidableEq, Repr

/-- Pages that cover positions 0 to t − 1 (R252). -/
def RqeCfg.pagesFor (g : RqeCfg) (t : Nat) : Nat := (t + g.tpg - 1) / g.tpg * g.ppg

def RqeCfg.maxPos (g : RqeCfg) : Nat := g.maxPages / g.ppg * g.tpg

def RqeCfg.isGuest (g : RqeCfg) (pg : Nat) : Bool :=
  decide (g.guestFirst ≤ pg) && decide (pg < g.guestFirst + g.guestCount)

/-- Pages that can ever be free: those of the area outside the guest range (R253). -/
def RqeCfg.own (g : RqeCfg) : Nat :=
  g.pages - (min g.pages (g.guestFirst + g.guestCount) - min g.pages g.guestFirst)

/-- Place of a policy register in `Engine.policy`: RQE_BATCH, RQE_STEP_CONFIG, RQE_KV_CONFIG, RQE_PRIO_0 to 7. -/
def policyIndex (off : Nat) : Option Nat :=
  if off = 0x18 then some 0 else if off = 0x88 then some 1 else if off = 0x68 then some 2
  else if 0x20 ≤ off ∧ off < 0x60 ∧ off % 8 = 0 then some (3 + (off - 0x20) / 8) else none

def Engine.pol (e : Engine) (i : Nat) (f : RField) : Nat := f.read (e.policy.getD i 0)

/-- RQE_BATCH.max_seqs, with 0 treated as 1 and more than 4,096 as 4,096 (R277). -/
def Engine.maxSeqs (e : Engine) : Nat := min 4096 (max 1 (e.pol 0 F.RQE_BATCH_max_seqs))
def Engine.budget (e : Engine) : Nat := max 1 (e.pol 0 F.RQE_BATCH_token_budget)
def Engine.chunk (e : Engine) : Nat := min 4096 (max 1 (e.pol 0 F.RQE_BATCH_chunk_tokens))
def Engine.maxSkip (e : Engine) : Nat := max 1 (e.pol 0 F.RQE_BATCH_max_skip)
def Engine.coldLag (e : Engine) : Nat := max 1 (e.pol 1 F.RQE_STEP_CONFIG_cold_lag)
def Engine.maxRetries (e : Engine) : Nat := e.pol 1 F.RQE_STEP_CONFIG_max_retries
def Engine.reserve (e : Engine) : Nat := e.pol 2 F.RQE_KV_CONFIG_reserve
def Engine.admits (e : Engine) (prio : Nat) : Bool := e.pol (3 + prio) F.RQE_PRIO_admit_enable == 1
def Engine.draftCap (e : Engine) (prio : Nat) : Nat := e.pol (3 + prio) F.RQE_PRIO_draft_cap

/-! ### Contexts and pages -/

def ctxWaiting : BitVec 3 := 1
def ctxPrefill : BitVec 3 := 2
def ctxDecode : BitVec 3 := 3
def ctxColdOut : BitVec 3 := 4
def ctxPreempted : BitVec 3 := 5
def ctxColdIn : BitVec 3 := 6

def ctxActive (c : CtxRec) : Bool := c.state == ctxDecode || c.state == ctxPrefill

/-- Pages a request holds, in HBM or in cold slots. -/
def ctxHeld (c : CtxRec) : Nat := if c.state = ctxPreempted then c.coldSlots.length else c.pages.length

/-- The rank of R256 and R257: priority, then an order of arrival. -/
def rank (prio seq : Nat) : Nat := prio * 2 ^ 64 + seq

/-- Insert by key, after entries of an equal key. -/
def insertBy (key : Nat → Nat) (x : Nat) : List Nat → List Nat
  | [] => [x]
  | y :: l => if key x < key y then x :: y :: l else y :: insertBy key x l

def sortBy (key : Nat → Nat) (l : List Nat) : List Nat := l.foldl (fun acc x => insertBy key x acc) []

def Engine.modCtx (e : Engine) (c : Nat) (f : CtxRec → CtxRec) : Engine :=
  match smGet e.ctxs c with
  | some x => { e with ctxs := smSet e.ctxs c (f x) }
  | none => e

/-- Contexts that satisfy f, by a key, then by number. -/
def Engine.order (e : Engine) (f : CtxRec → Bool) (key : CtxRec → Nat) : List Nat :=
  let l := (e.ctxs.filter fun x => f x.2).map (·.1)
  sortBy (fun c => match smGet e.ctxs c with | some x => key x | none => 0) l

def Engine.free (e : Engine) (g : RqeCfg) : Nat := g.own - e.used.length

/-- The k lowest-numbered free pages from page x on, given the pages in use from there, ascending. -/
def lowestFree (g : RqeCfg) : Nat → Nat → Nat → List Nat → List Nat
  | 0, _, _, _ => []
  | fuel + 1, k, x, used =>
    if k = 0 ∨ g.pages ≤ x then []
    else if g.isGuest x then lowestFree g fuel k (g.guestFirst + g.guestCount) used
    else
      match used with
      | [] => x :: lowestFree g fuel (k - 1) (x + 1) []
      | u :: us =>
        if u < x then lowestFree g fuel k x us
        else if u = x then lowestFree g fuel k (x + 1) us
        else x :: lowestFree g fuel (k - 1) (x + 1) (u :: us)

/-- The pages an allocation of k pages takes (R253). -/
def Engine.lowest (e : Engine) (g : RqeCfg) (k : Nat) : List Nat :=
  lowestFree g (k + 2 * e.used.length + 2) k 0 e.used

def Engine.take (e : Engine) (pgs : List Nat) : Engine := { e with used := pgs.foldl insertAsc e.used }

/-- Free pages: a page of the guest range goes back there and not to the bitmap; hot copies of freed pages leave every
map (R253, R265, R392). -/
def Engine.release (e : Engine) (pgs : List Nat) : Engine :=
  if pgs.isEmpty then e
  else
    { e with
      used := e.used.filter fun x => !pgs.contains x
      hot := e.hot.map fun h => (h.1, ⟨h.2.map.filter fun m => !pgs.contains m.1, h.2.moves.filter fun m => !pgs.contains m.1⟩) }

/-- The lowest k free cold slots (R270). -/
def Engine.freeSlots (e : Engine) (g : RqeCfg) (k : Nat) : List Nat :=
  let held := e.ctxs.flatMap fun x => x.2.coldSlots
  ((List.range (min g.slots (held.length + k))).filter fun s => !held.contains s).take k

/-- The lowest-numbered FREE context (R250). -/
def Engine.freeCtx (e : Engine) : Option Nat :=
  (List.range (min 65536 (e.ctxs.length + 1))).find? fun c => !smHas e.ctxs c

/-- A host's live request with a tag. -/
def Engine.findTag (e : Engine) (host : Bool) (tag : W64) : Option Nat :=
  (e.ctxs.find? fun x => x.2.host == host && x.2.tag == tag && !x.2.imported).map (·.1)

/-- A tag names a live request of the host, or a submission taken and not yet applied. -/
def Engine.tagLive (e : Engine) (host : Bool) (tag : W64) : Bool :=
  (e.findTag host tag).isSome || e.inputs.any fun i =>
    match i with
    | .intake h _ _ en _ => h == host && en.getD 1 0 == tag
    | _ => false

/-- An input as it takes effect: a submission with its context, a cancellation with the context of its request; none where a
submission finds no FREE context or a cancellation no live request (R250, R442). -/
def Engine.resolve (e : Engine) (i : RqeInput) : Option RqeInput :=
  match i with
  | .intake h q _ en pr => e.freeCtx.map fun c => .intake h q c en pr
  | .cancel h q _ tag => (e.findTag h tag).map fun c => .cancel h q c tag
  | i => some i

/-! ### Completions -/

/-- Reasons of R443. -/
def rsnNone : Nat := 0
def rsnLength : Nat := 4
def rsnCancelled : Nat := 5
def rsnKvLost : Nat := 6
def rsnServiceLost : Nat := 7
def rsnRejected : Nat := 8
def rsnNotFound : Nat := 9

def ctxCompletion (c : CtxRec) (tokens : List W32) (reason : Nat) : Completion :=
  ⟨c.ctx, c.host, c.cq.toNat, c.tag, tokens, c.emitted, reason, c.origin, c.imported⟩

/-- Word 0 without its phase bit, then the tag and up to four tokens (R443). -/
def Completion.entry (x : Completion) (index : Nat) (toks : List W32) (reason : Nat) : Entry :=
  let t (j : Nat) : Nat := (toks.getD j 0).toNat
  [BitVec.ofNat 64 (toks.length * 2 ^ 60 + reason * 2 ^ 56 + x.origin.toNat * 2 ^ 44 + b2n x.imported * 2 ^ 43 +
      x.ctx * 2 ^ 27 + index % 2 ^ 24),
   x.tag, BitVec.ofNat 64 (t 0 + t 1 * 2 ^ 32), BitVec.ofNat 64 (t 2 + t 3 * 2 ^ 32)]

/-- The entries of a completion: up to four tokens each, the reason in the last (R444). -/
def Completion.entries (x : Completion) : List Entry :=
  if x.tokens.length ≤ 4 then [x.entry x.index x.tokens x.reason]
  else [x.entry x.index (x.tokens.take 4) 0, x.entry (x.index + 4) (x.tokens.drop 4) x.reason]

/-- End a request: its pages, its slots and its context are freed, and one completion gives the reason (R253, R265). -/
def Engine.finish (e : Engine) (c : Nat) (tokens : List W32) (reason : Nat) : Engine × List Completion :=
  match smGet e.ctxs c with
  | none => (e, [])
  | some x =>
    ({ (e.release x.pages) with ctxs := smDel e.ctxs c, cold := e.cold.filter (·.ctx != c)
                                deferred := e.deferred.filter (· != c) }, [ctxCompletion x tokens reason])

/-! ### Inputs and cold moves (R250, R271) -/

/-- A new context from a submission entry (R250, R441). -/
def newCtx (host : Bool) (queue : BitVec 6) (c : Nat) (en : Entry) (prompt : List W32) (seq : Nat) : CtxRec :=
  let w0 := (en.getD 0 0).toNat
  { ctx := c, state := ctxWaiting, host := host, queue := queue, cq := BitVec.ofNat 6 (bits w0 55 50)
    tag := en.getD 1 0, prio := BitVec.ofNat 3 (bits w0 49 47), draftDepth := BitVec.ofNat 3 (bits w0 46 44)
    seed := en.getD 2 0, maxNew := BitVec.ofNat 32 (en.getD 4 0).toNat, promptLen := bits w0 31 0, tail := 0
    keyStep := 0, skips := 0, intakeSeq := seq, admitSeq := 0, pages := [], emitted := 0, tokens := prompt
    coldSlots := [], wasDecode := false, origin := 0, imported := false }

/-- A request leaves for the partner: its pages and its context are free (R391, R394). -/
def Engine.depart (e : Engine) (c : Nat) : Engine :=
  match smGet e.ctxs c with
  | some x => { (e.release x.pages) with ctxs := smDel e.ctxs c, cold := e.cold.filter (·.ctx != c)
                                         deferred := e.deferred.filter (· != c) }
  | none => e

/-- Apply an input (R250, R271, R277). A COLD_FAIL input acts where its move is applied. -/
def Engine.applyInput (e : Engine) (i : RqeInput) : Engine × List Completion :=
  match i with
  | .intake h q c en pr =>
    ({ e with ctxs := smSet e.ctxs c (newCtx h q c en pr e.nextIntake), nextIntake := e.nextIntake + 1 }, [])
  | .cancel h _ c tag =>
    match smGet e.ctxs c with
    | none => (e, [])
    | some x =>
      if x.host ≠ h ∨ x.tag ≠ tag then (e, [])
      else if x.state = ctxColdOut ∨ x.state = ctxColdIn then ({ e with deferred := e.deferred ++ [c] }, [])
      else e.finish c [] rsnCancelled
  | .policy _ off _ r =>
    match policyIndex off.toNat with
    | some k => ({ e with policy := e.policy.set k r }, [])
    | none => (e, [])
  | .coldFail .. => (e, [])
  | .adopt x own =>
    ({ (e.take own) with ctxs := smSet e.ctxs x.ctx x, nextAdmit := e.nextAdmit + 1, nextIntake := e.nextIntake + 1 }, [])
  | .depart cs => (cs.foldl Engine.depart e, [])

/-- State a request returns to when a move ends (R271). -/
def ctxFormer (c : CtxRec) : BitVec 3 := if c.wasDecode then ctxDecode else ctxPrefill

/-- Apply a cold move that is due (R271). -/
def Engine.applyMove (e : Engine) (m : ColdMove) (failed : Bool) : Engine × List Completion :=
  let e := { e with cold := e.cold.filter (·.ctx != m.ctx) }
  let (e, cs) : Engine × List Completion :=
    match m.copyIn, failed with
    | false, false =>
      ((e.release m.pages).modCtx m.ctx fun x => { x with state := ctxPreempted, pages := [] }, [])
    | false, true => (e.modCtx m.ctx fun x => { x with state := ctxFormer x, coldSlots := [] }, [])
    | true, false => (e.modCtx m.ctx fun x => { x with state := ctxFormer x, coldSlots := [] }, [])
    | true, true => e.finish m.ctx [] rsnKvLost
  if e.deferred.contains m.ctx then
    let (e, cs') := e.finish m.ctx [] rsnCancelled
    (e, cs ++ cs')
  else (e, cs)

/-- Moves to apply at the formation of step n, oldest first. -/
def Engine.due (e : Engine) (n : Nat) : List ColdMove := e.cold.filter fun m => decide (m.applyStep ≤ n)

/-- apply_cold(n), with the contexts whose move failed (R256, R271). -/
def Engine.applyCold (e : Engine) (n : Nat) (failed : List Nat) : Engine × List Completion :=
  (e.due n).foldl (fun acc m =>
    let (e, cs) := acc.1.applyMove m (failed.contains m.ctx)
    (e, acc.2 ++ cs)) (e, [])

/-! ### Forming a step (R256, R257) -/

structure Forming where
  e : Engine
  seqs : List SeqEntry
  tokens : Nat
  alloc : List (Nat × Nat × List Nat)
  preempted : Nat

/-- Allocate k pages to a context (R253). -/
def Forming.allocate (f : Forming) (g : RqeCfg) (c k : Nat) : Forming :=
  if k = 0 then f
  else
    let pgs := f.e.lowest g k
    let old := match smGet f.e.ctxs c with | some x => x.pages.length | none => 0
    { f with e := (f.e.take pgs).modCtx c fun x => { x with pages := x.pages ++ pgs }
             alloc := f.alloc ++ [(c, old, pgs)] }

/-- skip(r) of R256. -/
def Forming.skip (f : Forming) (x : CtxRec) : Forming :=
  if x.state = ctxWaiting then f else { f with e := f.e.modCtx x.ctx fun x => { x with skips := x.skips + 1 } }

/-- preempt_for(r) of R257. -/
def Forming.preemptFor (f : Forming) (g : RqeCfg) (n : Nat) (r : CtxRec) : Forming :=
  let cand := f.e.order (fun x => ctxActive x && !(f.seqs.any (·.ctx == x.ctx)) && decide (r.prio.toNat < x.prio.toNat))
    fun x => rank x.prio.toNat x.admitSeq
  match cand.getLast? with
  | none => f
  | some v =>
    match smGet f.e.ctxs v with
    | none => f
    | some x =>
      let slots := f.e.freeSlots g x.pages.length
      if slots.length < x.pages.length then f
      else
        { f with
          e := { (f.e.modCtx v fun x => { x with state := ctxColdOut, wasDecode := x.state == ctxDecode, coldSlots := slots })
                 with cold := f.e.cold ++ [⟨v, false, slots, x.pages, n + f.e.coldLag, none, false, 0⟩] }
          preempted := f.preempted + 1 }

/-- place(r, kind, ntok, may_use_reserve) of R256. -/
def Forming.place (f : Forming) (g : RqeCfg) (n : Nat) (r : CtxRec) (kind : BitVec 2) (ntok : Int) (reserve : Bool) :
    Forming :=
  if f.seqs.length = f.e.maxSeqs ∨ ntok < 1 then f.skip r
  else
    let k := ntok.toNat
    let need := g.pagesFor (r.tail + k) - r.pages.length
    let avail := f.e.free g - if reserve then 0 else f.e.reserve
    if avail < need then (f.preemptFor g n r).skip r
    else
      let f := f.allocate g r.ctx need
      let kind := if kind = 1 ∧ r.tail + k = r.promptLen then 2 else kind
      let held := r.pages.length + need
      let s : SeqEntry :=
        ⟨r.ctx, kind, r.tail, k, if kind = 0 then k - 1 else 0, r.prio, held, r.seed, r.keyStep⟩
      let f := { f with seqs := f.seqs ++ [s], tokens := f.tokens + k
                        e := f.e.modCtx r.ctx fun x => { x with skips := 0 } }
      if r.state = ctxWaiting then
        { f with e := { (f.e.modCtx r.ctx fun x => { x with state := ctxPrefill, admitSeq := f.e.nextAdmit })
                        with nextAdmit := f.e.nextAdmit + 1 } }
      else f

/-- start_cold_in(r): pages are allocated and the slots are copied back into them (R270). -/
def Forming.coldIn (f : Forming) (g : RqeCfg) (n : Nat) (r : CtxRec) : Forming :=
  let f := f.allocate g r.ctx (ctxHeld r)
  let pgs := match smGet f.e.ctxs r.ctx with | some x => x.pages | none => []
  { f with e := { (f.e.modCtx r.ctx fun x => { x with state := ctxColdIn })
                  with cold := f.e.cold ++ [⟨r.ctx, true, r.coldSlots, pgs, n + f.e.coldLag, none, false, 0⟩] } }

/-- Visit contexts in an order, each as it stands when its turn comes. -/
def Forming.each (f : Forming) (l : List Nat) (step : Forming → CtxRec → Forming) : Forming :=
  l.foldl (fun f c => match smGet f.e.ctxs c with | some r => step f r | none => f) f

/-- eff_prio(r) of R256. -/
def Engine.effPrio (e : Engine) (r : CtxRec) : Nat := if e.maxSkip ≤ r.skips then 0 else r.prio.toNat

/-- The loops of R256 over the contexts, after the inputs and the cold moves have been applied. -/
def Engine.form (e : Engine) (g : RqeCfg) (n : Nat) : Forming :=
  let budget : Int := e.budget
  let f : Forming := ⟨e, [], 0, [], 0⟩
  let f := f.each (f.e.order (fun x => x.state == ctxDecode) fun x => rank (f.e.effPrio x) x.admitSeq) fun f r =>
    if r.state ≠ ctxDecode then f
    else
      let d : Int := min (min (r.draftDepth.toNat : Int) (f.e.draftCap r.prio.toNat))
        (min (budget - f.tokens - 1) ((g.maxPos : Int) - r.tail - 1))
      f.place g n r 0 (1 + d) true
  let f := f.each (f.e.order (fun x => x.state == ctxPrefill) fun x => rank (f.e.effPrio x) x.admitSeq) fun f r =>
    if r.state ≠ ctxPrefill then f
    else f.place g n r 1 (min (min ((r.promptLen : Int) - r.tail) f.e.chunk) (budget - f.tokens)) true
  let f := f.each (f.e.order (fun x => x.state == ctxPreempted) fun x => rank x.prio.toNat x.admitSeq) fun f r =>
    if f.e.admits r.prio.toNat ∧ f.e.reserve + ctxHeld r ≤ f.e.free g then f.coldIn g n r else f
  f.each (f.e.order (fun x => x.state == ctxWaiting) fun x => rank x.prio.toNat x.intakeSeq) fun f r =>
    if f.e.admits r.prio.toNat then
      f.place g n r 1 (min (min (r.promptLen : Int) f.e.chunk) (budget - f.tokens)) false
    else f

/-! ### Results and commit (R262, R265) -/

/-- A record is valid for its entry (R262). A reserved stop code agrees with no row of the table (DEDUCED, log 14). -/
def resultValid (r : Result) (s : SeqEntry) (step : Nat) : Bool :=
  decide (r.ctx.toNat = s.ctx) && decide (r.step.toNat = step % 2 ^ 48) && decide (r.stop.toNat < 4) &&
    (if s.kind = 0 then decide (r.accept.toNat ≤ s.depth) && decide (r.nEmit.toNat = r.accept.toNat + 1)
     else if s.kind = 1 then decide (r.accept = 0) && decide (r.nEmit = 0) && (r.stop == 0 || r.stop == 3)
     else decide (r.accept = 0) && decide (r.nEmit = 1))

/-- A token to be written to a token log: context, position, token. -/
abbrev LogWrite := Nat × Nat × W32

/-- Commit one sequence (R265). A token cut off by the maximum takes its stop code with it (DEDUCED, log 14). -/
def Engine.commitSeq (e : Engine) (g : RqeCfg) (s : SeqEntry) (r : Result) : Engine × List Completion × List LogWrite :=
  match smGet e.ctxs s.ctx with
  | none => (e, [], [])
  | some x =>
    let c := if s.kind = 0 then 1 + r.accept.toNat else s.ntok
    let nEmit := if r.stop = 3 then 0 else r.nEmit.toNat
    let toks := (r.tokens.take nEmit).take (x.maxNew.toNat - x.emitted)
    let cut := decide (toks.length < nEmit)
    let tail := s.pos + c
    let first := tail + 1 - r.nEmit.toNat
    let logs := ((toks.zipIdx first).filter fun t => decide (t.2 < g.maxPos)).map fun t => (s.ctx, t.2, t.1)
    let keep := g.pagesFor tail
    let e := e.release (x.pages.drop keep)
    let y := { x with tail := tail, keyStep := x.keyStep + 1, pages := x.pages.take keep, tokens := x.tokens ++ toks
                      state := if s.kind = 2 then ctxDecode else x.state }
    let e := { e with ctxs := smSet e.ctxs s.ctx y }
    let reason :=
      if r.stop ≠ 0 ∧ !cut then r.stop.toNat
      else if x.maxNew.toNat ≤ x.emitted + toks.length ∨ g.maxPos ≤ tail + 1 ∨ cut then rsnLength else rsnNone
    if reason ≠ rsnNone then
      let (e, cs) := e.finish s.ctx toks reason
      (e, cs, logs)
    else
      let cs := if toks.isEmpty then [] else [ctxCompletion y toks 0]
      (e.modCtx s.ctx fun z => { z with emitted := z.emitted + toks.length }, cs, logs)

/-- Commit a step: every sequence in mailbox order (R265, R266). -/
def Engine.commit (e : Engine) (g : RqeCfg) (seqs : List SeqEntry) (rs : List Result) :
    Engine × List Completion × List LogWrite :=
  (seqs.zip rs).foldl (fun acc x =>
    let (e, cs, ls) := acc.1.commitSeq g x.1 x.2
    (e, acc.2.1 ++ cs, acc.2.2 ++ ls)) (e, [], [])

/-- One step of an engine that follows another by its journal: inputs, cold moves, formation and commit (R247, R274). With the engine
come the completions and tokens of the commit. -/
def Engine.follow (e : Engine) (g : RqeCfg) (n : Nat) (ins : List RqeInput) (rs : List Result) :
    Engine × List Completion × List LogWrite :=
  let e := ins.foldl (fun e i => (e.applyInput i).1) e
  let failed := ins.filterMap fun i => match i with | .coldFail _ c => some c | _ => none
  let e := (e.applyCold n failed).1
  let f := e.form g n
  f.e.commit g f.seqs rs

end Sys2Proof.Machine
end

