-- ==== Sys2Proof/Machine/HostQ.lean ====
section
/-! DEFINITION. The host ports' shared operations (chapter 15, R512, R513): vectors and events, completion queues and the
completion store, submission heads, host memory regions. -/

namespace Sys2Proof.Machine

def Panel.port (p : Panel) (host : Bool) : Port := if host then p.portB else p.portA

def Panel.modPort (p : Panel) (host : Bool) (f : Port → Port) : Panel :=
  if host then { p with portB := f p.portB } else { p with portA := f p.portA }

/-- The port's link is trained, and its function is in D0 (R435, R447). -/
def Panel.linkServes (p : Panel) (host : Bool) : Bool := p.flag F.PCI_PORT_STATUS_link_up (portHub host) && !(p.port host).d3hot

/-- The port's hub answers, its link serves and bus mastering is on (R445, R447). -/
def Panel.portLive (p : Panel) (host : Bool) : Bool :=
  p.hubUp (portHub host) && p.linkServes host && p.flag F.PCI_PORT_STATUS_bus_master (portHub host)

/-! ### Vectors (R448, R513) -/

/-- Word w of MSI-X table entry v; the mask bit of a vector is set until software clears it (PRESUMED, log 15). -/
def Port.msixWord (x : Port) (v w : Nat) : W64 := smGetD x.msix (2 * v + w) (if w = 1 then maskOf 32 32 else 0)

def Port.masked (x : Port) (v : Nat) : Bool := bit (x.msixWord v 1).toNat 32

/-- Send a vector, or set its pending bit where it is masked or the port cannot send (R513). -/
def Panel.sendVector (p : Panel) (host : Bool) (v : Nat) : Panel :=
  if p.portLive host && !(p.port host).masked v then
    let p := p.emit (.msix host v)
    if v = 0 then p.addWrap F.PCI_EVENT_COUNT_sent 1 (portHub host) else p
  else p.modPort host fun x => { x with pba := smSet x.pba v () }

/-- Send the pending vectors that can now be sent. -/
def Panel.flushVectors (p : Panel) (host : Bool) : Panel :=
  (p.port host).pba.foldl (fun p e =>
    if p.portLive host && !(p.port host).masked e.1 then
      (p.modPort host fun x => { x with pba := smDel x.pba e.1 }).sendVector host e.1
    else p) p

/-- An event of vector 0 at one port, counted in PCI_EVENT_COUNT (R512, R513). -/
def Panel.hostEvent (p : Panel) (host : Bool) (count : RField) : Panel :=
  if p.hubUp (portHub host) then (p.addWrap count 1 (portHub host)).sendVector host 0 else p

/-- An event of vector 0 at both ports. -/
def Panel.bothHosts (p : Panel) (count : RField) : Panel := (p.hostEvent false count).hostEvent true count

/-! ### The holder of the control lease (R439) -/

def leaseNone : Nat := 0

/-- The holder changes: counted, and an event on both ports' vector 0 (R439, R512). -/
def Panel.setHolder (p : Panel) (h : Nat) : Panel :=
  let p := p.fput F.PCI_LEASE_holder h
  let p := p.addWrap F.PCI_LEASE_transfers 1
  let p := p.fput F.PCI_LEASE_remaining_ms (if h = leaseNone then 0 else 1000)
  p.bothHosts F.PCI_EVENT_COUNT_lease_changes

/-- At bring-up no host holds the lease (R439). -/
def Panel.dropLease (p : Panel) : Panel := if p.fget F.PCI_LEASE_holder = leaseNone then p else p.setHolder leaseNone

/-! ### The engines -/

def roleOff : Nat := 0
def roleActive : Nat := 1
def roleStandby : Nat := 2
def roleStopped : Nat := 3
def roleFailed : Nat := 4

def Panel.role (p : Panel) (hub : Nat) : Nat := p.fget F.RQE_STATUS_role hub

def Panel.setRole (p : Panel) (hub r : Nat) : Panel := p.fput F.RQE_STATUS_role r hub

/-- Hub of the active engine. -/
def Panel.activeHub (p : Panel) : Option Nat :=
  if p.role 0 = roleActive then some 0 else if p.role 3 = roleActive then some 3 else none

def Panel.eng (p : Panel) (hub : Nat) : Engine := if hub = 3 then p.eng3 else p.eng0

def Panel.setEng (p : Panel) (hub : Nat) (e : Engine) : Panel :=
  if hub = 3 then { p with eng3 := e } else { p with eng0 := e }

def Panel.modEng (p : Panel) (hub : Nat) (f : Engine → Engine) : Panel := p.setEng hub (f (p.eng hub))

/-! ### Completion queues (R440, R443 to R445) -/

def Panel.cqSize (p : Panel) (host : Bool) (q : Nat) : Nat := 2 ^ p.fget F.PCI_CQ_BASE_size_log2 (portHub host) q

/-- An entry can be written to the queue now. -/
def Panel.cqReady (p : Panel) (host : Bool) (q : Nat) : Bool :=
  let hub := portHub host
  p.portLive host && (p.port host).cqOn.contains q &&
    (p.fget F.PCI_CQ_HEAD_tail hub q + 1) % p.cqSize host q != p.fget F.PCI_CQ_HEAD_head hub q

/-- Write one entry with the phase of the queue's current pass (R440, R443). -/
def Panel.cqWrite (p : Panel) (host : Bool) (q : Nat) (e : Entry) : Panel :=
  let hub := portHub host
  let t := p.fget F.PCI_CQ_HEAD_tail hub q
  let ph := smGetD (p.port host).phase q true
  let p := p.emit (.completion host q t (putBits (e.getD 0 0) 63 63 (b2n ph) :: e.drop 1))
  let t' := (t + 1) % p.cqSize host q
  let p := p.fput F.PCI_CQ_HEAD_tail t' hub q
  if t' = 0 then p.modPort host fun x => { x with phase := smSet x.phase q !ph } else p

/-- Show the store's fill level; a store with room ends the wait of R445. -/
def Panel.showStore (p : Panel) (host : Bool) : Panel :=
  let n := (p.port host).store.length
  let p := p.fput F.PCI_CSTORE_held (min 131072 n) (portHub host)
  if n ≤ 131072 then p.fput F.PCI_CSTORE_cq_wait 0 (portHub host) else p

/-- Write an entry, or hold it in the store behind earlier entries (R445). True where it was written. -/
def Panel.pushEntry (p : Panel) (host : Bool) (q : Nat) (e : Entry) : Panel × Bool :=
  if p.cqReady host q && !((p.port host).store.any fun x => x.1 == q) then (p.cqWrite host q e, true)
  else ((p.modPort host fun x => { x with store := x.store ++ [(q, e)] }).showStore host, false)

/-- The vector of a completion queue; 0 is treated as 1 (R449). -/
def Panel.cqVector (p : Panel) (host : Bool) (q : Nat) : Nat := max 1 (p.fget F.PCI_CQ_HEAD_vector (portHub host) q)

def Panel.signal (p : Panel) (qs : List (Bool × Nat)) : Panel :=
  qs.eraseDups.foldl (fun p x => p.sendVector x.1 (p.cqVector x.1 x.2)) p

/-- Steps 2 to 4 of R447: the store's entries go, host_lost is set and the other host hears of it. -/
def Panel.hostLost (p : Panel) (host : Bool) : Panel :=
  let p := (p.modPort host fun x => { x with store := [], lossDue := false, lossTimer := false }).showStore host
  let p := p.fput F.PCI_CSTORE_host_lost 1 (portHub host)
  p.hostEvent (!host) F.PCI_EVENT_COUNT_host_lost

/-- A host is lost: its requests end at the next formation, at once where no engine forms steps (R447). -/
def Panel.loseHost (p : Panel) (host : Bool) : Panel :=
  if p.activeHub.isNone then p.hostLost host else p.modPort host fun x => { x with lossDue := true, lossTimer := false }

/-- The store has filled: a host whose link is down is lost; else formation waits, as long as the link is up (R445, R447). -/
def Panel.storeFull (p : Panel) (host : Bool) : Panel :=
  let hub := portHub host
  let n := (p.port host).store.length
  if p.linkServes host then
    if 131072 < n then p.fput F.PCI_CSTORE_cq_wait 1 hub else p
  else
    let p := p.fput F.PCI_CSTORE_cq_wait 0 hub
    if 131072 ≤ n ∧ !(p.port host).lossDue then p.loseHost host else p

/-- Queue of a completion: the one its SUBMIT named, or the import queue (R444). -/
def Panel.queueOf (p : Panel) (x : Completion) : Bool × Nat :=
  if x.imported then (p.flag F.PCI_IMPORT_CQ_host, p.fget F.PCI_IMPORT_CQ_cq) else (x.host, x.cq)

/-- Write completions in order and send each queue's vector once (R444). -/
def Panel.deliver (p : Panel) (cs : List Completion) : Panel :=
  let (p, qs) := cs.foldl (fun (acc : Panel × List (Bool × Nat)) x =>
    let hq := p.queueOf x
    x.entries.foldl (fun (acc : Panel × List (Bool × Nat)) e =>
      let (p, w) := acc.1.pushEntry hq.1 hq.2 e
      (p, if w then acc.2 ++ [hq] else acc.2)) acc) (p, [])
  ((p.signal qs).storeFull false).storeFull true

/-- The store delivers what it can, each queue in order (R445). -/
def Panel.drainStore (p : Panel) (host : Bool) : Panel :=
  let entries := (p.port host).store
  let (p, left, qs) := entries.foldl (fun (acc : Panel × List (Nat × Entry) × List (Bool × Nat)) x =>
    let (p, left, qs) := acc
    if p.cqReady host x.1 && !(left.any fun y => y.1 == x.1) then (p.cqWrite host x.1 x.2, left, qs ++ [(host, x.1)])
    else (p, left ++ [x], qs)) (p, [], [])
  ((p.modPort host fun x => { x with store := left }).showStore host).signal qs

/-! ### Queues coming into use (R440) -/

/-- The queues that their registers enable. -/
def Panel.enabledQueues (p : Panel) (hub : Nat) (f : RField) : List Nat := upTo 64 fun q => p.flag f hub q

/-- Enabled and disabled queues take effect; a fresh completion queue restarts at index 0 with phase 1. -/
def Panel.applyQueues (p : Panel) (host : Bool) : Panel :=
  let hub := portHub host
  let p := (p.port host).cqFresh.foldl (fun p q =>
    let p := p.fput F.PCI_CQ_HEAD_tail 0 hub q
    let p := p.fput F.PCI_CQ_HEAD_head 0 hub q
    p.modPort host fun x => { x with phase := smDel x.phase q }) p
  let p := p.modPort host fun x =>
    { x with sqOn := p.enabledQueues hub F.PCI_SQ_BASE_enable, cqOn := p.enabledQueues hub F.PCI_CQ_BASE_enable
             cqFresh := [] }
  p.drainStore host

/-- A change of a queue's enable: at once while no engine runs, else at the next formation (R440). -/
def Panel.queuesChanged (p : Panel) (host : Bool) : Panel := if p.activeHub.isSome then p else p.applyQueues host

/-! ### Submission heads (R274, R440) -/

/-- Advance one submission head. -/
def Panel.advanceHead (p : Panel) (host : Bool) (q : Nat) : Panel :=
  let hub := portHub host
  let size := 2 ^ p.fget F.PCI_SQ_BASE_size_log2 hub q
  p.fput F.PCI_SQ_TAIL_head ((p.fget F.PCI_SQ_TAIL_head hub q + 1) % size) hub q

/-- Advance the heads that may, each queue in order; none while inputs wait for the stream (R298). -/
def Panel.advanceHeads (p : Panel) (hub : Nat) : Panel :=
  if p.flag F.RQE_ILOG_STATUS_stream_wait hub then p
  else
  let (p, left) := (p.eng hub).headsDue.foldl (fun (acc : Panel × List HeadDue) x =>
    if x.ready && !(acc.2.any fun y => y.host == x.host && y.queue == x.queue) then (acc.1.advanceHead x.host x.queue, acc.2)
    else (acc.1, acc.2 ++ [x])) (p, [])
  p.modEng hub fun e => { e with headsDue := left }

/-- The ingress record of the oldest entry of a queue that has none yet is written. -/
def Panel.headRecorded (p : Panel) (hub : Nat) (host : Bool) (q : Nat) : Panel :=
  let l := (p.eng hub).headsDue
  match l.findIdx? fun y => y.host == host && y.queue == q && !y.recorded && !y.ready with
  | some i => p.modEng hub fun e => { e with headsDue := l.set i ⟨host, q, true, false⟩ }
  | none => p

/-- Let the oldest waiting entry of a queue advance its head: of those whose input is recorded, or of those whose is not. -/
def Panel.headReady (p : Panel) (hub : Nat) (host : Bool) (q : Nat) (recorded : Bool) : Panel :=
  let l := (p.eng hub).headsDue
  match l.findIdx? fun y => y.host == host && y.queue == q && y.recorded == recorded && !y.ready with
  | some i => (p.modEng hub fun e => { e with headsDue := l.set i ⟨host, q, recorded, true⟩ }).advanceHeads hub
  | none => p

/-- The queue an input came from, when its entry was taken from one. -/
def inputQueue : RqeInput → Option (Bool × Nat)
  | .intake h q .. => some (h, q.toNat)
  | .cancel h q .. => some (h, q.toNat)
  | _ => none

/-! ### Host memory regions (R446) -/

/-- Cold slots of one host: 256 KiB each, in region order (R270, R446). -/
def Panel.slotsOf (p : Panel) (host : Bool) : Nat :=
  sumL ((List.range 8).map fun n =>
    if p.flag F.PCI_REGION_BASE_enable (portHub host) n && !p.flag F.PCI_REGION_BASE_kind (portHub host) n then
      p.fget F.PCI_REGION_SIZE_units (portHub host) n
    else 0)

/-- The stream regions: hub and register number. -/
def Panel.streamRegions (p : Panel) : List (Nat × Nat) :=
  [0, 3].flatMap fun h =>
    (upTo 8 fun n => p.flag F.PCI_REGION_BASE_enable h n && p.flag F.PCI_REGION_BASE_kind h n).map fun n => (h, n)

/-- Regions that enable accepts: at most one stream region, of the ring's size (R446). -/
def Panel.regionsOk (p : Panel) : Bool :=
  match p.streamRegions with
  | [] => true
  | [(h, n)] => p.fget F.PCI_REGION_SIZE_units h n == 4 * max 1 (p.fget F.RQE_ILOG_CONFIG_size_mib)
  | _ => false

/-- Host whose memory a cold slot lies in: host A's regions come first (R270). -/
def Panel.slotHost (p : Panel) (slot : Nat) : Bool := decide (p.slotsOf false ≤ slot)

end Sys2Proof.Machine
end

