-- ==== Sys2Proof/Machine/Image.lean ====
section
/-! DEFINITION. What an NVM holds, byte by byte: the layout of a flacon copy (R343 to R345, R453, R455, R467) and of a field
fault list bank (R348), and what the panel reads of them. -/

namespace Sys2Proof.Machine

/-! ### Bytes -/

/-- n bytes from an offset. -/
def bytesAt (b : Nat → Byte) (o n : Nat) : List Byte := (List.range n).map fun i => b (o + i)

/-- A little-endian number of n bytes (R10). -/
def leAt (b : Nat → Byte) (o n : Nat) : Nat := ofBytes (bytesAt b o n)

/-- A big-endian number of n bytes. -/
def beAt (b : Nat → Byte) (o n : Nat) : Nat := ofBytes (bytesAt b o n).reverse

/-- Bytes of a label or of a digest, most significant first. -/
def bytesBE (n v : Nat) : List Byte := (toBytes n v).reverse

def digestBE (d : BitVec 384) : List Byte := bytesBE 48 d.toNat

def labelBytes (s : String) : List Byte := s.toList.map fun c => BitVec.ofNat 8 c.toNat

/-! ### The layout of a copy (R343 to R346) -/

def flaconMagic : BitVec 32 := 0x4C465A44

/-- Size of the region that holds a copy (R342). -/
def copyRegion : Nat := 120 * 2 ^ 20

/-- The section of a type, if the copy has one. -/
def flaconSection (x : Flacon) (kind : Nat) : Option Section := x.sections.find? fun s => s.kind.toNat == kind

/-- Digest of the section of a type (R343). -/
def sectionDigest (x : Flacon) (kind : Nat) : BitVec 384 := match flaconSection x kind with | some s => s.digest | none => 0

/-- A section entry meets R343: flags zero, a 4 KiB offset behind the header, and its bytes inside the copy. -/
def sectionOk (x : Flacon) (s : Section) : Bool :=
  s.flags == 0 && s.offset.toNat % 4096 == 0 && decide (4096 ≤ s.offset.toNat) &&
    decide (s.offset.toNat + s.length.toNat ≤ x.length.toNat)

/-- Header and section layout meet R343 and R344: exactly one section of each of types 1 to 4, and no other. -/
def flaconLayoutOk (x : Flacon) : Bool :=
  x.magic == flaconMagic && x.format == 1 && decide (x.gradeMask.toNat < 8) && x.padZero &&
    decide (x.length.toNat ≤ copyRegion) && decide (4 ≤ x.sectionCount.toNat) && decide (x.sectionCount.toNat ≤ 16) &&
    x.sections.length == x.sectionCount.toNat && x.sections.all (sectionOk x) &&
    [1, 2, 3, 4].all (fun k => (x.sections.filter fun s => s.kind.toNat == k).length == 1) &&
    x.sections.all fun s => decide (1 ≤ s.kind.toNat) && decide (s.kind.toNat ≤ 4)

/-- Every section digest matches (R346). -/
def flaconDigestsOk (x : Flacon) : Bool := (x.sections.map (·.digest)) == x.sums

/-! ### Reading a copy's bytes -/

/-- Entry i of the section table; none where it is unused, all its bytes zero (R343). -/
def readSection (b : Nat → Byte) (i : Nat) : Option Section :=
  let o := 32 + 64 * i
  if (bytesAt b o 64).all (· == 0) then none
  else some ⟨BitVec.ofNat 32 (leAt b o 4), BitVec.ofNat 32 (leAt b (o + 4) 4), BitVec.ofNat 32 (leAt b (o + 8) 4),
    BitVec.ofNat 32 (leAt b (o + 12) 4), BitVec.ofNat 384 (beAt b (o + 16) 48)⟩

/-- Bytes of the header that R343 does not list. -/
def headerPad : List (Nat × Nat) := [(12, 4), (1057, 7), (1160, 2936)]

/-- A firmware section's signature block verifies with the root key (R453, R454): its image code is `image`. -/
def firmwareOk (b : Nat → Byte) (root : BitVec 384) (o n image : Nat) : Bool :=
  let k := o + n - 256
  decide (256 ≤ n) && leAt b k 4 == 0x53465A44 && leAt b (k + 4) 1 == image &&
    decide (leAt b (k + 5) 1 ≤ 63) && beAt b (k + 8) 48 == (Config.sha384 (bytesAt b o (n - 256))).toNat && Config.sha384 (bytesAt b (k + 56) 96) == root &&
    Config.ecdsaVerify (BitVec.ofNat 768 (beAt b (k + 56) 96)) (bytesAt b k 152) (BitVec.ofNat 768 (beAt b (k + 152) 96)) &&
    (bytesAt b (k + 248) 8).all (· == 0)

/-- A preset entry of PANEL_CONFIG (R345). -/
def readPreset (b : Nat → Byte) (o : Nat) : Preset :=
  let w := leAt b o 8
  ⟨BitVec.ofNat 8 (bits w 63 56), BitVec.ofNat 8 (bits w 55 48), BitVec.ofNat 48 (bits w 47 0), BitVec.ofNat 64 (leAt b (o + 8) 8)⟩

/-- A guest entry of SECURITY_POLICY (R467). -/
def readGuest (b : Nat → Byte) (o : Nat) : GuestEntry :=
  let w := leAt b o 8
  let l := leAt b (o + 8) 8
  { admitted := bit w 63, vendor := BitVec.ofNat 16 (bits w 47 32), product := BitVec.ofNat 16 (bits w 31 16)
    rateGbs := BitVec.ofNat 6 (bits w 5 0), denyLimit := BitVec.ofNat 16 (bits l 15 0), postEnable := bit l 16
    postLo := BitVec.ofNat 5 (bits l 25 21), postHi := BitVec.ofNat 5 (bits l 30 26)
    measurement := BitVec.ofNat 384 (beAt b (o + 16) 48), keyHash := BitVec.ofNat 384 (beAt b (o + 64) 48)
    windows := (List.range 16).map fun i =>
      (BitVec.ofNat 64 (leAt b (o + 128 + 16 * i) 8), BitVec.ofNat 64 (leAt b (o + 136 + 16 * i) 8)) }

/-- A copy as read from its bytes, with `root` the fused root key hash (R343 to R345, R453 to R455, R467). Where CORE_FW's first
64 B hold the instruction count and the check entry is the model's (DESIGN CHOICE, log 48). -/
def readFlacon (b : Nat → Byte) (root : BitVec 384) : Flacon :=
  let table := (List.range 16).filterMap (readSection b)
  let place (k : Nat) : Nat × Nat := match table.find? fun s => s.kind.toNat == k with
    | some s => (s.offset.toNat, s.length.toNat)
    | none => (copyRegion, 0)
  let fw := place 1
  let core := place 2
  let cfg := (place 3).1
  let pol := (place 4).1
  let k := leAt b 1056 1
  let key := bytesAt b (pol + 64 + 96 * (k % 4)) 96
  { magic := BitVec.ofNat 32 (leAt b 0 4), format := BitVec.ofNat 16 (leAt b 4 2), length := BitVec.ofNat 32 (leAt b 24 4)
    sectionCount := BitVec.ofNat 32 (leAt b 28 4), sections := table
    padZero := headerPad.all fun e => (bytesAt b e.1 e.2).all (· == 0)
    sums := table.map fun s => Config.sha384 (bytesAt b s.offset.toNat s.length.toNat)
    version := BitVec.ofNat 32 (leAt b 8 4), sequence := BitVec.ofNat 64 (leAt b 16 8)
    gradeMask := BitVec.ofNat 8 (leAt b 7 1), level := BitVec.ofNat 8 (leAt b 6 1), ownerKey := BitVec.ofNat 8 k
    ownerKeyHash := Config.sha384 key
    fwSigOk := firmwareOk b root fw.1 fw.2 1 && firmwareOk b root core.1 core.2 2
    ownerSigOk := Config.ecdsaVerify (BitVec.ofNat 768 (ofBytes key.reverse)) (bytesAt b 0 1064) (BitVec.ofNat 768 (beAt b 1064 96))
    hubSvn := b (fw.1 + fw.2 - 251), coreSvn := b (core.1 + core.2 - 251)
    config0 := BitVec.ofNat 64 (leAt b cfg 8), config1 := BitVec.ofNat 64 (leAt b (cfg + 8) 8)
    droop := (List.range 20).map fun i => BitVec.ofNat 16 (leAt b (cfg + 16 + 2 * i) 2)
    presets := (List.range (min 4097 (leAt b (cfg + 56) 8))).map fun i => readPreset b (cfg + 64 + 16 * i)
    coreFw := (List.range (leAt b core.1 4)).map fun i => BitVec.ofNat 64 (leAt b (core.1 + 64 + 8 * i) 8)
    checkEntry := BitVec.ofNat 15 (leAt b (core.1 + 4) 4)
    policy0 := BitVec.ofNat 64 (leAt b pol 8), guests := (List.range 4).map fun g => readGuest b (pol + 448 + 512 * g) }

/-! ### An NVM -/

/-- Where an offset of an NVM of 128 MiB lies (R342): the copy, a bank of the field fault list, or the reserved region. -/
inductive NvmPlace where
  | copy (o : Nat)
  | bank (second : Bool) (o : Nat)
  | reserved
  deriving DecidableEq, Repr

/-- Size of the device, and of a bank of the field fault list (R342). -/
def nvmSize : Nat := 128 * 2 ^ 20
def bankRegion : Nat := 2 * 2 ^ 20

def nvmPlace (o : Nat) : Option NvmPlace :=
  if o < copyRegion then some (.copy o)
  else if o < copyRegion + bankRegion then some (.bank false (o - copyRegion))
  else if o < copyRegion + 2 * bankRegion then some (.bank true (o - copyRegion - bankRegion))
  else if o < nvmSize then some .reserved else none

/-- What stood in the copy region before the panel was first powered joins what the panel has written there since (R342, log 48). -/
def Nvm.withFound (n : Nvm) (found : List (Nat × Byte)) : Nvm :=
  if n.known then n
  else { n with known := true, image := found.foldl (fun m e => if smHas m e.1 then m else smSet m e.1 e.2) n.image }

/-- The fuse set a hub holds. -/
def Panel.fuses (p : Panel) (hub : Nat) : FuseSet := if hub = 3 then p.fab.fuses3 else p.fab.fuses0

/-- The NVM of a hub: A on HD0, B on HD3 (R342). -/
def Panel.nvmOf (p : Panel) (hub : Nat) : Nvm := if hub = 3 then p.nvmB else p.nvmA

def Panel.setNvm (p : Panel) (hub : Nat) (n : Nvm) : Panel := if hub = 3 then { p with nvmB := n } else { p with nvmA := n }

/-! ### Banks of the field fault list (R348) -/

def bankMagic : BitVec 32 := 0x4C465A46

/-- The 64 bytes of an entry. -/
def FflEntry.bytes (e : FflEntry) : List Byte :=
  toBytes 8 (e.kind.toNat * 2 ^ 56 + e.site.toNat * 2 ^ 48 + e.sub.toNat * 2 ^ 40 + e.reason.toNat * 2 ^ 32 + e.occurrences % 2 ^ 32) ++
    toBytes 8 (e.first % 2 ^ 48) ++ List.replicate 48 0

/-- The first 80 bytes of a bank's header. -/
def FflBank.header (b : FflBank) : List Byte :=
  toBytes 4 b.magic.toNat ++ toBytes 4 0 ++ toBytes 8 b.generation ++ toBytes 4 b.entries.length ++ List.replicate 60 0

/-- The MAC a bank must carry. -/
def Panel.bankMac (p : Panel) (b : FflBank) : BitVec 384 :=
  Config.hmacSha384 p.pmc.bankKey (b.header ++ b.entries.flatMap FflEntry.bytes)

/-- A byte of a bank: its header, its entries, and erased ones behind them. -/
def FflBank.byte (b : FflBank) (o : Nat) : Byte :=
  if b = .erased then 0xFF
  else (b.header ++ digestBE b.mac ++ b.entries.flatMap FflEntry.bytes).getD o 0xFF

/-- A byte of an NVM: what was written to its region, else erased (R342). -/
def Nvm.byte (n : Nvm) (o : Nat) : Byte :=
  match nvmPlace o with
  | some (.copy o) => smGetD n.image o 0xFF
  | some (.bank false o) => n.bank0.byte o
  | some (.bank true o) => n.bank1.byte o
  | _ => 0xFF

/-- The copy that an NVM's bytes spell for a hub (R342 to R347). -/
def Panel.copyOf (p : Panel) (hub : Nat) (n : Nvm) : Flacon := readFlacon n.byte (p.fuses hub).rootHash

/-- The copy a hub reads from its NVM, of which `found` stood there before the panel was first powered. -/
def Panel.readCopy (p : Panel) (hub : Nat) (found : List (Nat × Byte)) : Flacon := p.copyOf hub ((p.nvmOf hub).withFound found)

/-- Magic and MAC are correct. -/
def Panel.bankValid (p : Panel) (b : FflBank) : Bool :=
  b.magic == bankMagic && decide (b.entries.length ≤ 1024) && b.mac == p.bankMac b

/-- A bank made of entries, with its MAC. -/
def Panel.makeBank (p : Panel) (l : List FflEntry) (gen : Nat) : FflBank :=
  let b : FflBank := ⟨bankMagic, gen % 2 ^ 64, l, 0⟩
  { b with mac := p.bankMac b }

/-- Bank 1 is the current one: the valid bank of higher generation. -/
def Panel.bank1Current (p : Panel) (n : Nvm) : Bool :=
  p.bankValid n.bank1 && (!p.bankValid n.bank0 || decide (n.bank0.generation < n.bank1.generation))

/-- The current bank of an NVM; an erased one where neither is valid. -/
def Panel.currentBank (p : Panel) (n : Nvm) : FflBank :=
  if p.bank1Current n then n.bank1 else if p.bankValid n.bank0 then n.bank0 else .erased

/-- A list is written to the bank that is not current. -/
def Panel.writeBank (p : Panel) (n : Nvm) (l : List FflEntry) (gen : Nat) : Nvm :=
  let b := p.makeBank l gen
  if p.bank1Current n ∨ p.bankValid n.bank0 = false then { n with bank0 := b } else { n with bank1 := b }

/-! ### Fuses, and what ROM derives (R450 to R452, R457) -/

def FuseSet.slot (f : FuseSet) (k : Nat) : BitVec 384 × Bool := f.owners.getD k (0, false)

def FuseSet.slotValid (f : FuseSet) (k : Nat) : Bool := (f.slot k).1 != 0 && !(f.slot k).2

def FuseSet.slotBlank (f : FuseSet) (k : Nat) : Bool := (f.slot k).1 == 0

/-- 2-bit state of a slot: blank, valid, revoked (R473). -/
def FuseSet.slotCode (f : FuseSet) (k : Nat) : Nat := if f.slotBlank k then 0 else if f.slotValid k then 1 else 2

def Panel.devidSeed (p : Panel) : BitVec 384 := Config.hmacSha384 p.fab.uds (labelBytes "DZA DeviceID")

/-- The fuse bits of R457, in table order; how they are packed into bytes is the model's (DESIGN CHOICE, log 17). -/
def fuseState (f : FuseSet) : List Byte :=
  digestBE f.rootHash ++ ((List.range 4).flatMap fun k => digestBE (f.slot k).1 ++ [if (f.slot k).2 then 1 else 0]) ++
    bytesBE 32 (2 ^ f.floorC - 1) ++ bytesBE 8 (2 ^ f.floorF - 1)

/-- CDI of a hub that starts a copy. -/
def Panel.cdiOf (p : Panel) (hub : Nat) (x : Flacon) : BitVec 384 :=
  Config.hmacSha384 p.fab.uds (digestBE (Config.sha384 (digestBE Config.romDigest ++ digestBE (sectionDigest x 1) ++
    digestBE (sectionDigest x 4) ++ fuseState (p.fuses hub))))

/-- Measurements 1 to 7 of a hub that runs a copy, by index (R460); how a raw one is packed is the model's (DESIGN CHOICE, log 17). -/
def Panel.bootMeasurements (p : Panel) (hub : Nat) (x : Option Flacon) : List (Nat × List Byte) :=
  let f := p.fuses hub
  let fl := match x with
    | some x => [(2, digestBE (sectionDigest x 1)), (3, digestBE (sectionDigest x 2)),
        (4, digestBE (sectionDigest x 3)), (5, digestBE (sectionDigest x 4)),
        (6, toBytes 4 x.version.toNat ++ toBytes 8 x.sequence.toNat ++ toBytes 4 x.level.toNat)]
    | none => []
  let slots := sumL ((List.range 4).map fun k => f.slotCode k * 4 ^ k)
  (1, digestBE Config.romDigest) :: fl ++ [(7, toBytes 16 (f.floorC + f.floorF * 2 ^ 8 + slots * 2 ^ 16))]

/-- What a hub's ROM derives for a copy (R452 step 4, R457), with boot_random as drawn: the DICE values, and the certificate that the
DeviceID key signs; then the UDS is locked. -/
def Panel.deriveKeys (p : Panel) (hub : Nat) (x : Flacon) (s : Sec) : Sec :=
  let cdi := p.cdiOf hub x
  let seed := Config.hmacSha384 cdi (digestBE s.bootRandom)
  let tcb := (p.bootMeasurements hub (some x)).flatMap (·.2)
  { s with
    udsLocked := true, aliasHeld := true, erased := false, cdi := cdi, aliasSeed := seed, tcbInfo := tcb
    aliasKey := Config.p384Public seed
    aliasCert := Config.ecdsaSign p.devidSeed (bytesBE 96 (Config.p384Public seed).toNat ++ tcb)
    deviceKey := Config.hmacSha384 p.fab.uds (labelBytes "DZA DeviceKey") }

/-- The flacon that a hub runs; HD1 and HD2 run their edge partner's (R353). -/
def Panel.flaconOf (p : Panel) (hub : Nat) : Option Flacon := smGet p.bring.own (if hub < 2 then 0 else 3)

end Sys2Proof.Machine
end

