-- ==== Sys2Proof/Machine/Ingress.lean ====
section
/-! DEFINITION. The ingress log (R293 to R299): the bytes of a record, its place in the ring, its digest, the stream copy,
and reading a log back for replay (R300, R301). -/

namespace Sys2Proof.Machine

def recIntake : Nat := 1
def recCancel : Nat := 2
def recPolicy : Nat := 3
def recColdFail : Nat := 4
def recServiceOpen : Nat := 5
def recHandoffIn : Nat := 6
def recHandoffOut : Nat := 7
def recCommitDigest : Nat := 8

def wordBytes8 (w : W64) : List Byte := toBytes 8 w.toNat

/-- The digest that 48 bytes spell. -/
def digestOf (bs : List Byte) : BitVec 384 := BitVec.ofNat 384 (ofBytes (bs.take 48).reverse)

/-- The digest of the whole service image as loaded (R283). -/
def Panel.imageDigest (p : Panel) : BitVec 384 := Config.sha384 p.image

/-- The numeric plan digest: bytes 64 to 111 of the image (R283). -/
def Panel.planDigest (p : Panel) : BitVec 384 := digestOf (p.image.drop 64)

/-- Length of a record in 64 B units: header, body and digest, rounded up (R295). -/
def recUnits (bodyLen : Nat) : Nat := (64 + bodyLen + 63) / 64

/-- A body padded with zeros up to the digest (R295). -/
def padBody (body : List Byte) (units : Nat) : List Byte :=
  body ++ List.replicate (units * 64 - 64 - body.length) 0

/-- Every byte of a record before its digest (R295). -/
def recHead (type step units seq : Nat) (body : List Byte) : List Byte :=
  toBytes 8 (type * 2 ^ 56 + step % 2 ^ 48) ++ toBytes 8 (units * 2 ^ 48 + seq % 2 ^ 48) ++ body

/-- The body of an input's record (R296). -/
def inputBody : RqeInput → List Byte
  | .intake h q c en pr =>
    toBytes 8 (pr.length * 2 ^ 32 + b2n h * 2 ^ 23 + q.toNat * 2 ^ 16 + c) ++
      ((List.range 8).flatMap fun i => wordBytes8 (en.getD i 0)) ++ pr.flatMap fun t => toBytes 4 t.toNat
  | .cancel h q c tag => toBytes 8 (b2n h * 2 ^ 23 + q.toNat * 2 ^ 16 + c) ++ wordBytes8 tag
  | .policy w off v r => toBytes 8 (w.toNat * 2 ^ 16 + off.toNat) ++ wordBytes8 v ++ wordBytes8 r
  | .coldFail i c => toBytes 8 (b2n i * 2 ^ 16 + c)
  | .adopt .. => []
  | .depart .. => []

def inputType : RqeInput → Nat
  | .intake .. => recIntake
  | .cancel .. => recCancel
  | .policy .. => recPolicy
  | .coldFail .. => recColdFail
  | .adopt .. => recHandoffIn
  | .depart .. => recHandoffOut

/-! ### The ring (R294, R298) -/

def Panel.ringBase (p : Panel) : Nat := p.fget F.RQE_ILOG_BASE_base * 4096
def Panel.ringUnits (p : Panel) : Nat := max 1 (p.fget F.RQE_ILOG_CONFIG_size_mib) * 16384

/-- A status field that both engines show alike, since one chain serves both (R299). -/
def Panel.bothEngines (p : Panel) (f : RField) (v : Nat) : Panel := (p.fput f v 0).fput f v 3

/-- The longest record: 65,535 units, or the whole ring (R295). -/
def Panel.recFits (p : Panel) (bodyLen : Nat) : Bool := decide (recUnits bodyLen ≤ min 65535 p.ringUnits)

/-- Records of the ring that lie in units [lo, hi). -/
def Ingress.within (g : Ingress) (lo hi : Nat) : List IngressRec :=
  g.recs.filter fun r => decide (r.unit < hi) && decide (lo < r.unit + r.units)

/-- The unit a record of a length would start at, and the units that must be padded first (R294). -/
def Panel.recPlace (p : Panel) (units : Nat) : Nat × Nat :=
  let t := p.fget F.RQE_ILOG_STATUS_tail_unit 0
  if t + units ≤ p.ringUnits then (t, 0) else (0, p.ringUnits - t)

/-- The records that a new record, with its padding, would overwrite. -/
def Panel.overwritten (p : Panel) (units : Nat) : List IngressRec :=
  let (o, pad) := p.recPlace units
  p.ing.within o (o + units) ++ if pad = 0 then [] else p.ing.within (p.ringUnits - pad) p.ringUnits

/-- The ring has room: under require_stream no record that is not stored is overwritten (R298). -/
def Panel.recRoom (p : Panel) (bodyLen : Nat) : Bool :=
  !(p.flag F.RQE_ILOG_CONFIG_stream_enable && p.flag F.RQE_ILOG_CONFIG_require_stream) ||
    (p.overwritten (recUnits bodyLen)).all fun r => decide (r.seq < p.ing.stored)

/-- The home of the ring acknowledges the write of a record, and of the padding before it (R293). -/
def Panel.recAnswers (p : Panel) (bodyLen : Nat) : Bool :=
  let units := recUnits bodyLen
  let (o, pad) := p.recPlace units
  p.accessStatus (p.ringBase + o * 64) (units * 64) == 0 &&
    (pad == 0 || p.accessStatus (p.ringBase + (p.ringUnits - pad) * 64) (pad * 64) == 0)

/-- A record's bytes (R295). -/
def IngressRec.bytes (r : IngressRec) : List Byte := recHead r.type.toNat r.step r.units r.seq r.body ++ digestBE r.digest

/-- Copy to the host stream region the records that it does not have yet, over its host's port (R298, R446): at once while the port is
up, else when it is up again. -/
def Panel.streamRecords (p : Panel) : Panel :=
  match p.streamRegions with
  | [] => p
  | (h, n) :: _ =>
    let size := p.fget F.PCI_REGION_SIZE_units h n * 2 ^ 18
    if !p.flag F.RQE_ILOG_CONFIG_stream_enable || size == 0 || !p.portLive (h == 3) then p
    else
      let p := (p.ing.recs.filter fun r => decide (p.ing.sent ≤ r.seq)).foldl (fun p r =>
        p.emit (.stream (r.unit * 64 % size) r.bytes)) p
      { p with ing := { p.ing with sent := p.fget F.RQE_ILOG_SEQ_next_seq 0 } }

/-- Place one record, overwriting what lies there. -/
def Panel.putRecord (p : Panel) (type step units unit : Nat) (body : List Byte) (d : BitVec 384) (i : Option RqeInput) :
    Panel :=
  let seq := p.fget F.RQE_ILOG_SEQ_next_seq 0
  let new : IngressRec := ⟨seq, unit, units, BitVec.ofNat 8 type, step, body, d, i⟩
  let p := p.storePa (p.ringBase + unit * 64) (new.bytes.map (·, false))
  let lost := p.ing.within unit (unit + units)
  let p := if lost.isEmpty then p else p.bothEngines F.RQE_ILOG_STATUS_wrapped 1
  let p := { p with ing := { p.ing with recs := (p.ing.recs.filter fun r => !lost.contains r) ++ [new] } }
  let p := p.bothEngines F.RQE_ILOG_SEQ_next_seq (seq + 1)
  (p.bothEngines F.RQE_ILOG_STATUS_tail_unit (if unit + units = p.ringUnits then 0 else unit + units)).streamRecords

/-- Append a record to the log, after a PAD record where it would not fit before the ring's end (R293 to R298). A PAD record
takes a sequence number of its own (log 13). -/
def Panel.record (p : Panel) (type step : Nat) (body : List Byte) (i : Option RqeInput := none) : Panel :=
  let units := recUnits body.length
  let (o, pad) := p.recPlace units
  let p := if pad = 0 then p
    else p.putRecord 0 step pad (p.ringUnits - pad) (List.replicate (pad * 64 - 64) 0) 0 none
  let body := padBody body units
  let seq := p.fget F.RQE_ILOG_SEQ_next_seq 0
  let prev := if type = recServiceOpen then 0 else p.ing.lastDigest
  let d := Config.sha384 (digestBE prev ++ recHead type step units seq body)
  let p := p.putRecord type step units o body d i
  { p with ing := { p.ing with lastDigest := d } }

/-- What the ring had no room for, if anything. -/
def Panel.recNeed (p : Panel) (n : Option Nat) : Panel :=
  { p with ing := { p.ing with need := n } }.bothEngines F.RQE_ILOG_STATUS_stream_wait (b2n n.isSome)

/-- Append a record and have it acknowledged, unless the engine must wait for the host to store what it would overwrite, or the ring's
home does not answer (R293, R298). -/
def Panel.tryRecord (p : Panel) (type step : Nat) (body : List Byte) (i : Option RqeInput := none) : Panel × Bool :=
  if !p.recRoom body.length then (p.recNeed (some body.length), false)
  else if !p.recAnswers body.length then (p, false)
  else ((p.record type step body i).recNeed none, true)

/-- The home of the ring acknowledges a SERVICE_OPEN record, three units at offset 0 (R293, R296). -/
def Panel.openAnswers (p : Panel) : Bool := p.accessStatus p.ringBase (3 * 64) == 0

/-- Start the log of a service epoch with its SERVICE_OPEN record at offset 0 (R293, R296, R300). -/
def Panel.openLog (p : Panel) : Panel :=
  let p := { p with ing := { p.ing with recs := [], lastDigest := 0, stored := 0, sent := 0 } }
  let p := p.bothEngines F.RQE_ILOG_SEQ_next_seq 0
  let p := p.bothEngines F.RQE_ILOG_STATUS_tail_unit 0
  let p := p.bothEngines F.RQE_ILOG_STATUS_recording 1
  p.record recServiceOpen 0 (toBytes 8 (p.fget F.RQE_STEP_service_epoch 0 * 2 ^ 48 +
      p.fget F.PMC_FLACON_STATUS_behaviour_level * 2 ^ 40 + p.fget F.HUB_SHAPE_logical_rows % 16 * 2 ^ 36 +
      p.nStacks % 64 * 2 ^ 30) ++ digestBE p.imageDigest ++ digestBE p.planDigest)

/-! ### Reading a log (R300, R301) -/

/-- The input that a record's body carries, for an input type (R296). -/
def bodyInput (type : Nat) (body : List Byte) : Option RqeInput :=
  let w (i : Nat) : Nat := ofBytes ((body.drop (8 * i)).take 8)
  let h := bit (w 0) 23
  let q := BitVec.ofNat 6 (bits (w 0) 21 16)
  let c := bits (w 0) 15 0
  if type = recIntake then
    some (.intake h q c ((List.range 8).map fun i => BitVec.ofNat 64 (w (1 + i)))
      ((List.range (bits (w 0) 63 32)).map fun i => BitVec.ofNat 32 (ofBytes ((body.drop (72 + 4 * i)).take 4))))
  else if type = recCancel then some (.cancel h q c (BitVec.ofNat 64 (w 1)))
  else if type = recPolicy then
    some (.policy (BitVec.ofNat 2 (bits (w 0) 17 16)) (BitVec.ofNat 16 c) (BitVec.ofNat 64 (w 1)) (BitVec.ofNat 64 (w 2)))
  else if type = recColdFail then some (.coldFail (bit (w 0) 16) c)
  else none

/-- The record is whole: its length is one of R295 and it ends inside the ring, and a prompt lies inside its body (R294 to R296). -/
def IngressRec.formed (r : IngressRec) (ring : Nat) : Bool :=
  r.units != 0 && decide (r.unit + r.units ≤ ring) &&
    (r.type.toNat != recIntake || decide (72 + 4 * bits (ofBytes (r.body.take 8)) 63 32 ≤ r.body.length))

/-- Read the records of the ring from a unit on, as long as each is next in sequence: what follows the last is no part of the log
(log 13). A record whose length is none is the last one read. -/
def readLog : Nat → Panel → Nat → Nat → List IngressRec × Panel
  | 0, p, _, _ => ([], p)
  | fuel + 1, p, unit, seq =>
    if p.ringUnits ≤ unit then ([], p)
    else
      let (hd, _, p) := p.readRange (p.ringBase + unit * 64) 16
      let w0 := ofBytes (hd.take 8)
      let w1 := ofBytes (hd.drop 8)
      let units := bits w1 63 48
      if bits w1 47 0 ≠ seq then ([], p)
      else if units = 0 ∨ p.ringUnits < unit + units then
        ([⟨seq, unit, units, BitVec.ofNat 8 (bits w0 63 56), bits w0 47 0, [], 0, none⟩], p)
      else
        let (bs, _, p) := p.readRange (p.ringBase + unit * 64) (units * 64)
        let body := (bs.drop 16).take (units * 64 - 64)
        let type := bits w0 63 56
        let r : IngressRec :=
          ⟨seq, unit, units, BitVec.ofNat 8 type, bits w0 47 0, body,
            digestOf (bs.drop (units * 64 - 48)), bodyInput type body⟩
        let (rest, p) := readLog fuel p (unit + units) (seq + 1)
        (r :: rest, p)

/-- The log in the ring. -/
def Panel.readLogAll (p : Panel) : List IngressRec × Panel := readLog p.ringUnits p 0 0

/-- The digest a record must carry after the digest of the record before it (R297). -/
def IngressRec.chained (r : IngressRec) (prev : BitVec 384) : BitVec 384 :=
  Config.sha384 (digestBE prev ++ recHead r.type.toNat r.step r.units r.seq r.body)

end Sys2Proof.Machine
end

