-- ==== Sys2Proof/Machine/Network.lean ====
section
/-! DEFINITION. The panel network (R209 to R230, R242, R243): routers, delivery of requests and responses, timeouts, lost
links, the drain of a route swap and multicast. -/

namespace Sys2Proof.Machine

/-! ### Flits (R209, R210) -/

/-- One step of the flit check: polynomial 0x1021, most significant bit first. -/
def crcBit (c : Nat) : Nat := if 0x8000 ≤ c then (c * 2 % 0x10000) ^^^ 0x1021 else c * 2

def crcByte (c : Nat) (b : Byte) : Nat := (List.range 8).foldl (fun c _ => crcBit c) (c ^^^ (b.toNat * 256))

/-- The 16-bit check of a flit (R209). -/
def flitCrc (bs : List Byte) : BitVec 16 := BitVec.ofNat 16 (bs.foldl crcByte 0xFFFF)

def wordAt (bs : List Byte) (i : Nat) : Nat := ofBytes ((bs.drop (8 * i)).take 8)

/-- Payload bytes by opcode (R212). -/
def payloadLen (opcode length : Nat) : Nat :=
  if opcode = 0x01 ∨ opcode = 0x08 then length else if opcode = 0x10 then 512
  else if opcode = 0x19 ∨ opcode = 0x1A then 8 else 0

/-- The packet that a header flit and its payload flits spell (R210, R211). -/
def packetOf (flits : List (List Byte)) : Packet :=
  let h := flits.headD []
  let w0 := wordAt h 0
  let w1 := wordAt h 1
  let op := bits w0 29 24
  { opcode := BitVec.ofNat 6 op, tclass := BitVec.ofNat 2 (bits w0 20 19), vc := bit w0 21, poison := bit w0 22
    mc := bit w0 23, srcUnit := BitVec.ofNat 5 (bits w0 18 14), srcNode := BitVec.ofNat 7 (bits w0 13 7)
    dstNode := BitVec.ofNat 7 (bits w0 6 0), tag := BitVec.ofNat 16 (bits w0 63 48)
    length := BitVec.ofNat 10 (bits w0 41 32), status := BitVec.ofNat 8 (bits w1 63 56), addr := BitVec.ofNat 56 (bits w1 55 0)
    w2 := BitVec.ofNat 64 (wordAt h 2), w3 := BitVec.ofNat 64 (wordAt h 3)
    payload := flits.tail.flatten.take (payloadLen op (bits w0 41 32)) }

/-- Opcodes of R212. -/
def opcodeOk (k : Packet) : Bool :=
  [0x00, 0x01, 0x02, 0x08, 0x09, 0x0A, 0x0B, 0x10, 0x18, 0x19, 0x1A, 0x1B, 0x1C].contains k.opcode.toNat

/-- Flits of a packet (R209). -/
def flitCount (k : Packet) : Nat := 1 + (k.payload.length + 31) / 32

/-! ### The pool of a router (R215, R220, R243) -/

/-- The router's pool holds the packet: it has taken it, and no next router or unit has. -/
def Flying.inPool (f : Flying) (n : Nat) : Bool := f.holder == n && f.room.isSome

/-- The packets of a router's pool: the copies of a multicast packet are read from one (R227). -/
def Panel.pool (p : Panel) (n : Nat) : List Flying :=
  p.net.flying.foldr (fun f l => if f.inPool n && !l.any (·.born == f.born) then f :: l else l) []

def flitSum (l : List Flying) : Nat := sumL (l.map fun f => flitCount f.p)

def Panel.poolUsed (p : Panel) (n : Nat) : Nat := flitSum (p.pool n)

def Panel.poolMcHeld (p : Panel) (n : Nat) : Nat := flitSum ((p.pool n).filter (·.p.mc))

/-- A packet that the router sent lies in the pool of the next one, which has not returned its credits (R215). Those of management
packets, which a pause lets on, are not counted (log 50). -/
def Panel.creditsOut (p : Panel) (n : Nat) : Bool :=
  p.net.flying.any fun f => f.holder != n && f.p.tclass != 3 &&
    match f.room with
    | some r => p.neighbour f.holder r.port == some n
    | none => false

/-- No request, response or accord flit in the pool, and all credits returned (R220 step 3). -/
def Panel.poolEmpty (p : Panel) (n : Nat) : Bool :=
  !(p.net.flying.any fun f => f.inPool n && f.p.tclass != 3) && !p.creditsOut n

/-- PNW_POOL_STATUS as it reads (R243). -/
def Panel.poolStatus (p : Panel) (n : Nat) : W64 :=
  let v := p.get .PNW_POOL_STATUS n
  let v := F.PNW_POOL_STATUS_empty.write v (b2n (p.poolEmpty n))
  let v := F.PNW_POOL_STATUS_mc_held.write v (p.poolMcHeld n)
  F.PNW_POOL_STATUS_used.write v (p.poolUsed n)

def Panel.noteHighWater (p : Panel) (n : Nat) : Panel :=
  p.fput F.PNW_POOL_STATUS_high_water (max (p.fget F.PNW_POOL_STATUS_high_water n) (p.poolUsed n)) n

/-- Channel of a packet on a link: its class and virtual channel (R214). -/
def chanOf (k : Packet) : Nat := k.tclass.toNat * 2 + b2n k.vc

/-- The credits that a sender takes for f flits on a channel of a router's input: the share's where it can take all of them there,
else the channel's reserve's; none where it can from neither, and the packet waits (R215). -/
def Panel.creditsFor (p : Panel) (n port chan f : Nat) : Option Room :=
  let used (share : Bool) : Nat := flitSum ((p.pool n).filter fun x =>
    match x.room with
    | some r => r.port == port && r.share == share && (share || r.chan == chan)
    | none => false)
  if used true + f ≤ smGetD p.net.shares n 0 then some ⟨port, chan, true⟩
  else if used false + f ≤ reserveFlits then some ⟨port, chan, false⟩
  else none

/-! ### Answers (R212, R213) -/

/-- The response to a request, from the unit that served it. -/
def answerPacket (k : Packet) (opcode status : Nat) (data : List Byte) (poison : Bool) : Packet :=
  { plainPacket opcode (if 0x18 ≤ opcode then 3 else 1) k.dstNode.toNat k.srcUnit.toNat k.srcNode.toNat k.tag with
    poison := poison, length := BitVec.ofNat 10 data.length, status := BitVec.ofNat 8 status, payload := data }

def Panel.answer (p : Panel) (k : Packet) (opcode status : Nat) (data : List Byte := []) (poison : Bool := false) : Panel :=
  p.inject k.dstNode.toNat (answerPacket k opcode status data poison)

/-! ### Multicast (R226 to R228) -/

def mcKind (k : Packet) : Nat := bits k.w2.toNat 19 18
def mcMask (k : Packet) : Nat := bits k.w2.toNat 17 0
def mcGroup (k : Packet) : Nat := bits k.w2.toNat 25 20
def mcByGroup (k : Packet) : Bool := bit k.w2.toNat 26

/-- A multicast packet as the units of a hub send it: a write or a post of the PMC with the atomizer, or of the request engine, to
node 0x7F (R211, R226). A router discards any other packet that carries mc = 1 (log 50). -/
def mcOk (k : Packet) : Bool :=
  k.mc && k.dstNode == 0x7F && decide (0x70 ≤ k.srcNode.toNat) && decide (k.srcNode.toNat < 0x74) &&
    (k.srcUnit == 24 || k.srcUnit == 25) && (k.opcode == 0x01 || k.opcode == 0x02)

/-- Write instruction words of a core: only while it is halted (R38). Words are 8 B: an offset is taken down to its word and a length
that is no multiple of 8 B loses its tail; the spec states neither case (DESIGN CHOICE, log 54). -/
def Panel.imemWrite (p : Panel) (c off : Nat) (bs : List Byte) : Panel :=
  if !p.halted c then p.reportCore c 0x0102 clsInfo
  else
    { p with st := { p.st with imem := (List.range (bs.length / 8)).foldl (fun m i =>
        let a := off / 8 + i
        if a < imemWords then smPut m 0 (c * imemWords + a) (BitVec.ofNat 64 (wordAt bs i)) else m) p.st.imem } }

/-- A die takes a multicast (R226, R228): the selected units take it, a fenced core does not, and the status says so. A write that a
unit has no place for, and an instruction memory write that is not the PMC's, are ADDRESS_ERROR (log 9). -/
def Panel.takeMc (p : Panel) (die : Nat) (k : Packet) : Panel × Nat :=
  let w := mcMask k
  let bs := k.payload.map (·, k.poison)
  let off := k.addr.toNat
  let fits (size : Nat) : Bool := decide (off + bs.length ≤ size)
  let put (p : Panel) (pa : Nat) : Panel × Nat :=
    let st := p.accessStatus pa bs.length
    if st = 0 then (p.storePa pa bs, 0) else (p, st)
  let join (a b : Nat) : Nat := if a = 2 ∨ b = 2 then 2 else max a b
  let cores := upTo 16 (bit w)
  match mcKind k with
  | 0 =>
    cores.foldl (fun acc i =>
      let (p, st) := if fits 0x1000000 then put acc.1 (scratchPa (die * 16 + i) off) else (acc.1, 1)
      (p, join acc.2 st)) (p, 0)
  | 1 =>
    (upTo 2 fun i => bit w (16 + i)).foldl (fun acc i =>
      let (p, st) := if fits 0x8000000 then put acc.1 (cmemPa die i off) else (acc.1, 1)
      (p, join acc.2 st)) (p, 0)
  | 2 =>
    if k.srcUnit ≠ 24 ∨ !fits (8 * imemWords) then (p, 1)
    else
      cores.foldl (fun acc i =>
        let c := die * 16 + i
        if acc.1.isFenced c then (acc.1, 2) else (acc.1.imemWrite c off k.payload, acc.2)) (p, 0)
  | _ =>
    cores.foldl (fun acc i =>
      let c := die * 16 + i
      if acc.1.isFenced c then (acc.1, 2)
      else (acc.1.tokenAdd c (bits k.w2.toNat 47 43) (bits k.w2.toNat 63 48), acc.2)) (p, 0)

/-- Deliver a multicast to a die, whose router answers it (R228). -/
def Panel.deliverMc (p : Panel) (die : Nat) (k : Packet) : Panel :=
  let (p, st) := p.takeMc die k
  p.answer { k with dstNode := BitVec.ofNat 7 die } (if k.opcode = 0x02 then 0x0A else 0x09) st

/-- Target dies of a multicast (R226). -/
def Panel.mcDies (p : Panel) (k : Packet) : List Nat :=
  (if mcByGroup k then p.groupDies (mcGroup k) else upTo 64 (bit k.w3.toNat)).filter fun d => p.hasDie d && p.nodeUp d

/-- Answers that the source of a multicast counts (R228): the mask's population, or the group's member count. -/
def Panel.mcExpected (p : Panel) (k : Packet) : Nat :=
  if mcByGroup k then p.fget F.PNW_MC_UNIT_members 0 (mcGroup k) else popcount 64 k.w3.toNat

/-- A multicast of a hub unit, made whole: its targets take it, and its source counts their answers (R226, R228; log 10). The
statuses that came, and whether all that were counted on did. -/
def Panel.multicast (p : Panel) (k : Packet) : Panel × List Nat × Bool :=
  let r := (p.mcDies k).foldl (fun (acc : Panel × List Nat) d =>
    let (p, st) := acc.1.takeMc d k
    (p, acc.2 ++ [st])) (p, [])
  (r.1, r.2, r.2.length == p.mcExpected k)

/-- Word 2 of a multicast (R210). -/
def mcWord (inc counter : Nat) (group : Option Nat) (kind mask : Nat) : W64 :=
  BitVec.ofNat 64 (inc * 2 ^ 48 + counter * 2 ^ 43 + b2n group.isSome * 2 ^ 26 + group.getD 0 * 2 ^ 20 + kind * 2 ^ 18 + mask)

/-- A multicast packet of a unit of a hub (R211, R226): a write of bytes to an offset of each unit, or a post of none. -/
def mcPacket (hub unit opcode : Nat) (w2 : W64) (dies : Nat) (off : Nat) (bs : List Byte) : Packet :=
  { plainPacket opcode 0 (hubNode hub) unit 0x7F 0 with
    mc := true, length := BitVec.ofNat 10 bs.length, addr := BitVec.ofNat 56 off, w2 := w2, w3 := BitVec.ofNat 64 dies,
    payload := bs }

/-- The mask of a logical rectangle of dies, rows r0 to r1 and columns c0 to c1 (R226). -/
def rectMask (r0 r1 c0 c1 : Nat) : Nat :=
  sumL ((upTo 64 fun d => decide (r0 ≤ d / 8 ∧ d / 8 ≤ r1 ∧ c0 ≤ d % 8 ∧ d % 8 ≤ c1)).map (2 ^ ·))

/-- Bytes in payloads of at most 512 (R209). -/
def payloads : Nat → List Byte → List (List Byte)
  | 0, _ => []
  | n + 1, bs => if bs.isEmpty then [] else bs.take 512 :: payloads n (bs.drop 512)

/-- A router replicates a multicast packet and delivers its own part (R227). -/
def Panel.replicate (p : Panel) (node born : Nat) (room : Room) (k : Packet) : Panel :=
  let send (p : Panel) (q : Nat) (k : Packet) : Panel :=
    match p.neighbour node q with
    | some m => { p with net := { p.net with flying := p.net.flying ++ [⟨node, m, k, born, some room⟩] } }
    | none => p
  if mcByGroup k then
    let e := (p.get .PNW_MC_ENTRY node (mcGroup k)).toNat
    if !bit e 63 then p.reportNode node 0x0302 clsInfo
    else
      let p := (upTo 14 (bit e)).foldl (fun p q => send p q { k with vc := k.vc || bit e 17 }) p
      if bit e 16 then p.deliverMc node k else p
  else
    let dies := upTo 64 (bit k.w3.toNat)
    let far := dies.filter (· != node)
    let p := if far.any fun d => (p.routePort node d).isNone then p.reportNode node 0x0302 clsInfo else p
    let p := (List.range 14).foldl (fun p q =>
      let ds := far.filter fun d => p.routePort node d == some q
      if ds.isEmpty then p
      else
        let up := ds.any fun d => bit (p.get .PNW_ROUTE node d).toNat 4
        send p q { k with w3 := BitVec.ofNat 64 (sumL (ds.map (2 ^ ·))), vc := k.vc || up }) p
    if dies.contains node && p.nodeUp node then p.deliverMc node k else p

/-! ### Routers (R209, R214 to R218, R222, R224) -/

/-- The packet comes to a router over a port: from a neighbour that sends it there, or from a unit of its own. -/
def Panel.onLink (p : Panel) (node port : Nat) (f : Flying) : Bool :=
  if port = portLocal then f.holder == node && f.room.isNone
  else f.next == node && f.holder != node && p.neighbour node port == some f.holder

/-- Packets that come over a port on the channel of k, first to last (R214). The branches of multicasts wait for nobody (R227). -/
def Panel.channel (p : Panel) (node port : Nat) (k : Packet) : List Flying :=
  p.net.flying.filter fun f => p.onLink node port f && chanOf f.p == chanOf k && f.p.mc == k.mc

/-- The packet waits behind another of its channel (R214). -/
def Panel.behind (p : Panel) (node port : Nat) (k : Packet) : Bool :=
  let l := p.channel node port k
  !k.mc && (l.any (·.p == k)) && !(l.head?.any (·.p == k))

/-- The packet in flight that a router takes from a port. Flits that fail their check may spell another packet than was sent: they
are then the first packet's of the channel, or of the port. -/
def Panel.arriving (p : Panel) (node port : Nat) (k : Packet) (good : Bool) : Option Flying :=
  let l := p.channel node port k
  match l.find? (·.p == k) with
  | some f => some f
  | none => if good then none else (l.head?).or (p.net.flying.find? (p.onLink node port))

/-- The source router sends nothing (R224): the node, core or address is not in the shape, or an RD, WR or TPOST is meant for
register space. -/
def Panel.refusedAtSource (p : Panel) (k : Packet) : Bool :=
  let away := !p.hasNode k.dstNode.toNat
  match k.opcode.toNat with
  | 0x00 => away || (p.windowOf k.addr.toNat).isNone
  | 0x01 => away || (p.windowOf k.addr.toNat).isNone
  | 0x02 => away || inRegs k.addr.toNat || !p.hasCore (bits k.w2.toNat 9 0)
  | 0x18 => away || !inRegs k.addr.toNat
  | 0x19 => away || !inRegs k.addr.toNat
  | _ => false

/-- ADDRESS_ERROR goes back to the unit of the router that gave it the request (R224). -/
def Panel.refuse (p : Panel) (node : Nat) (k : Packet) : Panel :=
  p.inject node { answerPacket k (if k.tclass = 3 then 0x1C else 0x0B) 1 [] false with
    srcNode := BitVec.ofNat 7 node, dstNode := BitVec.ofNat 7 node }

/-- The atomizer sends a part of a service image (R283): in service, its multicasts to instruction memory are the image in the order it
sends them, and one to offset 0 begins an image (log 51). -/
def Panel.imagePart (p : Panel) (k : Packet) : Panel :=
  if mcOk k && mcKind k == 2 && k.srcUnit == 24 && k.opcode == 0x01 && p.fget F.PMC_STAGE_stage == 0xA then
    { p with image := (if k.addr = 0 then [] else p.image) ++ k.payload }
  else p

/-- A multicast is delivered at every target die (R226, R228); one that no router has seen yet is a part of an image as it is sent. -/
def Panel.deliverAll (p : Panel) (k : Packet) : Panel :=
  if !mcOk k then p
  else
    let p := if p.net.flying.any (·.p == k) then p.takePacket k else p.imagePart k
    (p.mcDies k).foldl (fun p d => p.deliverMc d k) p

/-- A unit of a hub that sends a request waits for its answers, as many as a multicast counts on (R223, R228). -/
def Panel.awaitHub (p : Panel) (node : Nat) (k : Packet) : Panel :=
  let mine := decide (0x70 ≤ node) && decide (node < 0x74) && decide (24 ≤ k.srcUnit.toNat) && (k.tclass == 0 || k.tclass == 3) &&
    [0x00, 0x01, 0x02, 0x18, 0x19].contains k.opcode.toNat
  let kind : WaitKind := if k.mc then .multicast (p.mcExpected k) else .hub
  if mine && !p.net.waiting.any (fun w => w.node == node && w.unit == k.srcUnit.toNat && w.tag == k.tag) then
    { p with net := { p.net with waiting := p.net.waiting ++ [⟨node, k.srcUnit.toNat, k.tag, kind⟩] } }
  else p

/-- A router takes a packet whose flits are all good: it forwards, replicates, keeps it for delivery, refuses or discards it. -/
def Panel.routePacket (p : Panel) (node port born : Nat) (room : Room) (k : Packet) : Panel :=
  let keep (p : Panel) (nxt : Nat) (k : Packet) : Panel :=
    Panel.noteHighWater
      { p with net := { p.net with flying := p.net.flying ++ [⟨node, nxt, k, born, some room⟩] } } node
  if !opcodeOk k || (k.mc && !mcOk k) then p.reportNode node 0x0302 clsInfo
  else if k.mc then ((if port = portLocal then p.imagePart k else p).replicate node born room k).noteHighWater node
  else if port = portLocal ∧ p.refusedAtSource k then p.refuse node k
  else if k.dstNode.toNat = node then keep p node k
  else
    match p.routePort node k.dstNode.toNat with
    | none => p.reportNode node 0x0302 clsInfo
    | some q =>
      match p.neighbour node q with
      | none => p
      | some m => keep p m { k with vc := k.vc || bit (p.get .PNW_ROUTE node k.dstNode.toNat).toNat 4 }

/-- ROUTER_PACKET_RECEIVE (R209, R214, R215, R220, R222): a router takes a whole packet for which the sender has credits, and checks
every flit. While injection is paused it takes no request or accord packet from its LOCAL port. -/
def execRouterPacketReceive (node port : Nat) (flits : List (List Byte × BitVec 16)) (s : State) :
    Host.Outcome State Fault Refusal :=
  .next (s.upd fun p =>
    let k := packetOf (flits.map (·.1))
    let good := flits.all fun f => flitCrc f.1 == f.2
    let held := p.flag F.PNW_POOL_STATUS_paused node && port == portLocal && (k.tclass == 0 || k.tclass == 2)
    if !p.routers.contains node || flits.isEmpty || held || p.behind node port k then p
    else
      match p.creditsFor node port (chanOf k) flits.length with
      | none => p
      | some room =>
        let f := p.arriving node port k good
        let born := (f.map (·.born)).getD p.net.nextBorn
        let p := { p with net := { p.net with
          flying := match f with | some f => p.net.flying.erase f | none => p.net.flying
          nextBorn := max p.net.nextBorn (born + 1) } }
        if good then (if port = portLocal then p.awaitHub node k else p).routePacket node port born room k
        else if port < 15 then
          let p := { p with pmc := { p.pmc with ceCounts := countOne p.pmc.ceCounts (4096 + p.endOf node * 16 + port) } }
          (p.addHold F.PNW_PORT_STATUS_crc_discards 1 node port).reportLink node port 0x0301 clsInfo
        else p.reportNode node 0x0301 clsInfo)

/-! ### Requests at their home (R212, R213, R225) -/

/-- PKT_RD (R212, R213). -/
def execPktRd (k : Packet) (s : State) : Host.Outcome State Fault Refusal :=
  .next (s.upd fun p =>
    if !p.nodeUp k.dstNode.toNat || p.early k then p
    else
      let p := p.takePacket k
      let st := p.accessStatus k.addr.toNat k.length.toNat
      if st ≠ 0 then p.answer k 0x0B st
      else
        let (bs, pz, p) := p.readRange k.addr.toNat k.length.toNat
        p.answer k 0x08 0 bs pz)

/-- PKT_WR (R178, R212, R213, R228): a multicast write acts on every target die. -/
def execPktWr (k : Packet) (s : State) : Host.Outcome State Fault Refusal :=
  .next (s.upd fun p =>
    if k.mc then p.deliverAll k
    else if !p.nodeUp k.dstNode.toNat || p.early k then p
    else
      let p := p.takePacket k
      let st := p.accessStatus k.addr.toNat k.payload.length
      if st ≠ 0 then p.answer k 0x0B st
      else (p.storePa k.addr.toNat (k.payload.map (·, k.poison))).answer k 0x09 0)

/-- PKT_TPOST (R57, R59, R225, R228). -/
def execPktTpost (k : Packet) (s : State) : Host.Outcome State Fault Refusal :=
  .next (s.upd fun p =>
    if k.mc then p.deliverAll k
    else if !p.nodeUp k.dstNode.toNat || p.early k then p
    else
      let p := p.takePacket k
      let w := k.w2.toNat
      let c := bits w 9 0
      if !p.hasCore c || inRegs k.addr.toNat then p.answer k 0x0B 1
      else if p.isFenced c then p.answer k 0x0B 2
      else (p.tokenAdd c (bits w 14 10) (bits w 30 15)).answer k 0x0A 0)

/-! ### Responses (R59, R60, R68, R108, R223, R225) -/

/-- The core a response is for, where it is for a core. -/
def responseCore (k : Packet) : Option Nat :=
  if k.dstNode.toNat < 0x40 ∧ k.srcUnit.toNat < 16 then some (k.dstNode.toNat * 16 + k.srcUnit.toNat) else none

/-- A response that nothing waits for is discarded by the requester's router and counted at its LOCAL port (R223, R225). -/
def Panel.lateResponse (p : Panel) (k : Packet) : Panel :=
  p.addHold F.PNW_PORT_STATUS_late_responses 1 k.dstNode.toNat portLocal

/-- A response ends or advances what waits for it. `f` is what a match does. -/
def Panel.response (p : Panel) (k : Packet) (f : Panel → Waiting → Option Panel) : Panel :=
  if !p.nodeUp k.dstNode.toNat || p.early k then p
  else
    let p := p.takePacket k
    let fenced := match responseCore k with | some c => p.isFenced c | none => false
    match p.net.waiting.find? fun w => w.node == k.dstNode.toNat && w.unit == k.srcUnit.toNat && w.tag == k.tag with
    | some w => if fenced then p.lateResponse k else (f p w).getD (p.lateResponse k)
    | none => p.lateResponse k

/-- Stop waiting for one thing. -/
def Panel.endWait (p : Panel) (w : Waiting) : Panel := p.unawait (· == w)

/-- One answer of a multicast (R228). -/
def Panel.mcAnswer (p : Panel) (w : Waiting) (left : Nat) : Panel :=
  if left ≤ 1 then p.endWait w
  else
    { p with net := { p.net with
        waiting := p.net.waiting.map fun x => if x = w then { w with kind := .multicast (left - 1) } else x } }

/-- The completion post of an accord slot is answered (R238). -/
def Panel.postAnswer (p : Panel) (w : Waiting) (slot : Nat) (ok : Bool) : Panel :=
  (p.endWait w).modAcc w.node slot fun x => { x with postOk := some ok }

/-- A row of an accord delivery is answered (R238). -/
def Panel.rowAnswer (p : Panel) (w : Waiting) (slot : Nat) (ok : Bool) : Panel :=
  (p.endWait w).modAcc w.node slot fun x => if ok then { x with rowsLeft := x.rowsLeft - 1 } else { x with rowFailed := true }

/-- An answer goes on to a guest, its data out of the guest's bucket; beyond the bucket it waits, in order (R468, R469). -/
def Panel.toGuest (p : Panel) (site : Nat) (k : Packet) : Panel :=
  let g := p.guestSite site
  if g.back.isEmpty && decide (k.payload.length ≤ g.bucket) then
    (p.setGuest site { g with bucket := g.bucket - k.payload.length }).emit (.guest site k)
  else p.setGuest site { g with back := g.back ++ [k] }

/-- The answer goes on to the guest that sent the request (R468). -/
def Panel.guestAnswer (p : Panel) (w : Waiting) (site : Nat) (tag : BitVec 16) (k : Packet) : Panel :=
  (p.endWait w).toGuest site { k with tag := tag }

/-- PKT_RD_DATA (R212). -/
def execPktRdData (k : Packet) (s : State) : Host.Outcome State Fault Refusal :=
  .next (s.upd fun p => p.response k fun p w =>
    match w.kind with
    | .dma .. => some p
    | .hub => some (p.endWait w)
    | .guest site tag => some (p.guestAnswer w site tag k)
    | _ => none)

/-- PKT_WR_ACK (R212, R228, R238). -/
def execPktWrAck (k : Packet) (s : State) : Host.Outcome State Fault Refusal :=
  .next (s.upd fun p => p.response k fun p w =>
    match w.kind with
    | .dma .. => some p
    | .hub => some (p.endWait w)
    | .guest site tag => some (p.guestAnswer w site tag k)
    | .accordRow slot _ => some (p.rowAnswer w slot true)
    | .multicast n => some (p.mcAnswer w n)
    | _ => none)

/-- PKT_TPOST_ACK (R59, R228, R238): the posting core retires the post. -/
def execPktTpostAck (k : Packet) (s : State) : Host.Outcome State Fault Refusal :=
  .next (s.upd fun p => p.response k fun p w =>
    match w.kind with
    | .post c _ => some ((p.endWait w).modCore c fun k => { k with postsOut := k.postsOut - 1 })
    | .accordPost slot => some (p.postAnswer w slot true)
    | .guest site tag => some (p.guestAnswer w site tag k)
    | .multicast n => some (p.mcAnswer w n)
    | _ => none)

/-- An operation of a core ends without success. -/
def Panel.opFailed (p : Panel) (w : Waiting) (postCause : Nat) : Panel :=
  match w.kind with
  | .post c t =>
    (((p.endWait w).modCore c fun k => { k with postsOut := k.postsOut - 1 })).raiseAsync c postCause t
  | .dma c n => p.dmaFailed c n
  | .send c n =>
    match (p.core c).closing.find? (·.seq == n) with
    | some o => (p.sendFailed c o).mxAdvance c
    | none => p.endWait w
  | .accordRow slot _ => p.rowAnswer w slot false
  | .accordPost slot => p.postAnswer w slot false
  | .multicast n => p.mcAnswer w n
  | .hub => p.endWait w
  | .guest .. => p.endWait w

/-- PKT_NAK (R60, R68, R108, R213, R238). -/
def execPktNak (k : Packet) (s : State) : Host.Outcome State Fault Refusal :=
  .next (s.upd fun p => p.response k fun p w =>
    match w.kind with
    | .guest site tag => some (p.guestAnswer w site tag k)
    | _ => some (p.opFailed w asyncPost))

/-- NETWORK_OP_TIMEOUT (R60, R68, R108, R223): no response in time. During a drain no timer runs (R221). The accesses of a DMA
operation share one tag (log 10). -/
def execNetworkOpTimeout (node unit : Nat) (tag : BitVec 16) (s : State) : Host.Outcome State Fault Refusal :=
  .next (s.upd fun p =>
    if p.flag F.PNW_DRAIN_STATUS_in_progress then p
    else
      match p.net.waiting.find? fun w => w.node == node && w.unit == unit && w.tag == tag with
      | none => p
      | some w =>
        match w.kind with
        | .multicast _ => p.endWait w
        | _ => p.opFailed w asyncPostTimeout)

/-! ### Lost links and the drain (R217, R220, R221, R242) -/

/-- A lost link: down at both ends, each of which reports it for its own port (R349); what was flying to its other end over it is
discarded (R242), and the PMC writes new routes into the shadow banks (R220 step 1). -/
def Panel.loseLink (p : Panel) (node port : Nat) : Panel :=
  let e := p.endOf node
  let far := p.neighbour node port
  let p := { p with bring := { p.bring with linksFailed := p.bring.linksFailed ++ [(e, port)] } }
  let p := p.reportLink node port 0x0305 clsUF
  let p := match far with
    | some m => p.reportLink m (portBack e (p.endOf m)) 0x0305 clsUF
    | none => p
  let crosses (f : Flying) : Bool := f.next != f.holder && match far with
    | some m => (f.holder == node && f.next == m) || (f.holder == m && f.next == node)
    | none => false
  let p := { p with net := { p.net with flying := p.net.flying.filter fun f => !crosses f, swapDue := true } }
  (p.writePorts).writeRoutes true

/-- LINK_DOWN (R242). -/
def execLinkDown (node port : Nat) (s : State) : Host.Outcome State Fault Refusal :=
  .next (s.upd fun p => if (p.neighbour node port).isSome && p.routers.contains node then p.loseLink node port else p)

/-- A multicast branch is abandoned (R229). -/
def Panel.abandon (p : Panel) (node : Nat) (f : Flying) : Panel :=
  let p := { p with net := { p.net with flying := p.net.flying.erase f } }
  if mcByGroup f.p then
    let port := ((List.range 14).find? fun q => p.neighbour node q == some f.next).getD portNone
    p.reportNode node 0x0304 clsInfo (some (mcGroup f.p)) (some port)
  else p.reportNode node 0x0304 clsInfo (some f.p.w3.toNat)

/-- A swap waits while no primary PMC exists (R377). -/
def Panel.swapHeld (p : Panel) : Bool := p.net.swapDue &&
  !(p.hubUp p.primaryHub && !p.pmc.restarting.contains p.primaryHub && !p.pmc.halted.contains p.primaryHub)

/-- A branch of a multicast that cannot get the credits of the link it waits for (R215, R229). -/
def Panel.mcBlocked (p : Panel) (f : Flying) : Bool :=
  f.p.mc && f.room.isSome && f.holder != f.next &&
    (p.creditsFor f.next (portBack (p.endOf f.holder) (p.endOf f.next)) (chanOf f.p) (flitCount f.p)).isNone

/-- DRAIN_PAUSE (R220 step 2): the branches of multicasts held then are abandoned (R221). -/
def execDrainPause (s : State) : Host.Outcome State Fault Refusal :=
  .next (s.upd fun p =>
    if p.flag F.PNW_DRAIN_STATUS_in_progress || p.swapHeld then p
    else
      let p := p.routers.foldl (fun p n => p.fput F.PNW_POOL_STATUS_paused 1 n) p
      let p := (p.net.flying.filter p.mcBlocked).foldl (fun p f => p.abandon f.holder f) p
      (p.fput F.PNW_DRAIN_STATUS_in_progress 1).fput F.PNW_DRAIN_STATUS_last_discards 0)

/-- The banks of every router swap (R220 step 4). -/
def Panel.swapBanks (p : Panel) : Panel :=
  p.routers.foldl (fun p n => (List.range 128).foldl (fun p d =>
    let a := p.get .PNW_ROUTE n d
    let b := p.get .PNW_ROUTE_SHADOW n d
    (p.put .PNW_ROUTE b n d).put .PNW_ROUTE_SHADOW a n d) p) p

/-- DRAIN_TIMEOUT (R220): a router not empty discards every packet it holds. -/
def execDrainTimeout (node : Nat) (s : State) : Host.Outcome State Fault Refusal :=
  .next (s.upd fun p =>
    if !p.flag F.PNW_DRAIN_STATUS_in_progress || p.poolEmpty node then p
    else
      let n := (p.pool node).length
      let p := { p with net := { p.net with flying := p.net.flying.filter fun f => !f.inPool node } }
      let p := p.addHold F.PNW_DRAIN_STATUS_last_discards n
      p.reportPanel (p.reportHub node) 0x0303 clsInfo (some n))

/-- MC_HOLD_EXPIRE (R229): the k-th multicast branch held by a router is abandoned. -/
def execMcHoldExpire (node k : Nat) (s : State) : Host.Outcome State Fault Refusal :=
  .next (s.upd fun p =>
    if p.flag F.PNW_DRAIN_STATUS_in_progress then p
    else
      match (p.net.flying.filter fun f => f.inPool node && f.p.mc)[k]? with
      | some f => p.abandon node f
      | none => p)

/-- A write of PNW_MC_CONTROL (R230, R244): apply computes, or withdraws, the group's tree. -/
def Panel.mcControl (p : Panel) (v : W64) : Panel :=
  let g := F.PNW_MC_CONTROL_group.read v
  let p := p.fput F.PNW_MC_CONTROL_group g
  if !bit v.toNat F.PNW_MC_CONTROL_apply.lo then p
  else if !p.flag F.PNW_MC_UNIT_enable 0 g then
    let p := { p with net := { p.net with groups := smDel p.net.groups g } }
    ((p.clearGroup g).fput F.PNW_MC_UNIT_members 0 0 g).fput F.PNW_MC_CONTROL_error 0
  else if !(p.definedDies g).all p.hasDie then p.fput F.PNW_MC_CONTROL_error 1
  else
    let p := { p with net := { p.net with groups := smSet p.net.groups g (p.get .PNW_MC_DEF 0 g) } }
    ((p.writeGroup g).fput F.PNW_MC_UNIT_members (p.groupDies g).length 0 g).fput F.PNW_MC_CONTROL_error 0

/-- MC_GROUP_APPLY (R230). -/
def execMcGroupApply (src : Writer) (v : W64) (s : State) : Host.Outcome State Fault Refusal :=
  .next (s.upd fun p => p.asWriter src fun p => p.mcControl v)

end Sys2Proof.Machine
end

