-- ==== Sys2Proof/Machine/Rqe.lean ====
section
/-! DEFINITION. The request engine at work (chapter 09): its configuration, enable and its checks (R277, R310), inputs and
formation (R250, R256), hot paging (R268), starting a step (R261), polling and checking results (R264), retry (R272, R273),
commit (R266) and replay (R301). The commands are in RqeCmd. The engine's own accesses are made whole (log 10). -/

namespace Sys2Proof.Machine

/-! ### Configuration -/

def Panel.kvBase (p : Panel) : Nat := p.fget F.RQE_KV_BASE_base * 2 ^ 18
def Panel.kvPages (p : Panel) : Nat := p.fget F.RQE_KV_CONFIG_pages
def Panel.stateBase (p : Panel) : Nat := p.fget F.RQE_STATE_CONFIG_state_base * 4096

/-- The configuration in force; a divisor of 0 is refused at enable and reads as 1 here. -/
def Panel.rqeCfg (p : Panel) : RqeCfg :=
  ⟨p.kvPages, p.fget F.MIR_GUEST_PAGES_first, p.fget F.MIR_GUEST_PAGES_count, 2 ^ p.fget F.RQE_KV_CONFIG_tpg_log2,
    max 1 (p.fget F.RQE_KV_CONFIG_ppg), 2 ^ p.fget F.RQE_STATE_CONFIG_max_pages_log2, p.slotsOf false + p.slotsOf true⟩

/-- Address of page table entry j of a context (R255). -/
def Panel.tableAddr (p : Panel) (c j : Nat) : Nat := p.stateBase + (c * p.rqeCfg.maxPages + j) * 4

/-- Address of the token of a context at a position (R255). -/
def Panel.tokenAddr (p : Panel) (c t : Nat) : Nat :=
  p.stateBase + 65536 * p.rqeCfg.maxPages * 4 + (c * p.rqeCfg.maxPos + t) * 4

def Panel.stateSize (p : Panel) : Nat := 65536 * p.rqeCfg.maxPages * 4 + 65536 * p.rqeCfg.maxPos * 4

/-- Bytes of populated HBM (R33). -/
def Panel.hbmTop (p : Panel) : Nat := if p.shapeValid then p.nStacks * p.stackGib * 2 ^ 30 else 0

/-- The policy registers in force (R277). -/
def Panel.policyNow (p : Panel) : List W64 :=
  [p.get .RQE_BATCH, p.get .RQE_STEP_CONFIG, p.get .RQE_KV_CONFIG] ++ (List.range 8).map fun n => p.get .RQE_PRIO 0 n

/-- Write to a panel address; false where the home refuses it. -/
def Panel.tryStore (p : Panel) (pa : Nat) (bs : List Byte) : Panel × Bool :=
  if p.accessStatus pa bs.length = 0 then (p.storePa pa (bs.map (·, false)), true) else (p, false)

/-- Several writes, all of which must be acknowledged. -/
def Panel.tryStores (p : Panel) (ws : List (Nat × List Byte)) : Panel × Bool :=
  ws.foldl (fun acc w => let (p, ok) := acc.1.tryStore w.1 w.2; (p, acc.2 && ok)) (p, true)

/-- A multicast group is applied (R230). -/
def Panel.groupApplied (p : Panel) (g : Nat) : Bool := p.fget F.PNW_MC_UNIT_members 0 g != 0

/-- Participating dies (R258). -/
def Panel.stepDies (p : Panel) : List Nat := p.groupDies (p.fget F.RQE_MBOX_CONFIG_desc_group)

/-- Participating clusters, as die and cluster. -/
def Panel.stepClusters (p : Panel) : List (Nat × Nat) := p.stepDies.flatMap fun d => [(d, 0), (d, 1)]

/-- Logical cores of the participating clusters. -/
def Panel.stepCores (p : Panel) : List Nat := p.stepDies.flatMap fun d => (List.range 16).map (d * 16 + ·)

/-- Mailbox buffer of step n in a cluster (R258). -/
def Panel.mbox (p : Panel) (n die cl : Nat) : Nat := cmemPa die cl ((p.fget F.RQE_MBOX_CONFIG_mbox_mib + n % 2) * 2 ^ 20)

def Panel.resultMbox (p : Panel) (n : Nat) : Nat :=
  p.mbox n (p.fget F.RQE_STEP_CONFIG_result_die) (p.fget F.RQE_STEP_CONFIG_result_cluster)

/-- Show the fields of a hub's status registers that follow an engine's contexts and pages (R277). -/
def Panel.showEngineAs (p : Panel) (hub : Nat) (e : Engine) : Panel :=
  let free := e.free p.rqeCfg
  let p := p.fput F.RQE_STATUS_contexts_in_use e.ctxs.length hub
  let p := p.fput F.RQE_STATUS_attempt (match e.step with | some s => s.attempt.toNat | none => 0) hub
  let p := p.fput F.RQE_KV_FREE_free free hub
  p.fput F.RQE_KV_FREE_low_water (min free (p.fget F.RQE_KV_FREE_low_water hub)) hub

def Panel.showEngine (p : Panel) (hub : Nat) : Panel := p.showEngineAs hub (p.eng hub)

def Panel.inSync (p : Panel) : Bool := p.flag F.RQE_STBY_STATUS_in_sync 0

def Panel.replaying (p : Panel) (hub : Nat) : Bool := p.flag F.RQE_REPLAY_STATUS_active hub

/-! ### Enable (R246, R277, R300, R310) -/

def overlaps (a alen b blen : Nat) : Bool := decide (a < b + blen) && decide (b < a + alen)

/-- config_error of the checks at enable, 0 where they pass (R277, R446): areas, geometry, groups, mailboxes, regions. -/
def Panel.enableError (p : Panel) : Nat :=
  let kvLen := p.kvPages * 0x40000
  let ppg := p.fget F.RQE_KV_CONFIG_ppg
  let mpl := p.fget F.RQE_STATE_CONFIG_max_pages_log2
  let mm := p.fget F.RQE_MBOX_CONFIG_mbox_mib
  if 7077888 < p.kvPages ∨ p.hbmTop < p.kvBase + kvLen then 1
  else if ppg = 0 ∨ 12 < p.fget F.RQE_KV_CONFIG_tpg_log2 ∨ 16 < mpl ∨ 2 ^ mpl < ppg then 5
  else if p.hbmTop < p.stateBase + p.stateSize ∨ overlaps p.kvBase kvLen p.stateBase p.stateSize then 2
  else if !p.groupApplied (p.fget F.RQE_MBOX_CONFIG_desc_group) ∨ !p.groupApplied (p.fget F.RQE_MBOX_CONFIG_start_group) ∨
      !p.stepDies.contains (p.fget F.RQE_STEP_CONFIG_result_die) then 4
  else if 126 < mm ∨ !p.regionsOk ∨ p.stepClusters.any (fun x =>
      decide (mm < p.fget F.CD_CMEM_PART_rc_mib x.1 x.2 + p.fget F.CD_CMEM_PART_kv_mib x.1 x.2)) then 3
  else 0

/-- The ring does not lie in populated HBM, or overlaps the page area or the state area (R310). -/
def Panel.ringError (p : Panel) : Bool :=
  let len := p.ringUnits * 64
  decide (p.hbmTop < p.ringBase + len) || overlaps p.ringBase len p.kvBase (p.kvPages * 0x40000) ||
    overlaps p.ringBase len p.stateBase p.stateSize

def replayPlan : Nat := 1
def replayChain : Nat := 2
def replayLevel : Nat := 3
def replayStall : Nat := 4
def replayFormat : Nat := 5

/-- Error of starting a replay of a log, 0 where none; and whether the build differs: another image or another shape, which is the
logical mesh (R29, R300). -/
def Panel.replayError (p : Panel) (log : List IngressRec) : Nat × Bool :=
  match log with
  | [] => (replayFormat, false)
  | r :: _ =>
    let w := ofBytes (r.body.take 8)
    let img := digestOf (r.body.drop 8)
    let plan := digestOf (r.body.drop 56)
    if r.type.toNat ≠ recServiceOpen ∨ r.seq ≠ 0 ∨ r.step ≠ 0 ∨ r.chained 0 ≠ r.digest then (replayFormat, false)
    else if bits w 47 40 ≠ p.fget F.PMC_FLACON_STATUS_behaviour_level then (replayLevel, false)
    else if plan ≠ p.planDigest then (replayPlan, false)
    else
      (0, decide (img ≠ p.imageDigest) || decide (bits w 39 36 ≠ p.fget F.HUB_SHAPE_logical_rows % 16))

/-- An engine as it starts: no contexts, no pages in use, the policy registers in force. -/
def Panel.freshEngine (p : Panel) : Engine := { Engine.empty with policy := p.policyNow }

/-- HD3's engine passed its self-test and its hub runs the panel's flacon. -/
def Panel.qualifiesStandby (p : Panel) : Bool := p.hubUp 3 && p.bring.running.contains 3 && p.bring.hubsPassed.contains 3

/-- A hub's engine is standby, from a fresh state; its count of free pages starts with it. -/
def Panel.standBy (p : Panel) (hub : Nat) : Panel :=
  let p := (p.setEng hub p.freshEngine).setRole hub roleStandby
  (p.fput F.RQE_KV_FREE_low_water F.RQE_KV_FREE_low_water.max hub).showEngine hub

/-- The engine of a hub becomes active from a fresh state. HD3's is then standby, not yet in sync; with HD3 active there is no
standby until HD0 rejoins (R246, R274, R356). -/
def Panel.activate (p : Panel) (hub : Nat) : Panel :=
  let p := p.setEng hub p.freshEngine
  let p := p.fput F.RQE_CONTROL_enable 1 hub
  let p := p.fput F.RQE_STATUS_config_error 0 hub
  let p := p.bothEngines F.RQE_STEP_committed 0
  let p := p.bothEngines F.RQE_STBY_STATUS_in_sync 0
  let p := p.setRole hub roleActive
  let p := if hub = 0 && p.qualifiesStandby then p.standBy 3 else p
  let p := p.fput F.RQE_KV_FREE_low_water F.RQE_KV_FREE_low_water.max hub
  p.showEngine hub

/-- Start replaying the log in the ring (R300). -/
def Panel.enableReplay (p : Panel) (hub : Nat) : Panel :=
  let (log, p) := p.readLogAll
  let (err, cross) := if p.flag F.MIR_CONFIG_enable then (replayFormat, false) else p.replayError log
  let p := p.put .RQE_REPLAY_STATUS 0 hub
  if err ≠ 0 then p.fput F.RQE_REPLAY_STATUS_error err hub
  else
    let p := (p.fput F.RQE_REPLAY_STATUS_cross_build (b2n cross) hub).fput F.RQE_REPLAY_STATUS_active 1 hub
    let p := p.activate hub
    let p := p.setRole (3 - hub) roleOff
    { p with ing := { p.ing with replay := log.drop 1, expect := none
                                 replayDigest := match log with | r :: _ => r.digest | [] => 0 } }

/-- seq of the last ingress record (R299). -/
def Panel.lastSeq (p : Panel) : Nat := p.fget F.RQE_ILOG_SEQ_next_seq 0 - 1

/-- The serving state as the partner's guest store holds it (R385, R389). -/
def Panel.mirrorState (p : Panel) (hub : Nat) : MirrorState :=
  let e := p.eng hub
  ⟨e.ctxs.map (·.2), e.used, p.fget F.RQE_STEP_committed hub, p.lastSeq, p.ing.lastDigest, e.policy, e.nextIntake,
    e.nextAdmit, p.slotsOf false + p.slotsOf true, e.cold, p.mir.imports⟩

/-- What a partner knows an import that waits for a context by: a number past the contexts (R392, log 17). -/
def waitKey (x : CtxRec) : Nat := 65536 + x.ctx

/-- Advance the service epoch (R277). -/
def Panel.nextEpoch (p : Panel) (hub : Nat) : Panel :=
  p.bothEngines F.RQE_STEP_service_epoch (p.fget F.RQE_STEP_service_epoch hub + 1)

/-- Start serving: the log of the service epoch opens (R246, R277, R293). An engine that is enabled again in an epoch that has
its log opens a new epoch (log 12). A partner's guest store starts with it. -/
def Panel.enableService (p : Panel) (hub : Nat) : Panel :=
  let p := p.put .RQE_REPLAY_STATUS 0 hub
  let p := if p.ing.recs.isEmpty then p else p.nextEpoch hub
  let p := (p.activate hub).openLog
  let m := p.fget F.MIR_STATUS_state
  if m = 2 ∨ m = 3 then p.mirPush (.msg (.snapshot (p.mirrorState hub))) else p

/-- Under require_stream a new log overwrites no record of the log before it that the host has not stored (R298). -/
def Panel.oldLogStored (p : Panel) : Bool :=
  !(p.flag F.RQE_ILOG_CONFIG_stream_enable && p.flag F.RQE_ILOG_CONFIG_require_stream) ||
    p.ing.recs.all fun r => decide (r.seq < p.ing.stored)

/-- A write of 1 to RQE_CONTROL.enable (R277). The engine of the hub that does not serve becomes standby (log 12); one that is standby
goes on. The service opens once its first record can be written (R293). -/
def Panel.tryEnable (p : Panel) (hub : Nat) : Panel :=
  if p.flag F.RQE_CONTROL_enable hub then p
  else if p.role (3 - hub) = roleActive ∨ (p.bring.servingHd3 ≠ decide (hub = 3) ∧ p.hubUp (3 - hub)) then
    (if p.role hub = roleStandby then p else p.standBy hub).fput F.RQE_CONTROL_enable 1 hub
  else
    let err := p.enableError
    if err ≠ 0 then p.fput F.RQE_STATUS_config_error err hub
    else if p.ringError || (!p.flag F.RQE_REPLAY_CONTROL_replay && !p.openAnswers) then
      p.fput F.RQE_ILOG_STATUS_area_error 1 hub
    else if !p.flag F.RQE_REPLAY_CONTROL_replay && !p.oldLogStored then p.bothEngines F.RQE_ILOG_STATUS_stream_wait 1
    else
      let p := p.fput F.RQE_ILOG_STATUS_area_error 0 hub
      let p := (p.applyQueues false).applyQueues true
      if p.flag F.RQE_REPLAY_CONTROL_replay then p.enableReplay hub else p.enableService hub

/-! ### Stopping -/

/-- The engine forms nothing more (R273, R277, R301). -/
def Panel.stopEngine (p : Panel) (hub : Nat) : Panel :=
  let p := p.setRole hub roleStopped
  let p := p.fput F.RQE_STATUS_running 0 hub
  let p := p.bothEngines F.RQE_ILOG_STATUS_recording 0
  p.modEng hub fun e => { e with draining := false }

/-- STOPPED after failed attempts, reported as a UF (R273). -/
def Panel.rqeStopped (p : Panel) (hub : Nat) : Panel :=
  let n := match (p.eng hub).step with | some s => s.n | none => 0
  (p.stopEngine hub).reportPanel hub 0x0504 clsUF (some n)

/-! ### Inputs (R250, R274, R293) -/

/-- An input takes effect: the engine's decision, the prompt in the token log, its completions. -/
def Panel.actInput (p : Panel) (hub : Nat) (i : RqeInput) : Panel :=
  let (e, cs) := (p.eng hub).applyInput i
  let p := p.setEng hub e
  let p := match i with
    | .intake _ _ c _ pr => (p.tryStore (p.tokenAddr c 0) (pr.flatMap fun (t : W32) => toBytes 4 t.toNat)).1
    | .adopt x _ =>
      let p := (p.tryStore (p.tableAddr x.ctx 0) (x.pages.flatMap fun g => toBytes 4 g)).1
      (p.tryStore (p.tokenAddr x.ctx 0) (x.tokens.flatMap fun (t : W32) => toBytes 4 t.toNat)).1
    | _ => p
  p.deliver cs

/-- A record that follows a snapshot goes to a standby that is not in sync yet: nothing waits for it (R274). -/
def Panel.journalBehind (p : Panel) (hub : Nat) (r : JRec) : Panel :=
  p.modEng hub fun e =>
    if e.snapshotDone then { e with journal := e.journal ++ [r], unwaited := e.unwaited + 1 } else e

/-- The journal carries an input as it is applied, and it joins the deltas of the step (R274, R299, R387); without a standby in
sync its head advances at once (R274). -/
def Panel.journalInput (p : Panel) (hub n : Nat) (i : RqeInput) : Panel :=
  let r := JRec.input n i p.lastSeq p.ing.lastDigest
  let p := p.modEng hub fun e => { e with applied := e.applied ++ [r] }
  let p := match inputQueue i with
    | some (h, q) => p.headRecorded hub h q
    | none => p
  if p.inSync then p.modEng hub fun e => { e with journal := e.journal ++ [r] }
  else
    let p := p.journalBehind hub r
    match inputQueue i with
    | some (h, q) => p.headReady hub h q true
    | none => p

/-- A cancellation whose request has ended since it was taken is answered NOT_FOUND, with no record (DEDUCED, log 22). Until
it takes effect a cancellation carries the completion queue of its entry in place of a context. -/
def Panel.cancelLate (p : Panel) (hub : Nat) (i : RqeInput) : Panel :=
  match i with
  | .cancel h q cq tag => (p.headReady hub h q.toNat false).deliver [⟨0, h, cq, tag, [], 0, rsnNotFound, 0, false⟩]
  | _ => p

/-- Apply the inputs taken, in order, each once its record is in the log (R293, R298). With no room in the log it and the inputs after
it wait. A submission that finds no FREE context stays in its queue, and so do the entries behind it there and the submissions after it:
they are `kept` (R250). -/
def applyInputs (hub n : Nat) : List RqeInput → List RqeInput → Panel → Panel
  | [], kept, p => p.modEng hub fun e => { e with inputs := kept }
  | i :: l, kept, p =>
    let wait (p : Panel) : Panel := p.modEng hub fun e => { e with inputs := kept ++ i :: l }
    let isIntake := match i with | .intake .. => true | _ => false
    let behind := (isIntake && !kept.isEmpty) || (kept.any fun k => (inputQueue i).isSome && inputQueue k == inputQueue i)
    if behind then applyInputs hub n l (kept ++ [i]) p
    else
      match (p.eng hub).resolve i with
      | some i =>
        let (p, ok) := p.tryRecord (inputType i) n (inputBody i) (some i)
        if ok then applyInputs hub n l kept ((p.actInput hub i).journalInput hub n i) else wait p
      | none => if isIntake then applyInputs hub n l (kept ++ [i]) p else applyInputs hub n l kept (p.cancelLate hub i)

/-- The cancellations of a lost host's live requests, in ascending context, are inputs of the formation; what waited of its queues is
dropped (R447). -/
def Panel.lossInputs (p : Panel) (hub : Nat) (host : Bool) : Panel :=
  if (p.port host).lossDue then
    p.modEng hub fun e =>
      let of (i : RqeInput) : Bool := match i with | .intake h .. => h == host | .cancel h .. => h == host | _ => false
      let cs := (e.ctxs.filter fun x => x.2.host == host && !x.2.imported).map fun x =>
        RqeInput.cancel host x.2.queue x.1 x.2.tag
      { e with inputs := (e.inputs.filter fun i => !of i) ++ cs, taking := e.taking.filter (·.host != host)
               headsDue := e.headsDue.filter fun x => x.host != host || x.recorded || x.ready }
  else p

/-- Each failure of a cold move that is due is an input of the applying step, recorded once (R271); false where one could not be. -/
def Panel.recordColdFails (p : Panel) (hub n : Nat) : Panel × Bool :=
  (((p.eng hub).due n).filter fun m => m.result == some false && !m.logged).foldl (fun (acc : Panel × Bool) m =>
    if !acc.2 then acc
    else
      let i := RqeInput.coldFail m.copyIn m.ctx
      let (p, ok) := acc.1.tryRecord recColdFail n (inputBody i) (some i)
      if ok then
        ((p.modEng hub fun e => { e with cold := e.cold.map fun x => if x = m then { x with logged := true } else x }).journalInput
          hub n i, true)
      else (p, false)) (p, true)

/-- Import guest contexts, highest priority first, as long as contexts are FREE, each journaled as it stops waiting and takes its place
(R274, R392). One whose origin is this panel is its own again. -/
def Panel.importMore (p : Panel) (hub n : Nat) : Panel :=
  p.mir.imports.foldl (fun p x =>
    match (p.eng hub).freeCtx with
    | some c =>
      let e := p.eng hub
      let i := RqeInput.adopt
        { x with ctx := c, imported := decide (x.origin ≠ p.coord), admitSeq := e.nextAdmit, intakeSeq := e.nextIntake }
        (x.pages.filter fun g => !p.rqeCfg.isGuest g)
      let p := { p with mir := { p.mir with imports := p.mir.imports.filter (· != x) } }
      ((p.journalInput hub n (.depart [waitKey x])).actInput hub i).journalInput hub n i
    | none => p) p

/-! ### Hot paging (R268) -/

def hotKey (die cl : Nat) : Nat := die * 2 + cl

/-- Entries of a list of 8-byte entries up to the first with valid = 0: page and slot (R268). -/
def hotEntries : List Byte → Nat → List (Nat × Nat)
  | _, 0 => []
  | bs, n + 1 =>
    let w := ofBytes (bs.take 8)
    if bit w 63 then (bits w 22 0, bits w 40 32) :: hotEntries (bs.drop 8) n else []

/-- A list of 512 entries as bytes. -/
def hotBytes (l : List (Nat × Nat)) : List Byte :=
  (l.flatMap fun x => toBytes 8 (2 ^ 63 + x.2 * 2 ^ 32 + x.1)) ++ List.replicate (4096 - 8 * l.length) 0

/-- A page of a live request lies in a sealed group (R252). -/
def Engine.sealed (e : Engine) (g : RqeCfg) (pg : Nat) : Bool :=
  e.ctxs.any fun x => match x.2.pages.findIdx? (· == pg) with
    | some j => decide ((j / g.ppg + 1) * g.tpg ≤ x.2.tail)
    | none => false

/-- The hot map and move list of one cluster for a step (R268). -/
def hotNext (e : Engine) (g : RqeCfg) (slots : Nat) (old : HotLists) (hints : List Nat) : HotLists :=
  let keep := (old.map ++ old.moves).filter fun m =>
    hints.contains m.1 && e.ctxs.any fun x => x.2.pages.contains m.1
  let pages := sortBy (fun x => x) (keep.map (·.1))
  let map := pages.filterMap fun pg => keep.find? fun m => m.1 == pg
  let free := (List.range slots).filter fun s => !keep.any fun m => m.2 == s
  let want := hints.filter fun h => !(pages.contains h) && e.sealed g h
  ⟨map, want.zip free⟩

/-- Read the hints of the previous step and compute every cluster's lists; step 1 follows no step. -/
def Panel.hotLists (p : Panel) (hub n : Nat) : Panel :=
  p.stepClusters.foldl (fun p x =>
    let a := p.mbox (n - 1) x.1 x.2 + 0x23000
    let (bs, p) := if 1 < n && p.accessStatus a 4096 == 0 then
        let (d, _, p) := p.readRange a 4096; (d, p)
      else ([], p)
    let hints := ((hotEntries bs 512).map (·.1)).eraseDups
    let slots := min 512 (p.fget F.CD_CMEM_PART_kv_mib x.1 x.2 * 4)
    p.modEng hub fun e =>
      let l := hotNext e p.rqeCfg slots (smGetD e.hot (hotKey x.1 x.2) ⟨[], []⟩) hints
      { e with hot := smSet e.hot (hotKey x.1 x.2) l }) p

/-! ### Formation (R256) -/

/-- Form step n after its inputs and cold moves. A formation with no sequence, no cold move in flight and none applied forms no step
and leaves the engine as the inputs left it (log 14). -/
def Panel.formStep (p : Panel) (hub n : Nat) (attempt : BitVec 8) (ph : StepPhase) (takeover moved : Bool) : Panel :=
  let e := p.eng hub
  let f := e.form p.rqeCfg n
  if f.seqs.isEmpty && f.e.cold.isEmpty && !moved then p.showEngine hub
  else
    let p := p.setEng hub { f.e with step := some ⟨n, attempt, f.seqs, ph, [], [], f.alloc, takeover, false, false⟩ }
    let p := p.addWrap F.RQE_COUNTS_preemptions f.preempted hub
    (p.hotLists hub n).showEngine hub

/-- The first attempt of an engine's steps: bit 7 names the hub (R259). -/
def firstAttempt (hub : Nat) : BitVec 8 := if hub = 3 then 0x80 else 0

/-- ATTENTION on every participating core and an abort of the channels they are members of (R273, R304). -/
def Panel.raiseStepAttention (p : Panel) : Panel :=
  let cores := p.stepCores.filter p.coreUp
  let p := cores.foldl Panel.attention p
  (upTo 16 fun ch => (p.bar ch).members.any cores.contains).foldl Panel.barAbortChannel p

/-- apply_cold(n), with the contexts whose move failed, and the forming of step n (R256). After a takeover the step is formed again,
cores may still run the other engine's attempt, and ATTENTION is raised (R275 step 4); the completions of a formation that the lost
engine made are written. -/
def Panel.formMoved (p : Panel) (hub n : Nat) (failed : List Nat) : Panel :=
  let e := p.eng hub
  let again := e.takeoverDue
  let moved := !(e.due n).isEmpty
  let (e, cs) := e.applyCold n failed
  let p := (p.setEng hub { e with takeoverDue := none }).deliver (if again = some true then [] else cs)
  let p := p.formStep hub n (firstAttempt hub) (if again.isSome then .aborting else .formed) again.isSome moved
  if again.isSome && (p.eng hub).step.isSome then p.raiseStepAttention else p

/-- The inputs of step n take effect (R250, R271, R392, R447); false where the failure of a cold move could not be recorded. After a
takeover the step's inputs are those that the journal brought (R275). -/
def Panel.takeInputs (p : Panel) (hub n : Nat) : Panel × Bool :=
  if (p.eng hub).takeoverDue.isSome then p.recordColdFails hub n
  else
    let p := (p.applyQueues false).applyQueues true
    let p := applyInputs hub n (p.eng hub).inputs [] p
    let p := (p.lossInputs hub false).lossInputs hub true
    let p := if (p.port false).lossDue || (p.port true).lossDue then applyInputs hub n (p.eng hub).inputs [] p else p
    let p := [false, true].foldl (fun p h => if (p.port h).lossDue then p.hostLost h else p) p
    (p.importMore hub n).recordColdFails hub n

/-- Formation of step n in service (R250, R256, R271, R447). -/
def Panel.serveForm (p : Panel) (hub n : Nat) : Panel :=
  if ((p.eng hub).due n).any fun m => m.result.isNone then p.fput F.RQE_STATUS_cold_wait 1 hub
  else
    let (p, ok) := (p.fput F.RQE_STATUS_cold_wait 0 hub).takeInputs hub n
    if !ok then p
    else p.formMoved hub n ((((p.eng hub).due n).filter fun m => m.result == some false).map (·.ctx))

/-- Stop a replay with an error, or with done (R301, R393). -/
def Panel.endReplay (p : Panel) (hub err : Nat) : Panel :=
  let p := p.stopEngine hub
  let p := p.fput F.RQE_REPLAY_STATUS_active 0 hub
  if err = 0 then p.fput F.RQE_REPLAY_STATUS_done 1 hub else p.fput F.RQE_REPLAY_STATUS_error err hub

/-- The error of a record that replay does not apply: HANDOFF_OUT ends it, the others are REPLAY_FORMAT (R301, R393). -/
def replayStop (r : IngressRec) : Option Nat :=
  let t := r.type.toNat
  if t = recHandoffOut then some 0
  else if t = recHandoffIn ∨ t = recServiceOpen ∨ recCommitDigest < t then some replayFormat else none

/-- The records of step n, in sequence order, each checked in the chain and then applied; with why the replay ended, where it did: a
record that is not whole or that replay does not apply, or a broken chain (R301, R309). -/
def replayRecords (hub : Nat) : List IngressRec → Panel → Panel × Option Nat
  | [], p => (p, none)
  | r :: l, p =>
    if !r.formed p.ringUnits && (r.units = 0 || decide (p.ringUnits < r.unit + r.units)) then (p, some replayFormat)
    else if r.chained p.ing.replayDigest ≠ r.digest then (p, some replayChain)
    else
      let p := { p with ing := { p.ing with replayDigest := r.digest } }
      if !r.formed p.ringUnits then (p, some replayFormat)
      else
        match replayStop r, r.input with
        | some err, _ => (p, some err)
        | none, some i => replayRecords hub l (p.actInput hub i)
        | none, none =>
          replayRecords hub l { p with ing := { p.ing with expect := some (digestOf (r.body.drop 8)) } }

/-- Cold moves due in replay that failed without a COLD_FAIL record: retried at each formation, thrice at most (R301). -/
def Panel.replayColdRetry (p : Panel) (hub n : Nat) (failed : List Nat) : Panel × Bool :=
  let bad (m : ColdMove) : Bool := decide (m.applyStep ≤ n) && m.result == some false && !failed.contains m.ctx
  let e := p.eng hub
  let stall := e.cold.any fun m => bad m && decide (2 ≤ m.fails)
  let again (m : ColdMove) : ColdMove :=
    if bad m then { m with result := none, fails := m.fails + 1, applyStep := n } else m
  (p.setEng hub { e with cold := e.cold.map again }, stall)

/-- Formation of step n in replay (R301). Queues come into use as in service (R440); a lost host has no requests of its own to cancel,
and is otherwise lost as in service (R447). -/
def Panel.replayForm (p : Panel) (hub n : Nat) : Panel :=
  let p := (p.applyQueues false).applyQueues true
  let p := [false, true].foldl (fun p h => if (p.port h).lossDue then p.hostLost h else p) p
  let stop := p.fget F.RQE_REPLAY_CONTROL_stop_step
  let left := p.ing.replay.filter fun r => r.type != 0
  if (stop ≠ 0 ∧ stop < n) ∨ !left.any fun r => decide (n ≤ r.step) then p.endReplay hub 0
  else
    let mine := left.filter fun r => r.step == n
    let logged := mine.filterMap fun r => match r.input with | some (.coldFail _ c) => some c | _ => none
    let due := (p.eng hub).due n
    if due.any fun m => m.result.isNone && !logged.contains m.ctx then p.fput F.RQE_STATUS_cold_wait 1 hub
    else
      let (p', stall) := p.replayColdRetry hub n logged
      if stall then p'.endReplay hub replayStall
      else if (p'.eng hub).cold.any fun m => decide (m.applyStep ≤ n) && m.result.isNone && !logged.contains m.ctx then
        p'.fput F.RQE_STATUS_cold_wait 1 hub
      else
        let p := p'.fput F.RQE_STATUS_cold_wait 0 hub
        match replayRecords hub mine p with
        | (p, some err) => p.endReplay hub err
        | (p, none) =>
          let p := { p with ing := { p.ing with replay := p.ing.replay.filter fun r => r.step != n } }
          p.formMoved hub n logged

/-! ### Starting, retrying -/

def Panel.modStep (p : Panel) (hub : Nat) (f : StepRec → StepRec) : Panel :=
  p.modEng hub fun e => { e with step := e.step.map f }

/-- The step header (R259). -/
def stepHeader (epoch : Nat) (s : StepRec) : List Byte :=
  toBytes 8 (s.n % 2 ^ 48 * 2 ^ 16 + s.attempt.toNat * 256 + 1) ++ toBytes 8 (epoch * 2 ^ 48 + s.entries.length) ++
    toBytes 8 (sumL (s.entries.map (·.ntok)) % 2 ^ 20) ++ List.replicate 40 0

/-- A sequence entry (R260). -/
def entryBytes (s : SeqEntry) : List Byte :=
  toBytes 8 (s.pos % 2 ^ 32 * 2 ^ 24 + s.kind.toNat * 2 ^ 22 + s.depth % 8 * 2 ^ 19 + s.prio.toNat * 2 ^ 16 + s.ctx) ++
    toBytes 8 (s.pagesHeld % 2 ^ 17 * 2 ^ 32 + s.ntok % 2 ^ 20) ++ wordBytes8 s.seed ++ toBytes 8 (s.keyStep % 2 ^ 48)

/-- Page tables, hot maps and move lists: the unicast writes before the start post (R261 steps 1, 2). -/
def Panel.stepWrites (p : Panel) (hub : Nat) (s : StepRec) : List (Nat × List Byte) :=
  (s.alloc.map fun a => (p.tableAddr a.1 a.2.1, a.2.2.flatMap fun g => toBytes 4 g)) ++
    p.stepClusters.flatMap fun x =>
      let b := p.mbox s.n x.1 x.2
      let h := smGetD (p.eng hub).hot (hotKey x.1 x.2) ⟨[], []⟩
      [(b + 0x21000, hotBytes h.map), (b + 0x22000, hotBytes h.moves)]

/-- Header and entries, as multicasts on desc_group to both clusters of each member die (R258, R261 step 2). -/
def Panel.stepPackets (p : Panel) (hub : Nat) (s : StepRec) : List Packet :=
  let w2 := mcWord 0 0 (some (p.fget F.RQE_MBOX_CONFIG_desc_group)) 1 0x30000
  let at0 := p.mbox s.n 0 0 - cmemPa 0 0 0
  let body := s.entries.flatMap entryBytes
  mcPacket hub 25 0x01 w2 0 at0 (stepHeader (p.fget F.RQE_STEP_service_epoch hub) s) ::
    ((payloads (body.length / 512 + 1) body).zipIdx.map fun e => mcPacket hub 25 0x01 w2 0 (at0 + 0x100 + 512 * e.2) e.1)

/-- Several multicasts, all of whose answers must come and be OK (R228). -/
def Panel.multicasts (p : Panel) (ks : List Packet) : Panel × Bool :=
  ks.foldl (fun acc k => let (p, l, all) := acc.1.multicast k; (p, acc.2 && all && l.all (· == 0))) (p, true)

/-- The start post: a multicast of 1 to start_counter on start_group, to the cores of the group's unit_mask (R226, R261; log 14). -/
def Panel.startPost (p : Panel) (hub : Nat) : Packet :=
  let g := p.fget F.RQE_MBOX_CONFIG_start_group
  mcPacket hub 25 0x02 (mcWord 1 (p.fget F.RQE_MBOX_CONFIG_start_counter) (some g) 3
    (p.fget F.PNW_MC_UNIT_unit_mask 0 g % 2 ^ 16)) 0 0 []

/-- The step starts again with the next attempt; too many attempts stop the engine (R273 steps 2 to 4). -/
def Panel.nextAttempt (p : Panel) (hub : Nat) : Panel :=
  let p := p.modStep hub fun s => { s with attempt := putAttempt s.attempt, phase := .formed, results := [], raw := [], takeover := false }
  let p := p.addWrap F.RQE_COUNTS_retries 1 hub
  let p := (p.fput F.RQE_STATUS_running 0 hub).showEngine hub
  match (p.eng hub).step with
  | some s => if (p.eng hub).maxRetries < s.attempt.toNat % 128 then p.rqeStopped hub else p
  | none => p
where
  /-- bits [6:0] increase by 1 -/
  putAttempt (a : BitVec 8) : BitVec 8 := BitVec.ofNat 8 (a.toNat / 128 * 128 + (a.toNat + 1) % 128)

/-- The attempt is abandoned while cores may run it: ATTENTION, then the ABORTED record is awaited (R273 step 1). -/
def Panel.abortAttempt (p : Panel) (hub : Nat) : Panel :=
  ((p.modStep hub fun s => { s with phase := .aborting }).fput F.RQE_STATUS_running 1 hub).raiseStepAttention

/-- Start the step in progress (R261). A write or a start post that is refused retries the step (log 14). -/
def Panel.startStep (p : Panel) (hub : Nat) (s : StepRec) : Panel :=
  let (p, ok) := p.tryStores (p.stepWrites hub s)
  let (p, sent) := p.multicasts (p.stepPackets hub s)
  if !ok || !sent || !p.groupApplied (p.fget F.RQE_MBOX_CONFIG_desc_group) ||
      !p.groupApplied (p.fget F.RQE_MBOX_CONFIG_start_group) then p.nextAttempt hub
  else
    let p := if p.flag F.RQE_MBOX_CONFIG_rc_advance then
        p.stepClusters.foldl (fun p x => p.advanceEpoch x.1 x.2 1) p else p
    let (p, l, all) := p.multicast (p.startPost hub)
    if !all || l.any (· != 0) then p.abortAttempt hub
    else (p.modStep hub fun s => { s with phase := .running }).fput F.RQE_STATUS_running 1 hub

/-- A retry request: the step in progress, unless its results are accepted or there is none (R272). -/
def Panel.retryStep (p : Panel) (hub : Nat) : Panel :=
  let late := p.reportPanel hub 0x0503 clsInfo (some (p.fget F.RQE_STEP_committed hub))
  if p.role hub ≠ roleActive ∨ (p.eng hub).frozen then late
  else
    match (p.eng hub).step with
    | none => late
    | some s =>
      match s.phase with
      | .accepted => late
      | .running => p.abortAttempt hub
      | .formed => p.nextAttempt hub
      | .aborting => p

/-! ### Results (R262 to R264) -/

/-- The words of a result record (R262). -/
def parseResult (bs : List Byte) : Result :=
  let w (i : Nat) : Nat := ofBytes ((bs.drop (8 * i)).take 8)
  ⟨BitVec.ofNat 16 (w 0), BitVec.ofNat 4 (bits (w 0) 19 16), BitVec.ofNat 3 (bits (w 0) 22 20),
    BitVec.ofNat 3 (bits (w 0) 26 24), BitVec.ofNat 48 (w 1),
    (List.range 8).map fun j => BitVec.ofNat 32 (bits (w (2 + j / 2)) (32 * (j % 2) + 31) (32 * (j % 2)))⟩

/-- The done record of the step in progress: its attempt, its status and whether it is poisoned; none where it names
another step or is not readable (R263, R264). -/
def Panel.doneRecord (p : Panel) (s : StepRec) : Option (Nat × Nat × Bool) × Panel :=
  let a := p.resultMbox s.n + 0x24000
  if p.accessStatus a 64 ≠ 0 then (none, p)
  else
    let (bs, pz, p) := p.readRange a 64
    let w := ofBytes (bs.take 8)
    (if bits w 47 0 = s.n % 2 ^ 48 then some (bits w 63 56, bits w 55 48, pz) else none, p)

/-- Send the deltas of accepted steps to the partner, each once the copies accepted before its results are acknowledged (R387). -/
def Panel.sendDeltas (p : Panel) : Panel :=
  match p.mir.unsent with
  | u :: rest =>
    if u.before = 0 then
      { p with mir := { p.mir with
        queue := p.mir.queue ++ [.deltas u.step u.recs], deltas := p.mir.deltas ++ [u.step], unsent := rest } }
    else p
  | [] => p

/-- The deltas of a step: the inputs that took effect at it, then its commit record (R387). -/
def Panel.deltasOf (p : Panel) (hub n : Nat) (rs : List Result) : List JRec :=
  (p.eng hub).applied ++ [.commit n rs p.lastSeq p.ing.lastDigest]

/-- The deltas of an accepted step are to go to the partner. -/
def Panel.deltasDue (p : Panel) (hub n : Nat) (rs : List Result) : Panel :=
  let u : Unsent := ⟨n, p.mir.copies, p.deltasOf hub n rs⟩
  Panel.sendDeltas { p with mir := { p.mir with unsent := p.mir.unsent ++ [u] } }

/-- The step's results are accepted: the journal and the deltas go out (R264, R267 step 7). While the partner is brought up to date its
deltas go out and the commit does not wait for it (R389). -/
def Panel.acceptStep (p : Panel) (hub : Nat) (s : StepRec) (rs : List Result) (raw : List Byte) : Panel :=
  let paired := decide (p.fget F.MIR_STATUS_state = 3) && !p.replaying hub
  let sync := p.inSync && !p.replaying hub
  let p := p.modStep hub fun s => { s with phase := .accepted, results := rs, raw := raw, journalAcked := !sync, partnerAcked := !paired }
  let p := p.fput F.RQE_STATUS_running 0 hub
  let p := p.fput F.RQE_STATUS_journal_wait (b2n sync) hub
  let p := p.fput F.RQE_STATUS_partner_wait (b2n (paired || p.flag F.MIR_STATUS_commits_wait)) hub
  let r := JRec.commit s.n rs p.lastSeq p.ing.lastDigest
  let p := if sync then p.modEng hub fun e => { e with journal := e.journal ++ [r] } else p.journalBehind hub r
  if (paired || p.fget F.MIR_STATUS_state == 2) && !p.replaying hub then p.deltasDue hub s.n rs else p

/-- On DONE the engine reads the results and accepts or rejects the step (R264). -/
def Panel.readResults (p : Panel) (hub : Nat) (s : StepRec) : Panel :=
  let a := p.resultMbox s.n + 0x30000
  let n := s.entries.length
  if n ≠ 0 ∧ p.accessStatus a (64 * n) ≠ 0 then (p.reportPanel hub 0x0502 clsInfo (some 0)).abortAttempt hub
  else
    let (rs, raw, p) := (List.range n).foldl (fun (acc : List (Result × Bool) × List Byte × Panel) i =>
      let (bs, pz, p) := acc.2.2.readRange (a + 64 * i) 64
      (acc.1 ++ [(parseResult bs, pz)], acc.2.1 ++ bs, p)) ([], [], p)
    match (s.entries.zip rs).findIdx? fun x => x.2.2 || !resultValid x.2.1 x.1 s.n with
    | some i => (p.reportPanel hub 0x0502 clsInfo (some i)).abortAttempt hub
    | none => p.acceptStep hub s (rs.map (·.1)) raw

/-- One poll of the done record (R264, R273, R275). -/
def Panel.pollDone (p : Panel) (hub : Nat) (s : StepRec) : Panel :=
  let (r, p) := p.doneRecord s
  match r with
  | none => p
  | some (att, st, pz) =>
    match s.phase with
    | .running =>
      if att ≠ s.attempt.toNat then p
      else if pz then (p.reportPanel hub 0x0502 clsInfo (some 0)).abortAttempt hub
      else if st = 0 then p.readResults hub s
      else p.nextAttempt hub
    | .aborting =>
      if st = 2 ∧ !pz ∧ (att = s.attempt.toNat ∨ s.takeover) then
        if s.takeover then p.modStep hub fun s => { s with phase := .formed, takeover := false } else p.nextAttempt hub
      else p
    | _ => p

/-! ### Commit (R265, R266) -/

/-- The digest of a committed step over its accepted result records as they were read (R296). -/
def StepRec.digest (s : StepRec) : BitVec 384 := Config.sha384 s.raw

/-- Every acknowledgement that R266 asks for is in. -/
def Panel.mayCommit (p : Panel) (s : StepRec) : Bool :=
  decide (s.phase = .accepted) && s.journalAcked && s.partnerAcked && !p.flag F.MIR_STATUS_commits_wait

/-- A step commits: token logs, tails, pages, completions (R265, R266); its digest is recorded, or compared in replay. -/
def Panel.applyCommit (p : Panel) (hub : Nat) (s : StepRec) : Panel :=
  let (e, cs, ls) := (p.eng hub).commit p.rqeCfg s.entries s.results
  let p := (p.setEng hub { e with step := none, applied := [] }).modEng (3 - hub) fun e => { e with landed := none }
  let p := ls.foldl (fun p l => (p.tryStore (p.tokenAddr l.1 l.2.1) (toBytes 4 l.2.2.toNat)).1) p
  let p := p.fput F.RQE_STEP_committed s.n hub
  let p := p.fput F.RQE_STATUS_journal_wait 0 hub
  let p := p.fput F.RQE_STATUS_partner_wait 0 hub
  let p := p.deliver cs
  let p := if p.replaying hub then
      let diff := match p.ing.expect with | some d => decide (d ≠ s.digest) | none => false
      let p := { p with ing := { p.ing with expect := none } }
      if diff && !p.flag F.RQE_REPLAY_STATUS_diverged hub then
        (p.fput F.RQE_REPLAY_STATUS_diverged 1 hub).fput F.RQE_REPLAY_STATUS_diverged_step s.n hub
      else p
    else p
  let p := if (p.eng hub).draining then p.stopEngine hub else p
  p.showEngine hub

/-- Commit the step in progress where it may; its COMMIT_DIGEST record goes first (R266, R293). -/
def Panel.commitStep (p : Panel) (hub : Nat) (s : StepRec) : Panel :=
  if !p.mayCommit s then p
  else if p.flag F.RQE_ILOG_CONFIG_commit_digest && !p.replaying hub then
    let (p, ok) := p.tryRecord recCommitDigest s.n
      (toBytes 8 (s.entries.length % 2 ^ 13) ++ digestBE (s.digest))
    if ok then p.applyCommit hub s else p
  else p.applyCommit hub s

end Sys2Proof.Machine
end

