-- ==== Sys2Proof/Machine/RqeCmd.lean ====
section
/-! DEFINITION. The commands of the request engine (chapter 09 and R293 to R301). -/

namespace Sys2Proof.Machine

/-- The engine of a hub is active, with its step in progress. -/
def Panel.onStep (p : Panel) (hub : Nat) (f : Panel → StepRec → Panel) : Panel :=
  match (p.eng hub).step with
  | some s => if p.role hub = roleActive ∧ p.hubUp hub then f p s else p
  | none => p

/-- STEP_FORM (R256): with no step in progress the active engine applies its inputs and cold moves and forms the next. -/
def execStepForm (hub : Nat) (s : State) : Host.Outcome State Fault Refusal :=
  .next (s.upd fun p =>
    let e := p.eng hub
    if p.role hub ≠ roleActive ∨ !p.hubUp hub ∨ e.step.isSome ∨ e.draining ∨ e.frozen ∨ p.flag F.PCI_CSTORE_cq_wait 0 ∨
        p.flag F.PCI_CSTORE_cq_wait 3 then p
    else
      let n := p.fget F.RQE_STEP_committed hub + 1
      (if p.replaying hub then p.replayForm hub n else p.serveForm hub n).showEngine hub)

/-- Address of a page of the page area (R251). -/
def Panel.pageAddr (p : Panel) (pg : Nat) : Nat := p.kvBase + pg * 0x40000

/-- Copy the pages of a move to its slots or back, 256 KiB each (R270). -/
def Panel.coldCopy (p : Panel) (m : ColdMove) : Panel :=
  (m.slots.zip m.pages).foldl (fun p x =>
    let (slot, pg) := x
    let host := p.slotHost slot
    if m.copyIn then
      match smGet (p.port host).cold slot with
      | some d => p.storePa (p.pageAddr pg) d
      | none => p
    else
      let (d, p) := p.readTagged (p.pageAddr pg) 0x40000
      p.modPort host fun y => { y with cold := smSet y.cold slot d }) p

/-- The HBM side of a move answers, and so do the ports of the hosts that own its slots (R270, R446). -/
def Panel.coldReachable (p : Panel) (m : ColdMove) : Bool :=
  (m.pages.all fun pg => p.accessStatus (p.pageAddr pg) 0x40000 == 0) && m.slots.all fun s => p.portLive (p.slotHost s)

/-- The hubs that hold a request engine (R17, R246). -/
def hasEngine (hub : Nat) : Bool := hub == 0 || hub == 3

/-- In replay, a move that the log marks as failed at the step it is applied at is not attempted (R301). -/
def Panel.markedFailed (p : Panel) (hub : Nat) (m : ColdMove) : Bool :=
  p.replaying hub && p.ing.replay.any fun r =>
    r.step == m.applyStep && decide (r.input = some (.coldFail m.copyIn m.ctx))

/-- COLD_MOVE_FINISH (R270, R271): a cold move ends, well or in error. -/
def execColdMoveFinish (hub ctx : Nat) (ok : Bool) (s : State) : Host.Outcome State Fault Refusal :=
  .next (s.upd fun p =>
    match if hasEngine hub then (p.eng hub).cold.find? fun m => m.ctx == ctx && m.result.isNone else none with
    | none => p
    | some m =>
      if p.markedFailed hub m then p
      else
      let done := ok && p.coldReachable m
      let p := p.modEng hub fun e =>
        { e with cold := e.cold.map fun x => if x = m then { x with result := some done } else x }
      if done then p.coldCopy m else p)

/-- DONE_POLL (R264). -/
def execDonePoll (hub : Nat) (s : State) : Host.Outcome State Fault Refusal :=
  .next (s.upd fun p => p.onStep hub fun p r => p.pollDone hub r)

/-- STEP_TIMEOUT (R272, R276): no DONE within step_timeout_us of the start post. -/
def execStepTimeout (hub : Nat) (s : State) : Host.Outcome State Fault Refusal :=
  .next (s.upd fun p => p.onStep hub fun p r =>
    if r.phase = .running then (p.reportPanel hub 0x0501 clsInfo (some r.n)).abortAttempt hub else p)

/-- ABORTED_WAIT_TIMEOUT (R273): no ABORTED record within step_timeout_us. -/
def execAbortedWaitTimeout (hub : Nat) (s : State) : Host.Outcome State Fault Refusal :=
  .next (s.upd fun p => p.onStep hub fun p r => if r.phase = .aborting then p.rqeStopped hub else p)

/-- The standby applies a commit: its own formation of the step, then the results (R247, R274). A step that was in progress when the
snapshot was taken is formed already. What its commit emits is kept until the active engine has committed it too (R275). The hot lists, which the hints in the clusters decide, are the active engine's. -/
def Panel.standbyCommit (p : Panel) (hub n : Nat) (rs : List Result) : Panel :=
  let e := { p.eng hub with hot := (p.eng (3 - hub)).hot }
  let formed := match e.step with | some s => if s.n = n then some s.entries else none | none => none
  let (e, cs, ls) := match formed with
    | some l => e.commit p.rqeCfg l rs
    | none => { e with inputs := [] }.follow p.rqeCfg n e.inputs rs
  let (seqs, raw) := match (p.eng (3 - hub)).step with | some s => (s.entries.length, s.raw) | none => (0, [])
  let p := (p.setEng hub { e with step := none, applied := [], landed := some ⟨n, cs, ls, seqs, raw⟩ }).fput F.RQE_STEP_committed n hub
  (p.bothEngines F.RQE_STBY_STATUS_journaled_step n).showEngine hub

/-- The standby applies an input: it waits with the step's others, and the status registers show its effect. -/
def Panel.standbyInput (p : Panel) (hub : Nat) (i : RqeInput) : Panel :=
  let p := p.modEng hub fun e => { e with inputs := e.inputs ++ [i] }
  let e := p.eng hub
  p.showEngineAs hub (e.inputs.foldl (fun (e : Engine) i => (e.applyInput i).1) e)

/-- seq and digest of the last ingress record, as a journal record carries them (R299). -/
def jrecLast : JRec → Nat × BitVec 384
  | .heartbeat q d => (q, d)
  | .input _ _ q d => (q, d)
  | .commit _ _ q d => (q, d)

/-- The standby has applied every record that followed its snapshot: it is in sync (R274). -/
def Panel.caughtUp (p : Panel) (a : Nat) : Panel :=
  let e := p.eng a
  if e.snapshotDone && decide (e.unwaited ≤ e.received) then
    (p.setEng a { e with snapshotDone := false }).bothEngines F.RQE_STBY_STATUS_in_sync 1
  else p

/-- JOURNAL_RECORD (R274): the standby applies the next record of the journal. -/
def execJournalRecord (hub : Nat) (r : JRec) (s : State) : Host.Outcome State Fault Refusal :=
  .next (s.upd fun p =>
    let a := 3 - hub
    let e := p.eng a
    if !hasEngine hub ∨ p.role hub ≠ roleStandby ∨ !p.hubUp hub ∨ e.journal[e.received]? ≠ some r then p
    else
      let p := p.modEng a fun e => { e with received := e.received + 1 }
      let p := p.bothEngines F.RQE_STBY_STATUS_missed_heartbeats 0
      let p := p.modEng hub fun e => { e with seen := some (jrecLast r) }
      let p := match r with
        | .heartbeat .. => p
        | .input _ i _ _ => p.standbyInput hub i
        | .commit n rs _ _ => p.standbyCommit hub n rs
      p.caughtUp a)

/-- JOURNAL_ACK (R266, R274): heads advance and the commit no longer waits for the standby. Nothing waited for a record sent before
the standby was in sync. -/
def execJournalAck (hub : Nat) (s : State) : Host.Outcome State Fault Refusal :=
  .next (s.upd fun p =>
    let e := p.eng hub
    match if hasEngine hub then e.journal else [], e.received with
    | r :: rest, k + 1 =>
      let p := p.setEng hub { e with journal := rest, received := k, unwaited := e.unwaited - 1 }
      if 0 < e.unwaited then p
      else
        match r with
        | .input _ i _ _ => match inputQueue i with | some (h, q) => p.headReady hub h q true | none => p
        | .commit n _ _ _ =>
          (p.modStep hub fun x => if x.n = n then { x with journalAcked := true } else x).fput F.RQE_STATUS_journal_wait 0 hub
        | .heartbeat .. => p
    | _, _ => p)

/-- HEARTBEAT (R274): the active engine has nothing to send. -/
def execHeartbeat (hub : Nat) (s : State) : Host.Outcome State Fault Refusal :=
  .next (s.upd fun p =>
    if p.role hub = roleActive ∧ p.role (3 - hub) = roleStandby ∧ (p.eng hub).journal.isEmpty then
      p.modEng hub fun e => { e with journal := [.heartbeat p.lastSeq p.ing.lastDigest] }
    else p)

/-- HEARTBEAT_MISS (R275): ten in a row; a UF is reported for the other hub's engine. -/
def execHeartbeatMiss (s : State) : Host.Outcome State Fault Refusal :=
  .next (s.upd fun p =>
    match [0, 3].find? fun h => p.hubUp h && p.role h == roleStandby with
    | some hub =>
      let p := [0, 3].foldl (fun p h => p.addHold F.RQE_STBY_STATUS_missed_heartbeats 10 h) p
      p.sendReport hub 0x0505 clsUF lvEdge 5 (BitVec.ofNat 8 (3 - hub)) 0 none none
    | none => p)

/-- The engine of hub a starts sending its journal behind a snapshot: with a step whose results are accepted, its commit record goes
first (R274). -/
def Panel.journalFrom (p : Panel) (a : Nat) : Panel :=
  let e := p.eng a
  let j := match e.step with
    | some s => if s.phase = .accepted then [JRec.commit s.n s.results p.lastSeq p.ing.lastDigest] else []
    | none => []
  (p.setEng a { e with journal := j, received := 0, unwaited := j.length, snapshotDone := true }).caughtUp a

/-- STANDBY_SNAPSHOT (R274): the standby receives the active engine's context records and free bitmap while service continues, and is
in sync once it has applied the records that follow. -/
def execStandbySnapshot (ctxs : List CtxRec) (used : List Nat) (step : Nat) (s : State) : Host.Outcome State Fault Refusal :=
  .next (s.upd fun p =>
    match p.activeHub with
    | none => p
    | some a =>
      let e := p.eng a
      let hub := 3 - a
      if p.role hub ≠ roleStandby ∨ p.inSync ∨ e.snapshotDone ∨ step ≠ p.fget F.RQE_STEP_committed a ∨ used ≠ e.used ∨
          ctxs ≠ e.ctxs.map (·.2) then p
      else
        let p := p.setEng hub { e with inputs := [], taking := [], headsDue := [], journal := [], received := 0
                                       unwaited := 0, snapshotDone := false, seen := some (p.lastSeq, p.ing.lastDigest) }
        let p := p.fput F.RQE_STEP_committed step hub
        let p := p.bothEngines F.RQE_STBY_STATUS_journaled_step step
        (p.journalFrom a).showEngine hub)

/-! ### RQE_CONTROL (R272, R275, R277) -/

/-- Commits no longer wait for a standby, nor do the heads of entries whose ingress records are written (R274, R276). -/
def Panel.standbyLost (p : Panel) (hub : Nat) : Panel :=
  let e := p.eng hub
  let p := p.bothEngines F.RQE_STBY_STATUS_in_sync 0
  let p := p.setEng hub { e with journal := [], received := 0, unwaited := 0, snapshotDone := false
                                 headsDue := e.headsDue.map fun x => if x.recorded then { x with ready := true } else x }
  let p := (p.modStep hub fun s => { s with journalAcked := true }).fput F.RQE_STATUS_journal_wait 0 hub
  p.advanceHeads hub

/-- Commit the step in progress, form no more, enter STOPPED (R277). -/
def Panel.rqeDrain (p : Panel) (hub : Nat) : Panel :=
  if p.role hub ≠ roleActive then p
  else if (p.eng hub).step.isNone then p.stopEngine hub
  else p.modEng hub fun e => { e with draining := true }

/-- The record tells of something that has taken effect whatever the journal brought: a hand-off or the digest of a commit (R293). -/
def IngressRec.stands (r : IngressRec) : Bool :=
  r.type.toNat == recHandoffIn || r.type.toNat == recHandoffOut || r.type.toNat == recCommitDigest

/-- The log goes on from the last record that the journal named, in the same sequence and chain. Of what the lost engine wrote after it,
the inputs never took effect here and are no part of the log; the other records are written again in their order (R299, log 13). -/
def Panel.continueLog (p : Panel) (hub : Nat) : Panel :=
  match (p.eng hub).seen with
  | none => p
  | some (q, d) =>
    let kept := p.ing.recs.filter fun r => decide (r.seq ≤ q)
    let again := p.ing.recs.filter fun r => decide (q < r.seq) && r.stands
    let p := { p with ing := { p.ing with
      recs := kept, lastDigest := d, sent := min p.ing.sent (q + 1), stored := min p.ing.stored (q + 1) } }
    let p := p.bothEngines F.RQE_ILOG_SEQ_next_seq (q + 1)
    let p := match kept.getLast? with
      | some r => p.bothEngines F.RQE_ILOG_STATUS_tail_unit (if r.unit + r.units = p.ringUnits then 0 else r.unit + r.units)
      | none => p
    again.foldl (fun p r => p.record r.type.toNat r.step r.body r.input) p

/-- Heads of the lost engine whose journal records were received advance: their inputs are known (R274, R275). -/
def Panel.headsKnown (p : Panel) (o : Nat) : Panel :=
  let old := p.eng o
  ((old.journal.take old.received).drop old.unwaited).foldl (fun p r =>
    match r with
    | .input _ i _ _ => match inputQueue i with | some (h, q) => p.headReady o h q true | none => p
    | _ => p) p

/-- The inputs that the journal brought for the step after the last committed one take effect; what they completed the lost engine has
written. The cold moves start again, all but those whose failure is an input (R275). -/
def Panel.inheritInputs (p : Panel) (hub n : Nat) (formed : Bool) : Panel :=
  let ins := (p.eng hub).inputs
  let bad (m : ColdMove) : Bool := ins.contains (.coldFail m.copyIn m.ctx)
  let p := p.modEng hub fun e =>
    { e with inputs := [], takeoverDue := some formed, applied := e.applied ++ ins.map fun i => JRec.input n i p.lastSeq p.ing.lastDigest
             cold := e.cold.map fun m => { m with result := if bad m then some false else none, logged := bad m } }
  ins.foldl (fun p i => p.modEng hub fun e => (e.applyInput i).1) p

/-- What the commit of a step emits that the standby has committed and the lost engine has not: its tokens, completions and digest
(R265, R275, R293). -/
def Panel.landStep (p : Panel) (hub : Nat) : Panel :=
  match (p.eng hub).landed with
  | none => p
  | some l =>
    let p := p.modEng hub fun e => { e with landed := none }
    let p := l.logs.foldl (fun p x => (p.tryStore (p.tokenAddr x.1 x.2.1) (toBytes 4 x.2.2.toNat)).1) p
    let p := if p.flag F.RQE_ILOG_CONFIG_commit_digest then
        (p.tryRecord recCommitDigest l.step (toBytes 8 (l.seqs % 2 ^ 13) ++ digestBE (Config.sha384 l.raw))).1
      else p
    p.deliver l.cs

def isPolicy : RqeInput → Bool
  | .policy .. => true
  | _ => false

/-- The policy writes that the lost engine had taken and the journal did not bring: both register copies hold them, and they take
effect at the next formation (R277). -/
def lostPolicies (old : Engine) : List RqeInput :=
  ((old.journal.drop old.received).filterMap fun r => match r with | .input _ i _ _ => if isPolicy i then some i else none | _ => none) ++
    old.inputs.filter isPolicy

/-- The standby becomes active: journal records received are applied, the step after the last committed one is formed again
with attempt 0x80, ATTENTION is raised, cold moves start again (R275). -/
def Panel.rqeTakeover (p : Panel) (hub : Nat) : Panel :=
  if p.role hub ≠ roleStandby then p
  else
    let o := 3 - hub
    let old := p.eng o
    let p := p.headsKnown o
    let p := ((p.setRole o roleFailed).setRole hub roleActive).setEng o .empty
    let p := p.fput F.RQE_STATUS_running 0 o
    let p := p.bothEngines F.RQE_STBY_STATUS_in_sync 0
    let p := ((p.fput F.RQE_CONTROL_enable 1 hub).continueLog hub).landStep hub
    let n := p.fget F.RQE_STEP_committed hub + 1
    let later (p : Panel) : Panel := p.modEng hub fun e => { e with inputs := e.inputs ++ lostPolicies old }
    match (p.eng hub).step with
    | some s =>
      let s := { s with attempt := firstAttempt hub, phase := .aborting, results := [], raw := [], takeover := true
                        journalAcked := false, partnerAcked := false }
      let p := (p.modEng hub fun e => { e with step := some s }).inheritInputs hub (n + 1) true
      ((later (p.modEng hub fun e => { e with takeoverDue := none })).showEngine hub).raiseStepAttention
    | none => (later (p.inheritInputs hub n (old.step.any (·.n == n)))).serveForm hub n

/-- An engine that does not serve is turned off; the active one loses its standby with it (R274, R276). -/
def Panel.rqeOff (p : Panel) (hub : Nat) : Panel :=
  let was := p.role hub
  let p := (p.fput F.RQE_CONTROL_enable 0 hub).setRole hub (if was = roleFailed then roleFailed else roleOff)
  if was ≠ roleStandby then p
  else
    let p := p.setEng hub .empty
    if p.role (3 - hub) = roleActive then p.standbyLost (3 - hub) else p

/-- A write of RQE_CONTROL through a hub acts on that hub's engine (R277). A FAILED engine returns only after its hub restarts
(R275). -/
def Panel.rqeControl (p : Panel) (hub : Nat) (v : W64) : Panel :=
  let b := bit v.toNat
  if !p.hubUp hub ∨ !hasEngine hub then p
  else
    let p :=
      if b F.RQE_CONTROL_enable.lo then (if p.role hub = roleFailed then p else p.tryEnable hub)
      else if p.role hub = roleActive ∨ !p.flag F.RQE_CONTROL_enable hub then p
      else p.rqeOff hub
    let p := if b F.RQE_CONTROL_drain.lo then p.rqeDrain hub else p
    let p := if b F.RQE_CONTROL_retry.lo then p.retryStep hub else p
    if b F.RQE_CONTROL_takeover.lo then p.rqeTakeover hub else p

/-- RQE_ENABLE (R246, R277, R300): a write of RQE_CONTROL. -/
def execRqeEnable (hub : Nat) (src : Writer) (v : W64) (s : State) : Host.Outcome State Fault Refusal :=
  .next (s.upd fun p => p.asWriter src fun p => p.rqeControl hub v)

/-- The bits of a write of RQE_CONTROL that leave enable as it is. -/
def Panel.keepEnable (p : Panel) (hub : Nat) (v : W64) : W64 := putBits v 0 0 (p.fget F.RQE_CONTROL_enable hub)

/-- RQE_DRAIN (R277): a write of RQE_CONTROL with drain set. -/
def execRqeDrain (hub : Nat) (src : Writer) (v : W64) (s : State) : Host.Outcome State Fault Refusal :=
  .next (s.upd fun p => p.asWriter src fun p => p.rqeControl hub (p.keepEnable hub (v ||| maskOf 6 6)))

/-- RQE_RETRY (R272): a write of RQE_CONTROL with retry set. -/
def execRqeRetry (hub : Nat) (src : Writer) (v : W64) (s : State) : Host.Outcome State Fault Refusal :=
  .next (s.upd fun p => p.asWriter src fun p => p.rqeControl hub (p.keepEnable hub (v ||| maskOf 5 5)))

/-- RQE_TAKEOVER (R275): a write of RQE_CONTROL with takeover set. -/
def execRqeTakeover (hub : Nat) (src : Writer) (v : W64) (s : State) : Host.Outcome State Fault Refusal :=
  .next (s.upd fun p => p.asWriter src fun p => p.rqeControl hub (p.keepEnable hub (v ||| maskOf 7 7)))

/-! ### The stream (R298, R439) -/

/-- A write of RQE_ILOG_STREAM: the host has stored the records up to this one. The wait ends where the ring now has room for what
waits. -/
def Panel.ilogStream (p : Panel) (v : W64) : Panel :=
  let p := p.store .RQE_ILOG_STREAM false v
  let p := { p with ing := { p.ing with stored := p.fget F.RQE_ILOG_STREAM_consumed_seq + 1 } }
  let room := match p.ing.need with | some n => p.recRoom n | none => p.oldLogStored
  if !room then p
  else
    let p := p.recNeed none
    match p.activeHub with
    | some h => p.advanceHeads h
    | none => p

end Sys2Proof.Machine
end

