-- ==== Sys2Proof/Machine/Host.lean ====
section
/-! DEFINITION. The commands of the host interface (chapter 15): queues, submissions, the control lease, link resets and the
BAR2 window. BAR0 accesses are in RegAccess. -/

namespace Sys2Proof.Machine

/-! ### Queue registers (R440, R449) -/

/-- Who may write a port's own queue registers: its host, or a unit of the panel (R439, R440, R502). -/
def ownPort (src : Writer) (hub : Nat) : Bool :=
  match writerHost src with
  | some h => portHub h == hub
  | none => src != .bmc

def hubHost (hub : Nat) : Bool := hub == 3

/-- A write of PCI_SQ_TAIL_q. -/
def Panel.sqTailWrite (p : Panel) (hub q : Nat) (v : W64) : Panel := p.store .PCI_SQ_TAIL false v hub q

/-- A write of PCI_SQ_BASE_q: enable with a size outside 4 to 12 is refused (R449). -/
def Panel.sqBaseWrite (p : Panel) (hub q : Nat) (v : W64) : Panel :=
  let size := F.PCI_SQ_BASE_size_log2.read v
  let v := if size < 4 ∨ 12 < size then putBits v 63 63 0 else v
  (p.store .PCI_SQ_BASE false v hub q).queuesChanged (hubHost hub)

/-- A write of PCI_CQ_BASE_q: enabling restarts the queue and clears host_lost; a size outside 4 to 15 is refused (R440,
R447, R449). -/
def Panel.cqBaseWrite (p : Panel) (hub q : Nat) (v : W64) : Panel :=
  let host := hubHost hub
  let size := F.PCI_CQ_BASE_size_log2.read v
  let v := if size < 4 ∨ 15 < size then putBits v 63 63 0 else v
  let fresh := bit v.toNat 63 && !p.flag F.PCI_CQ_BASE_enable hub q
  let p := p.store .PCI_CQ_BASE false v hub q
  let p := if fresh then
      (p.modPort host fun x => { x with cqFresh := insertAsc x.cqFresh q }).fput F.PCI_CSTORE_host_lost 0 hub
    else p
  p.queuesChanged host

/-- A write of PCI_CQ_HEAD_q: entries are consumed, and the store delivers what it can (R440, R445). -/
def Panel.cqHeadWrite (p : Panel) (hub q : Nat) (v : W64) : Panel :=
  (p.store .PCI_CQ_HEAD false v hub q).drainStore (hubHost hub)

/-- A port's own register is written, where the writer may (R440); a write through the other port without the lease is counted
(R439). -/
def Panel.portWrite (p : Panel) (hub q : Nat) (src : Writer) (f : Panel → Panel) : Panel :=
  if (hub = 0 ∨ hub = 3) ∧ q < 64 ∧ p.hubUp hub then (if ownPort src hub then f p else p.asWriter src id) else p

/-- SQ_TAIL_DOORBELL (R440). -/
def execSqTailDoorbell (hub q : Nat) (src : Writer) (v : W64) (s : State) : Host.Outcome State Fault Refusal :=
  .next (s.upd fun p => p.portWrite hub q src fun p => p.sqTailWrite hub q v)

/-- CQ_HEAD_DOORBELL (R440, R445). -/
def execCqHeadDoorbell (hub q : Nat) (src : Writer) (v : W64) (s : State) : Host.Outcome State Fault Refusal :=
  .next (s.upd fun p => p.portWrite hub q src fun p => p.cqHeadWrite hub q v)

/-- CQ_ENABLE (R440, R447, R449): a write of PCI_CQ_BASE_q. -/
def execCqEnable (hub q : Nat) (src : Writer) (v : W64) (s : State) : Host.Outcome State Fault Refusal :=
  .next (s.upd fun p => p.portWrite hub q src fun p => p.cqBaseWrite hub q v)

/-! ### Submissions (R250, R441, R442) -/

/-- An entry is answered at once and its head advances in order; no engine state changes (R442). -/
def Panel.answerEntry (p : Panel) (hub : Nat) (host : Bool) (q : Nat) (e : Entry) (reason : Nat) : Panel :=
  let cq := bits (e.getD 0 0).toNat 55 50
  let p := p.modEng hub fun x => { x with headsDue := x.headsDue ++ [⟨host, q, false, true⟩] }
  (p.advanceHeads hub).deliver [⟨0, host, cq, e.getD 1 0, [], 0, reason, 0, false⟩]

/-- A submission that R442 rejects before its prompt is read. A prompt address that is not a multiple of 4 and a prompt whose
record could not be written are rejected too (DEDUCED, logs 13 and 14). -/
def Panel.badSubmit (p : Panel) (hub : Nat) (host : Bool) (e : Entry) : Bool :=
  let w (i : Nat) : Nat := (e.getD i 0).toNat
  let len := bits (w 0) 31 0
  let eng := p.eng hub
  bits (w 0) 43 32 != 0 || bits (w 4) 63 32 != 0 || w 5 != 0 || w 6 != 0 || w 7 != 0 ||
    !(p.port host).cqOn.contains (bits (w 0) 55 50) || len == 0 || decide (p.rqeCfg.maxPos ≤ len) || bits (w 4) 31 0 == 0 ||
    eng.tagLive host (e.getD 1 0) || eng.taking.any (fun t => t.host == host && t.entry.getD 1 0 == e.getD 1 0) ||
    w 3 % 4 != 0 || !p.recFits (72 + 4 * len)

/-- A cancellation is an input of the next formation; one that names no live request is answered NOT_FOUND (R442). -/
def Panel.takeCancel (p : Panel) (hub : Nat) (host : Bool) (q : Nat) (e : Entry) : Panel :=
  let w0 := (e.getD 0 0).toNat
  if bits w0 49 0 ≠ 0 ∨ (List.range 6).any (fun i => e.getD (2 + i) 0 != 0) ∨
      !(p.port host).cqOn.contains (bits w0 55 50) then
    p.answerEntry hub host q e rsnRejected
  else
    if !(p.eng hub).tagLive host (e.getD 1 0) then p.answerEntry hub host q e rsnNotFound
    else p.modEng hub fun x =>
      { x with inputs := x.inputs ++ [.cancel host (BitVec.ofNat 6 q) (bits w0 55 50) (e.getD 1 0)]
               headsDue := x.headsDue ++ [⟨host, q, false, false⟩] }

/-- The queue of a host has an entry below its tail that the engine may take now: its port serves, and no earlier entry of it is being
read (R440, R442, R447). -/
def Panel.sqReady (p : Panel) (hub : Nat) (host : Bool) (q : Nat) : Bool :=
  let x := p.eng hub
  let ph := portHub host
  let size := 2 ^ p.fget F.PCI_SQ_BASE_size_log2 ph q
  let due := (x.headsDue.filter fun d => d.host == host && d.queue == q).length
  let at_ := (p.fget F.PCI_SQ_TAIL_head ph q + due) % size
  p.portLive host && (p.port host).sqOn.contains q && !(x.taking.any fun t => t.host == host && t.queue == q) &&
    at_ != p.fget F.PCI_SQ_TAIL_tail ph q % size

/-- Place of a queue in the order of turns: host A's queues 0 to 63, then host B's (R442). -/
def turnOf (host : Bool) (q : Nat) : Nat := b2n host * 64 + q

/-- It is the queue's turn: of the queues that are ready it is the first from the engine's turn on (R442). -/
def Panel.isTurn (p : Panel) (hub : Nat) (host : Bool) (q : Nat) : Bool :=
  ((List.range 128).find? fun k =>
    let g := ((p.eng hub).turn + k) % 128
    p.sqReady hub (decide (64 ≤ g)) (g % 64)).map (fun k => ((p.eng hub).turn + k) % 128) == some (turnOf host q)

/-- The engine takes the next entry of a submission queue, the queues in turn (R440, R442, R447), where nothing freezes or holds them.
With no context FREE a submission is left in its queue (R276). -/
def Panel.takeEntry (p : Panel) (host : Bool) (q : Nat) (e : Entry) : Panel :=
  match p.activeHub with
  | none => p
  | some hub =>
    let x := p.eng hub
    if x.frozen || x.draining || p.replaying hub || p.flag F.RQE_ILOG_STATUS_stream_wait hub || decide (64 ≤ q) ||
        !p.isTurn hub host q then p
    else
      let p := p.modEng hub fun x => { x with turn := (turnOf host q + 1) % 128 }
      let op := bits (e.getD 0 0).toNat 63 56
      if op = 2 then p.takeCancel hub host q e
      else if op ≠ 1 ∨ p.badSubmit hub host e then p.answerEntry hub host q e rsnRejected
      else if 65536 ≤ x.ctxs.length + x.inputs.length + x.taking.length then p
      else p.modEng hub fun x => { x with taking := x.taking ++ [⟨host, q, e⟩] }

/-- SUBMIT (R250, R442): the entry is taken and its prompt read over the host's port, or it is rejected. -/
def execSubmit (host : Bool) (q : Nat) (e : Entry) (s : State) : Host.Outcome State Fault Refusal :=
  .next (s.upd fun p => p.takeEntry host q e)

/-- CANCEL (R250, R442). -/
def execCancel (host : Bool) (q : Nat) (e : Entry) (s : State) : Host.Outcome State Fault Refusal :=
  .next (s.upd fun p => p.takeEntry host q e)

/-- A failed read of host memory in the port's AER counts: a completion that times out, or one that is poisoned (R448). -/
def Panel.readFailed (p : Panel) (host : Bool) (e : ReadEnd) : Panel :=
  p.modPort host fun x =>
    match e with
    | .timedOut => { x with aerTimeout := x.aerTimeout + 1 }
    | .poisoned => { x with aerPoison := x.aerPoison + 1 }
    | _ => x

/-- PROMPT_READ_COMPLETE (R250, R442): the prompt is read whole, and the submission is an input, given its context when it
takes effect; or the read failed and the entry is rejected. -/
def execPromptReadComplete (host : Bool) (q : Nat) (ok : ReadEnd) (tokens : List W32) (s : State) :
    Host.Outcome State Fault Refusal :=
  .next (s.upd fun p =>
    match p.activeHub with
    | none => p
    | some hub =>
      match (p.eng hub).taking.find? fun t => t.host == host && t.queue == q with
      | none => p
      | some t =>
        let drop (p : Panel) : Panel := p.modEng hub fun x => { x with taking := x.taking.filter (· != t) }
        if ok ≠ .done then ((drop p).readFailed host ok).answerEntry hub host q t.entry rsnRejected
        else if tokens.length ≠ bits (t.entry.getD 0 0).toNat 31 0 then p
        else
          (drop p).modEng hub fun x =>
            { x with inputs := x.inputs ++ [.intake host (BitVec.ofNat 6 q) 0 t.entry tokens]
                     headsDue := x.headsDue ++ [⟨host, q, false, false⟩] })

/-! ### The control lease (R439) -/

/-- Code of a holder: 1 host A, 2 host B. -/
def leaseCode (host : Bool) : Nat := if host then 2 else 1

def Panel.leaseAcquire (p : Panel) (host : Bool) : Panel :=
  if p.fget F.PCI_LEASE_holder = leaseNone then p.setHolder (leaseCode host) else p

def Panel.leaseRenew (p : Panel) (host : Bool) : Panel :=
  if p.holdsLease host then p.fput F.PCI_LEASE_remaining_ms 1000 else p

def Panel.leaseRelease (p : Panel) (host : Bool) : Panel := if p.holdsLease host then p.setHolder leaseNone else p

/-- A write of PCI_LEASE by a host: acquire, then renew, then release (R439, R449). -/
def Panel.leaseWrite (p : Panel) (host : Bool) (v : W64) : Panel :=
  let b := bit v.toNat
  let p := if b F.PCI_LEASE_acquire.lo then p.leaseAcquire host else p
  let p := if b F.PCI_LEASE_renew.lo then p.leaseRenew host else p
  if b F.PCI_LEASE_release.lo then p.leaseRelease host else p

/-- A hub holds the lease logic (R439). -/
def Panel.leaseUp (p : Panel) : Bool := p.hubUp 0 || p.hubUp 3

/-- LEASE_ACQUIRE (R439). -/
def execLeaseAcquire (host : Bool) (s : State) : Host.Outcome State Fault Refusal :=
  .next (s.upd fun p => if p.leaseUp then p.leaseAcquire host else p)

/-- LEASE_RENEW (R439). -/
def execLeaseRenew (host : Bool) (s : State) : Host.Outcome State Fault Refusal :=
  .next (s.upd fun p => if p.leaseUp then p.leaseRenew host else p)

/-- LEASE_RELEASE (R439). -/
def execLeaseRelease (host : Bool) (s : State) : Host.Outcome State Fault Refusal :=
  .next (s.upd fun p => if p.leaseUp then p.leaseRelease host else p)

/-- LEASE_EXPIRE (R439): 1,000 ms without a renew. -/
def execLeaseExpire (s : State) : Host.Outcome State Fault Refusal :=
  .next (s.upd fun p => if p.leaseUp && p.fget F.PCI_LEASE_holder != leaseNone then p.setHolder leaseNone else p)

/-! ### Links (R445, R447) -/

/-- The port's PCI Express state and BAR settings are reset; queues, regions, lease and store are kept (R447). The MSI-X
table and PCI_BAR2_BASE are taken as part of it (DEDUCED, log 15). In D3hot the link stays trained (R435). -/
def Panel.portReset (p : Panel) (host d3hot : Bool) : Panel :=
  let hub := portHub host
  let p := p.fput F.PCI_PORT_STATUS_bus_master 0 hub
  let p := p.addWrap F.PCI_PORT_STATUS_link_resets 1 hub
  let p := p.resetReg .PCI_BAR2_BASE hub
  let p := p.modPort host fun x => { x with msix := [], pba := [], lossTimer := true, d3hot := d3hot }
  p.storeFull host

/-- The link goes down, and its port is reset (R447). -/
def Panel.linkReset (p : Panel) (host : Bool) : Panel :=
  let hub := portHub host
  let p := p.fput F.PCI_PORT_STATUS_link_up 0 hub
  let p := p.fput F.PCI_PORT_STATUS_width 0 hub
  let p := p.fput F.PCI_PORT_STATUS_speed 0 hub
  p.portReset host false

/-- The port serves again, where bus mastering is on: the store drains, and what waits for the port goes out (R445, R447). -/
def Panel.portServes (p : Panel) (host : Bool) : Panel :=
  (((p.modPort host fun x => { x with lossTimer := x.lossTimer && !p.linkServes host }).drainStore host).flushVectors host).streamRecords

/-- PCIE_LINK_RESET (R447). -/
def execPcieLinkReset (host : Bool) (s : State) : Host.Outcome State Fault Refusal :=
  .next (s.upd fun p => if p.hubUp (portHub host) then p.linkReset host else p)

/-- PCIE_LINK_RETURN (R447): the link is trained with bus mastering on, at a width and a speed of R435 that the model leaves
free; the store drains. -/
def execPcieLinkReturn (host : Bool) (s : State) : Host.Outcome State Fault Refusal :=
  .next (s.upd fun p =>
    let hub := portHub host
    if !p.hubUp hub then p
    else
      let (w, p) := p.draw 5
      let (x, p) := p.draw 6
      let p := p.fput F.PCI_PORT_STATUS_width w hub
      let p := p.fput F.PCI_PORT_STATUS_speed x hub
      let p := p.fput F.PCI_PORT_STATUS_link_up 1 hub
      let p := p.fput F.PCI_PORT_STATUS_bus_master 1 hub
      (p.modPort host fun x => { x with d3hot := false }).portServes host)

/-- CONFIGURATION_WRITE (R435, R445, R447): the host turns bus mastering on or off, or puts the function into D3hot or back into D0. -/
def execConfigurationWrite (host : Bool) (c : PciCommand) (s : State) : Host.Outcome State Fault Refusal :=
  .next (s.upd fun p =>
    let hub := portHub host
    if !p.hubUp hub || !p.flag F.PCI_PORT_STATUS_link_up hub then p
    else if c.d3hot then (if (p.port host).d3hot then p else p.portReset host true)
    else
      let p := p.fput F.PCI_PORT_STATUS_bus_master (b2n c.busMaster) hub
      (p.modPort host fun x => { x with d3hot := false }).portServes host)

/-- HOST_LOSS_TIMEOUT (R447): the link has stayed down, or the function in D3hot, for host_loss_ms. -/
def execHostLossTimeout (host : Bool) (s : State) : Host.Outcome State Fault Refusal :=
  .next (s.upd fun p =>
    if (p.port host).lossTimer && !p.linkServes host then p.loseHost host else p)

/-! ### BAR2 (R436 to R438) -/

/-- Panel address of a BAR2 offset (R436). -/
def Panel.bar2Addr (p : Panel) (host : Bool) (off : Nat) : Nat :=
  p.fget F.PCI_BAR2_BASE_base (portHub host) * 2 ^ 36 + off

/-- The TLP reaches a BAR of the port; D3hot disables BAR decoding (R435, R436). -/
def Panel.barLive (p : Panel) (host : Bool) (off len size : Nat) : Bool :=
  p.hubUp (portHub host) && p.linkServes host && decide (0 < len) && decide (off + len ≤ size)

/-- A fatal error is counted and resets the port (R447, R448). -/
def Panel.fatalError (p : Panel) (host : Bool) : Panel :=
  (p.modPort host fun x => { x with aerFatal := x.aerFatal + 1 }).linkReset host

/-- A TLP that reaches a BAR acts; one longer than the port takes is malformed: a write of more than 512 B, a read of more than
4,096 B (R435, R448). -/
def Panel.onBar (p : Panel) (host : Bool) (off len size most : Nat) (f : Panel → Panel) : Panel :=
  if !p.barLive host off len size then p else if most < len then p.fatalError host else f p

/-- A host's read through BAR2 (R437): data with its poison; outside a populated part, or in register space, Unsupported Request; other
failures of the panel network, Completer Abort (DEDUCED, log 15). -/
def Panel.bar2Read (p : Panel) (host : Bool) (off len : Nat) : Panel :=
  p.onBar host off len (2 ^ 36) 4096 fun p =>
    let pa := p.bar2Addr host off
    let st := p.accessStatus pa len
    if inRegs pa ∨ st = 1 then
      (p.modPort host fun x => { x with aerUr := x.aerUr + 1 }).emit (.unsupported host)
    else if st ≠ 0 then (p.modPort host fun x => { x with aerCa := x.aerCa + 1 }).emit (.completerAbort host)
    else
      let (d, pz, p) := p.readRange pa len
      p.emit (.readData host d pz)

/-- A host's write through BAR2 (R437): stored, with poison where the TLP is poisoned; outside a populated part, or in register space,
discarded and counted as an unsupported request. -/
def Panel.bar2Write (p : Panel) (host : Bool) (off : Nat) (data : List Byte) (poison : Bool) : Panel :=
  p.onBar host off data.length (2 ^ 36) 512 fun p =>
    let p := if poison then p.modPort host fun x => { x with aerPoison := x.aerPoison + 1 } else p
    let pa := p.bar2Addr host off
    let st := p.accessStatus pa data.length
    if inRegs pa ∨ st = 1 then p.modPort host fun x => { x with aerUr := x.aerUr + 1 }
    else if st ≠ 0 then p
    else p.storePa pa (data.map (·, poison))

/-- Host of a held TLP. -/
def heldHost : HeldAccess → Bool
  | .bar0Read h .. => h
  | .bar0Write h .. => h
  | .bar2Read h .. => h
  | .bar2Write h .. => h

/-- From the pause of a route swap to its end the hub holds a host's register accesses (R220 steps 2 and 5). A TLP behind a held one of
its port waits too: TLPs of a port take effect in order (R437). -/
def Panel.orHeld (p : Panel) (a : HeldAccess) (regs : Bool) (now : Panel) : Panel :=
  if (regs && p.flag F.PNW_DRAIN_STATUS_in_progress) || p.net.held.any fun x => heldHost x == heldHost a then
    { p with net := { p.net with held := p.net.held ++ [a] } }
  else now

/-- BAR2_READ_TLP (R437). -/
def execBar2ReadTlp (host : Bool) (off len : Nat) (s : State) : Host.Outcome State Fault Refusal :=
  .next (s.upd fun p => p.orHeld (.bar2Read host off len) false (p.bar2Read host off len))

/-- BAR2_WRITE_TLP (R437). -/
def execBar2WriteTlp (host : Bool) (off : Nat) (data : List Byte) (poison : Bool) (s : State) :
    Host.Outcome State Fault Refusal :=
  .next (s.upd fun p => p.orHeld (.bar2Write host off data poison) false (p.bar2Write host off data poison))

end Sys2Proof.Machine
end

