-- ==== Sys2Proof/Machine/ClockPower.lean ====
section
/-! DEFINITION. Clock islands, power zones and heat (chapter 11): operating points (R315 to R319), stretching (R320), margins
(R323, R324), zones that are lost or shut down (R327 to R337), the throttle token (R332, R333) and the power cap (R338). -/

namespace Sys2Proof.Machine

/-! ### Islands (R312, R316, R340) -/

def pointStop : Nat := 7

/-- The island exists: n = 0 to 20 on a die, 0 on an MPD (R340). -/
def Panel.hasIsland (p : Panel) (node n : Nat) : Bool :=
  p.nodeUp node && (if node < 0x40 then decide (n < 21) else decide (node < 0x64) && n == 0)

/-- Key of an island in the maps of `Power`. -/
def islandKey (node n : Nat) : Nat := node * 32 + n

/-- Ceiling of the node's zone. While a ceiling falls, its islands already go by the new one: they change point before the rail
is lowered (R319). -/
def Panel.ceilingOf (p : Panel) (node : Nat) : Nat :=
  let z := p.zoneOf node
  let c := p.fget F.PWR_ZONE_STATUS_ceiling 0 z
  match p.pwr.change with
  | some (y, k) => if y = z then max c k else c
  | none => c

/-- The point an island runs at: the slower of its requested point and the ceiling, or STOP (R316). -/
def Panel.runPoint (p : Panel) (node n : Nat) : Nat :=
  let q := p.fget F.CLK_ISLAND_point node n
  if q = pointStop then pointStop else max q (p.ceilingOf node)

/-- Islands of a node. -/
def islandsOf (node : Nat) : List Nat := if node < 0x40 then List.range 21 else [0]

/-- Islands of a node whose clocks may run: spare and unused core sites stay power-gated and clock-stopped (R312, R326). -/
def Panel.usedIslands (p : Panel) (node : Nat) : List Nat :=
  if node < 0x40 then ((List.range 16).map fun i => i / 8 * 9 + p.coreSite (node * 16 + i)) ++ [18, 19, 20] else [0]

/-- The logical core that a core island belongs to, if any (R24, R340). -/
def Panel.coreOfIsland (p : Panel) (node n : Nat) : Option Nat :=
  ((List.range 8).map fun i => node * 16 + n / 9 * 8 + i).find? fun c => p.coreSite c == n % 9

/-- A stop of the island that R317 refuses. -/
def Panel.stopRefused (p : Panel) (node n : Nat) : Bool :=
  if 0x40 ≤ node ∨ n = 20 then p.fget F.PWR_ZONE_STATUS_state 0 (p.zoneOf node) == 1
  else if n < 18 then
    match p.coreOfIsland node n with
    | some c => !p.halted c
    | none => false
  else (List.range 8).any fun i => !p.halted (node * 16 + (n - 18) * 8 + i)

/-- An island begins to change to the point it is to run at, if it is in use, is not changing already, and runs at another
(R318 steps 1 to 3). -/
def Panel.startMove (p : Panel) (node n : Nat) : Panel :=
  let q := p.runPoint node n
  let k := islandKey node n
  if smHas p.pwr.moving k || p.fget F.CLK_ISLAND_current node n == q || !(p.usedIslands node).contains n then p
  else { p with pwr := { p.pwr with moving := smSet p.pwr.moving k q } }

/-- The requested point is set, and the change begins. -/
def Panel.requestPoint (p : Panel) (node n q : Nat) : Panel := (p.fput F.CLK_ISLAND_point q node n).startMove node n

/-- A write of CLK_ISLAND_n (R315, R317). A point that an alarm lowered stays until the next bring-up (R324; DEDUCED, log 55). -/
def Panel.clkPointWrite (p : Panel) (node n : Nat) (v : W64) : Panel :=
  let q := F.CLK_ISLAND_point.read v
  if q = 5 ∨ q = 6 ∨ (q = pointStop ∧ p.stopRefused node n) ∨ p.flag F.CLK_ISLAND_alarm_hold node n then p
  else p.requestPoint node n q

/-- CLK_POINT_WRITE (R317, R318 step 1). -/
def execClkPointWrite (node n : Nat) (v : W64) (s : State) : Host.Outcome State Fault Refusal :=
  .next (s.upd fun p => if p.hasIsland node n then p.clkPointWrite node n v else p)

/-- A change to a point is done: the island runs at it (R318 step 4). -/
def Panel.endMove (p : Panel) (node n q : Nat) : Panel :=
  let p := { p with pwr := { p.pwr with moving := smDel p.pwr.moving (islandKey node n) } }
  let p := p.fput F.CLK_ISLAND_current q node n
  let p := p.fput F.CLK_ISLAND_stopped (b2n (q == pointStop)) node n
  p.addWrap F.CLK_ISLAND_changes 1 node n

/-- A change in progress ends. -/
def Panel.finishMove (p : Panel) (node n : Nat) : Panel :=
  match smGet p.pwr.moving (islandKey node n) with
  | some q => p.endMove node n q
  | none => p

/-- The island goes to the point it is to run at: a change in progress ends first, and another follows if that point differs (R318,
R337). -/
def Panel.takePoint (p : Panel) (node n : Nat) : Panel :=
  let p := p.finishMove node n
  let q := p.runPoint node n
  if p.fget F.CLK_ISLAND_current node n = q then p else p.endMove node n q

/-- POINT_CHANGE_DONE (R318): the change in progress ends; a change requested meanwhile begins. -/
def execPointChangeDone (node n : Nat) (s : State) : Host.Outcome State Fault Refusal :=
  .next (s.upd fun p =>
    match smGet p.pwr.moving (islandKey node n) with
    | some q => if p.hasIsland node n then (p.endMove node n q).startMove node n else p
    | none => p)

/-- The island of a unit whose gate closes is stopped (R312, R326). -/
def Panel.stopIsland (p : Panel) (node n : Nat) : Panel :=
  let k := islandKey node n
  let p := { p with pwr := { p.pwr with
    moving := smDel p.pwr.moving k, droop := smDel p.pwr.droop k, alarmed := smDel p.pwr.alarmed k } }
  ((p.fput F.CLK_ISLAND_current pointStop node n).fput F.CLK_ISLAND_stopped 1 node n).fput F.CLK_ISLAND_stretch 0 node n

/-! ### Stretching (R320, R324) -/

/-- The factor shown: 2.00× under a margin alarm, else what the droop detector set. -/
def Panel.showStretch (p : Panel) (node n : Nat) : Panel :=
  let k := islandKey node n
  p.fput F.CLK_ISLAND_stretch (if smHas p.pwr.alarmed k then 4 else smGetD p.pwr.droop k 0) node n

/-- DROOP_STRETCH (R320): periods lengthen to factor k; a factor never falls here. No stretch applies while the island changes
point (R318). -/
def execDroopStretch (node n k : Nat) (s : State) : Host.Outcome State Fault Refusal :=
  .next (s.upd fun p =>
    if p.hasIsland node n && decide (1 ≤ k) && decide (k ≤ 4) && !p.flag F.CLK_ISLAND_stopped node n &&
        !smHas p.pwr.moving (islandKey node n) then
      let i := islandKey node n
      let p := { p with pwr := { p.pwr with droop := smSet p.pwr.droop i (max k (smGetD p.pwr.droop i 0)) } }
      (p.addHold F.CLK_ISLAND_stretch_events 1 node n).showStretch node n
    else p)

/-- STRETCH_RECOVER (R320): after 16 periods above threshold 1 periods return to 1.0×. How many periods were stretched is a
free value. -/
def execStretchRecover (node n : Nat) (s : State) : Host.Outcome State Fault Refusal :=
  .next (s.upd fun p =>
    let i := islandKey node n
    if p.hasIsland node n && smHas p.pwr.droop i then
      let p := { p with pwr := { p.pwr with droop := smDel p.pwr.droop i } }
      let (k, p) := p.draw 0
      (p.addHold F.CLK_ISLAND_stretch_events (16 + k) node n).showStretch node n
    else p)

/-! ### Margins (R323, R324) -/

/-- Warn and alarm limits; the defaults where alarm is not below warn (R340). -/
def Panel.marginLimits (p : Panel) (node : Nat) : Nat × Nat :=
  let w := p.fget F.CLK_MARGIN_LIMITS_warn node
  let a := p.fget F.CLK_MARGIN_LIMITS_alarm node
  if a < w then (w, a) else (8, 3)

/-- An alarm: 2.00× at once, MARGIN_ALARM, and a step down, never below P4, where 100 ms have passed since the last (R324). -/
def Panel.marginAlarm (p : Panel) (node n : Nat) (stepDue : Bool) : Panel :=
  let i := islandKey node n
  let p := if smHas p.pwr.alarmed i then p
    else
      let p := { p with pwr := { p.pwr with alarmed := smSet p.pwr.alarmed i () } }
      ((p.showStretch node n).addHold F.CLK_MARGIN_alarms 1 node n).reportNode node 0x0402 clsInfo (some n)
  let q := p.fget F.CLK_ISLAND_point node n
  if stepDue ∧ q ≤ 4 then (p.fput F.CLK_ISLAND_alarm_hold 1 node n).requestPoint node n (min 4 (q + 1)) else p

/-- MARGIN_SAMPLE (R323, R324): the island margin is the least of the four codes. `warnDue` says that a millisecond has
passed since the island's last MARGIN_WARN, `stepDue` that 100 ms have passed since the PMC last lowered an island. -/
def execMarginSample (node n : Nat) (codes : List (BitVec 6)) (warnDue stepDue : Bool) (s : State) :
    Host.Outcome State Fault Refusal :=
  .next (s.upd fun p =>
    if p.hasIsland node n && !codes.isEmpty then
      let m := codes.foldl (fun a c => min a c.toNat) 63
      let (w, a) := p.marginLimits node
      let p := p.fput F.CLK_MARGIN_now m node n
      let p := p.fput F.CLK_MARGIN_low (min m (p.fget F.CLK_MARGIN_low node n)) node n
      let p := if m ≤ w ∧ warnDue then
          (p.addHold F.CLK_MARGIN_warns 1 node n).reportNode node 0x0401 clsInfo (some n)
        else p
      if m ≤ a then p.marginAlarm node n stepDue else p
    else p)

/-- MARGIN_ALARM_RELEASE (R324). -/
def execMarginAlarmRelease (node n : Nat) (s : State) : Host.Outcome State Fault Refusal :=
  .next (s.upd fun p =>
    if p.hasIsland node n then
      ({ p with pwr := { p.pwr with alarmed := smDel p.pwr.alarmed (islandKey node n) } }).showStretch node n
    else p)

/-! ### Zones that go down (R327, R328, R334 to R336) -/

def zoneOff : Nat := 0
def zoneOn : Nat := 1
def zoneDraining : Nat := 2
def zoneThermal : Nat := 3
def zoneFuse : Nat := 4
def zoneDisabled : Nat := 5

def Panel.zoneState (p : Panel) (z : Nat) : Nat := p.fget F.PWR_ZONE_STATUS_state 0 z

def Panel.setZoneState (p : Panel) (z st : Nat) : Panel := p.fput F.PWR_ZONE_STATUS_state st 0 z

/-- Level of the core rail for a ceiling, in mV (R319). -/
def railMv (c : Nat) : Nat := [800, 740, 680, 620, 550].getD c 550

/-- Rails of a zone that are up, in the order of R325: compute zones have link, SRAM tier, core and HBM rails. -/
def Panel.railsUp (p : Panel) (z : Nat) : Nat := smGetD p.pwr.rails z 0

/-- A zone's rails come up to the first k of R325's order, or are taken down to them in the reverse order; a core rail that
comes up starts at the level of the zone's ceiling (R319). -/
def Panel.setRails (p : Panel) (z k : Nat) : Panel :=
  let mv := if k < 3 ∨ 12 ≤ z then smDel p.pwr.coreMv z
    else smSet p.pwr.coreMv z (railMv (p.fget F.PWR_ZONE_STATUS_ceiling 0 z))
  { p with pwr := { p.pwr with rails := smPut p.pwr.rails 0 z k, coreMv := mv } }

/-- A zone takes a ceiling, and a core rail that is up its level (R319). -/
def Panel.setCeiling (p : Panel) (z c : Nat) : Panel :=
  let p := p.fput F.PWR_ZONE_STATUS_ceiling c 0 z
  if smHas p.pwr.coreMv z then { p with pwr := { p.pwr with coreMv := smSet p.pwr.coreMv z (railMv c) } } else p

/-- Gates of sites and core sites stay open where they meet a condition on the site's link end index (R326). -/
def Panel.keepGates (p : Panel) (keep : Nat → Bool) : Panel :=
  { p with bring := { p.bring with
    gates := p.bring.gates.filter keep, coreGates := p.bring.coreGates.filter fun k => keep (k / 18) } }

/-- Nodes of the shape in a zone. -/
def Panel.zoneNodes (p : Panel) (z : Nat) : List Nat :=
  ((List.range p.nDies) ++ (List.range p.nStacks).map (0x40 + ·)).filter fun n => p.shapeValid && p.zoneOf n == z

/-- A core whose zone lost power: nothing runs, and its contents are undefined (R13, R328). -/
def Panel.coreLost (p : Panel) (c : Nat) : Panel :=
  let p := (p.fput F.CORE_STATUS_running 0 c).fput F.CORE_STATUS_halted 1 c
  p.setCore c { Core.zero with fenced := (p.core c).fenced }

/-- No change stays pending for a zone that is draining, shut down or lost, and a change in progress is withdrawn (R333,
R337). -/
def Panel.noChange (p : Panel) (z : Nat) : Panel :=
  let drop (l : List Nat) : List Nat := l.filter (· != z)
  let mine := match p.pwr.change with | some (y, _) => y == z | none => false
  let p := { p with pwr := { p.pwr with
    heatDown := drop p.pwr.heatDown, capDown := drop p.pwr.capDown, up := drop p.pwr.up
    change := if mine then none else p.pwr.change } }
  if mine then p.fput F.PWR_TOKEN_STATUS_busy 0 else p

/-- Islands of a zone's nodes forget how far they were stretched, and any change of point. -/
def Panel.forgetStretch (p : Panel) (ns : List Nat) : Panel :=
  { p with pwr := { p.pwr with
    droop := p.pwr.droop.filter fun e => !ns.contains (e.1 / 32)
    alarmed := p.pwr.alarmed.filter fun e => !ns.contains (e.1 / 32)
    moving := p.pwr.moving.filter fun e => !ns.contains (e.1 / 32) } }

/-- A compute zone's islands stop and its rails go down in the reverse order (R325, R328 step 1, R334 step 3, R336). Packets its
routers hold are gone, and new tables are computed without it. -/
def Panel.computeZoneDown (p : Panel) (z st : Nat) : Panel :=
  let ns := p.zoneNodes z
  let p := (((p.noChange z).setZoneState z st).setRails z 0).forgetStretch ns
  let p := p.keepGates fun e => zoneOfEnd e != z
  let p := { p with net := { p.net with flying := p.net.flying.filter fun f => p.zoneOf f.holder != z || f.holder ≥ 0x70 && f.holder < 0x80 } }
  let p := ns.foldl (fun p n => (islandsOf n).foldl (fun p i =>
    ((p.fput F.CLK_ISLAND_current pointStop n i).fput F.CLK_ISLAND_stopped 1 n i).fput F.CLK_ISLAND_stretch 0 n i) p) p
  let dies := ns.filter (· < 0x40)
  let p := dies.foldl (fun p d => (List.range 16).foldl (fun p i => p.coreLost (d * 16 + i)) p) p
  let p := p.markUndef (dies.flatMap fun d => [d * 2, d * 2 + 1] ++ (List.range 16).map (256 + d * 16 + ·))
  let p := (ns.filter (0x40 ≤ ·)).foldl (fun p n => p.fput F.MPD_HBM_STATUS_state 0 (n - 0x40)) p
  let p := { p with bring := { p.bring with zonesLost := insertAsc p.bring.zonesLost z } }
  let p := (p.writePorts).writeRoutes true
  { p with net := { p.net with swapDue := true } }

/-! ### Guest sites that go off (R326, R329, R361) -/

def gsOff : Nat := 0

/-- Hub and register index of a guest site (R466, R474). -/
def guestHub (g : Nat) : Nat := if g < 2 then 1 else 2

/-- The registers of a guest site read zero (R474). -/
def Panel.clearGuestRegs (p : Panel) (g : Nat) : Panel :=
  let h := guestHub g
  let i := g % 2
  let p := (p.put .SEC_GUEST_STATUS 0 h i).put .SEC_GUEST_LIMITS 0 h i
  (List.range 16).foldl (fun (p : Panel) n => (p.put .SEC_GUEST_WIN_BASE 0 h i n).put .SEC_GUEST_WIN_LIMIT 0 h i n) p

/-- Power a guest site off, in a state. -/
def Panel.guestOff (p : Panel) (g state reason : Nat) : Panel :=
  let h := guestHub g
  let p := (p.clearGuestRegs g).setGuest g .off
  (p.fput F.SEC_GUEST_STATUS_state state h (g % 2)).fput F.SEC_GUEST_STATUS_refuse_reason reason h (g % 2)

/-! ### Edge zones -/

/-- What the rails of an edge zone fed beside its hubs is gone: its guest dies and the readings of its optical engines; the
neighbours of its fabric ports see their links go down (R329). -/
def Panel.edgeUnitsLost (p : Panel) (hubs : List Nat) : Panel :=
  let p := (upTo 16 fun q => hubs.contains (q / 4) && p.flag F.HJF_PORT_STATUS_link_up (q / 4) (q % 4)).foldl
    (fun (p : Panel) q => p.emit (.linkDown q)) p
  let p := (upTo 4 fun g => hubs.contains (guestHub g)).foldl (fun (p : Panel) g => p.guestOff g gsOff 0) p
  { p with oe := p.oe.filter fun e => !hubs.contains (e.1 / 8) }

/-- An edge zone's rails go down: its hubs, ports, engines and guests are lost (R325, R329). -/
def Panel.edgeZoneDown (p : Panel) (z st : Nat) : Panel :=
  let west := z == 12
  let hubs := if west then [0, 1] else [2, 3]
  let p := ((p.edgeUnitsLost hubs).setZoneState z st).setRails z 0
  let p := { p with pwr := if west then { p.pwr with railW := false } else { p.pwr with railE := false } }
  let ports := hubs.flatMap fun h => (List.range 4).map (4 * h + ·)
  let p := ports.foldl (fun p q => (p.fput F.HJF_PORT_STATUS_state 0 (q / 4) (q % 4)).fput F.HJF_PORT_STATUS_link_up 0 (q / 4) (q % 4)) p
  let ph : Nat := if west then 0 else 3
  let p := (p.fput F.PCI_PORT_STATUS_link_up 0 ph).fput F.PCI_PORT_STATUS_bus_master 0 ph
  let p := hubs.foldl (fun p h => { p with fabric := smDel p.fabric h }.put .HJF_CONTROL 0 h) p
  let p := if west then { p with mgmt := (p.mgmt.filter fun e => 2 ≤ e.1) } else { p with mgmt := (p.mgmt.filter fun e => e.1 < 2) }
  let was := p.role ph
  let p := ((p.fput F.RQE_CONTROL_enable 0 ph).setRole ph roleOff).setEng ph .empty
  let p := if was = roleStandby ∧ p.role (3 - ph) = roleActive then p.standbyLost (3 - ph) else p
  let p := if west then p.resetReg .PCI_LEASE else p
  let p := if p.primaryHub = ph then { p with pmc := { p.pmc with primaryHd3 := west } } else p
  let p := { p with bring := { p.bring with running := p.bring.running.filter fun h => !hubs.contains h } }
  let p := (p.writePorts).writeRoutes true
  { p with net := { p.net with swapDue := true } }

def Panel.zoneDown (p : Panel) (z st : Nat) : Panel := if z < 12 then p.computeZoneDown z st else p.edgeZoneDown z st

/-- A zone shut down for heat is off: it counts, and stays unpowered (R335). -/
def Panel.thermalOff (p : Panel) (z : Nat) : Panel :=
  let p := { p with pwr := { p.pwr with hot := insertAsc p.pwr.hot z } }
  (p.addHold F.PWR_ZONE_STATUS_thermal_offs 1 0 z).zoneDown z zoneThermal

/-- Shutdown of a zone begins: ZONE_THERMAL, and routes without its nodes wait for a swap (R334 steps 1 and 2). -/
def Panel.zoneShutdown (p : Panel) (z : Nat) : Panel :=
  if p.zoneState z ≠ zoneOn then p
  else
    let p := (p.noChange z).setZoneState z zoneDraining
    let p := (p.reportZone z 0x0404 clsPF).writeRoutes true
    { p with net := { p.net with swapDue := true } }

/-- A zone lost with no drain: ZONE_LOST (R328, R334). -/
def Panel.zoneLostNow (p : Panel) (z : Nat) (fuse : Bool) : Panel :=
  let p := if fuse then p.zoneDown z zoneFuse else p.thermalOff z
  p.reportZone z 0x0405 clsPF

/-- The swap that drains zones has ended: they stop and their rails go down (R334 step 3). -/
def Panel.finishDraining (p : Panel) : Panel :=
  (upTo 14 fun z => p.zoneState z == zoneDraining).foldl (fun p z => p.thermalOff z) p

/-- A panel trip (R336): THERM_TRIP_N, and every compute zone's rails down with no drain. The drain of a zone is abandoned, and the
edge zones remain powered (R337). In a reset only the net is asserted. -/
def Panel.panelTrip (p : Panel) : Panel :=
  if p.pwr.trip then p
  else
    let p := { p with pwr := { p.pwr with trip := true } }
    if p.pwr.resetHeld then p
    else
      let p := p.reportPanel p.primaryHub 0x0406 clsPF
      let p := (upTo 12 fun z => p.zoneState z == zoneOn || p.zoneState z == zoneDraining).foldl (fun p z => p.computeZoneDown z zoneOff) p
      ([12, 13].filter fun z => p.zoneState z == zoneDraining).foldl (fun p z => p.setZoneState z zoneOn) p

/-- An eFuse that opens while PANEL_RESET_N is asserted takes the zone's rails down, and nothing else is left of it to lose (R13,
R327). -/
def Panel.fuseInReset (p : Panel) (z : Nat) : Panel :=
  let p := p.setRails z 0
  { p with pwr := if z = 12 then { p.pwr with railW := false } else if z = 13 then { p.pwr with railE := false } else p.pwr }

/-- EFUSE_OPEN (R327 to R329, R337). -/
def execEfuseOpen (z : Nat) (s : State) : Host.Outcome State Fault Refusal :=
  .next (s.upd fun p =>
    if decide (z < 14) && p.pwr.in44 && !p.pwr.efuse.contains z then
      let p := { p with pwr := { p.pwr with efuse := insertAsc p.pwr.efuse z } }
      if p.pwr.resetHeld then p.fuseInReset z
      else if p.zoneState z = zoneOn ∨ p.zoneState z = zoneDraining then p.zoneLostNow z true
      else p.setZoneState z zoneFuse
    else p)

/-- ZONE_SHUTDOWN_TIMEOUT (R334): the shutdown is not done in 10 ms, or the zone is 4 °C over. -/
def execZoneShutdownTimeout (z : Nat) (s : State) : Host.Outcome State Fault Refusal :=
  .next (s.upd fun p => if z < 14 ∧ p.zoneState z = zoneDraining then p.zoneLostNow z false else p)

/-! ### Heat (R330, R331, R333) -/

/-- Stacks in a zone. -/
def Panel.zoneStacks (p : Panel) (z : Nat) : List Nat := (List.range p.nStacks).filter fun s => p.shapeValid && p.zoneOf (0x40 + s) == z

/-- A stack of the zone asks for its throttling (R195). -/
def Panel.stackThrottles (p : Panel) (z : Nat) : Bool := (p.zoneStacks z).any fun s => p.flag F.MPD_HBM_STATUS_throttle_req s

/-- A threshold of R331: what the flacon loaded, and its default while no flacon has loaded one. -/
def Panel.thermLimit (p : Panel) (f : RField) (default : Nat) : Nat :=
  if p.bring.flacon.isNone && p.get .PWR_THERM_LIMITS == 0 then default else p.fget f

def Panel.throttleC (p : Panel) : Nat := p.thermLimit F.PWR_THERM_LIMITS_throttle_c 95
def Panel.shutdownC (p : Panel) : Nat := p.thermLimit F.PWR_THERM_LIMITS_shutdown_c 110
def Panel.tripC (p : Panel) : Nat := p.thermLimit F.PWR_THERM_LIMITS_trip_c 118

/-- A zone's ceiling may rise: it is below the limit of max_point, no stack asks for throttling, and the cap is not active (R195, R333,
R338). -/
def Panel.mayRise (p : Panel) (z : Nat) : Bool :=
  decide (p.fget F.PWR_ZONE_CONTROL_max_point 0 z < p.fget F.PWR_ZONE_STATUS_ceiling 0 z) &&
    !p.stackThrottles z && !p.pwr.capDown.contains z && !p.flag F.PWR_PANEL_cap_active

/-- Zones with an up change pending: those that have cooled and still may rise (R333, R338). -/
def Panel.ups (p : Panel) : List Nat := p.pwr.up.filter p.mayRise

/-- The rule of R333 for a compute zone in service, with the stacks' requests (R195) and the cap (R338). -/
def Panel.heatPending (p : Panel) (z t : Nat) (dwellDown dwellUp : Bool) : Panel :=
  let thr := p.throttleC
  let c := p.fget F.PWR_ZONE_STATUS_ceiling 0 z
  let down := (decide (thr ≤ t) || p.stackThrottles z) && decide (c < 4) && dwellDown
  let up := decide (t + 5 ≤ thr) && dwellUp && p.mayRise z
  let set (l : List Nat) (b : Bool) : List Nat := if b then insertAsc l z else l.filter (· != z)
  { p with pwr := { p.pwr with heatDown := set p.pwr.heatDown down, up := set p.pwr.up up } }

/-- Readings that the panel holds for a zone: its stacks' (R195), and its optical engines' and guest dies' (R330, R466, R470). -/
def Panel.heldReadings (p : Panel) (z : Nat) : List Nat :=
  (p.zoneStacks z).map (fun s => p.fget F.MPD_HBM_STATUS_temp_c s) ++
    (p.oe.filter fun e => e.1 % 4 == 0 && z == (if e.1 / 8 < 2 then 12 else 13)).map (fun e => e.2.toNat) ++
    (p.guests.filter fun e => e.2.powered && z == (if e.1 < 2 then 12 else 13)).map fun e => e.2.tempC

/-- ZONE_TEMP_SAMPLE (R330 to R336): the zone temperature is the highest of the sensors' readings and of those the panel holds.
`dwellDown` says that 10 ms have passed since the zone's last change, `dwellUp` that it has stayed 5 °C below the throttle threshold for
10 ms. While PANEL_RESET_N is asserted no register shows it, and only a trip follows (R13, R336). -/
def execZoneTempSample (z : Nat) (readings : List (BitVec 8)) (dwellDown dwellUp : Bool) (s : State) :
    Host.Outcome State Fault Refusal :=
  .next (s.upd fun p =>
    if decide (z < 14) && p.pwr.in44 && !readings.isEmpty then
      let on := p.zoneState z = zoneOn ∨ p.zoneState z = zoneDraining
      let t := (if on then p.heldReadings z else []).foldl max (readings.foldl (fun a r => max a r.toNat) 0)
      let p := { p with pwr := { p.pwr with temps := smSet p.pwr.temps z t } }
      let was := p.fget F.PWR_ZONE_STATUS_temp_c 0 z
      let thr := p.throttleC
      let shut := p.shutdownC
      let p := if p.pwr.resetHeld then p else p.fput F.PWR_ZONE_STATUS_temp_c t 0 z
      let st := p.zoneState z
      if p.tripC ≤ t then p.panelTrip
      else if (st = zoneOn ∨ st = zoneDraining) ∧ shut + 4 ≤ t then
        let p := if st = zoneOn then p.reportZone z 0x0404 clsPF else p
        p.zoneLostNow z false
      else if st = zoneOn ∧ shut ≤ t then p.zoneShutdown z
      else if st ≠ zoneOn then p
      else if 12 ≤ z then (if thr ≤ t ∧ was < thr then p.reportZone z 0x0403 clsInfo else p)
      else p.heatPending z t dwellDown dwellUp
    else p)

/-! ### The throttle token (R332, R333) -/

/-- First zone of a list after the one that last held the token. -/
def Panel.nextZone (p : Panel) (l : List Nat) : Option Nat :=
  let last := p.fget F.PWR_TOKEN_STATUS_last
  ((List.range 12).map fun i => (last + 1 + i) % 12).find? fun z => l.contains z

/-- The alternate PMC holds the token: the primary's PMC restarts, and the alternate has taken over (R332, R377). -/
def Panel.alternateHolds (p : Panel) : Bool :=
  p.pmc.restarting.contains (3 - p.primaryHub) && p.pmc.tookOver

/-- PWR_TOKEN_STATUS as it reads. -/
def Panel.tokenStatus (p : Panel) : W64 :=
  let w := p.pwr
  let zs := upTo 12 fun z => w.heatDown.contains z || w.capDown.contains z || p.ups.contains z
  let v := F.PWR_TOKEN_STATUS_pending.write (p.get .PWR_TOKEN_STATUS) (sumL (zs.map (2 ^ ·)))
  F.PWR_TOKEN_STATUS_alternate.write v (b2n p.alternateHolds)

/-- The islands of a zone in use begin to change point. -/
def Panel.moveZone (p : Panel) (z : Nat) : Panel :=
  (p.zoneNodes z).foldl (fun p n => (p.usedIslands n).foldl (fun p i => p.startMove n i) p) p

/-- THROTTLE_TOKEN_GRANT (R332, R333): the next zone with a down change pending, else the next with an up change, makes one
change of one point. When the ceiling falls the zone's islands begin to change point at once; when it rises the rail is raised
first (R319). -/
def execThrottleTokenGrant (s : State) : Host.Outcome State Fault Refusal :=
  .next (s.upd fun p =>
    let w := p.pwr
    let downs := w.heatDown ++ w.capDown
    let grant (z c : Nat) : Panel :=
      let drop (l : List Nat) : List Nat := l.filter (· != z)
      let p := { p with pwr := { w with heatDown := drop w.heatDown, capDown := drop w.capDown, up := drop w.up, change := some (z, c) } }
      let p := ((p.fput F.PWR_TOKEN_STATUS_last z).fput F.PWR_TOKEN_STATUS_busy 1).addWrap F.PWR_TOKEN_STATUS_grants 1
      p.moveZone z
    if w.change.isSome then p
    else
      match p.nextZone downs with
      | some z => grant z (min 4 (p.fget F.PWR_ZONE_STATUS_ceiling 0 z + 1))
      | none =>
        match p.nextZone p.ups with
        | some z => grant z (p.fget F.PWR_ZONE_STATUS_ceiling 0 z - 1)
        | none => p)

/-- CEILING_CHANGE_DONE (R319, R332): the core rail and the zone's islands in use have reached the new ceiling. -/
def execCeilingChangeDone (s : State) : Host.Outcome State Fault Refusal :=
  .next (s.upd fun p =>
    match p.pwr.change with
    | none => p
    | some (z, c) =>
      let p := (p.fput F.PWR_ZONE_STATUS_ceiling c 0 z).fput F.PWR_TOKEN_STATUS_busy 0
      let p := { p with pwr := { p.pwr with change := none, coreMv := smSet p.pwr.coreMv z (railMv c) } }
      (p.zoneNodes z).foldl (fun p n => (p.usedIslands n).foldl (fun p i => p.takePoint n i) p) p)

/-! ### The power cap (R338) -/

/-- The cap in force: at most 25,000 W. -/
def Panel.capW (p : Panel) : Nat := min 25000 (p.fget F.PWR_PANEL_cap_w)

/-- The compute zone of highest input power that can be lowered; the lowest number among equals. -/
def Panel.hungriest (p : Panel) : Option Nat :=
  (upTo 12 fun z => p.zoneState z == zoneOn && decide (p.fget F.PWR_ZONE_STATUS_ceiling 0 z < 4)).foldl
    (fun (b : Option Nat) z =>
      match b with
      | none => some z
      | some y => if p.fget F.PWR_ZONE_STATUS_input_w 0 y < p.fget F.PWR_ZONE_STATUS_input_w 0 z then some z else b) none

/-- POWER_CAP_SAMPLE (R338): input power of each zone; `below100ms` says that the mean has stayed at least 5 % below the cap
for 100 ms. -/
def execPowerCapSample (watts : List (BitVec 16)) (below100ms : Bool) (s : State) : Host.Outcome State Fault Refusal :=
  .next (s.upd fun p =>
    if !p.pwr.in44 || p.pwr.resetHeld then p
    else
      let ws := (watts.take 14).map (·.toNat)
      let p := (ws.zipIdx).foldl (fun p e => p.fput F.PWR_ZONE_STATUS_input_w e.1 0 e.2) p
      let l := (sumL ws :: p.pwr.samples).take 10
      let mean := sumL l / l.length
      let p := ({ p with pwr := { p.pwr with samples := l } }).fput F.PWR_PANEL_input_w mean
      if p.capW < mean then
        let p := p.fput F.PWR_PANEL_cap_active 1
        match p.hungriest with
        | some z => { p with pwr := { p.pwr with capDown := insertAsc p.pwr.capDown z } }
        | none => p
      else if below100ms ∧ mean * 100 ≤ p.capW * 95 then p.fput F.PWR_PANEL_cap_active 0
      else p)

end Sys2Proof.Machine
end

