-- ==== Sys2Proof/Machine/Fabric.lean ====
section
/-! DEFINITION. The commands of the Hudja fabric (chapter 14): packets at the switch (R412, R415, R422, R424), the network
interface serving and making operations (R418 to R425), route applies (R417), detaching and ports that go down and come up
(R427 to R429). -/

namespace Sys2Proof.Machine

/-! ### The switch -/

/-- The command names a hub that has power and a local port. -/
def Panel.fPort (p : Panel) (hub i : Nat) : Bool := decide (hub < 4) && decide (i < 4) && p.hubUp hub

/-- A mark on a packet that is neither a request nor a mirror packet is counted (R424). -/
def Panel.countMark (p : Panel) (hub : Nat) (k : FPacket) : Panel :=
  if k.mark && (k.tclass == 1 || k.tclass == 3) then p.modFab hub fun f => { f with oddMarks := f.oddMarks + 1 } else p

/-- A packet for this panel reaches its network interface; a failed check discards it (R412). Control packets go to the unit
they name, whose own command follows. -/
def Panel.fDeliver (p : Panel) (hub : Nat) (port : Option Nat) (k : FPacket) : Panel :=
  let p := p.countMark hub k
  if fCheck k ≠ k.check then p.fDiscard hub port 0x0703
  else if k.tclass = 3 then p
  else p.modFab hub fun f => { f with arrived := f.arrived ++ [k] }

/-- Codewords that a port corrected are counted (R404). -/
def Panel.countCorrected (p : Panel) (hub port n : Nat) : Panel :=
  p.modFab hub fun f => { f with corrected := smPut f.corrected 0 port (smGetD f.corrected port 0 + n) }

/-- FABRIC_PACKET_RECEIVE (R404, R412, R413, R415, R422): `transit` is the residency this switch adds, `corrected` the codewords of the
packet that the port corrected. A neighbour sends only what the pool has room for. -/
def execFabricPacketReceive (hub port : Nat) (k : FPacket) (fecOk : Bool) (transit : BitVec 32) (corrected : Nat) (s : State) :
    Host.Outcome State Fault Refusal :=
  .next (s.upd fun p =>
    if !p.fPort hub port || !(p.portState hub port == portUp || p.portState hub port == portDraining) ||
        (k.tclass != 3 && (p.fRoom hub port k).isNone) then p
    else
      let p := p.countCorrected hub port corrected
      if !fecOk then (p.addHold F.HJF_PORT_STATUS_fec_uncorrected 1 hub port).reportHubEdge hub 0x0703 clsInfo
      else if !fOpcodeOk k.opcode.toNat then
        (p.modFab hub fun f => { f with malformed := f.malformed + 1 }).reportHubEdge hub 0x0703 clsInfo
      else
        let r := min 0xFFFFFFFF (k.residency.toNat + transit.toNat)
        if p.maxAge < r then (p.addHold F.HJF_POOL_STATUS_age_discards 1 hub).fDiscard hub port 0x0704
        else
          let k := { k with residency := BitVec.ofNat 32 r }
          if k.dstCoord = p.coord then p.fDeliver hub port k
          else
            let (p', ok) := p.fSend hub ((p.fRoom hub port k).getD ⟨k, port, fChan k, 0⟩)
            if ok then p' else p.fDiscard hub port 0x0703)

/-! ### The network interface as a destination (R420) -/

/-- Send from the network interface: to this panel itself, or into the fabric. False where no port is usable. -/
def Panel.niSend (p : Panel) (hub : Nat) (k : FPacket) : Panel × Bool :=
  if k.dstCoord = p.coord then (p.modFab hub fun f => { f with arrived := f.arrived ++ [k] }, true) else p.fInject hub k

/-- Answer a request: the mark becomes the echo (R410, R424). -/
def Panel.niAnswer (p : Panel) (hub : Nat) (k : FPacket) (opcode : BitVec 6) (status : Nat) (data : List Byte) (poison : Bool) :
    Panel :=
  if p.domain hub = domForwarding then
    let a := sealCheck ⟨opcode, 1, false, false, false, poison, k.srcCoord, p.coord, k.srcNode, k.dstNode, unitSwitch, k.tag,
      BitVec.ofNat 13 data.length, 0, 0, BitVec.ofNat 8 status, k.mark, 0, 0, data⟩
    let (p', ok) := p.niSend hub a
    if ok then p' else p.fUnreachable hub 4
  else p

/-- Take a packet from the network interface. -/
def Panel.takeArrived (p : Panel) (hub : Nat) (k : FPacket) : Panel :=
  p.modFab hub fun f =>
    match f.arrived.findIdx? (· == k) with
    | some i => { f with arrived := f.arrived.eraseIdx i }
    | none => f

/-- The panel is in SERVICE (R420). -/
def Panel.inService (p : Panel) : Bool := p.fget F.PMC_STAGE_stage == 0xA

/-- An enabled export window holds the range (R420). A window that reaches register space is not enabled (R434). -/
def Panel.exported (p : Panel) (pa len : Nat) (write : Bool) : Bool :=
  (List.range 8).any fun n =>
    let b := p.fget F.HJF_EXPORT_base 0 n * 2 ^ 21
    let e := b + p.fget F.HJF_EXPORT_size_mib 0 n * 2 ^ 20
    p.flag F.HJF_EXPORT_enable 0 n && (!write || p.flag F.HJF_EXPORT_write 0 n) && decide (b ≤ pa) && decide (pa + len ≤ e) &&
      decide (e ≤ regBase ∨ regBase + 0x10000000 ≤ b)

/-- Serve a request: not in SERVICE, ADDRESS_ERROR; refused, DENIED; else by the access itself, where it makes one. A home that does not
answer leaves the request unanswered. -/
def Panel.niServe (p : Panel) (hub : Nat) (k : FPacket) (allowed : Bool) (len : Option Nat) (f : Panel → Panel) : Panel :=
  if !p.inService then p.niAnswer hub k 0x0A 1 [] false
  else if !allowed then (p.niAnswer hub k 0x0A 3 [] false).reportHubEdge hub 0x0706 clsInfo
  else
    match (len.map (p.accessStatus k.addr.toNat)).getD 0 with
    | 0 => f p
    | 3 => p
    | st => p.niAnswer hub k 0x0A st [] false

/-- FABRIC_RD (R420). -/
def execFabricRd (hub : Nat) (k : FPacket) (s : State) : Host.Outcome State Fault Refusal :=
  .next (s.upd fun p =>
    if !p.fPort hub 0 then p
    else
      let len := k.length.toNat
      (p.takeArrived hub k).niServe hub k (p.exported k.addr.toNat len false) (some len) fun p =>
        let (d, pz, p) := p.readRange k.addr.toNat len
        p.niAnswer hub k 0x08 0 d pz)

/-- FABRIC_WR (R420). -/
def execFabricWr (hub : Nat) (k : FPacket) (s : State) : Host.Outcome State Fault Refusal :=
  .next (s.upd fun p =>
    if !p.fPort hub 0 then p
    else
      let len := k.payload.length
      (p.takeArrived hub k).niServe hub k (p.exported k.addr.toNat len true) (some len) fun p =>
        (p.storePa k.addr.toNat (k.payload.map (·, k.poison))).niAnswer hub k 0x09 0 [] false)

/-- A token post made by a PMC from the post fields of R210. -/
def Panel.pmcPost (p : Panel) (post : Nat) : Panel :=
  let c := bits post 9 0
  if p.coreUp c && !p.isFenced c then p.tokenAdd c (bits post 14 10) (bits post 30 15) else p

/-- FPOST (R420): handed to the PMC, which makes the post. -/
def execFpost (hub : Nat) (k : FPacket) (s : State) : Host.Outcome State Fault Refusal :=
  .next (s.upd fun p =>
    if !p.fPort hub 0 then p
    else
      (p.takeArrived hub k).niServe hub k (p.flag F.HJF_CONFIG_accept_post) none fun p =>
        (p.pmcPost k.post.toNat).niAnswer hub k 0x09 0 [] false)

/-! ### Injection limits (R425) -/

def Panel.minRate (p : Panel) : Nat := max 1 (p.fget F.HJF_SILLAGE_min_rate)

def Panel.decShift (p : Panel) : Nat :=
  let d := p.fget F.HJF_SILLAGE_dec_shift
  if 1 ≤ d ∧ d ≤ 8 then d else 3

/-- The table of an injection limiter of a hub: the mirror engine's, or the network interface's. -/
def Panel.rates (p : Panel) (hub : Nat) (mirror : Bool) : SMap Nat :=
  if mirror then (p.fab4 hub).mlimiter else (p.fab4 hub).limiter

def Panel.setRates (p : Panel) (hub : Nat) (mirror : Bool) (m : SMap Nat) : Panel :=
  p.modFab hub fun f => if mirror then { f with mlimiter := m } else { f with limiter := m }

/-- An answer with echo = 1: the destination's rate decreases, at most once per 10 µs; whether an earlier decrease is that
recent is a free value (log 1). -/
def Panel.echoed (p : Panel) (hub : Nat) (mirror : Bool) (k : FPacket) : Panel :=
  if !k.echo then p
  else
    let c := k.srcCoord.toNat
    let m := p.rates hub mirror
    match smGet m c with
    | none =>
      if 256 ≤ m.length then p else p.setRates hub mirror (smSet m c (max p.minRate (256 - 256 >>> p.decShift)))
    | some r =>
      let (recent, p) := p.draw 2
      if recent = 1 then p else p.setRates hub mirror (smSet m c (max p.minRate (r - r >>> p.decShift)))

/-- SILLAGE_RECOVER (R425): an entry of the network interface's limiter, or of the mirror engine's, has had no echo for recover_us. -/
def execSillageRecover (limiter : Limiter) (coord : BitVec 12) (s : State) : Host.Outcome State Fault Refusal :=
  .next (s.upd fun p =>
    let m := p.rates limiter.hub limiter.mirror
    match smGet m coord.toNat with
    | none => p
    | some r =>
      let r := r + p.fget F.HJF_SILLAGE_add_step
      p.setRates limiter.hub limiter.mirror (if 256 ≤ r then smDel m coord.toNat else smSet m coord.toNat r))

/-! ### Command queues (R418, R419, R421) -/

def Panel.fqSize (p : Panel) (hub q : Nat) : Nat := 2 ^ p.fget F.HJF_FQ_CONFIG_size_log2 hub q

/-- Panel address of the slot of an index (R418). -/
def Panel.fqSlot (p : Panel) (hub q k : Nat) : Nat :=
  p.fget F.HJF_FQ_CONFIG_base hub q * 64 + (k % p.fqSize hub q + 1) * 64

/-- The producer index the NI has seen. -/
def Panel.fqProducer (p : Panel) (hub q : Nat) : Nat :=
  if p.flag F.HJF_FQ_CONFIG_poll hub q then smGetD (p.fab4 hub).started (q + 8) 0 else p.fget F.HJF_FQ_INDEX_producer hub q

/-- The next index to start; the first is the consumer index. -/
def Panel.fqNext (p : Panel) (hub q : Nat) : Nat :=
  smGetD (p.fab4 hub).started q (p.fget F.HJF_FQ_INDEX_consumer hub q)

/-- FQ_PRODUCER_WRITE (R418): a write of HJF_FQ_INDEX_q. -/
def execFqProducerWrite (hub q : Nat) (v : W64) (s : State) : Host.Outcome State Fault Refusal :=
  .next (s.upd fun p => if p.fPort hub 0 && decide (q < 8) then p.store .HJF_FQ_INDEX false v hub q else p)

/-- FQ_POLL (R418): word 0 of the ring header is read; a header that cannot be read leaves the index as it is. -/
def execFqPoll (hub q : Nat) (s : State) : Host.Outcome State Fault Refusal :=
  .next (s.upd fun p =>
    let a := p.fget F.HJF_FQ_CONFIG_base hub q * 64
    if p.fPort hub 0 && decide (q < 8) && p.flag F.HJF_FQ_CONFIG_enable hub q && p.flag F.HJF_FQ_CONFIG_poll hub q &&
        p.accessStatus a 8 == 0 then
      let (d, _, p) := p.readRange a 8
      p.modFab hub fun f => { f with started := smSet f.started (q + 8) (ofBytes d % 65536) }
    else p)

/-- Advance the consumer index past every ended slot (R421). -/
def fqAdvance (hub q : Nat) : Nat → Panel → Panel
  | 0, p => p
  | n + 1, p =>
    let c := p.fget F.HJF_FQ_INDEX_consumer hub q
    if smHas (p.fab4 hub).ended (q * 65536 + c) then
      let p := p.modFab hub fun f => { f with ended := smDel f.ended (q * 65536 + c) }
      fqAdvance hub q n (p.fput F.HJF_FQ_INDEX_consumer ((c + 1) % 65536) hub q)
    else p

/-- A command ends: word 7 of its slot, the local post, the consumer index (R421). -/
def Panel.fqEnd (p : Panel) (hub q index status : Nat) (localPost : Option Nat) : Panel :=
  let a := p.fqSlot hub q index + 56
  let p := if p.accessStatus a 8 = 0 then
      p.storePa a ((toBytes 8 (2 ^ 63 + status)).map (·, false)) else p
  let p := match localPost with | some w => p.pmcPost w | none => p
  let p := if status = 0 then p else p.fput F.HJF_FQ_INDEX_failed 1 hub q
  let p := p.modFab hub fun f => { f with
    cmds := f.cmds.filter fun c => c.q != q || c.index != index
    waiting := f.waiting.filter fun w => w.q != q || w.index != index
    ended := smSet f.ended (q * 65536 + index) (BitVec.ofNat 8 status) }
  fqAdvance hub q ((p.fab4 hub).ended.length + 1) p

def FCmd.localPostOf (c : FCmd) : Option Nat := if c.postLocal then some c.localPost.toNat else none

/-- 4 KiB packets along 4 KiB boundaries of the remote address: offset and length (R419). -/
def fPieces : Nat → Nat → Nat → Nat → List (Nat × Nat)
  | 0, _, _, _ => []
  | fuel + 1, off, remote, len =>
    if len ≤ off then []
    else
      let m := min (len - off) (4096 - (remote + off) % 4096)
      (off, m) :: fPieces fuel (off + m) remote len

/-- Send a request of a command and await its answer. -/
def Panel.fqRequest (p : Panel) (hub : Nat) (c : FCmd) (opcode : BitVec 6) (addr len : Nat) (data : List Byte) (poison : Bool)
    (post : BitVec 31) : Panel × Bool :=
  let tag := (p.fab4 hub).nextTag
  let k := sealCheck ⟨opcode, 0, false, false, false, poison, c.coord, p.coord, c.node, BitVec.ofNat 7 (hubNode hub), unitSwitch, tag,
    BitVec.ofNat 13 len, 0, BitVec.ofNat 56 addr, 0, false, post, 0, data⟩
  let (p', ok) := p.niSend hub k
  if ok then
    (p'.modFab hub fun f => { f with nextTag := tag + 1, waiting := f.waiting ++ [⟨tag, c.q, c.index, k, false⟩] }, true)
  else (p, false)

/-- Status that a command ends with before any packet is sent, 0 where it starts (R419, R421). An address with a bit set above bit 55
is unmapped (R31), and so is one that the length carries past it. -/
def Panel.fqCheck (p : Panel) (w : Nat → Nat) (rank : Option (BitVec 12 × BitVec 7)) : Nat :=
  let op := bits (w 0) 63 56
  let len := bits (w 0) 24 0
  let byRank := bit (w 0) 55
  let rsvd := bits (w 0) 53 25 != 0 || bits (w 1) 39 7 != 0 ||
    bits (w 4) 63 31 != 0 || bits (w 5) 63 31 != 0 || w 6 != 0 || w 7 != 0 ||
    (byRank && (bits (w 1) 63 52 != 0 || bits (w 1) 6 0 != 0))
  if op = 0 ∨ 3 < op ∨ rsvd ∨ len = 0 ∨ 2 ^ 24 < len then 6
  else if byRank && rank.isNone then 4
  else if p.accessStatus (w 2) len ≠ 0 ∨ 2 ^ 56 < w 3 + len then 1
  else 0

/-- The packets of a command, RD of a GET and WR of a PUT or a PUT_POST, for pieces as offset and length (R419). False where no route is
left for one of them. -/
def Panel.fqSend (p : Panel) (hub : Nat) (c : FCmd) (ps : List (Nat × Nat)) : Panel × Bool :=
  ps.foldl (fun (acc : Panel × Bool) x =>
    if !acc.2 then acc
    else if c.op = 1 then acc.1.fqRequest hub c 0x00 (c.remotePa + x.1) x.2 [] false 0
    else
      let (d, pz, p) := acc.1.readRange (c.localPa + x.1) x.2
      p.fqRequest hub c 0x01 (c.remotePa + x.1) x.2 d pz 0) (p, true)

/-- Start the next command of a queue: `cmd` is what its slot holds (R418, R419). -/
def Panel.fqStart (p : Panel) (hub q : Nat) (cmd : Entry) (ops : Nat → Bool) : Panel :=
  let w (i : Nat) : Nat := (cmd.getD i 0).toNat
  let n := p.fqNext hub q
  let f := p.fab4 hub
  let a := p.fqSlot hub q n
  if !p.fPort hub 0 || !decide (q < 8) || !p.flag F.HJF_FQ_CONFIG_enable hub q || n == p.fqProducer hub q || !p.mayInject hub ||
      decide (64 ≤ f.cmds.length) || (f.waiting.any fun x => x.q == q && x.reissued) || !ops (bits (w 0) 63 56) ||
      p.accessStatus a 64 != 0 then p
  else
    let (bs, _, p) := p.readRange a 64
    if (List.range 8).any fun i => ofBytes ((bs.drop (8 * i)).take 8) != w i then p
    else
      let p := p.modFab hub fun f => { f with started := smSet f.started q ((n + 1) % 65536) }
      let r := bits (w 1) 51 40
      let rank : Option (BitVec 12 × BitVec 7) :=
        if p.flag F.HJF_RANK_valid 0 r then
          some (BitVec.ofNat 12 (p.fget F.HJF_RANK_coord 0 r), BitVec.ofNat 7 (p.fget F.HJF_RANK_node 0 r))
        else none
      let st := p.fqCheck w rank
      if st ≠ 0 then p.fqEnd hub q n st (if bit (w 0) 54 then some (bits (w 5) 30 0) else none)
      else
        let (coord, node) : BitVec 12 × BitVec 7 :=
          if bit (w 0) 55 then rank.getD (0, 0) else (BitVec.ofNat 12 (bits (w 1) 63 52), BitVec.ofNat 7 (w 1))
        let op := bits (w 0) 63 56
        let len := bits (w 0) 24 0
        let la := bits (w 2) 55 0
        let ra := bits (w 3) 55 0
        let ps := fPieces (len / 4096 + 2) 0 ra len
        let c : FCmd := ⟨q, n, BitVec.ofNat 8 op, coord, node, la, ra, BitVec.ofNat 31 (w 4), BitVec.ofNat 31 (w 5),
          bit (w 0) 54, ps.length, 0⟩
        let p := p.modFab hub fun f => { f with cmds := f.cmds ++ [c] }
        let (p, ok) := p.fqSend hub c ps
        if ok then p else p.fqEnd hub q n 5 c.localPostOf

/-- GET (R419). -/
def execFabricGet (hub q : Nat) (cmd : Entry) (s : State) : Host.Outcome State Fault Refusal :=
  .next (s.upd fun p => p.fqStart hub q cmd fun o => o == 1 || o == 0 || decide (3 < o))

/-- PUT (R419). -/
def execFabricPut (hub q : Nat) (cmd : Entry) (s : State) : Host.Outcome State Fault Refusal :=
  .next (s.upd fun p => p.fqStart hub q cmd fun o => o == 2)

/-- PUT_POST (R419). -/
def execFabricPutPost (hub q : Nat) (cmd : Entry) (s : State) : Host.Outcome State Fault Refusal :=
  .next (s.upd fun p => p.fqStart hub q cmd fun o => o == 3)

/-- The request and the command that an answer belongs to. -/
def Panel.fqMatch (p : Panel) (hub : Nat) (tag : BitVec 16) (ops : Nat → Bool) : Option (FOut × FCmd) :=
  let f := p.fab4 hub
  match f.waiting.find? fun w => w.tag == tag && ops w.p.opcode.toNat with
  | some w => (f.cmds.find? fun c => c.q == w.q && c.index == w.index).map fun c => (w, c)
  | none => none

/-- A request of a command is complete; the last one ends it, after the FPOST of a PUT_POST (R419, R421). -/
def Panel.fqDone (p : Panel) (hub : Nat) (w : FOut) (c : FCmd) : Panel :=
  let p := p.modFab hub fun f => { f with waiting := f.waiting.filter (· != w) }
  if 1 < c.left then
    p.modFab hub fun f => { f with cmds := f.cmds.map fun x => if x = c then { x with left := x.left - 1 } else x }
  else if c.op = 3 then
    let c' := { c with op := 2, left := 1 }
    let p := p.modFab hub fun f => { f with cmds := f.cmds.map fun x => if x = c then c' else x }
    let (p, ok) := p.fqRequest hub c' 0x02 0 0 [] false c.remotePost
    if ok then p else p.fqEnd hub c.q c.index 5 c.localPostOf
  else p.fqEnd hub c.q c.index 0 c.localPostOf

/-- An answer whose request is complete is discarded and counted as late (R423). -/
def Panel.countLate (p : Panel) (hub : Nat) : Panel := p.modFab hub fun f => { f with late := f.late + 1 }

/-- FABRIC_RD_DATA (R421, R424): the data goes to the local place with its poison. -/
def execFabricRdData (hub : Nat) (k : FPacket) (s : State) : Host.Outcome State Fault Refusal :=
  .next (s.upd fun p =>
    let p := (p.takeArrived hub k).echoed hub false k
    match p.fqMatch hub k.tag (· == 0) with
    | none => p.countLate hub
    | some (w, c) =>
      let pa := c.localPa + (w.p.addr.toNat - c.remotePa)
      let n := w.p.length.toNat
      if p.accessStatus pa n = 0 then (p.storePa pa ((k.payload.take n).map (·, k.poison))).fqDone hub w c
      else p.fqEnd hub c.q c.index 1 c.localPostOf)

/-- FABRIC_WR_ACK (R421, R424). -/
def execFabricWrAck (hub : Nat) (k : FPacket) (s : State) : Host.Outcome State Fault Refusal :=
  .next (s.upd fun p =>
    let p := (p.takeArrived hub k).echoed hub false k
    match p.fqMatch hub k.tag fun o => o == 1 || o == 2 with
    | none => p.countLate hub
    | some (w, c) => p.fqDone hub w c)

/-- FABRIC_NAK (R421): DENIED ends the command with DENIED, every other status with ADDRESS_ERROR. -/
def execFabricNak (hub : Nat) (k : FPacket) (s : State) : Host.Outcome State Fault Refusal :=
  .next (s.upd fun p =>
    let p := (p.takeArrived hub k).echoed hub false k
    match p.fqMatch hub k.tag fun _ => true with
    | none => p.countLate hub
    | some (_, c) => p.fqEnd hub c.q c.index (if k.status = 3 then 2 else 1) c.localPostOf)

/-- A packet of the mirror engine times out: it is no RD or WR and is not sent again, and a repair it asked for is not made (R400,
R423). -/
def Panel.mirrorTimeout (p : Panel) (x : MirAwait) : Panel :=
  let p := { p with mir := { p.mir with
    awaits := p.mir.awaits.filter (· != x), repairs := p.mir.repairs.filter fun a => x.repair != some a } }
  p.reportHubEdge x.hub 0x0705 clsInfo

/-- FABRIC_REQUEST_TIMEOUT (R423): once more with reissue = 1 and the same tag, or the command ends with TIMEOUT. -/
def execFabricRequestTimeout (hub : Nat) (tag : BitVec 16) (s : State) : Host.Outcome State Fault Refusal :=
  .next (s.upd fun p =>
    match p.fqMatch hub tag fun _ => true with
    | none =>
      match p.mir.awaits.find? fun x => x.hub == hub && x.tag == tag with
      | some x => p.mirrorTimeout x
      | none => p
    | some (w, c) =>
      if w.reissued || w.p.opcode == 0x02 || !p.flag F.HJF_CONFIG_reissue_enable then
        (p.fqEnd hub c.q c.index 3 c.localPostOf).reportHubEdge hub 0x0705 clsInfo
      else
        let k := sealCheck { w.p with reissue := true }
        let p := p.modFab hub fun f =>
          { f with waiting := f.waiting.map fun x => if x = w then { x with p := k, reissued := true } else x }
        (p.niSend hub k).1)

/-! ### Ports removed from entries and put back (R427 to R429) -/

/-- Entries of a hub's zone, as dimension and value. -/
def allEntries : List (Nat × Nat) := [0, 1, 2].flatMap fun d => (List.range 16).map fun v => (d, v)

/-- Remove zone port k from every active entry (R429). -/
def Panel.removePort (p : Panel) (hub k : Nat) : Panel :=
  let z := zoneHub hub
  (allEntries.filter fun e => bit (p.fget F.HJF_ROUTE_ports z e.1 e.2) k).foldl (fun p e =>
    p.fput F.HJF_ROUTE_ports (p.fget F.HJF_ROUTE_ports z e.1 e.2 - 2 ^ k) z e.1 e.2) p

/-- Put zone port k back into the entries that held it when they were last applied (R428). -/
def Panel.restorePort (p : Panel) (hub k : Nat) : Panel :=
  let z := zoneHub hub
  ((p.fab4 z).applied.filter fun e => bit e.2 k).foldl (fun p e =>
    let m := p.fget F.HJF_ROUTE_ports z (e.1 / 16) (e.1 % 16)
    if bit m k then p else p.fput F.HJF_ROUTE_ports (m + 2 ^ k) z (e.1 / 16) (e.1 % 16)) p

/-- Zone port of a local port. -/
def zoneIndex (hub i : Nat) : Nat := hub % 2 * 4 + i

/-- Packets queued under a key are gone. -/
def Panel.clearQueue (p : Panel) (hub key : Nat) : Panel := p.modFab hub fun f => { f with queues := smDel f.queues key }

/-- Discard what a port's queue holds, counted (R417, R427); the number of packets. -/
def Panel.dropQueue (p : Panel) (hub i : Nat) : Panel × Nat :=
  let n := (smGetD (p.fab4 hub).queues i []).length
  let p := p.clearQueue hub i
  (p.addHold F.HJF_PORT_STATUS_discards n hub i, n)

/-! ### Route applies (R417) -/

/-- Calibration runs again on every extended channel (R430). -/
def Panel.recalibrate (p : Panel) : Panel :=
  (upTo 16 fun ch => p.flag F.HUB_BAR_STATUS_applied 0 ch && p.extended ch).foldl Panel.calibrate p

/-- An entry differs from its shadow. -/
def Panel.entryChanged (p : Panel) (z : Nat) (e : Nat × Nat) : Bool :=
  p.fget F.HJF_ROUTE_ports z e.1 e.2 != p.fget F.HJF_ROUTE_shadow_ports z e.1 e.2 ||
    p.fget F.HJF_ROUTE_vc_up z e.1 e.2 != p.fget F.HJF_ROUTE_shadow_vc_up z e.1 e.2

/-- Swap the entries that satisfy f to their shadow values, which are then what was last applied (R417, R428). -/
def Panel.swapEntries (p : Panel) (z : Nat) (f : Nat → Bool) : Panel :=
  (allEntries.filter fun e => p.entryChanged z e &&
      f (p.fget F.HJF_ROUTE_ports z e.1 e.2 ||| p.fget F.HJF_ROUTE_shadow_ports z e.1 e.2)).foldl (fun p e =>
    let m := p.fget F.HJF_ROUTE_shadow_ports z e.1 e.2
    let p := (p.fput F.HJF_ROUTE_ports m z e.1 e.2).modFab z fun g => { g with applied := smPut g.applied 0 (e.1 * 16 + e.2) m }
    p.fput F.HJF_ROUTE_vc_up (p.fget F.HJF_ROUTE_shadow_vc_up z e.1 e.2) z e.1 e.2) p

/-- Start a detach: DETACH on every port that is up (R427 steps 1, 2). -/
def Panel.startDetach (p : Panel) (hub : Nat) : Panel :=
  let ups := upTo 4 fun i => p.portState hub i == portUp
  let p := p.fput F.HJF_CONTROL_domain_state domDetaching hub
  let p := ups.foldl (fun p i =>
    p.emit (.fabric (hub * 4 + i) (p.control (BitVec.ofNat 12 (p.fget F.HJF_PORT_STATUS_neighbour hub i)) 0x20 0 0))) p
  p.modFab hub fun f => { f with detaching := ups, detachDue := false }

/-- The hub's ports and its domain are detached (R427 step 5). -/
def Panel.endDetach (p : Panel) (hub : Nat) : Panel :=
  let p := (List.range 4).foldl (fun p i =>
    if p.portState hub i = portDown then p
    else (p.fput F.HJF_PORT_STATUS_state portDetached hub i).fput F.HJF_PORT_STATUS_link_up 0 hub i) p
  let p := p.modFab hub fun f => { f with detaching := [] }
  p.fput F.HJF_CONTROL_domain_state domDetached hub

/-- A detach completes once every acknowledgement is in and the pool is empty (R427 step 4). -/
def Panel.checkDetach (p : Panel) (hub : Nat) : Panel :=
  if p.domain hub = domDetaching ∧ (p.fab4 hub).detaching.isEmpty ∧ (p.fab4 hub).queues.isEmpty then p.endDetach hub else p

/-- The next port of an apply drains; after the last the apply is over (R417). -/
def nextSwap (z : Nat) : List Nat → Panel → Panel
  | [], p =>
    let p := p.swapEntries z fun _ => true
    let p := [z, z + 1].foldl (fun p h => p.fput F.HJF_CONTROL_route_busy 0 h) p
    let p := p.recalibrate
    [z, z + 1].foldl (fun p h => if (p.fab4 h).detachDue then p.startDetach h else p) p
  | k :: l, p =>
    let (h, i) := zonePort z k
    if p.portState h i = portUp then
      (p.fput F.HJF_PORT_STATUS_state portDraining h i).modFab z fun f => { f with swapping := k :: l }
    else nextSwap z l ((p.swapEntries z fun m => bit m k).modFab z fun f => { f with swapping := l })

/-- A draining port is empty: its entries swap, waiting packets are routed again, the next port drains (R417 step 4). -/
def Panel.portSwapped (p : Panel) (hub i : Nat) : Panel :=
  let z := zoneHub hub
  let k := zoneIndex hub i
  let p := p.swapEntries z fun m => bit m k
  let p := if p.portState hub i = portDraining then p.fput F.HJF_PORT_STATUS_state portUp hub i else p
  let l := (p.fab4 z).swapping.drop 1
  let p := p.modFab z fun f => { f with swapping := l }
  nextSwap z l ((p.fRelease z).fRelease (z + 1))

/-- ROUTE_APPLY (R417). -/
def Panel.routeApply (p : Panel) (hub : Nat) : Panel :=
  let z := zoneHub hub
  if p.flag F.HJF_CONTROL_route_busy hub then p
  else
    let p := [z, z + 1].foldl (fun p h => (p.fput F.HJF_CONTROL_route_busy 1 h).fput F.HJF_CONTROL_route_error 0 h) p
    let changed := allEntries.filter (p.entryChanged z)
    let ports := upTo 8 fun k => changed.any fun e =>
      let a := bit (p.fget F.HJF_ROUTE_ports z e.1 e.2) k
      let b := bit (p.fget F.HJF_ROUTE_shadow_ports z e.1 e.2) k
      a != b || (a && p.fget F.HJF_ROUTE_vc_up z e.1 e.2 != p.fget F.HJF_ROUTE_shadow_vc_up z e.1 e.2)
    nextSwap z ports (p.modFab z fun f => { f with swapping := ports })

def execRouteApply (hub : Nat) (s : State) : Host.Outcome State Fault Refusal :=
  .next (s.upd fun p => if p.fPort hub 0 then p.routeApply hub else p)

/-- An apply discarded packets: both hubs of the zone show it (R417). -/
def Panel.routeError (p : Panel) (hub : Nat) : Panel :=
  [zoneHub hub, zoneHub hub + 1].foldl (fun p h => p.fput F.HJF_CONTROL_route_error 1 h) p

/-- The port is the one that drains. -/
def Panel.isSwapping (p : Panel) (hub i : Nat) : Bool :=
  p.fPort hub i && (p.fab4 (zoneHub hub)).swapping.head? == some (zoneIndex hub i) && p.portState hub i == portDraining

/-- PORT_QUEUE_EMPTY (R417): the packets still queued have left. -/
def execPortQueueEmpty (hub port : Nat) (s : State) : Host.Outcome State Fault Refusal :=
  .next (s.upd fun p => if p.isSwapping hub port then (p.fFlush hub port).portSwapped hub port else p)

/-- PORT_DRAIN_TIMEOUT (R417): the packets left after 200 µs are discarded and counted. -/
def execPortDrainTimeout (hub port : Nat) (s : State) : Host.Outcome State Fault Refusal :=
  .next (s.upd fun p =>
    if p.isSwapping hub port then
      let (p, n) := p.dropQueue hub port
      let p := if n = 0 then p
        else (p.routeError hub).reportHubEdge hub 0x0709 clsInfo (some n)
      p.portSwapped hub port
    else p)

/-! ### Detaching (R427) -/

/-- A write of detach: during an apply it waits for the apply (R433). -/
def Panel.detachHub (p : Panel) (hub : Nat) : Panel :=
  if p.domain hub ≠ domForwarding then p
  else if p.flag F.HJF_CONTROL_route_busy hub then p.modFab hub fun f => { f with detachDue := true }
  else (p.startDetach hub).checkDetach hub

/-- A detach of the hub runs, or waits for a route apply (R427, R433). -/
def Panel.detachWaits (p : Panel) (hub : Nat) : Bool := p.domain hub == domDetaching || (p.fab4 hub).detachDue

/-- HJF_DETACH (R427). -/
def execHjfDetach (hub : Nat) (s : State) : Host.Outcome State Fault Refusal :=
  .next (s.upd fun p => if p.fPort hub 0 then p.detachHub hub else p)

/-- DETACH (R427 step 3): the neighbour of a port detaches; the port leaves the entries, what it holds is sent, and DETACH_ACK
is returned. -/
def execDetach (hub port : Nat) (s : State) : Host.Outcome State Fault Refusal :=
  .next (s.upd fun p =>
    if p.fPort hub port && (p.portState hub port == portUp || p.portState hub port == portDraining) then
      let p := (p.removePort hub (zoneIndex hub port)).fFlush hub port
      p.emit (.fabric (hub * 4 + port) (p.control (BitVec.ofNat 12 (p.fget F.HJF_PORT_STATUS_neighbour hub port)) 0x21 0 0))
    else p)

/-- DETACH_ACK (R427 step 4). -/
def execDetachAck (hub port : Nat) (s : State) : Host.Outcome State Fault Refusal :=
  .next (s.upd fun p =>
    if p.fPort hub port && p.domain hub == domDetaching then
      (p.modFab hub fun f => { f with detaching := f.detaching.filter (· != port) }).checkDetach hub
    else p)

/-- DETACH_TIMEOUT (R427): after 1 ms the packets still held are discarded. -/
def execDetachTimeout (hub : Nat) (s : State) : Host.Outcome State Fault Refusal :=
  .next (s.upd fun p =>
    if p.fPort hub 0 && p.domain hub == domDetaching then
      let (p, n) := (List.range 4).foldl (fun (acc : Panel × Nat) i =>
        let (p, m) := acc.1.dropQueue hub i
        (p, acc.2 + m)) (p, 0)
      let n := n + (smGetD (p.fab4 hub).queues 4 []).length + (smGetD (p.fab4 hub).queues 5 []).length
      let p := (p.clearQueue hub 4).clearQueue hub 5
      let p := if n = 0 then p else p.reportHubEdge hub 0x0707 clsInfo (some n)
      p.endDetach hub
    else p)

/-! ### Ports down and up (R405, R428, R429) -/

/-- A port is seen as down: removed from the entries, its queue discarded, FABRIC_PORT_DOWN (R429). A barrier that waits for a
panel behind it is aborted by its root (R306), a swap that drained it goes on, with its own event (R433), and calibration runs again
(R430). -/
def Panel.portLost (p : Panel) (hub i : Nat) : Panel :=
  let st := p.portState hub i
  if st = portDown then p
  else
    let n := (smGetD (p.fab4 hub).queues i []).length
    let p := ((p.removePort hub (zoneIndex hub i)).clearQueue hub i).linkFresh hub i
    let p := p.fput F.HJF_PORT_STATUS_state portDown hub i
    let p := p.fput F.HJF_PORT_STATUS_link_up 0 hub i
    let p := p.fput F.HJF_PORT_STATUS_width 0 hub i
    let p := p.reportHubEdge hub 0x0701 clsInfo (some (hub * 4 + i))
    let nb := p.fget F.HJF_PORT_STATUS_neighbour hub i
    let p := (upTo 16 fun ch => p.extended ch && p.isRoot ch && !(p.bar ch).panels.isEmpty && !(p.bar ch).releaseDue &&
        (p.bar ch).cal.joined.contains nb).foldl Panel.extAbort p
    let p := if st = portDraining then
        ((if n = 0 then p else p.routeError hub).reportHubEdge hub 0x0709 clsInfo (some n)).portSwapped hub i
      else p
    let p := (p.modFab hub fun f => { f with detaching := f.detaching.filter (· != i) }).checkDetach hub
    p.recalibrate

/-- FABRIC_PORT_DOWN (R429). -/
def execFabricPortDown (hub port : Nat) (s : State) : Host.Outcome State Fault Refusal :=
  .next (s.upd fun p => if p.fPort hub port then p.portLost hub port else p)

/-- A port comes up at a width; with the neighbour it had before, it returns to its entries (R405, R428). -/
def Panel.portRaised (p : Panel) (hub i width : Nat) (nb : BitVec 12) (nport : BitVec 4) : Panel :=
  let same := p.fget F.HJF_PORT_STATUS_neighbour hub i == nb.toNat
  let p := p.fput F.HJF_PORT_STATUS_state portUp hub i
  let p := p.fput F.HJF_PORT_STATUS_link_up 1 hub i
  let p := p.fput F.HJF_PORT_STATUS_width width hub i
  let p := p.fput F.HJF_PORT_STATUS_neighbour nb.toNat hub i
  let p := p.fput F.HJF_PORT_STATUS_neighbour_port nport.toNat hub i
  if same then p.restorePort hub (zoneIndex hub i) else p

/-- Width that a port trains to: all lanes, a half that works, or none; the neighbour must come to the same width (R405). -/
def trainWidth (x : Lanes) : Nat :=
  let w : Nat := if x.ok = 0xFF then 3 else if bits x.ok.toNat 3 0 = 15 then 1 else if bits x.ok.toNat 7 4 = 15 then 2 else 0
  if x.peer ≠ 0 ∧ ((w = 3) = (x.peer = 3)) then w else 0

/-- A port trains: it comes up at the width both ends come to, and one that finds a lane not working logs LANE_DEGRADED (R405). -/
def Panel.trainPort (p : Panel) (hub i : Nat) (nb : BitVec 12) (x : PortEnd) : Panel :=
  let p := if x.lanes.ok = 0xFF then p else p.reportHubEdge hub 0x0702 clsInfo (some (hub * 4 + i))
  if trainWidth x.lanes = 0 then p else p.portRaised hub i (trainWidth x.lanes) nb x.port

/-- LANE_DEGRADED (R405): the port goes down, and retrains on the half of its lanes that fully works, if there is one and the neighbour
comes to it too. -/
def execLaneDegraded (hub port : Nat) (lanesOk : Lanes) (s : State) : Host.Outcome State Fault Refusal :=
  .next (s.upd fun p =>
    if !p.fPort hub port || p.portState hub port == portDown then p
    else
      let nb := BitVec.ofNat 12 (p.fget F.HJF_PORT_STATUS_neighbour hub port)
      let np := BitVec.ofNat 4 (p.fget F.HJF_PORT_STATUS_neighbour_port hub port)
      let p := (p.portLost hub port).reportHubEdge hub 0x0702 clsInfo (some (hub * 4 + port))
      if trainWidth lanesOk = 0 then p else p.portRaised hub port (trainWidth lanesOk) nb np)

/-- FABRIC_PORT_UP (R405, R407, R428): a port of a domain that forwards trains, once the coordinate is set. -/
def execFabricPortUp (hub port : Nat) (neighbour : BitVec 12) (nport : PortEnd) (s : State) :
    Host.Outcome State Fault Refusal :=
  .next (s.upd fun p =>
    if p.fPort hub port && p.flag F.HJF_COORD_valid && p.domain hub == domForwarding &&
        (p.portState hub port == portDown || p.portState hub port == portDetached) then
      p.trainPort hub port neighbour nport
    else p)

/-- FREF_LOSS (R482): the hub's fabric ports go down. -/
def execFrefLoss (hub : Nat) (s : State) : Host.Outcome State Fault Refusal :=
  .next (s.upd fun p =>
    if p.fPort hub 0 then (List.range 4).foldl (fun p i => p.portLost hub i) p else p)

/-- HJF_CONTROL as it reads (R434). -/
def Panel.hjfControlRead (p : Panel) (hub : Nat) : W64 :=
  F.HJF_CONTROL_forward_only.write (p.get .HJF_CONTROL hub) (b2n (p.domain hub == domForwarding && !p.inService))

end Sys2Proof.Machine
end

