-- ==== Sys2Proof/Machine/Hbm.lean ====
section
/-! DEFINITION. Memory port dies (chapter 07): the region table (R184 to R187), patrol scrubbing, refresh and temperature
(R193 to R195) and the loss of a stack (R200). The test pattern engine is in `Maceration`. -/

namespace Sys2Proof.Machine

/-! ### The region table (R184 to R187) -/

/-- A region configuration word (R203). -/
structure RegionCfg where
  enable : Bool
  mode : Nat
  strip : Nat
  baseGib : Nat
  gib : Nat
  deriving DecidableEq, Repr

def regionCfg (w : W64) : RegionCfg :=
  let n := w.toNat
  ⟨bit n 63, bits n 49 48, bits n 41 40, bits n 21 16, bits n 5 0⟩

/-- The stacks a region spans, in order (R184). -/
def Panel.regionStacks (p : Panel) (r : RegionCfg) : List Nat :=
  if r.mode = 0 then List.range p.nStacks
  else
    let pair := p.fget F.HUB_L2P_ROW_phys_row 0 (2 * r.strip) / 2
    upTo p.nStacks fun s => p.stackSite s / 9 == pair

/-- The request engine is stopped in both hubs and every core is halted (R185). -/
def Panel.mapIdle (p : Panel) : Bool :=
  !p.flag F.RQE_CONTROL_enable 0 && !p.flag F.RQE_CONTROL_enable 3 && (List.range p.nCores).all fun c => p.halted c

/-- First fault of one enabled region: reserved value, absent strip, range (R185). -/
def Panel.regionFault (p : Panel) (r : RegionCfg) : Option Nat :=
  if 2 ≤ r.mode ∨ r.gib = 0 then some 6
  else if r.mode = 1 ∧ p.fget F.HUB_SHAPE_logical_rows ≤ 2 * r.strip then some 4
  else if p.stackGib < r.baseGib + r.gib then some 5
  else none

/-- Ranges of a stack's capacity that the enabled regions cover, as (base, size). -/
def Panel.covers (p : Panel) (rs : List RegionCfg) (s : Nat) : List (Nat × Nat) :=
  (rs.filter fun r => (p.regionStacks r).contains s).map fun r => (r.baseGib, r.gib)

/-- Two entries of a list of ranges meet. -/
def anyRangesMeet : List (Nat × Nat) → Bool
  | [] => false
  | (a, n) :: l => l.any (fun e => rangesMeet a n e.1 e.2) || anyRangesMeet l

/-- Result of the checks of R185 on sixteen words, without the idle check: 0 NONE, else the error code. -/
def Panel.tableError (p : Panel) (ws : List W64) : Nat :=
  let rs := (ws.map regionCfg).filter (·.enable)
  match rs.findSome? p.regionFault with
  | some e => e
  | none =>
    let cs := (List.range p.nStacks).map (p.covers rs)
    if cs.any anyRangesMeet then 2
    else if cs.any fun l => sumL (l.map (·.2)) < p.stackGib then 3
    else 0

/-- The regions that sixteen words describe, with the base of each (R184). -/
def Panel.regionsOf (p : Panel) (ws : List W64) : List Region :=
  (ws.foldl (fun (acc : List Region × Nat) w =>
    let r := regionCfg w
    if !r.enable then acc
    else
      let l := p.regionStacks r
      let size := r.gib * l.length * 2 ^ 30
      (acc.1 ++ [⟨acc.2, size, l, r.baseGib⟩], acc.2 + size)) ([], 0)).1

/-- Load a table into every decoder and publish its bases (R185); the mirrored ranges load with it (R386). -/
def Panel.loadTable (p : Panel) (ws : List W64) : Panel :=
  let rs := p.regionsOf ws
  let p := ({ p with st := { p.st with regions := rs, heldTable := some ws, loading := none } }).loadRanges
  let q := (ws.zipIdx).foldl (fun (acc : Panel × List Region) e =>
    let (p, rs) := acc
    match bit e.1.toNat 63, rs with
    | true, r :: rest =>
      ((p.put .HUB_HBM_REGION_BASE (BitVec.ofNat 64 r.base) 0 e.2).fput F.HUB_HBM_REGION_CFG_stacks r.stks.length 0 e.2, rest)
    | _, rs => ((p.put .HUB_HBM_REGION_BASE 0 0 e.2).fput F.HUB_HBM_REGION_CFG_stacks 0 0 e.2, rs)) (p, rs)
  (q.1.fput F.HUB_HBM_MAP_CONTROL_applied 1).fput F.HUB_HBM_MAP_CONTROL_busy 0

/-- The written table. -/
def Panel.writtenTable (p : Panel) : List W64 := (List.range 16).map fun n => p.get .HUB_HBM_REGION_CFG 0 n

/-- A write of HUB_HBM_MAP_CONTROL (R185). While an apply loads, another is ignored (log 11). -/
def Panel.mapControl (p : Panel) (v : W64) : Panel :=
  if !bit v.toNat F.HUB_HBM_MAP_CONTROL_apply.lo || p.flag F.HUB_HBM_MAP_CONTROL_busy then p
  else
    let ws := p.writtenTable
    let e := if !p.mapIdle then 1 else p.tableError ws
    let p := p.fput F.HUB_HBM_MAP_CONTROL_error e
    if e ≠ 0 then p
    else ({ p with st := { p.st with loading := some ws } }).fput F.HUB_HBM_MAP_CONTROL_busy 1

/-- HBM_MAP_APPLY (R185). -/
def execHbmMapApply (src : Writer) (v : W64) (s : State) : Host.Outcome State Fault Refusal :=
  .next (s.upd fun p => p.asWriter src fun p => p.mapControl v)

/-- HBM_MAP_LOAD_DONE (R185). -/
def execHbmMapLoadDone (s : State) : Host.Outcome State Fault Refusal :=
  .next (s.upd fun p =>
    match p.st.loading with
    | some ws => p.loadTable ws
    | none => p)

/-- The default table: region 0 panel-wide over the whole capacity (R187). -/
def Panel.defaultTable (p : Panel) : List W64 := BitVec.ofNat 64 (2 ^ 63 + p.stackGib) :: List.replicate 15 0

/-- The PMC writes a table into the region registers. -/
def Panel.writeTable (p : Panel) (ws : List W64) : Panel :=
  (ws.zipIdx).foldl (fun p e => p.put .HUB_HBM_REGION_CFG e.1 0 e.2) p

/-- What the PMC applies at the end of maceration: the held table where it fits, else the default (R187). -/
def Panel.applyHeld (p : Panel) : Panel :=
  match p.st.heldTable with
  | some ws =>
    let e := p.tableError ws
    if e = 0 then
      (((p.writeTable ws).loadTable ws).fput F.HUB_HBM_MAP_CONTROL_defaulted 0).fput F.HUB_HBM_MAP_CONTROL_error 0
    else
      ((((p.writeTable p.defaultTable).loadTable p.defaultTable)).fput F.HUB_HBM_MAP_CONTROL_defaulted 1).fput
        F.HUB_HBM_MAP_CONTROL_error e
  | none =>
    ((((p.writeTable p.defaultTable).loadTable p.defaultTable)).fput F.HUB_HBM_MAP_CONTROL_defaulted 1).fput
      F.HUB_HBM_MAP_CONTROL_error 0

/-! ### Refresh, patrol scrub and ECS (R193, R194) -/

/-- HBM_REFRESH (R194): an interval ends; a change of refresh_mode takes effect. -/
def execHbmRefresh (stack : Nat) (s : State) : Host.Outcome State Fault Refusal :=
  .next (s.upd fun p =>
    if p.nodeUp (0x40 + stack) && decide (stack < 36) then
      { p with st := { p.st with
          refreshMode := smPut p.st.refreshMode 0 stack (p.fget F.MPD_HBM_CONFIG_refresh_mode stack) } }
    else p)

/-- A write of MPD_HBM_CONFIG: a reserved refresh_mode is ignored; the flacon's fields are locked (R194, R506). -/
def Panel.mpdConfigWrite (p : Panel) (stack : Nat) (v : W64) : Panel :=
  let m := F.MPD_HBM_CONFIG_refresh_mode.read v
  let p := if Reg.triesLocked .MPD_HBM_CONFIG (p.get .MPD_HBM_CONFIG stack) v then
      p.reportNode (0x40 + stack) 0x0107 clsInfo
    else p
  if 2 ≤ m then p else p.fput F.MPD_HBM_CONFIG_refresh_mode m stack

/-- MPD_REFRESH_MODE_WRITE (R194). -/
def execMpdRefreshModeWrite (stack : Nat) (v : W64) (s : State) : Host.Outcome State Fault Refusal :=
  .next (s.upd fun p => if p.nodeUp (0x40 + stack) && decide (stack < 36) then p.mpdConfigWrite stack v else p)

/-- The patrol scrubber reads one block as R191 says, and walks on (R193). -/
def Panel.patrolOne (p : Panel) (stack : Nat) : Panel :=
  let sl := smGetD p.st.hbmScrub stack 0
  let (_, _, p) := p.readBlock (.hbm stack) (hbmHome stack sl) 64
  let nxt := sl + 64
  let wraps := decide (p.stackGib * 2 ^ 30 ≤ nxt)
  let p := { p with st := { p.st with hbmScrub := smPut p.st.hbmScrub 0 stack (if wraps then 0 else nxt) } }
  if wraps then p.addWrap F.MPD_SCRUB_passes 1 stack else p

/-- HBM_PATROL_SCRUB (R193): the blocks of one refresh interval. -/
def execHbmPatrolScrub (stack : Nat) (s : State) : Host.Outcome State Fault Refusal :=
  .next (s.upd fun p =>
    if p.nodeUp (0x40 + stack) && decide (stack < 36) && p.flag F.MPD_SCRUB_enable stack then
      (List.range (max 1 (p.fget F.MPD_SCRUB_words_per_refi stack))).foldl (fun p _ => p.patrolOne stack) p
    else p)

/-- HBM_ECS_READ (R193): the increase of the stack's count since the last reading is added. -/
def execHbmEcsRead (stack count : Nat) (s : State) : Host.Outcome State Fault Refusal :=
  .next (s.upd fun p =>
    if p.nodeUp (0x40 + stack) && decide (stack < 36) then
      let p' := p.addHold F.MPD_ECS_ecs_total (count - smGetD p.st.ecsLast stack 0) stack
      { p' with st := { p'.st with ecsLast := smPut p'.st.ecsLast 0 stack count } }
    else p)

/-! ### Temperature (R195) -/

/-- HBM_TEMP_READ (R195): refresh doubling with 3 °C of hysteresis, a request for throttling, which the zone's next sample takes to the
token (R333), and stack shutdown as the zone's. -/
def execHbmTempRead (stack : Nat) (temp : BitVec 8) (s : State) : Host.Outcome State Fault Refusal :=
  .next (s.upd fun p =>
    if p.nodeUp (0x40 + stack) && decide (stack < 36) then
      let t := temp.toNat
      let x2 := p.fget F.MPD_TEMP_LIMITS_refresh_x2_c stack
      let thr := p.fget F.MPD_TEMP_LIMITS_throttle_c stack
      let shut := p.fget F.MPD_TEMP_LIMITS_shutdown_c stack
      let z := p.zoneOf (0x40 + stack)
      let p := p.fput F.MPD_HBM_STATUS_temp_c t stack
      let p := if x2 ≤ t then p.fput F.MPD_HBM_STATUS_refresh_x2 1 stack
        else if t + 3 ≤ x2 then p.fput F.MPD_HBM_STATUS_refresh_x2 0 stack else p
      let p := p.fput F.MPD_HBM_STATUS_throttle_req (b2n (decide (thr ≤ t))) stack
      let p := p.fput F.MPD_HBM_STATUS_over_temp (b2n (decide (shut ≤ t))) stack
      if shut ≤ t then p.zoneShutdown z else p
    else p)

/-! ### Loss of a stack (R200) -/

/-- STACK_LOST (R200). -/
def execStackLost (stack : Nat) (s : State) : Host.Outcome State Fault Refusal :=
  .next (s.upd fun p =>
    if p.nodeUp (0x40 + stack) && decide (stack < 36) then
      (p.fput F.MPD_HBM_STATUS_state 5 stack).reportNode (0x40 + stack) 0x0203 clsUF
    else p)

end Sys2Proof.Machine
end

