-- ==== Sys2Proof/Machine/Stage.lean ====
section
/-! DEFINITION. What bring-up, the error managers and the mirror share: stage and serving state (R352, R395), the log ring
(R362, R378), the field fault list (R348), the safe talkative state (R364), and the start of a bring-up (R351, R360, R380). -/

namespace Sys2Proof.Machine

/-! ### Stage and serving state (R352, R395, R512) -/

def stageService : Nat := 0xA
def stageSafe : Nat := 0xE

def Panel.stage (p : Panel) : Nat := p.fget F.PMC_STAGE_stage

/-- A management controller has set itself as event receiver (R478). -/
def Panel.hasReceiver (p : Panel) : Bool := p.mgmt.any fun m => m.2.receiver.isSome

def Panel.platformEvent (p : Panel) (sensor value : Nat) : Panel :=
  if p.hasReceiver then p.emit (.platformEvent sensor value) else p

/-- PANEL_STAGE changes: vector 0 of both ports, and a platform event (R512). -/
def Panel.setStage (p : Panel) (n : Nat) : Panel :=
  if p.stage = n then p
  else ((p.fput F.PMC_STAGE_stage n).bothHosts F.PCI_EVENT_COUNT_stage_changes).platformEvent 0x100 n

def servDown : Nat := 0
def servServing : Nat := 1
def servDrying : Nat := 2
def servDried : Nat := 3

/-- PANEL_STATE, the serving state of R395. -/
def Panel.serving (p : Panel) : Nat := p.fget F.PMC_STAGE_state

def Panel.setServing (p : Panel) (n : Nat) : Panel :=
  if p.serving = n then p else (p.fput F.PMC_STAGE_state n).platformEvent 0x101 n

/-- The primary PMC's hub has power and its PMC is neither restarting nor halted by a debugger (R377, R464). -/
def Panel.hasPrimary (p : Panel) : Bool :=
  p.hubUp p.primaryHub && !p.pmc.restarting.contains p.primaryHub && !p.pmc.halted.contains p.primaryHub

/-! ### Status pins (R352, R395, R480, R481) -/

/-- One connector's copy of the status outputs; the `Low` pins are open-drain and active low. -/
structure Pins where
  stage : Nat
  state : Nat
  pwrGood : Bool
  faultLow : Bool
  tripLow : Bool
  deriving DecidableEq, Repr

/-- The pins of J1 (HD0) or J2 (HD3). Both copies show the primary PMC's values; a hub without power, or in reset, leaves them to the
pull-downs, and its ROM drives them from stage 1. PWR_GOOD follows the edge zone's rails, THERM_TRIP_N the trip net alone. -/
def Panel.pins (p : Panel) (j2 : Bool) : Pins :=
  let rails := if j2 then p.pwr.railE else p.pwr.railW
  let driven := rails && !p.pwr.resetHeld
  { stage := if driven then p.stage else 0
    state := if driven then p.serving else servDown
    pwrGood := rails
    faultLow := driven && p.stage == stageSafe
    tripLow := p.pwr.trip }

/-! ### The log ring (R362, R378) -/

/-- Write one record of eight words, over the oldest when the ring is full. -/
def Panel.logWords (p : Panel) (ws : List W64) : Panel :=
  let slot := p.fget F.PMC_LOG_HEAD_next_slot
  let p := (List.range 8).foldl (fun p w => p.put .PMC_LOG (ws.getD w 0) 0 slot w) p
  p.addWrap F.PMC_LOG_HEAD_next_slot 1

/-- Step and attempt in progress, zero where there is none. -/
def Panel.stepNow (p : Panel) : Nat × Nat :=
  match p.activeHub with
  | some h => match (p.eng h).step with
    | some s => (s.n, s.attempt.toNat)
    | none => (0, 0)
  | none => (0, 0)

/-- Word 0 of an error record (R378). -/
def recordWord0 (r : Report) (level : BitVec 3) (escalated replaced : Bool) (seq : Nat) : W64 :=
  BitVec.ofNat 64 (2 * 2 ^ 56 + r.event.toNat * 2 ^ 40 + r.cls.toNat * 2 ^ 37 + level.toNat * 2 ^ 34 +
    b2n escalated * 2 ^ 33 + b2n replaced * 2 ^ 32 + seq % 2 ^ 32)

/-- Word 1 of an error record (R378). -/
def recordWord1 (r : Report) (hub bringup : Nat) : W64 :=
  BitVec.ofNat 64 (r.kind.toNat * 2 ^ 56 + r.site.toNat * 2 ^ 48 + r.sub.toNat * 2 ^ 40 + hub % 256 * 2 ^ 32 +
    bringup % 2 ^ 32)

/-- Log an error record; UF and PF records reach the hosts, and PF the sled (R378, R512). -/
def Panel.logError (p : Panel) (hub : Nat) (r : Report) (level : BitVec 3) (escalated replaced : Bool) (related count : Nat) :
    Panel :=
  let (n, a) := p.stepNow
  let p := p.logWords [recordWord0 r level escalated replaced (p.fget F.PMC_LOG_HEAD_next_seq),
    recordWord1 r hub p.pwr.bringups, BitVec.ofNat 64 (a * 2 ^ 48 + n % 2 ^ 48), r.detail0, r.detail1,
    BitVec.ofNat 64 (related % 2 ^ 32 * 2 ^ 32 + count % 2 ^ 32)]
  let p := p.addWrap F.PMC_LOG_HEAD_next_seq 1
  if r.cls = clsUF then p.bothHosts F.PCI_EVENT_COUNT_uf_records
  else if r.cls = clsPF then (p.bothHosts F.PCI_EVENT_COUNT_pf_records).platformEvent 0 r.event.toNat
  else p

/-- seq of the record logged last. -/
def Panel.lastLogged (p : Panel) : Nat := (p.fget F.PMC_LOG_HEAD_next_seq + 2 ^ 32 - 1) % 2 ^ 32

/-- The primary PMC logs a record of its own at PANEL level, with no location. -/
def Panel.logPanel (p : Panel) (ev : BitVec 16) (cls : BitVec 3) (d0 : Nat := 0) : Panel :=
  p.logError p.primaryHub ⟨ev, cls, lvPanel, 0, 0, 0, BitVec.ofNat 64 d0, 0⟩ lvPanel false false 0 1

/-! ### The field fault list (R348, R397) -/

/-- The list in force: the bank of higher valid generation of the two NVMs. -/
def Panel.ffl (p : Panel) : FflBank :=
  let a := p.currentBank p.nvmA
  let b := p.currentBank p.nvmB
  if p.bankValid b && (!p.bankValid a || decide (a.generation < b.generation)) then b else a

def Panel.showFfl (p : Panel) : Panel :=
  let p := p.fput F.PMC_FFL_STATUS_entries p.ffl.entries.length
  let n := if p.hubUp 0 then p.nvmA else p.nvmB
  (p.fput F.PMC_FFL_STATUS_bank_valid_a (b2n (p.bankValid n.bank0))).fput F.PMC_FFL_STATUS_bank_valid_b (b2n (p.bankValid n.bank1))

/-- A hub erased its keys: its PMC holds field fault list writes in the error log only (R464). -/
def Panel.keysErased (p : Panel) (hub : Nat) : Bool := (smGetD p.sec hub .empty).erased

/-- Write a list to both NVMs that have power, keeping them equal. -/
def Panel.writeFfl (p : Panel) (l : List FflEntry) : Panel :=
  if p.keysErased p.primaryHub then p
  else
    let g := (p.ffl.generation + 1) % 2 ^ 64
    let p := if p.hubUp 0 then { p with nvmA := p.writeBank p.nvmA l g } else p
    let p := if p.hubUp 3 then { p with nvmB := p.writeBank p.nvmB l g } else p
    p.showFfl

/-- Record a failed unit: an entry that exists gains an occurrence; a full list takes no more (R348, R397). -/
def Panel.addFfl (p : Panel) (kind site sub reason : BitVec 8) : Panel :=
  let l := p.ffl.entries
  let same (e : FflEntry) : Bool := e.kind == kind && e.site == site && e.sub == sub
  if l.any same then
    p.writeFfl (l.map fun e => if same e then { e with occurrences := min 0xFFFFFFFF (e.occurrences + 1) } else e)
  else if l.length < 1024 then
    p.writeFfl (l ++ [⟨kind, site, sub, reason, 1, p.pwr.bringups⟩])
  else p

/-! ### Compute reset -/

/-- The engines stop and hold nothing: enable reads 0 and the roles are OFF until service is opened again (R246, R395). -/
def Panel.clearEngines (p : Panel) : Panel :=
  let p := { p with eng0 := .empty, eng3 := .empty, ing := .empty }
  let p := [0, 3].foldl (fun p h =>
    let p := ((p.fput F.RQE_CONTROL_enable 0 h).setRole h roleOff).resetReg .RQE_STBY_STATUS h
    (p.resetReg .RQE_STATUS h).resetReg .RQE_REPLAY_STATUS h) p
  p.bothEngines F.RQE_ILOG_STATUS_recording 0

/-- Mirroring starts anew at the next pairing (R384). -/
def Panel.clearMirror (p : Panel) : Panel :=
  let p := { p with mir := .empty }
  let p := (p.fput F.MIR_STATUS_state 0).fput F.MIR_STATUS_hosting 0
  (p.fput F.MIR_STATUS_commits_wait 0).fput F.MIR_STATUS_refuse_reason 0

/-- Nothing of the compute side runs any more: no shape, no cores, no packets, no accords, no barriers; a zone that is being shut
down is off. A table load and a ceiling change in progress end, islands forget how they were stretched (R203, R318, R320, R334). -/
def Panel.computeReset (p : Panel) : Panel :=
  let p := ((p.finishDraining).clearEngines).clearMirror
  let p := (p.fput F.HUB_HBM_MAP_CONTROL_applied 0).fput F.HUB_HBM_MAP_CONTROL_busy 0
  let p := { p with st := { p.st with loading := none } }
  let p := p.fput F.PWR_TOKEN_STATUS_busy 0
  let p := { p with cores := [], net := .empty, accords := [], bars := [] }
  let p := p.fput F.HUB_SHAPE_valid 0
  let p := p.fput F.PNW_DRAIN_STATUS_in_progress 0
  let p := p.fput F.PMC_ERR_STATUS_storm 0
  let p := { p with errs := p.errs.map fun (e : Nat × ErrMgr) => (e.1, { e.2 with handling := none }) }
  { p with pmc := { p.pmc with armed := false, dry := none }
           pwr := { p.pwr with heatDown := [], capDown := [], up := [], change := none, droop := [], alarmed := [], moving := [] } }

/-! ### Security at the start of a bring-up (R458, R463, R464) -/

def Panel.modSec (p : Panel) (hub : Nat) (f : Sec → Sec) : Panel := { p with sec := smSet p.sec hub (f (smGetD p.sec hub .empty)) }

/-- A new SEC_NONCE from the entropy source: a free value (R458, R463). -/
def Panel.drawNonce (p : Panel) (hub : Nat) : Panel :=
  (List.range 6).foldl (fun (p : Panel) w => let (v, p) := p.drawBits 64; p.put .SEC_NONCE v hub w) p

/-- A debug scope is open in HD0 or HD3: it opens every hub (R464). -/
def Panel.scopeOpen (p : Panel) (scope : Nat) : Bool := [0, 3].any fun h => p.hubUp h && bit (p.fget F.SEC_STATUS_debug_open h) scope

/-- HUB_JTAG is open. -/
def Panel.jtagOpen (p : Panel) : Bool := p.scopeOpen 0

/-- The instruction that acts: BYPASS for one that is closed. What PMC_DEBUG and SECURE_SRAM open goes through JTAG, so it asks for
HUB_JTAG too (R464, R465; DEDUCED, log 56). -/
def Panel.jtagActs (p : Panel) (i : JtagInstr) : JtagInstr :=
  let need (b : Bool) : JtagInstr := if b then i else .bypass
  match i with
  | .bypass => i
  | .idcode => i
  | .samplePreload => i
  | .extest => need p.jtagOpen
  | .other _ => need p.jtagOpen
  | .sramRead => need (p.jtagOpen && p.scopeOpen 2)
  | .pmcHalt => need (p.jtagOpen && p.scopeOpen 1)
  | .pmcStep => need (p.jtagOpen && p.scopeOpen 1)
  | .pmcResume => need (p.jtagOpen && p.scopeOpen 1)
  | .pmcRegs => need (p.jtagOpen && p.scopeOpen 1)

/-- A JTAG port whose instruction is closed selects BYPASS, and PMCs run once PMC_DEBUG is closed (R464, R465). -/
def Panel.jtagSettle (p : Panel) : Panel :=
  { p with
    mgmt := p.mgmt.map fun e => (e.1, { e.2 with jtag := p.jtagActs e.2.jtag })
    pmc := { p.pmc with halted := if p.scopeOpen 1 then p.pmc.halted else [] } }

/-- Debug scopes close (R464). -/
def Panel.closeDebug (p : Panel) (hub : Nat) : Panel :=
  ((p.fput F.SEC_STATUS_debug_open 0 hub).fput F.SEC_DEBUG_remaining_ms 0 hub).jtagSettle

/-- Keys that SECURE_SRAM erased are back at the next bring-up (R464; DEDUCED, log 56). -/
def Panel.keysBack (p : Panel) (hub : Nat) : Panel :=
  match p.flaconOf hub with
  | some x => if (smGetD p.sec hub .empty).erased then p.modSec hub (p.deriveKeys hub x) else p
  | none => p.modSec hub fun s => { s with erased := false }

/-- A bring-up begins: debug scopes close, the nonce is drawn anew, erased keys are back, and a failed entropy test no longer holds
commands back. -/
def Panel.secBringup (p : Panel) (hub : Nat) : Panel :=
  let failed := (smGetD p.sec hub .empty).entropyFailed
  let p := p.modSec hub fun s => { s with entropyFailed := false }
  let p := if failed then p.fput F.SEC_STATUS_entropy_ok 1 hub else p
  ((p.closeDebug hub).keysBack hub).drawNonce hub

/-- The HBM rails of the kept strips rise (R325, R351). -/
def Panel.hbmRailsUp (p : Panel) : Panel :=
  (upTo 12 fun z => p.bring.rowPairs.contains (z / 3) && p.railsUp z == 3).foldl (fun (p : Panel) z => p.setRails z 4) p

/-- Enter a stage (R351, R362). At stage 6 the HBM rails of the kept strips rise. -/
def Panel.enterStage (p : Panel) (n : Nat) : Panel :=
  let b := p.bring
  let p := { p with bring := { b with attempts := smSet b.attempts n (smGetD b.attempts n 0 + 1) } }
  (if n = 6 then p.hbmRailsUp else p).setStage n

/-- A zone's state where it has not been powered anew: its eFuse open, its edge rails up, shut down for heat, or off (R13, R327,
R335). -/
def Panel.restingState (p : Panel) (z : Nat) : Nat :=
  if p.pwr.efuse.contains z then zoneFuse
  else if (z = 12 ∧ p.pwr.railW) ∨ (z = 13 ∧ p.pwr.railE) then zoneOn
  else if p.pwr.hot.contains z then zoneThermal else zoneOff

/-- Counts that last as long as 44 V, and the zones' states, show again after PANEL_RESET_N (R13, R335, R464, R510). -/
def Panel.showKept (p : Panel) : Panel :=
  let k := p.pwr.kept
  let p := (p.addHold F.HUB_SHAPE_selections k.selections).addHold F.PMC_WATCHDOG_trips k.trips
  let p := (k.debugEver.zipIdx).foldl (fun (p : Panel) e => p.fput F.SEC_STATUS_debug_ever e.1 (3 * e.2)) p
  let p := (k.heatOffs.zipIdx).foldl (fun (p : Panel) e => p.addHold F.PWR_ZONE_STATUS_thermal_offs e.1 0 e.2) p
  let p := if k.zonesDue then (List.range 14).foldl (fun (p : Panel) z => p.setZoneState z (p.restingState z)) p else p
  { p with pwr := { p.pwr with kept := ⟨0, 0, [], [], false⟩ } }

/-- The state a zone takes when bring-up switches it on: off for good where its eFuse is open, its row pair is fused off or it was
shut down for heat three times, and off while one shut down for heat has not cooled (R4, R327, R335). -/
def Panel.zonePowered (p : Panel) (z : Nat) : Nat :=
  if p.pwr.efuse.contains z then zoneFuse
  else if z < 12 ∧ p.fab.fusedPair = some (z / 3) then zoneDisabled
  else if 3 ≤ p.fget F.PWR_ZONE_STATUS_thermal_offs 0 z then zoneThermal
  else if p.pwr.hot.contains z ∧ p.throttleC ≤ smGetD p.pwr.temps z 0 + 10 then zoneThermal
  else zoneOn

/-- An edge zone takes a state; its rails rise in order where it is on (R325). -/
def Panel.edgeZonePower (p : Panel) (z : Nat) : Panel :=
  let st := p.zonePowered z
  let on := decide (st = zoneOn)
  let p := (p.setZoneState z st).setRails z (if on then 4 else 0)
  let p := { p with pwr := { p.pwr with hot := if on then p.pwr.hot.filter (· != z) else p.pwr.hot } }
  { p with pwr := if z = 12 then { p.pwr with railW := on } else { p.pwr with railE := on } }

/-- An edge zone that was shut down for heat and has cooled is powered again, its hubs in ROM (R335). -/
def Panel.edgeZonesReturn (p : Panel) : Panel :=
  (upTo 14 fun z => decide (12 ≤ z) && p.zoneState z == zoneThermal && p.zonePowered z == zoneOn).foldl (fun (p : Panel) z =>
    let p := p.edgeZonePower z
    let hubs := if z = 12 then [0, 1] else [2, 3]
    { p with bring := { p.bring with inRom := addAll p.bring.inRom hubs } }) p

/-! ### Compute zones (R325, R335, R351, R366) -/

/-- Every site gate opens, core sites' with it, but those of fuse-disabled sites and of zones that have no power (R326, R351). -/
def Panel.openGates (p : Panel) : Panel :=
  let g := upTo 108 fun e => p.zoneState (zoneOfEnd e) == zoneOn
  { p with bring := { p.bring with
    gates := g, coreGates := (g.filter (· < 72)).flatMap fun e => (List.range 18).map (e * 18 + ·) } }

/-- A compute zone takes the state bring-up gives it: its link, SRAM tier and core rails rise (R325, R351). A zone lost in this
bring-up stays down (R366). -/
def Panel.powerZone (p : Panel) (z : Nat) : Panel :=
  if p.zoneState z = zoneOn ∨ p.bring.zonesLost.contains z then p
  else
    let st := p.zonePowered z
    let p := p.setZoneState z st
    if st = zoneOn then
      ({ p with pwr := { p.pwr with hot := p.pwr.hot.filter (· != z) } }).setRails z 3
    else p

/-- Compute zones are switched on for testing, but for those that stay unpowered, and site gates open. A panel that tripped powers
none (R336). -/
def Panel.powerZones (p : Panel) : Panel :=
  if p.pwr.trip then p
  else
    let p := ((List.range 12).foldl (fun (p : Panel) z => p.powerZone z) p).openGates
    { p with bring := { p.bring with zonesLost := addAll p.bring.zonesLost (upTo 12 fun z => p.zoneState z != zoneOn) } }

/-- Start a bring-up at a stage (R351, R360, R380, R401): a new bring-up, counted, with no holder of the control lease (R439). One that starts behind stage 3 powers the zones that
may be for testing (R335, R366). -/
def Panel.beginBringup (p : Panel) (n : Nat) : Panel :=
  let p := ((p.computeReset).setServing servDown).dropLease
  let p := (p.secBringup 0).secBringup 3
  let p := { p with pwr := { p.pwr with bringups := (p.pwr.bringups + 1) % 2 ^ 32 } }
  let p := (p.showKept).fput F.PMC_STAGE_bringups p.pwr.bringups
  let p := (p.fput F.PMC_STAGE_restarts 0).fput F.PNW_DRAIN_STATUS_drains 0
  let p := (List.range 12).foldl (fun (p : Panel) z => p.setCeiling z 0) p
  let p := { p with bring := { p.bring with attempts := [], pmcRetried := false, converged := false, zonesLost := [] } }
  let p := p.edgeZonesReturn
  (if n = 4 then p.powerZones else p).enterStage n

/-! ### Power of zones (R325, R364) -/

/-- A compute zone's rails are taken down in order, in the safe talkative state or a reset. -/
def Panel.zoneRailsDown (p : Panel) (z : Nat) : Panel :=
  let p := p.keepGates fun e => zoneOfEnd e != z
  if p.zoneState z = zoneOn ∨ p.zoneState z = zoneDraining then
    (((p.noChange z).setZoneState z zoneOff).fput F.PWR_ZONE_STATUS_ceiling 0 0 z).setRails z 0
  else p

def Panel.computeRailsDown (p : Panel) : Panel := (List.range 12).foldl (fun p z => p.zoneRailsDown z) p

/-- Forwarding is kept in the safe talkative state (R345, R364). -/
def Panel.forwardInSafe (p : Panel) : Bool :=
  match p.bring.flacon with
  | some f => bit f.config0.toNat 7
  | none => false

/-- The hub's fabric ports go down and its domain ends; neighbours see their links go down (R426, R429). What the route entries last
applied were is kept for the ports that come back (R428). -/
def Panel.endDomain (p : Panel) (hub : Nat) : Panel :=
  let p := (List.range 4).foldl (fun p i =>
    let p := if p.flag F.HJF_PORT_STATUS_link_up hub i then p.emit (.linkDown (hub * 4 + i)) else p
    let p := p.fput F.HJF_PORT_STATUS_state portDown hub i
    (p.fput F.HJF_PORT_STATUS_link_up 0 hub i).fput F.HJF_PORT_STATUS_width 0 hub i) p
  let p := { p with fabric := smPut p.fabric .empty hub { Fabric.empty with applied := (smGetD p.fabric hub .empty).applied } }
  p.fput F.HJF_CONTROL_domain_state domDown hub

/-- Enter the safe talkative state (R364): compute and HBM rails down, edge zones powered, PANEL_STAGE SAFE. Without
forward_in_safe the domains of the hubs end, after a detach where ports are up (R427). -/
def Panel.goSafe (p : Panel) (failed : Nat) : Panel :=
  let p := (p.computeReset).computeRailsDown
  let p := (p.setServing servDown).fput F.PMC_STAGE_failed_stage failed
  let p := if p.forwardInSafe then
      (p.bring.running.filter fun h => p.hubUp h && p.domain h == domDown).foldl (fun (p : Panel) (h : Nat) =>
        p.fput F.HJF_CONTROL_domain_state domForwarding h) p
    else (List.range 4).foldl (fun p h => if p.domain h = domForwarding then p.detachHub h else p) p
  p.setStage stageSafe

/-! ### Report records (R362) -/

def resPass : Nat := 0
def resDegraded : Nat := 1
def resFail : Nat := 2
def resReused : Nat := 3

def detNoFlacon : Nat := 0x101
def detHubSelftest : Nat := 0x201
def detNoMesh : Nat := 0x301
def detLevel : Nat := 0x401
def detNoShape : Nat := 0x402
def detNoStack : Nat := 0x601
def detCalibration : Nat := 0x801
def detPmcRestart : Nat := 0xF01
def detRestartLimit : Nat := 0xF02
def detBound : Nat := 0xF03

/-- Compute sites and core sites fail after stage 5. -/
def Panel.addFailed (p : Panel) (sites cores : List Nat) : Panel :=
  let f := p.bring.failed7
  { p with bring := { p.bring with failed7 := ⟨addAll f.compute sites, addAll f.core cores, f.mpd⟩ } }

/-- Write a stage's record to PMC_REPORT and to the log; how long the stage took is a free value (R362). -/
def Panel.stageRecord (p : Panel) (n result detail : Nat) (words : List Nat) : Panel :=
  let (ms, p) := p.draw (2 ^ 32)
  let w0 := 2 ^ 56 + n * 2 ^ 52 + result * 2 ^ 48 + smGetD p.bring.attempts n 1 % 256 * 2 ^ 40 + detail
  let ws := (w0 :: (p.pwr.bringups * 2 ^ 32 + ms) :: words).map (BitVec.ofNat 64)
  let p := (List.range 8).foldl (fun p w => p.put .PMC_REPORT (ws.getD w 0) 0 n w) p
  p.logWords ws

/-- A stage fails: its record, then the safe talkative state (R362, R364). -/
def Panel.failStage (p : Panel) (n detail : Nat) (words : List Nat) : Panel :=
  (p.stageRecord n resFail detail words).goSafe n

/-- A stage ends with a result and the next begins. -/
def Panel.endStage (p : Panel) (n result : Nat) (words : List Nat) : Panel :=
  (p.stageRecord n result 0 words).enterStage (n + 1)

/-- A stage ends, with sites, links, cores or stacks excluded or with none, and the next begins. -/
def Panel.passStage (p : Panel) (n : Nat) (degraded : Bool) (words : List Nat) : Panel :=
  p.endStage n (if degraded then resDegraded else resPass) words

end Sys2Proof.Machine
end

