-- ==== Sys2Proof/Machine/Mirror.lean ====
section
/-! DEFINITION. Mirroring (R384 to R389), dry-down and hand-off (R390 to R393), and return (R394). -/

namespace Sys2Proof.Machine

def mirOff : Nat := 0
def mirPairing : Nat := 1
def mirSyncing : Nat := 2
def mirPaired : Nat := 3
def mirUnpaired : Nat := 4
def mirHandedOff : Nat := 5

def Panel.mirSt (p : Panel) : Nat := p.fget F.MIR_STATUS_state

def Panel.setMirSt (p : Panel) (n : Nat) : Panel :=
  if p.mirSt = n then p else (p.fput F.MIR_STATUS_state n).platformEvent 0x103 n

/-- Hub of the mirror engine that acts: the active engine's, else the primary PMC's (R385). -/
def Panel.mirHub (p : Panel) : Nat := p.activeHub.getD p.primaryHub

def Panel.partner (p : Panel) : BitVec 12 := BitVec.ofNat 12 (p.fget F.MIR_CONFIG_partner_coord)

/-- Requests imported from the partner are held (R402). -/
def Panel.hosting (p : Panel) : Bool :=
  p.mir.imports.any (fun x => x.origin != p.coord) ||
    [0, 3].any fun h => p.role h == roleActive && (p.eng h).ctxs.any fun x => x.2.imported

/-- MIR_STATUS as it reads. -/
def Panel.mirStatusRead (p : Panel) : W64 := F.MIR_STATUS_hosting.write (p.get .MIR_STATUS) (b2n p.hosting)

/-! ### Pairing (R384) -/

/-- Size of region or window n in MiB; none where it is not enabled. -/
def mibOf (en size : RField) (w : W64) : Nat := if en.read w = 1 then size.read w else 0

/-- Why pairing with a partner is refused, 0 where it is not (R384, R402); the first of R384's conditions that fails. Without a
coordinate no port is up (R407). -/
def Panel.pairError (p : Panel) (x : PeerInfo) : Nat :=
  let own := p.fget F.RQE_KV_CONFIG_pages - p.fget F.MIR_GUEST_PAGES_count
  let other := F.RQE_KV_CONFIG_pages.read x.kvConfig - F.MIR_GUEST_PAGES_count.read x.guestPages
  let region (w : W64) : Nat := mibOf F.MIR_REGION_enable F.MIR_REGION_size_mib w
  let window (w : W64) : Nat := mibOf F.MIR_GUEST_WIN_enable F.MIR_GUEST_WIN_size_mib w
  if !x.reachable || !p.flag F.HJF_COORD_valid then 6
  else if x.level.toNat ≠ p.fget F.PMC_FLACON_STATUS_behaviour_level then 1
  else if x.planDigest ≠ p.planDigest then 2
  else if x.failureDomain.toNat = p.fget F.MIR_CONFIG_failure_domain then 3
  else if x.coord ≠ p.partner ∨ x.partnerCoord ≠ p.coord then 5
  else if p.fget F.MIR_GUEST_PAGES_count < other ∨ F.MIR_GUEST_PAGES_count.read x.guestPages < own then 4
  else if [1, 2, 3].any fun n =>
      decide (window (p.get .MIR_GUEST_WIN 0 n) < region (x.regions.getD (n - 1) 0)) ||
        decide (window (x.windows.getD (n - 1) 0) < region (p.get .MIR_REGION 0 n)) then 4
  else 0

/-- What this panel says of itself at an attempt to pair (R384). -/
def Panel.ownInfo (p : Panel) : PeerInfo :=
  ⟨true, p.coord, BitVec.ofNat 8 (p.fget F.PMC_FLACON_STATUS_behaviour_level), p.planDigest,
    BitVec.ofNat 8 (p.fget F.MIR_CONFIG_failure_domain), p.get .RQE_KV_CONFIG, p.get .RQE_STATE_CONFIG, p.get .MIR_GUEST_PAGES,
    p.partner, [1, 2, 3].map fun n => p.get .MIR_REGION 0 n, [1, 2, 3].map fun n => p.get .MIR_GUEST_WIN 0 n⟩

/-- Copy parts of a region of 4 KiB each, by number; a part whose home answers with an error is not sent (R34). -/
def Panel.sendRegion (p : Panel) (r : Nat) (parts : List Nat) : Panel :=
  parts.foldl (fun p k =>
    let a := p.regionBase r + k * 4096
    if p.accessStatus a 4096 = 0 then
      let (d, p) := p.readTagged a 4096
      p.mirCopy r (k * 4096) d
    else p) p

/-- The snapshot of R389: the serving state, and every allocated page of the mirrored regions; with a step whose results are accepted,
its deltas follow. -/
def Panel.sendSnapshot (p : Panel) : Panel :=
  let h := p.mirHub
  let p := p.mirPush (.msg (.snapshot (p.mirrorState h)))
  let p := p.sendRegion 0 ((p.eng h).used.flatMap fun g => (List.range 64).map (g * 64 + ·))
  let p := [1, 2, 3].foldl (fun p n =>
    p.sendRegion n (List.range (mibOf F.MIR_REGION_enable F.MIR_REGION_size_mib (p.get .MIR_REGION 0 n) * 256))) p
  match (p.eng h).step with
  | some s => if s.phase = .accepted then p.deltasDue h s.n s.results else p
  | none => p

def MirSend.isMsg : MirSend → Bool
  | .msg _ => true
  | _ => false

/-- The step in progress no longer waits for the partner, and neither copies nor deltas nor repairs go on. -/
def Panel.partnerDone (p : Panel) : Panel :=
  let p := { p with mir := { p.mir with
    queue := p.mir.queue.filter (·.isMsg), awaits := [], copies := 0, unsent := [], deltas := [], repairs := [] } }
  [0, 3].foldl (fun p h =>
    (p.modStep h fun s => { s with partnerAcked := true }).fput F.RQE_STATUS_partner_wait 0 h) p

/-- One attempt at pairing: the panels exchange what R384 lists, and each decides (R384, R389). -/
def Panel.tryPair (p : Panel) (x : PeerInfo) : Panel :=
  let p := p.mirPush (.msg (.pairing p.ownInfo))
  let e := p.pairError x
  let p := p.fput F.MIR_STATUS_refuse_reason e
  if e ≠ 0 then (p.setMirSt mirUnpaired).logPanel 0x0605 clsInfo e
  else
    let p := p.fput F.MIR_STATUS_commits_wait 0
    let p := (p.partnerDone).setMirSt mirSyncing
    ({ p with mir := { p.mir with peer := some x, guest := .empty } }).sendSnapshot

/-- PAIRING_ATTEMPT (R384): once a second while UNPAIRED. -/
def execPairingAttempt (x : PeerInfo) (s : State) : Host.Outcome State Fault Refusal :=
  .next (s.upd fun p =>
    if p.flag F.MIR_CONFIG_enable && p.mirSt == mirUnpaired && p.inService then p.tryPair x else p)

/-! ### Copies and deltas (R385 to R389) -/

/-- The partner's serving configuration. -/
def Panel.peerCfg (p : Panel) : RqeCfg :=
  match p.mir.peer with
  | some x =>
    ⟨F.RQE_KV_CONFIG_pages.read x.kvConfig, F.MIR_GUEST_PAGES_first.read x.guestPages,
      F.MIR_GUEST_PAGES_count.read x.guestPages, 2 ^ F.RQE_KV_CONFIG_tpg_log2.read x.kvConfig,
      max 1 (F.RQE_KV_CONFIG_ppg.read x.kvConfig), 2 ^ F.RQE_STATE_CONFIG_max_pages_log2.read x.stateConfig,
      p.mir.guest.slots⟩
  | none => p.rqeCfg

/-- This panel's page that holds the partner's page (R385). Where the partner's page lies in its guest range the rule gives
none: a free value. -/
def Panel.adoptPage (p : Panel) (pg : Nat) : Nat :=
  let g := p.peerCfg
  if g.isGuest pg then Config.hostedPage pg
  else p.fget F.MIR_GUEST_PAGES_first + if pg < g.guestFirst then pg else pg - g.guestCount

def Panel.dropArrived (p : Panel) (k : FPacket) : Panel := (List.range 4).foldl (fun p h => p.takeArrived h k) p

/-- MIRROR_ACK for a packet: its mark becomes the echo (R424). Contents have no layout: a delta's step is in addr (log 16). -/
def Panel.mirrorAnswer (p : Panel) (k : FPacket) (val : Nat) : Panel :=
  if p.mayInject p.mirHub then
    p.fStart p.mirHub (sealCheck ⟨0x12, 2, false, false, false, false, k.srcCoord, p.coord, 0, 0, unitMirror, k.tag, 0, 0,
      BitVec.ofNat 56 val, 0, k.mark, 0, 0, []⟩)
  else p

/-- The packet of what the mirror engine sends (R409 to R411): a copy's bytes and offset, a delta's step; what else it tells has no
layout (log 16). -/
def Panel.mirPacket (p : Panel) (tag : BitVec 16) (m : MirSend) : FPacket :=
  let (op, addr, data) : BitVec 6 × Nat × List (Byte × Bool) :=
    match m with
    | .copy _ off d => (0x10, off, d)
    | .deltas n _ => (0x11, n, [])
    | .msg _ => (0x13, 0, [])
  sealCheck ⟨op, 2, false, false, false, data.any (·.2), p.partner, p.coord, 0, 0, unitMirror, tag, BitVec.ofNat 13 data.length, 0,
    BitVec.ofNat 56 addr, 0, false, 0, 0, data.map (·.1)⟩

/-- The repair that a message asks for: the address of its 64 B. -/
def Panel.repairOf (p : Panel) : MirSend → Option Nat
  | .msg (.repairRead r off) => (p.st.mirRanges.find? fun x => x.1 == r).map fun x => x.2.1 + off
  | _ => none

/-- The mirror engine injects the oldest of what it has to send, as long as its hub injects (R425 to R427). A copy, deltas and a request
for a repair are packets whose answer it awaits (R423). -/
def Panel.mirTick (p : Panel) : Panel :=
  match p.mir.queue with
  | [] => p
  | m :: rest =>
    let hub := p.mirHub
    if !p.mayInject hub then p
    else
      let tag := (p.fab4 hub).nextTag
      let fix := p.repairOf m
      let due : List MirAwait := if m.isMsg && fix.isNone then [] else [⟨hub, tag, fix⟩]
      let p := { p with mir := { p.mir with queue := rest, awaits := p.mir.awaits ++ due } }
      let p := p.modFab hub fun f => { f with nextTag := tag + 1 }
      (p.emit (.mirror tag m)).fStart hub (p.mirPacket tag m)

/-- The partner is heard: pairing holds. -/
def Panel.mirrorOn (p : Panel) : Bool := p.mirSt == mirSyncing || p.mirSt == mirPaired

/-- Where this panel holds bytes of the partner's region: the guest range, or the guest window of the region (R385, R386 step 5). -/
def Panel.guestPlace (p : Panel) (region off len : Nat) : Option Nat :=
  if region = 0 then some (p.kvBase + p.adoptPage (off / 0x40000) * 0x40000 + off % 0x40000)
  else if region ≤ 3 then
    let w := p.get .MIR_GUEST_WIN 0 region
    if off + len ≤ mibOf F.MIR_GUEST_WIN_enable F.MIR_GUEST_WIN_size_mib w * 2 ^ 20 then
      some (F.MIR_GUEST_WIN_base.read w * 2 ^ 20 + off)
    else none
  else none

/-- MIRROR_WR (R386 step 5): a copy from the partner; addr is the offset in its region (log 16). -/
def execMirrorWr (k : FPacket) (region : Nat) (s : State) : Host.Outcome State Fault Refusal :=
  .next (s.upd fun p =>
    let p := p.dropArrived k
    match p.guestPlace region k.addr.toNat k.payload.length with
    | some a =>
      if p.mirrorOn && p.accessStatus a k.payload.length == 0 then
        (p.writeTagged a (k.payload.map (·, k.poison))).mirrorAnswer k 0
      else p
    | none => p)

/-- Inputs of a step's deltas, and its results. -/
def deltaInputs (recs : List JRec) : List RqeInput :=
  recs.filterMap fun r => match r with | .input _ i _ _ => some i | _ => none

/-- The step's commit record among its deltas. -/
def deltaCommit (recs : List JRec) : Option (List Result × Nat × BitVec 384) :=
  recs.findSome? fun r => match r with | .commit _ rs q d => some (rs, q, d) | _ => none

/-- The waiting imports that a step's inputs take out of the waiting (R392). -/
def leaving (recs : List JRec) : List Nat :=
  (deltaInputs recs).flatMap fun i => match i with | .depart cs => cs | _ => []

/-- Apply the partner's step to the guest store (R385). -/
def Panel.applyDelta (p : Panel) (n : Nat) (recs : List JRec) : Panel :=
  match deltaCommit recs with
  | none => p
  | some (rs, q, d) =>
    let g := p.mir.guest
    let e := (g.eng.follow p.peerCfg n (deltaInputs recs) rs).1
    let w := g.waiting.filter fun x => !(leaving recs).contains (waitKey x)
    { p with mir := { p.mir with guest := { g with eng := e, step := n, seq := q, digest := d, waiting := w } } }

/-- MIRROR_DELTA (R387): the deltas of the next step are applied and acknowledged; those of a step that the guest store already
holds are acknowledged. -/
def execMirrorDelta (k : FPacket) (n : Nat) (recs : List JRec) (s : State) : Host.Outcome State Fault Refusal :=
  .next (s.upd fun p =>
    let p := p.dropArrived k
    if !p.mirrorOn then p
    else if n ≤ p.mir.guest.step then p.mirrorAnswer k n
    else if n = p.mir.guest.step + 1 ∧ (deltaCommit recs).isSome then (p.applyDelta n recs).mirrorAnswer k n
    else p)

/-- The partner acknowledges a copy: the deltas of a step go out once the last of those accepted before its results is (R387). -/
def Panel.copyAcked (p : Panel) : Panel :=
  let unsent := p.mir.unsent.map fun u => { u with before := u.before - 1 }
  Panel.sendDeltas { p with mir := { p.mir with copies := p.mir.copies - 1, unsent := unsent } }

/-- The partner acknowledges a step's deltas: the step may commit (R266, R387). -/
def Panel.deltasAcked (p : Panel) (n : Nat) : Panel :=
  let p := { p with mir := { p.mir with deltas := p.mir.deltas.filter (· != n) } }
  let p := p.fput F.MIR_STATUS_acked_step n
  let h := p.mirHub
  match (p.eng h).step with
  | some x =>
    if x.n = n then (p.modStep h fun x => { x with partnerAcked := true }).fput F.RQE_STATUS_partner_wait 0 h else p
  | none => p

/-- MIRROR_ACK (R386, R387, R423): a copy is acknowledged, or a step's deltas are. An answer to a packet that has timed out is late. -/
def execMirrorAck (k : FPacket) (step : Option Nat) (s : State) : Host.Outcome State Fault Refusal :=
  .next (s.upd fun p =>
    let p := (p.dropArrived k).echoed p.mirHub true k
    if !p.mirrorOn then p
    else if !p.mir.awaits.any (·.tag == k.tag) then p.countLate p.mirHub
    else
      let p := { p with mir := { p.mir with awaits := p.mir.awaits.filter (·.tag != k.tag) } }
      match step with
      | none => p.copyAcked
      | some n => if p.mir.deltas.contains n then p.deltasAcked n else p)

/-- The partner has been silent for ack_timeout_us (R388): the panel commits without it, or holds its commits. -/
def Panel.partnerSilent (p : Panel) : Panel :=
  let p := (p.logPanel 0x0604 clsInfo).setMirSt mirUnpaired
  if p.flag F.MIR_CONFIG_on_loss then
    let p := { p with mir := { p.mir with
      queue := p.mir.queue.filter (·.isMsg), awaits := [], copies := 0, unsent := [], deltas := [], repairs := [] } }
    let p := p.fput F.MIR_STATUS_commits_wait 1
    match p.activeHub with
    | some h => p.fput F.RQE_STATUS_partner_wait 1 h
    | none => p
  else p.partnerDone

/-! ### Dry-down (R390, R391) -/

/-- Hub of the engine that holds the context records (R390): active or stopped, else a standby. -/
def Panel.holderHub (p : Panel) : Option Nat :=
  let is (r h : Nat) : Bool := p.hubUp h && p.role h == r
  ([0, 3].find? (is roleActive)).orElse fun _ =>
    ([0, 3].find? fun h => is roleStopped h && !(p.eng h).ctxs.isEmpty).orElse fun _ => [0, 3].find? (is roleStandby)

/-- The completion of an import that ends while it waits for a context (R390, R392). -/
def Panel.waitingLost (p : Panel) (x : CtxRec) : Completion :=
  ctxCompletion { x with imported := decide (x.origin ≠ p.coord) } [] rsnServiceLost

/-- End every live request with SERVICE_LOST, in ascending context, and then the imports that wait for one (R390). -/
def Panel.endRequests (p : Panel) : Panel :=
  match p.holderHub with
  | none => p
  | some h =>
    let (e, cs) := (p.eng h).ctxs.foldl (fun (acc : Engine × List Completion) x =>
      let (e, c) := acc.1.finish x.1 [] rsnServiceLost
      (e, acc.2 ++ c)) (p.eng h, [])
    let cs := cs ++ p.mir.imports.map p.waitingLost
    let p := ((p.setEng h { e with inputs := [], taking := [], step := none }).deliver cs).showEngine h
    { p with mir := { p.mir with imports := [] } }

/-- What follows a dry-down (R380, R391 step 5, R485). After a panel trip nothing is restarted before 44 V is removed (R336, R339). -/
def Panel.afterDry (p : Panel) : Panel :=
  let p := p.setServing servDried
  if p.pwr.trip then p
  else
    match p.pmc.dry with
    | some .reshape => p.beginBringup 4
    | some .restart3 => p.beginBringup 3
    | _ => p

/-- No hand-off is possible: every live request ends, HANDOFF_FAILED is logged, and the action continues (R390). -/
def Panel.dryFail (p : Panel) : Panel :=
  let p := { p with mir := { p.mir with handoff := .none } }
  ((p.endRequests).logPanel 0x0607 clsInfo).afterDry

/-- Body of a HANDOFF record (R393). -/
def handoffBody (other : BitVec 12) (step moved : Nat) (ret : Bool) (d : BitVec 384) : List Byte :=
  toBytes 8 (other.toNat * 2 ^ 50 + step % 2 ^ 48) ++ toBytes 8 (b2n ret * 2 ^ 32 + moved % 2 ^ 17) ++ digestBE d

/-- Send a hand-off of contexts at the last committed step, and count it (R391 step 3, R402). -/
def Panel.sendHandoff (p : Panel) (h : Nat) (ret : Bool) (cs : List Nat) : Panel :=
  let p := p.mirPush (.msg (.handoff p.coord (p.fget F.RQE_STEP_committed h) p.lastSeq p.ing.lastDigest ret cs))
  let p := p.addHold F.MIR_COUNTS_handoffs_out 1
  { p with mir := { p.mir with handoff := .sent ret cs } }

/-- HANDOFF_OUT is written, the requests leave, and the action continues (R391 step 5, R394); it waits for a primary PMC (R377) and for
room in the log (R298). -/
def Panel.handoffOut (p : Panel) : Panel :=
  match p.mir.handoff, p.holderHub with
  | .acked ret cs, some h =>
    if !p.hasPrimary then p
    else
      let n := p.fget F.RQE_STEP_committed h
      let (p, ok) := p.tryRecord recHandoffOut (n + 1) (handoffBody p.partner n cs.length ret p.ing.lastDigest)
      if !ok then p
      else
        let p := ((p.actInput h (.depart cs)).journalInput h (n + 1) (.depart cs)).showEngine h
        let p := { p with mir := { p.mir with imports := p.mir.imports.filter fun x => !cs.contains (waitKey x) } }
        if ret then
          let p := { p with mir := { p.mir with handoff := .none, returnDue := false } }
          p.modEng h fun e => { e with frozen := false }
        else
          let p := { p with mir := { p.mir with handoff := .done } }
          let p := (p.modEng h fun e => { e with step := none }).showEngine h
          (p.setMirSt mirHandedOff).afterDry
  | _, _ => p

/-- Held commits are let go: on_loss is written to 0, mirroring ends, or a dry-down finds no partner (R388, R390). -/
def Panel.releaseCommits (p : Panel) : Panel :=
  if p.flag F.MIR_STATUS_commits_wait then (p.fput F.MIR_STATUS_commits_wait 0).partnerDone else p

/-- A write of MIR_CONFIG has taken effect: enabling starts attempts at pairing, disabling ends mirroring, and on_loss = 0 lets
held commits go (R384, R388, R402). -/
def Panel.mirConfigured (p : Panel) (was : Bool) : Panel :=
  let now := p.flag F.MIR_CONFIG_enable
  let p := if !p.flag F.MIR_CONFIG_on_loss || !now then p.releaseCommits else p
  if now && !was then p.setMirSt mirUnpaired
  else if was && !now then ((p.partnerDone).setMirSt mirOff)
  else p

/-- The requests that a hand-off names: every context, and every import that waits for one (R391, R392). -/
def Panel.allMoved (p : Panel) (h : Nat) : List Nat := (p.eng h).ctxs.map (·.1) ++ p.mir.imports.map waitKey

/-- Dry-down goes on: the hand-off where the state is PAIRED, else R390. An accepted step that the partner has acknowledged and this
panel cannot commit stays behind: the partner imports at it (R391). Where there is no hand-off, such a step waits for its standby
alone. -/
def Panel.dryAdvance (p : Panel) : Panel :=
  if p.serving ≠ servDrying ∨ !p.hasPrimary then p
  else if p.mir.handoff = .lost then p.dryFail
  else if p.mir.handoff ≠ .none then p.handoffOut
  else
    match p.holderHub with
    | none => p.dryFail
    | some h =>
      match (p.eng h).step with
      | none => if p.mirSt = mirPaired then p.sendHandoff h false (p.allMoved h) else p.dryFail
      | some s =>
        if p.mirSt = mirPaired then (if s.partnerAcked then p.sendHandoff h false (p.allMoved h) else p)
        else
          let p := p.releaseCommits
          match (p.eng h).step with
          | some s => if s.journalAcked then (p.commitStep h s).dryFail else p
          | none => p.dryFail

/-- The later of two actions decides (R400); a brown-out's, which ends in SAFE, stands (R485). -/
def AfterDry.later (a : Option AfterDry) (b : AfterDry) : AfterDry := if a = some .safe then .safe else b

/-- No step is formed and heads freeze; a step whose results are accepted completes its commit, any other attempt is abandoned
(R391 step 2). -/
def Panel.freeze (p : Panel) (h : Nat) : Panel :=
  let p := p.modEng h fun e => { e with frozen := true }
  match (p.eng h).step with
  | none => p
  | some s =>
    if s.phase = .accepted then p.commitStep h s
    else ((p.modEng h fun e => { e with step := none }).fput F.RQE_STATUS_running 0 h).showEngine h

/-- A dry-down that is due begins, once there is a primary PMC (R377, R390, R391). In bring-up there is nothing to hand off, and
its action follows at once. -/
def Panel.dryBegin (p : Panel) : Panel :=
  if !p.hasPrimary then p
  else if p.serving = servServing then
    let p := p.setServing servDrying
    let p := [0, 3].foldl (fun p h => if p.role h = roleActive ∨ p.role h = roleStopped then p.freeze h else p) p
    p.dryAdvance
  else if p.serving = servDrying then p.dryAdvance
  else if p.serving = servDried then p.afterDry
  else if p.pmc.armed && decide (p.stage ≤ 9) && (p.pmc.dry == some .reshape || p.pmc.dry == some .restart3) then p.dryFail
  else p

/-- Dry-down is triggered (R390, R391), or merges with the one in progress (R400). After a panel trip nothing is restarted before
44 V is removed (R336, R339). -/
def Panel.startDry (p : Panel) (after : AfterDry) : Panel :=
  let then' := if p.pwr.trip then .hold else AfterDry.later p.pmc.dry after
  ({ p with pmc := { p.pmc with dry := some then' } }).dryBegin

/-! ### Hand-off and return (R391 to R394) -/

/-- The order of imports: ascending (prio, admit_seq) (R392). -/
def importOrder (l : List CtxRec) : List CtxRec :=
  let key (i : Nat) : Nat := match l[i]? with | some x => rank x.prio.toNat x.admitSeq | none => 0
  (sortBy key (List.range l.length)).filterMap fun i => l[i]?

/-- Take guest contexts over, with their pages as this panel numbers them (R385, R392). -/
def Panel.adopt (p : Panel) (src : BitVec 12) (ctxs : List CtxRec) : Panel :=
  let l := (importOrder ctxs).map fun x =>
    { x with pages := x.pages.map p.adoptPage, origin := if x.imported then x.origin else src }
  let g := p.mir.guest
  let e := ctxs.foldl (fun (e : Engine) x => { (e.release x.pages) with ctxs := smDel e.ctxs x.ctx }) g.eng
  { p with mir := { p.mir with
    imports := p.mir.imports ++ l, guest := { g with eng := e, waiting := g.waiting.filter fun x => !ctxs.contains x } } }

/-- A hand-off from the partner (R391 step 4, R394): where its panel cannot commit a step that this one has acknowledged, the import
is at that step. Checked against the guest store, imported, recorded and acknowledged. After
a dry-down the partner serves no more, and this panel is UNPAIRED. -/
def Panel.takeHandoff (p : Panel) (src : BitVec 12) (step seq : Nat) (d : BitVec 384) (ret : Bool) (cs : List Nat) : Panel :=
  match p.activeHub with
  | none => p
  | some h =>
    let g := p.mir.guest
    let known := (g.step = step ∧ g.seq = seq ∧ g.digest = d) ∨ (g.step = step + 1 ∧ !ret)
    if p.serving ≠ servServing ∨ p.mirSt ≠ mirPaired ∨ src ≠ p.partner ∨ ¬ known then p
    else
      let named := (g.eng.ctxs.filter fun x => !ret || cs.contains x.1).map (·.2) ++
        g.waiting.filter fun x => !ret || cs.contains (waitKey x)
      let (p, ok) := p.tryRecord recHandoffIn (p.fget F.RQE_STEP_committed h + 1) (handoffBody src step named.length ret d)
      if !ok then p
      else
        let p := (p.adopt src named).addHold F.MIR_COUNTS_handoffs_in 1
        let p := p.mirPush (.msg (.handoffAck named.length))
        if ret then p else (p.partnerDone).setMirSt mirUnpaired

/-- The requests that are the partner's own, to be returned, those that wait for a context too (R392, R394). -/
def Panel.hosted (p : Panel) (h : Nat) : List Nat :=
  ((p.eng h).ctxs.filter fun x => x.2.imported && x.2.origin == p.partner).map (·.1) ++
    (p.mir.imports.filter fun x => x.origin == p.partner).map waitKey

/-- A return goes on at a step boundary (R394). -/
def Panel.returnAdvance (p : Panel) : Panel :=
  match p.activeHub with
  | none => p
  | some h =>
    if !p.mir.returnDue ∨ p.mirSt ≠ mirPaired ∨ p.serving ≠ servServing ∨ p.mir.handoff ≠ .none ∨ (p.eng h).step.isSome then p
    else if (p.hosted h).isEmpty then { p with mir := { p.mir with returnDue := false } }
    else (p.modEng h fun e => { e with frozen := true }).sendHandoff h true (p.hosted h)

/-- The acknowledgement of a hand-off (R391 step 5, R394). -/
def Panel.handoffAcked (p : Panel) : Panel :=
  match p.mir.handoff with
  | .sent ret cs => { p with mir := { p.mir with handoff := .acked ret cs } }.handoffOut
  | _ => p

/-- HANDOFF_ACK (R391). -/
def execHandoffAck (_count : Nat) (s : State) : Host.Outcome State Fault Refusal :=
  .next (s.upd fun p => p.handoffAcked)

/-- MIRROR_ACK_TIMEOUT (R388); a dry-down then finds no partner (R390). -/
def execMirrorAckTimeout (s : State) : Host.Outcome State Fault Refusal :=
  .next (s.upd fun p =>
    if p.mirrorOn && (p.mir.copies != 0 || !p.mir.deltas.isEmpty) then (p.partnerSilent).dryAdvance else p)

/-- HANDOFF_ACK_TIMEOUT (R391, R394): a dry-down ends every request, once a primary PMC exists (R377); a return leaves them here, to be
tried again. -/
def execHandoffAckTimeout (s : State) : Host.Outcome State Fault Refusal :=
  .next (s.upd fun p =>
    match p.mir.handoff with
    | .sent false _ => ({ p with mir := { p.mir with handoff := .lost } }).dryAdvance
    | .sent true _ =>
      let p := { p with mir := { p.mir with handoff := .none, returnDue := true } }
      match p.activeHub with
      | some h => p.modEng h fun e => { e with frozen := false }
      | none => p
    | _ => p)

/-- RETURN_RETRY (R394): a second after a return failed. -/
def execReturnRetry (s : State) : Host.Outcome State Fault Refusal :=
  .next (s.upd fun p => p.returnAdvance)

/-- What this panel holds of 64 B of the partner's region, for a repair; none where it cannot be read or is poisoned (R383). -/
def Panel.repairBytes (p : Panel) (r off : Nat) : Option (List (Byte × Bool)) × Panel :=
  match p.guestPlace r off 64 with
  | some a =>
    if p.accessStatus a 64 = 0 then
      let (d, p) := p.readTagged a 64
      (if d.any (·.2) then none else some d, p)
    else (none, p)
  | none => (none, p)

/-- The partner answers the read of a repair: the 64 B are written whole, which clears the poison, and counted; or the poison remains
(R383, R400). -/
def Panel.repairDone (p : Panel) (r off : Nat) (d : Option (List (Byte × Bool))) : Panel :=
  match (p.st.mirRanges.find? fun x => x.1 == r).map fun x => x.2.1 + off with
  | none => p
  | some a =>
    if !p.mir.repairs.contains a then p
    else
      let p := { p with mir := { p.mir with
        repairs := p.mir.repairs.filter (· != a), awaits := p.mir.awaits.filter (·.repair != some a) } }
      match d with
      | some l => if l.length = 64 then (p.writeTagged a l).addHold F.MIR_COUNTS_poison_repairs 1 else p
      | none => p

/-- MIRROR_CTRL (R383, R384, R389, R391, R394): a message of the partner's mirror engine. -/
def execMirrorCtrl (m : MirrorMsg) (s : State) : Host.Outcome State Fault Refusal :=
  .next (s.upd fun p =>
    match m with
    | .handoff src step seq d ret cs => p.takeHandoff src step seq d ret cs
    | .handoffAck _ => p.handoffAcked
    | .askReturn c =>
      if p.mirSt = mirPaired ∧ c = p.partner then
        ({ p with mir := { p.mir with returnDue := true } }).returnAdvance
      else p
    | .snapshot x =>
      if p.mirrorOn then
        let e := { Engine.empty with ctxs := x.ctxs.foldl (fun m y => smSet m y.ctx y) [], used := x.used, policy := x.policy
                                     nextIntake := x.nextIntake, nextAdmit := x.nextAdmit, cold := x.cold }
        { p with mir := { p.mir with guest := ⟨e, x.step, x.seq, x.digest, x.slots, x.waiting⟩ } }
      else p
    | .pairing x => if p.flag F.MIR_CONFIG_enable && x.coord == p.partner then p.mirPush (.msg (.pairing p.ownInfo)) else p
    | .repairRead r off =>
      if p.mirrorOn then
        let (d, p) := p.repairBytes r off
        p.mirPush (.msg (.repairData r off d))
      else p
    | .repairData r off d => p.repairDone r off d)

/-- MIRROR_SYNC_DONE (R389, R394): PAIRED; with auto_return, a return of the partner's requests starts. -/
def execMirrorSyncDone (s : State) : Host.Outcome State Fault Refusal :=
  .next (s.upd fun p =>
    if p.mirSt = mirSyncing then
      let p := p.setMirSt mirPaired
      if p.flag F.MIR_CONFIG_auto_return && p.hosting then
        ({ p with mir := { p.mir with returnDue := true } }).returnAdvance
      else p
    else p)

/-! ### Steps -/

/-- STEP_COMMIT (R265, R266): then a dry-down or a return that waited for the step boundary goes on (R391, R394). -/
def execStepCommit (hub : Nat) (s : State) : Host.Outcome State Fault Refusal :=
  .next (s.upd fun p => (p.onStep hub fun p r => ((p.commitStep hub r).dryAdvance).returnAdvance))

/-- The blocks of the attempt's DE records that lie in a mirrored region are asked for at the partner, while PAIRED (R383). -/
def Panel.askRepairs (p : Panel) : Panel :=
  let blocks := (p.pmc.des.map fun a => a / 64 * 64).eraseDups
  let p := { p with pmc := { p.pmc with des := [] } }
  if p.mirSt ≠ mirPaired then p
  else blocks.foldl (fun p a =>
    match p.mirrored a with
    | some (r, base) =>
      if p.accessStatus a 64 = 0 then
        { p.mirPush (.msg (.repairRead r (a - base))) with mir.repairs := p.mir.repairs ++ [a] }
      else p
    | none => p) p

/-- STEP_START (R261); a retried attempt starts once the partner has answered for the repairs of R383. -/
def execStepStart (hub : Nat) (s : State) : Host.Outcome State Fault Refusal :=
  .next (s.upd fun p => p.onStep hub fun p r =>
    if r.phase ≠ .formed then p
    else if r.attempt.toNat % 128 = 0 then ({ p with pmc := { p.pmc with des := [] } }).startStep hub r
    else
      let p := p.askRepairs
      if p.mir.repairs.isEmpty then p.startStep hub r else p)

/-- The host that holds the stream region needs no lease for it (R439). -/
def Panel.holdsStream (p : Panel) (host : Bool) : Bool := p.streamRegions.any fun r => r.1 == portHub host

/-- A write of RQE_ILOG_STREAM: a HANDOFF_OUT record that waited for room is written (R298, R391). -/
def Panel.streamStored (p : Panel) (v : W64) : Panel := (p.ilogStream v).handoffOut

/-- RQE_ILOG_STREAM_WRITE (R298). -/
def execRqeIlogStreamWrite (hub : Nat) (src : Writer) (v : W64) (s : State) : Host.Outcome State Fault Refusal :=
  .next (s.upd fun p =>
    if !p.hubUp hub || !hasEngine hub then p
    else if (writerHost src).any p.holdsStream then p.streamStored v else p.asWriter src fun p => p.streamStored v)

/-! ### PMC_SERVICE_CONTROL (R401) -/

/-- The hubs detach and restart from stage 1, in ROM until it has read their copies; both PCI Express links go down (R365, R396,
R427). -/
def Panel.restartHubs (p : Panel) : Panel :=
  let p := (((List.range 4).foldl (fun (p : Panel) (h : Nat) => p.detachHub h) p).linkReset false).linkReset true
  { p with bring := { p.bring with running := [], inRom := upTo 4 p.hubUp } }

def Panel.serviceDrydown (p : Panel) : Panel :=
  let ok := p.serving = servServing
  let p := p.fput F.PMC_SERVICE_CONTROL_refused (if ok then 0 else 1)
  if ok then p.startDry .hold else p

def Panel.serviceReturn (p : Panel) : Panel :=
  let ok := p.mirSt = mirPaired
  let p := p.fput F.PMC_SERVICE_CONTROL_refused (if ok then 0 else 1)
  if ok then p.mirPush (.msg (.askReturn p.coord)) else p

def Panel.serviceRestart (p : Panel) : Panel :=
  let n := p.fget F.PMC_SERVICE_CONTROL_restart_stage
  let ok := p.serving = servDried ∧ (n = 1 ∨ n = 3)
  let p := p.fput F.PMC_SERVICE_CONTROL_refused (if ok then 0 else 1)
  if ok then (if n = 1 then (p.restartHubs).beginBringup 1 else p.beginBringup 3) else p

/-- A write of PMC_SERVICE_CONTROL: restart_stage, then the commands written, in the order of their bits (R401). -/
def Panel.serviceControl (p : Panel) (v : W64) : Panel :=
  let p := p.store .PMC_SERVICE_CONTROL false v
  let p := if bit v.toNat F.PMC_SERVICE_CONTROL_drydown.lo then p.serviceDrydown else p
  let p := if bit v.toNat F.PMC_SERVICE_CONTROL_return.lo then p.serviceReturn else p
  if bit v.toNat F.PMC_SERVICE_CONTROL_restart.lo then p.serviceRestart else p

/-- SERVICE_DRYDOWN (R390, R401). -/
def execServiceDrydown (src : Writer) (s : State) : Host.Outcome State Fault Refusal :=
  .next (s.upd fun p => p.asManager src fun p => p.serviceDrydown)

/-- SERVICE_RETURN (R394, R401). -/
def execServiceReturn (src : Writer) (s : State) : Host.Outcome State Fault Refusal :=
  .next (s.upd fun p => p.asWriter src fun p => p.serviceReturn)

/-- SERVICE_RESTART (R396, R401): the write names restart_stage. -/
def execServiceRestart (src : Writer) (v : W64) (s : State) : Host.Outcome State Fault Refusal :=
  .next (s.upd fun p => p.asWriter src fun p => (p.store .PMC_SERVICE_CONTROL false v).serviceRestart)

end Sys2Proof.Machine
end

