-- ==== Sys2Proof/Machine/Flacon.lean ====
section
/-! DEFINITION. The windows of the register space (R495 to R498), the flacon's presets (R345, R347), the candidate rules (R346,
R454) and what the hub ROM derives at boot (R452, R457). -/

namespace Sys2Proof.Machine

/-! ### Windows and blocks (R495 to R497) -/

/-- A window of the register space: a hub, a logical die, a logical stack or a logical core. -/
inductive Win where
  | hub (h : Nat)
  | die (d : Nat)
  | stack (s : Nat)
  | core (c : Nat)
  deriving DecidableEq, Repr

/-- Blocks of a window: offset, size and block. -/
def Win.blocks : Win → List (Nat × Nat × Blk)
  | .hub _ => [(0, 0x10000, .hub), (0x10000, 0x1000, .rqe), (0x11000, 0x1000, .mir), (0x12000, 0x1000, .pwr),
      (0x14000, 0x4000, .sec), (0x20000, 0x20000, .pnw), (0x40000, 0x20000, .pci), (0x60000, 0x10000, .hjf),
      (0x80000, 0x80000, .pmc)]
  | .die _ => [(0, 0x4000, .cd), (0x4000, 0x1000, .pnw), (0x6000, 0x2000, .acc), (0x8000, 0x1000, .clk)]
  | .stack _ => [(0, 0x1000, .mpd), (0x2000, 0x1000, .pnw), (0x4000, 0x2000, .acc), (0x6000, 0x1000, .clk)]
  | .core _ => [(0, 0x1000, .core)]

/-- The block an offset of a window lies in, and the offset in it. -/
def Win.block (w : Win) (off : Nat) : Option (Blk × Nat) :=
  w.blocks.findSome? fun b => if b.1 ≤ off ∧ off < b.1 + b.2.1 then some (b.2.2, off - b.1) else none

/-- The unit under which a window's block keeps its registers. -/
def Win.unitOf (w : Win) (b : Blk) : Nat :=
  match w with
  | .hub h => if b = .pnw then hubNode h else h
  | .die d => d
  | .stack s => if b = .mpd then s else 0x40 + s
  | .core c => c

/-- The hub holds the register (R496, R514). -/
def Reg.inHub (r : Reg) (h : Nat) : Bool :=
  match r.info.place with
  | .every => true
  | .hd03 => h == 0 || h == 3
  | .hd12 => h == 1 || h == 2

/-- The register exists in the window: a router of a die or stack has no panel-wide registers, an MPD one island (R496, R514). -/
def Win.holds (w : Win) (r : Reg) (i : Nat) : Bool :=
  match w with
  | .hub h => r.inHub h
  | .die _ => r.info.place == .every
  | .stack _ => r.info.place == .every && !(decide (0 < i) && (r == .CLK_ISLAND || r == .CLK_MARGIN))
  | .core _ => true

/-- The register at an offset of a window, with its indices. -/
def Win.find (w : Win) (off : Nat) : Option (Reg × Nat × Nat) :=
  match w.block off with
  | none => none
  | some (b, o) =>
    match findReg b o with
    | some (r, i, j) => if w.holds r i then some (r, i, j) else none
    | none => none

/-! ### Presets (R345) -/

def Reg.flaconFields (r : Reg) : List FieldSpec := r.fields.filter fun f => f.src == .flacon

/-- The bits that belong to a field. -/
def Reg.usedMask (r : Reg) : W64 := r.fields.foldl (fun m f => m ||| maskOf f.f.hi f.f.lo) 0

/-- Values that an encoding table marks reserved in a field the flacon loads (R202, R315). -/
def reservedValue (r : Reg) (v : W64) : Bool :=
  match r with
  | .CLK_ISLAND => F.CLK_ISLAND_point.read v == 5 || F.CLK_ISLAND_point.read v == 6
  | .PWR_ZONE_CONTROL => F.PWR_ZONE_CONTROL_max_point.read v == 5 || F.PWR_ZONE_CONTROL_max_point.read v == 6
  | .MPD_HBM_CONFIG => F.MPD_HBM_CONFIG_data_rate.read v == 3
  | _ => false

/-- Flacon limits above their default are replaced by it (R195, R331, R338), a margin pair in the wrong order by both (R340). -/
def limitsFixed (r : Reg) (v : W64) : W64 :=
  let low (f : RField) (d : Nat) (v : W64) : W64 := if d < f.read v then f.write v d else v
  match r with
  | .MPD_TEMP_LIMITS =>
    low F.MPD_TEMP_LIMITS_shutdown_c 105 (low F.MPD_TEMP_LIMITS_throttle_c 95 (low F.MPD_TEMP_LIMITS_refresh_x2_c 85 v))
  | .PWR_THERM_LIMITS =>
    low F.PWR_THERM_LIMITS_trip_c 118 (low F.PWR_THERM_LIMITS_shutdown_c 110 (low F.PWR_THERM_LIMITS_throttle_c 95 v))
  | .PWR_PANEL => low F.PWR_PANEL_cap_w 25000 v
  | .CLK_MARGIN_LIMITS =>
    if F.CLK_MARGIN_LIMITS_alarm.read v < F.CLK_MARGIN_LIMITS_warn.read v then v
    else F.CLK_MARGIN_LIMITS_warn.write (F.CLK_MARGIN_LIMITS_alarm.write v 3) 8
  | _ => v

/-- What a register takes from a preset: its flacon fields; the others take their reset values. -/
def presetValue (r : Reg) (v : W64) : W64 :=
  limitsFixed r (r.flaconFields.foldl (fun w f => putBits w f.f.hi f.f.lo (bits v.toNat f.f.hi f.f.lo)) r.info.reset)

/-- What a register with flacon fields takes without a preset. -/
def defaultValue (x : Flacon) (r : Reg) : W64 :=
  let v := presetValue r 0
  match r with
  | .MPD_TEMP_LIMITS => presetValue r (F.MPD_TEMP_LIMITS_shutdown_c.write
      (F.MPD_TEMP_LIMITS_throttle_c.write (F.MPD_TEMP_LIMITS_refresh_x2_c.write 0 85) 95) 105)
  | .PWR_THERM_LIMITS => presetValue r (F.PWR_THERM_LIMITS_trip_c.write
      (F.PWR_THERM_LIMITS_shutdown_c.write (F.PWR_THERM_LIMITS_throttle_c.write 0 95) 110) 118)
  | .PWR_PANEL => F.PWR_PANEL_cap_w.write v 25000
  | .CLK_MARGIN_LIMITS => F.CLK_MARGIN_LIMITS_warn.write (F.CLK_MARGIN_LIMITS_alarm.write v 3) 8
  | .CD_CMEM_SCRUB => F.CD_CMEM_SCRUB_enable.write v 1
  | .MPD_SCRUB => F.MPD_SCRUB_enable.write v 1
  | .MPD_TPE_CONTROL => F.MPD_TPE_CONTROL_mode.write v (b2n (bit x.config0.toNat 6))
  | _ => v

/-- The window kind a scope speaks of. -/
def scopeWin (scope : Nat) : Option Win :=
  match scope with
  | 1 => some (.die 0)
  | 4 => some (.die 0)
  | 2 => some (.stack 0)
  | 5 => some (.stack 0)
  | 3 => some (.hub 0)
  | _ => none

/-- A preset breaks no rule of R345. A site index beyond the panel's names no site. -/
def presetOk (e : Preset) : Bool :=
  let site := match e.scope.toNat with
    | 4 => decide (e.index.toNat < 72)
    | 5 => decide (e.index.toNat < 36)
    | _ => true
  match scopeWin e.scope.toNat with
  | none => false
  | some w =>
    match w.find e.offset.toNat with
    | none => false
    | some (r, _, _) => site && !r.flaconFields.isEmpty && (e.value &&& ~~~ r.usedMask) == 0 && !reservedValue r e.value

/-- The PANEL_CONFIG section breaks no rule of R345. -/
def configOk (x : Flacon) : Bool :=
  let c := x.config0.toNat
  decide (c < 2 ^ 16) && decide (bits c 15 8 ≤ 4) && decide (x.presets.length ≤ 4096) && x.presets.all presetOk &&
    (List.range 8).all fun r =>
      let b := bits x.config1.toNat (8 * r + 7) (8 * r)
      bits b 6 4 == 0 && (!bit b 7 || decide (bits b 3 0 ≤ 8))

/-- Load the presets of a window: registers with flacon fields take their defaults, then each preset in order. `hits` says which
presets speak of this unit. -/
def Panel.loadWindow (p : Panel) (x : Flacon) (w : Win) (hits : Preset → Bool) : Panel :=
  let regs := w.blocks.flatMap fun b => b.2.2.regs.filter fun r => !r.flaconFields.isEmpty
  let p := regs.foldl (fun p r =>
    (List.range r.info.n1).foldl (fun p i =>
      if w.holds r i && r != .HUB_ID then p.put r (defaultValue x r) (w.unitOf r.info.blk) i else p) p) p
  (x.presets.filter hits).foldl (fun p e =>
    match w.find e.offset.toNat with
    | some (r, i, j) => p.put r (presetValue r e.value) (w.unitOf r.info.blk) i j
    | none => p) p

/-- Presets of HD0 and HD3 (R347, R452 step 6). -/
def Panel.loadHub (p : Panel) (x : Flacon) (h : Nat) : Panel := p.loadWindow x (.hub h) fun e => e.scope == 3

/-- Presets of a logical die at a compute site, and of a logical stack at an MPD site. -/
def Panel.loadDie (p : Panel) (x : Flacon) (d site : Nat) : Panel :=
  p.loadWindow x (.die d) fun e => e.scope == 1 || (e.scope == 4 && e.index.toNat == site)

/-- The data rate of every stack: the flacon lowers it for all of them together, so a preset for one stack alone does not count
(R182). -/
def commonRate (x : Flacon) : Nat :=
  (x.presets.filter fun e => e.scope == 2).foldl (fun r e =>
    match (Win.stack 0).find e.offset.toNat with
    | some (.MPD_HBM_CONFIG, _, _) => F.MPD_HBM_CONFIG_data_rate.read e.value
    | _ => r) 0

def Panel.loadStack (p : Panel) (x : Flacon) (s site : Nat) : Panel :=
  (p.loadWindow x (.stack s) fun e => e.scope == 2 || (e.scope == 5 && e.index.toNat == site)).fput
    F.MPD_HBM_CONFIG_data_rate (commonRate x) s

/-! ### Items of PANEL_CONFIG -/

/-- Counts of row pairs the flacon allows (R345). -/
def flaconAllows (x : Flacon) (k : Nat) : Bool := decide (1 ≤ k) && decide (k ≤ 4) && bit x.config0.toNat (k - 1)

def flaconMaxRestarts (x : Flacon) : Nat := bits x.config0.toNat 15 8

/-- The column the spare-map override names for a row (R345). -/
def flaconOverride (x : Flacon) (row : Nat) : Option Nat :=
  let b := bits x.config1.toNat (8 * row + 7) (8 * row)
  if bit b 7 then some (bits b 3 0) else none

def flaconQuick (x : Flacon) : Bool := bit x.config0.toNat 6

/-! ### Fuses and candidates (R346, R450, R454) -/

def floorVersion (c : Nat) : Nat := c * 0x01000000

/-- A copy is a candidate for a hub (R346, R454). -/
def Panel.candidate (p : Panel) (hub : Nat) (x : Flacon) : Bool :=
  let f := p.fuses hub
  let k := x.ownerKey.toNat
  flaconLayoutOk x && flaconDigestsOk x && x.fwSigOk && decide (f.floorF ≤ x.hubSvn.toNat) && decide (f.floorF ≤ x.coreSvn.toNat) &&
    x.ownerSigOk && decide (k < 4) && f.slotValid k && (f.slot k).1 == x.ownerKeyHash &&
    decide (floorVersion f.floorC ≤ x.version.toNat) && bit x.gradeMask.toNat p.fab.grade && configOk x

/-- Copy b is newer than copy a (R346). -/
def newer (a b : Flacon) : Bool :=
  decide (a.version.toNat < b.version.toNat) || (a.version == b.version && decide (a.sequence.toNat < b.sequence.toNat))

/-! ### Boot (R452, R457, R458) -/

/-- Device ID: the digest of the DeviceID public key (R461). -/
def Panel.deviceId (p : Panel) : BitVec 384 := Config.sha384 (bytesBE 96 (Config.p384Public p.devidSeed).toNat)

/-- Word w of a digest as the SEC registers hold it (DESIGN CHOICE, log 17). -/
def digestWord (d : BitVec 384) (w : Nat) : W64 := BitVec.ofNat 64 (d.toNat / 2 ^ (64 * w))

/-- SEC_DEVICE_ID of a hub. -/
def Panel.showDeviceId (p : Panel) (hub : Nat) : Panel :=
  (List.range 6).foldl (fun (p : Panel) w => p.put .SEC_DEVICE_ID (digestWord p.deviceId w) hub w) p

/-- A hub's ROM starts the firmware of a copy: DICE values, the UDS lock, and HUB_FW in protected SRAM (R452, R457). -/
def Panel.bootHub (p : Panel) (hub : Nat) (x : Flacon) : Panel :=
  let (r, p) := p.drawBits 384
  let p := p.modSec hub fun s => p.deriveKeys hub x { s with bootRandom := r, sramDigest := sectionDigest x 1 }
  { p with
    bring := { p.bring with own := smSet p.bring.own hub x }
    pmc := { p.pmc with bankKey := (smGetD p.sec hub .empty).deviceKey } }

/-! ### The field fault list at stage 1 (R348) -/

/-- The valid bank of higher generation wins, and the other NVM is rewritten from it. -/
def Panel.loadFfl (p : Panel) : Panel :=
  let b := p.ffl
  if !p.bankValid b then p.showFfl
  else
    let same (n : Nvm) : Bool := p.currentBank n == b
    let p := if p.hubUp 0 && !same p.nvmA then { p with nvmA := p.writeBank p.nvmA b.entries b.generation } else p
    let p := if p.hubUp 3 && !same p.nvmB then { p with nvmB := p.writeBank p.nvmB b.entries b.generation } else p
    p.showFfl

end Sys2Proof.Machine
end

