-- ==== Sys2Proof/Machine/Shape.lean ====
section
/-! DEFINITION. Shape selection (R22, R24, R29, R354 to R357): which sites count as failed, which row pairs are eligible, the serving
hub, and the logical identities that follow (R21 to R27, R510, R511). -/

namespace Sys2Proof.Machine

/-- A mask of site indices. -/
def siteMask (l : List Nat) : Nat := sumL (l.eraseDups.map (2 ^ ·))

/-! ### Failed sites (R24, R354) -/

/-- Failed core sites of a cluster. -/
def Panel.coreFails (p : Panel) (site cl : Nat) : List Nat :=
  p.bring.coreFailed.filter fun x => x / 18 == site && x % 18 / 9 == cl

/-- The site has a link that works. -/
def Panel.linked (p : Panel) (e : Nat) : Bool := (List.range 14).any fun q => p.linkOk e q

/-- The site's gates are open, its zone is on and it has a link. -/
def Panel.siteUp (p : Panel) (e : Nat) : Bool :=
  p.zoneState (zoneOfEnd e) == zoneOn && p.bring.gates.contains e && p.linked e

/-- A compute site that counts as failed (R354). -/
def Panel.siteBad (p : Panel) (site : Nat) : Bool :=
  p.bring.computeFailed.contains site || decide (1 < (p.coreFails site 0).length) ||
    decide (1 < (p.coreFails site 1).length) || p.bring.zonesLost.contains (zoneOfEnd site) || !p.linked site

/-- Column of the site not in use of a physical row; none where the row cannot be used (R22). -/
def Panel.rowPick (p : Panel) (x : Flacon) (row : Nat) : Option Nat :=
  match upTo 9 fun c => p.siteBad (endC row c) with
  | [] => some ((flaconOverride x row).getD 4)
  | [c] => some c
  | _ => none

/-! ### Row pairs (R29, R355) -/

/-- The row pair's own nodes: sites in use and memory port dies that have not failed. -/
def Panel.pairNodes (p : Panel) (x : Flacon) (q : Nat) : List Nat :=
  ([2 * q, 2 * q + 1].flatMap fun row =>
    match p.rowPick x row with
    | some u => (upTo 9 (· != u)).map (endC row)
    | none => []) ++ ((upTo 9 fun c => !p.bring.mpdFailed.contains (q * 9 + c)).map (endM q))

/-- Nodes reached from a set over working links, within a set of nodes. -/
def Panel.reach (p : Panel) (nodes : List Nat) : Nat → List Nat → List Nat
  | 0, seen => seen
  | k + 1, seen =>
    let next := nodes.filter fun e =>
      !seen.contains e && (List.range 14).any fun q =>
        p.linkOk e q && match portEnd e q with | some o => seen.contains o | none => false
    if next.isEmpty then seen else p.reach nodes k (seen ++ next)

/-- The row pair meets R29 with the hub as serving hub. -/
def Panel.eligible (p : Panel) (x : Flacon) (hub q : Nat) : Bool :=
  p.fab.fusedPair != some q && !p.bring.dropPairs.contains q &&
    ([0, 1, 2].all fun g => p.zoneState (3 * q + g) == zoneOn && !p.bring.zonesLost.contains (3 * q + g)) &&
    (p.rowPick x (2 * q)).isSome && (p.rowPick x (2 * q + 1)).isSome &&
    (let ns := p.pairNodes x q
     let r := p.reach (ns ++ (upTo 4 p.hubUp).map endH) 40 [endH hub]
     (ns.filter (· < 72)).all fun e => r.contains e)

/-- Largest allowed count of row pairs that does not exceed e; 0 where there is none (R355). -/
def keptCount (x : Flacon) (e : Nat) : Nat :=
  ((List.range 5).filter fun k => flaconAllows x k && decide (k ≤ e)).foldl max 0

/-- Kept row pairs, the serving hub, and the site not in use of each of their rows. -/
structure ShapePick where
  hd3 : Bool
  pairs : List Nat
  unused : List (Nat × Nat)
  deriving DecidableEq, Repr

/-- Failed compute sites of a row pair. -/
def Panel.pairFails (p : Panel) (q : Nat) : Nat :=
  (upTo 9 fun c => p.siteBad (endC (2 * q) c)).length + (upTo 9 fun c => p.siteBad (endC (2 * q + 1) c)).length

/-- A hub qualifies as serving hub: its engine passed stage 2 and it runs the panel's flacon (R356). -/
def Panel.qualifies (p : Panel) (h : Nat) : Bool :=
  p.hubUp h && p.bring.hubsPassed.contains h && p.bring.running.contains h

/-- The shape R355 and R356 select; none is NO_SHAPE. -/
def Panel.selectShape (p : Panel) (x : Flacon) : Option ShapePick :=
  let el (h : Nat) : List Nat := upTo 4 fun q => p.eligible x h q
  let kept (h : Nat) : Nat := keptCount x (el h).length
  let serve : Option Nat :=
    if p.qualifies 0 && (!p.qualifies 3 || decide (kept 3 ≤ kept 0)) then some 0
    else if p.qualifies 3 then some 3 else none
  match serve with
  | none => none
  | some h =>
    if kept h = 0 then none
    else
      let best := sortBy (fun q => p.pairFails q * 4 + q) (el h)
      let pairs := (best.take (kept h)).foldl insertAsc []
      some ⟨h == 3, pairs, pairs.flatMap fun q => [2 * q, 2 * q + 1].filterMap fun row => (p.rowPick x row).map (row, ·)⟩

/-- What R357 asks whether stage 5 changed: each row pair's eligibility with respect to HD0 and HD3, and the site not in use of each
kept row. -/
def Panel.shapeKey (p : Panel) (x : Flacon) : List Bool × List (Option Nat) :=
  ([0, 3].flatMap fun h => (List.range 4).map fun q => p.eligible x h q,
    p.bring.rowPairs.flatMap fun q => [p.rowPick x (2 * q), p.rowPick x (2 * q + 1)])

/-- The selection as it stands. -/
def Panel.heldPick (p : Panel) : ShapePick := ⟨p.bring.servingHd3, p.bring.rowPairs, p.bring.unused⟩

def Panel.setPick (p : Panel) (k : ShapePick) : Panel :=
  { p with bring := { p.bring with servingHd3 := k.hd3, rowPairs := k.pairs, unused := k.unused } }

/-- Kept row pairs as a mask. -/
def Panel.pairMask (p : Panel) : Nat := siteMask p.bring.rowPairs

/-! ### Logical identities (R21 to R27, R510, R511) -/

/-- Registers that belong to dies, stacks and cores. -/
def unitRegs : List Nat :=
  ([Blk.cd, .acc, .clk, .mpd, .core].flatMap fun b => b.regs).map Reg.ctorIdx

/-- Routers' own registers. -/
def routerRegs : List Nat := (pnwRegs.filter fun r => r.info.place == .every).map Reg.ctorIdx

/-- Every register of every logical die, stack and core returns to its reset value. -/
def Panel.clearUnits (p : Panel) : Panel :=
  { p with regs := p.regs.filter fun e =>
      let r := e.1 / 2 ^ 31
      let u := e.1 / 2 ^ 20 % 2048
      !(unitRegs.contains r || (routerRegs.contains r && decide (u < 0x70))) }

/-- Core site of a cluster of a compute site that takes the spare's place: the failed one, else site 8 (R24). -/
def Panel.skipOf (p : Panel) (site cl : Nat) : Nat :=
  match p.coreFails site cl with
  | [x] => x % 9
  | _ => 8

/-- The core site that can be promoted in a cluster, 0xF where none remains: the site held as spare, unless it has failed
(R24, R26). -/
def Panel.spareOf (p : Panel) (d cl : Nat) : Nat :=
  if p.bring.sparesUsed.contains (d * 2 + cl) || !(p.coreFails (p.dieSite d) cl).isEmpty then 15 else 8

/-- The core site held as a cluster's spare, a failed one included, 0xF once the spare is promoted (R24, R26, R511). -/
def Panel.spareHeld (p : Panel) (d cl : Nat) : Nat :=
  if p.bring.sparesUsed.contains (d * 2 + cl) then 15 else p.skipOf (p.dieSite d) cl

/-- CD_ID.spare of both clusters, as it stands. -/
def Panel.showSpares (p : Panel) (d : Nat) : Panel :=
  (p.fput F.CD_ID_spare_c0 (p.spareHeld d 0) d).fput F.CD_ID_spare_c1 (p.spareHeld d 1) d

def Panel.levelsOf (p : Panel) (e : Nat) : BitVec 8 := smGetD p.fab.levels e 1

def Panel.steppingOf (p : Panel) (e : Nat) : BitVec 4 := smGetD p.fab.steppings e 0

/-- CORE_ID of a logical core (R85). -/
def coreIdWord (c : Nat) : W64 :=
  BitVec.ofNat 64 (2 ^ 26 + c % 8 * 2 ^ 23 + c / 8 % 2 * 2 ^ 22 + c / 16 % 64 * 2 ^ 16 + c)

/-- Gates of a site's core sites: those of a list are open, the others closed (R326). -/
def Panel.setCoreGates (p : Panel) (site : Nat) (l : List Nat) : Panel :=
  { p with bring := { p.bring with coreGates := addAll (p.bring.coreGates.filter (· / 18 != site)) (l.map (site * 18 + ·)) } }

/-- A die takes its logical identity: presets, CD_ID, CORE_IDs; its islands in use run at P2, and the gates of its spares close (R316,
R326, R351). -/
def Panel.nameDie (p : Panel) (x : Flacon) (d : Nat) : Panel :=
  let site := p.dieSite d
  let p := p.loadDie x d site
  let p := p.put .CD_ID (BitVec.ofNat 64 ((p.levelsOf site).toNat * 2 ^ 48 + (p.steppingOf site).toNat * 2 ^ 40 + 64 + d)) d
  let p := p.showSpares d
  let cores := (List.range 16).map (d * 16 + ·)
  let p := cores.foldl (fun p c => p.put .CORE_ID (coreIdWord c) c) p
  let p := p.setCoreGates site ((p.usedIslands d).filter (· < 18))
  (p.usedIslands d).foldl (fun p n => (p.fput F.CLK_ISLAND_current 2 d n).fput F.CLK_ISLAND_stopped 0 d n) p

/-- Shape selection completes: the shape registers, the identities of dies and cores, contents undefined (R30, R357, R510). -/
def Panel.applyShape (p : Panel) (x : Flacon) : Panel :=
  let b := p.bring
  let rows := b.rowPairs.flatMap fun q => [2 * q, 2 * q + 1]
  let p := p.clearUnits
  let p := { p with
    cores := [], net := .empty, accords := [], bars := []
    st := { Store.empty with heldTable := p.st.heldTable } }
  let p := (List.range 8).foldl (fun (p : Panel) r =>
    match rows[r]? with
    | some row =>
      let u := (b.unused.lookup row).getD 4
      let cols := (upTo 9 (· != u)).zipIdx
      p.put .HUB_L2P_ROW (BitVec.ofNat 64 (2 ^ 63 + row * 2 ^ 32 + sumL (cols.map fun c => c.1 * 2 ^ (4 * c.2)))) 0 r
    | none => p.put .HUB_L2P_ROW 0 0 r) p
  let p := (List.range 5).foldl (fun (p : Panel) n => p.put .HUB_L2P_STACK 0 0 n) p
  let n := rows.length
  let p := p.fput F.HUB_SHAPE_row_pairs (siteMask b.rowPairs)
  let p := (p.fput F.HUB_SHAPE_logical_rows n).fput F.HUB_SHAPE_logical_cores (n * 128)
  let p := (p.fput F.HUB_SHAPE_working_stacks 0).addHold F.HUB_SHAPE_selections 1
  let p := p.fput F.HUB_SHAPE_valid 1
  let dies := List.range (n * 8)
  let skips := dies.flatMap fun d => [0, 1].map fun cl => (d * 2 + cl, p.skipOf (p.dieSite d) cl)
  let p := { p with bring := { p.bring with
    sparesUsed := [], promoted := [], skipSite := (skips.filter fun e => e.2 != 8).foldl (fun m e => smSet m e.1 e.2) [] } }
  let p := dies.foldl (fun (p : Panel) d => p.nameDie x d) p
  p.markUndef (List.range (n * 16) ++ (List.range (n * 128)).map (256 + ·))

/-- Logical stacks are numbered: MPD_ID, MPD_REV, presets and the map (R27, R202, R510, R511); the activation count at which each
wants refresh management is what it reports at training, a free value (R194). `sites` are the MPD sites of the
stacks that work, in order. -/
def Panel.nameStacks (p : Panel) (x : Flacon) (sites : List Nat) : Panel :=
  let p := (List.range 5).foldl (fun (p : Panel) n =>
    let l := ((sites.drop (8 * n)).take 8).zipIdx
    p.put .HUB_L2P_STACK (BitVec.ofNat 64 (sumL (l.map fun e => 2 ^ (56 + e.2) + e.1 * 2 ^ (6 * e.2)))) 0 n) p
  let p := p.fput F.HUB_SHAPE_working_stacks sites.length
  (sites.zipIdx).foldl (fun (p : Panel) e =>
    let (site, s) := e
    let p := p.loadStack x s site
    let v := 2 ^ 32 + s * 2 ^ 20 + site % 9 * 2 ^ 12 + site / 9 * 2 ^ 10 + (if p.stackGib = 48 then 2 else 1) * 2 ^ 6 + p.stackGib
    let p := p.put .MPD_ID (BitVec.ofNat 64 v) s
    let p := p.put .MPD_REV (BitVec.ofNat 64 ((p.levelsOf (72 + site)).toNat * 2 ^ 48 + (p.steppingOf (72 + site)).toNat * 2 ^ 40)) s
    let p := (p.fput F.CLK_ISLAND_current 2 (0x40 + s) 0).fput F.CLK_ISLAND_stopped 0 (0x40 + s) 0
    let (lim, p) := p.draw 0
    let p := { p with st := { p.st with rfmLimit := smSet p.st.rfmLimit s lim } }
    (p.fput F.MPD_HBM_STATUS_state 3 s).zeroStack s) p

end Sys2Proof.Machine
end

