-- ==== Sys2Proof/Machine/Maceration.lean ====
section
/-! DEFINITION. Maceration (R197 to R199): the test pattern engines' runs, their elements in order, and the numbering of the
stacks that pass (R187, R351). -/

namespace Sys2Proof.Machine

/-- MPD sites whose stacks are tested: those of the kept strips that have not failed and have power. -/
def Panel.stackSites (p : Panel) : List Nat :=
  upTo 36 fun k => p.bring.rowPairs.contains (k / 9) && !p.bring.mpdFailed.contains k && p.siteUp (72 + k)

/-- MPD site a test pattern engine command speaks of: that of a numbered stack; before stacks are numbered, the k-th site tested,
which takes number k when every stack passes (R27; DESIGN CHOICE, log 49). -/
def Panel.tpeSite (p : Panel) (stack : Nat) : Option Nat :=
  if p.nStacks = 0 then p.stackSites[stack]? else if p.hasStack stack then some (p.stackSite stack) else none

/-- Elements of a run, in the order of R197. -/
def tpeElements (quick : Bool) : List Nat := if quick then [1, 2, 5, 7] else [1, 2, 3, 4, 5, 6, 7]

/-- The element that follows. -/
def tpeNext (quick : Bool) (e : Nat) : Option Nat := (tpeElements quick).find? (e < ·)

/-- A run shows in the registers of its memory port die (R202): TRAINING in element 1, then TESTING. -/
def Panel.showRun (p : Panel) (stack : Nat) (r : TpeRun) : Panel :=
  let p := (p.fput F.MPD_TPE_RESULT_last_element r.element stack).fput F.MPD_TPE_RESULT_result r.result stack
  let p := (p.fput F.MPD_TPE_RESULT_rows_repaired r.rows stack).fput F.MPD_TPE_RESULT_repair_left_min r.left stack
  let st := if r.result = 3 then (if r.element ≤ 1 then 1 else 2) else if r.result = 1 then 3 else 4
  p.fput F.MPD_HBM_STATUS_state st stack

def Panel.setRun (p : Panel) (stack site : Nat) (r : TpeRun) : Panel :=
  ({ p with bring := { p.bring with runs := smSet p.bring.runs site r } }).showRun stack r

/-- A run from its first element, the HBM rail at its nominal level. -/
def TpeRun.start (quick : Bool) : TpeRun := ⟨1, quick, 3, 0, 0, 1000⟩

/-- The run goes on: element 6 sets the HBM rail 3 % below its nominal level, then 3 % above (R197, R325); none behind the last
element. -/
def TpeRun.next (r : TpeRun) : Option TpeRun :=
  if r.element = 6 ∧ r.level = 970 then some { r with level := 1030 }
  else (tpeNext r.quick r.element).map fun e => { r with element := e, level := if e = 6 then 970 else 1000 }

/-- The run through the elements up to one, in at most n moves. -/
def TpeRun.through (last : Nat) : Nat → TpeRun → TpeRun
  | 0, r => r
  | n + 1, r =>
    match r.next with
    | some x => if last < x.element then r else TpeRun.through last n x
    | none => r

/-- A run has ended: its result, and the HBM rail at its nominal level again. -/
def TpeRun.ended (r : TpeRun) (pass : Bool) (last rows left : Nat) : TpeRun :=
  { TpeRun.through last 9 r with result := if pass then 1 else 2, rows := rows, left := left, level := 1000 }

/-- The engine of the site is running. -/
def Panel.tpeRunning (p : Panel) (site : Nat) : Bool := (smGet p.bring.runs site).any fun r => r.result == 3

/-- Bring-up runs: a stage before service opens. -/
def Panel.inBringup (p : Panel) : Bool := decide (p.fget F.PMC_STAGE_stage ≤ 9)

/-- A write of MPD_TPE_CONTROL: start is accepted from the PMC during bring-up only, for a die that has power, its HBM rail included
(R197, R202). A run in progress is not started again. -/
def Panel.tpeControl (p : Panel) (stack : Nat) (v : W64) (src : Writer) : Panel :=
  let p := p.fput F.MPD_TPE_CONTROL_mode (F.MPD_TPE_CONTROL_mode.read v) stack
  match p.tpeSite stack with
  | none => p
  | some site =>
    if bit v.toNat 0 && src == .pmc && p.inBringup && p.siteUp (72 + site) && p.railsUp (zoneOfEnd (72 + site)) == 4 &&
        !p.tpeRunning site then
      p.setRun stack site (.start (p.flag F.MPD_TPE_CONTROL_mode stack))
    else p

/-- TPE_START (R197). -/
def execTpeStart (stack : Nat) (v : W64) (src : Writer) (s : State) : Host.Outcome State Fault Refusal :=
  .next (s.upd fun p =>
    if decide (stack < 36) && (p.tpeSite stack).isSome then p.asWriter src fun p => p.tpeControl stack v src else p)

/-- TPE_RUN_DONE (R198, R199): the run's result. A pass leaves the whole stack zero with clean check bits, every element done; a
failed run fails the stack. -/
def execTpeRunDone (stack : Nat) (pass : Bool) (lastElement : BitVec 8) (rows : BitVec 16) (repairLeft : BitVec 8)
    (s : State) : Host.Outcome State Fault Refusal :=
  .next (s.upd fun p =>
    match p.tpeSite stack with
    | none => p
    | some site =>
      match smGet p.bring.runs site with
      | none => p
      | some r =>
        if r.result ≠ 3 then p
        else if pass then (p.setRun stack site (r.ended true 7 rows.toNat repairLeft.toNat)).zeroStack stack
        else
          let p := p.setRun stack site { r.ended false 7 rows.toNat repairLeft.toNat with element := lastElement.toNat }
          { p with bring := { p.bring with stackFailed := insertAsc p.bring.stackFailed site } })

/-- A running engine goes on to its next element (R197); in the last one it waits for the run's end. -/
def Panel.tpeAdvance (p : Panel) (stack : Nat) : Panel :=
  match p.tpeSite stack with
  | none => p
  | some site =>
    match smGet p.bring.runs site with
    | none => p
    | some r =>
      if r.result ≠ 3 then p
      else match r.next with
        | some x => p.setRun stack site x
        | none => p

/-- Maceration begins: the engine of every stack not yet tested runs in the mode macer_quick gives (R197, R351, R360). -/
def Panel.startRuns (p : Panel) (x : Flacon) : Panel :=
  if p.stage ≠ 6 then p
  else (p.stackSites.zipIdx).foldl (fun (p : Panel) e =>
    if p.bring.stacksTested.contains e.1 || (smGet p.bring.runs e.1).isSome then p else p.setRun e.2 e.1 (.start (flaconQuick x))) p

/-- The stage's own run of a stack's engine goes on through the elements to its end; repairs and what is left of them are free values,
and so is the element that failed (R198). -/
def Panel.stageRun (p : Panel) (quick : Bool) (site : Nat) (bad : Bool) : Panel :=
  let (n, p) := p.draw 65536
  let (l, p) := p.draw 256
  let (e, p) := p.draw 7
  let r := smGetD p.bring.runs site (.start quick)
  { p with bring := { p.bring with runs := smSet p.bring.runs site (r.ended (!bad) (if bad then e + 1 else 7) n l) } }

/-- Every stack whose run no command has ended gets one, with what the stage found. -/
def Panel.stageRuns (p : Panel) (quick : Bool) (sites failed : List Nat) : Panel :=
  sites.foldl (fun (p : Panel) site =>
    match smGet p.bring.runs site with
    | some r => if r.result = 3 then p.stageRun quick site (failed.contains site) else p
    | none => p.stageRun quick site (failed.contains site)) p

/-- The runs' results show at the stacks that are numbered. -/
def Panel.showRuns (p : Panel) (sites : List Nat) : Panel :=
  (sites.zipIdx).foldl (fun (p : Panel) e =>
    match smGet p.bring.runs e.1 with
    | some r => p.showRun e.2 r
    | none => p) p

/-- Stacks that passed are numbered and zeroed, and the held or default region table is applied (R187, R197). -/
def Panel.applyStacks (p : Panel) (x : Flacon) (sites : List Nat) : Panel :=
  (((p.nameStacks x sites).showRuns sites).applyHeld)

end Sys2Proof.Machine
end

