-- ==== Sys2Proof/Machine/Bringup.lean ====
section
/-! DEFINITION. Bring-up (R351 to R366): the ten stages, their bound, automatic restarts, retries, and the field fault list's
removal of an entry. A stage command carries what the stage's tests found. -/

namespace Sys2Proof.Machine

/-- A stage acts while it is in progress, on a panel that has power and is not held in reset. -/
def Panel.inStage (p : Panel) (n : Nat) : Bool := p.stage == n && p.pwr.in44 && !p.pwr.resetHeld && !p.pwr.convStopped

def whenStage (n : Nat) (s : State) (f : Panel → Panel) : Host.Outcome State Fault Refusal :=
  .next (s.upd fun p => if p.inStage n then f p else p)

/-! ### Stages 0 to 3 -/

/-- Edge rails rise in order (R325, R327, R335). -/
def Panel.edgeRailsUp (p : Panel) : Panel := (p.edgeZonePower 12).edgeZonePower 13

/-- STAGE_0 (R351, R486). -/
def execStage0 (s : State) : Host.Outcome State Fault Refusal :=
  whenStage 0 s fun p =>
    let p := p.edgeRailsUp
    if !p.pwr.railW && !p.pwr.railE then p else p.passStage 0 (!(p.pwr.railW && p.pwr.railE)) []

/-- The flacon in force shows in the identification registers (R363, R368). -/
def Panel.showFlacon (p : Panel) : Panel :=
  match p.bring.flacon with
  | some x =>
    let p := p.fput F.PMC_FLACON_STATUS_version x.version.toNat
    let p := p.fput F.PMC_FLACON_STATUS_behaviour_level x.level.toNat
    (p.fput F.PMC_FLACON_STATUS_copy (b2n p.bring.copyB)).put .PMC_FLACON_SEQ x.sequence
  | none => p

/-- Status of a copy: not read, candidate, not a candidate (R363). -/
def copyCode (read ok : Bool) : Nat := if !read then 0 else if ok then 1 else 2

/-- Security state of a hub that restarts from ROM: the UDS lock holds, the keys of the last boot are gone, debug scopes close (R452,
R464). -/
def Panel.secRestart (p : Panel) (hub : Nat) : Panel :=
  let l := (smGetD p.sec hub .empty).udsLocked
  let p := { p with sec := smSet p.sec hub { Sec.empty with udsLocked := l } }
  ((p.closeDebug hub).showDeviceId hub).drawNonce hub

/-- Stage 1 words of a copy choice (R363). -/
def flaconWords (ca cb : Nat) (used : Bool) (x : Option Flacon) : List Nat :=
  match x with
  | some x => [x.version.toNat * 2 ^ 32 + b2n used * 16 + cb * 4 + ca, x.sequence.toNat]
  | none => [cb * 4 + ca, 0]

/-- A hub reads its NVM: what was found there is known from then on. -/
def Panel.readNvm (p : Panel) (hub : Nat) (found : List (Nat × Byte)) : Panel := p.setNvm hub ((p.nvmOf hub).withFound found)

/-- STAGE_1 (R346, R347, R353, R452): each of HD0 and HD3 reads its own NVM; `a0` and `b0` are the bytes that stood there before the
panel was first powered. `selfOk` names the hubs whose ROM finds its own digest right. It waits for a detach that the restart began
(R427). -/
def execStage1 (a0 b0 : List (Nat × Byte)) (selfOk : List Nat) (s : State) : Host.Outcome State Fault Refusal :=
  whenStage 1 s fun p =>
    if (List.range 4).any p.detachWaits then p
    else
      let a := p.readCopy 0 a0
      let b := p.readCopy 3 b0
      let readA := p.hubUp 0 && selfOk.contains 0
      let readB := p.hubUp 3 && selfOk.contains 3
      let okA := readA && p.candidate 0 a
      let okB := readB && p.candidate 3 b
      let p := if readA then p.readNvm 0 a0 else p
      let p := if readB then p.readNvm 3 b0 else p
      let p := (List.range 4).foldl (fun (p : Panel) h => p.endDomain h) p
      let p := (p.secRestart 0).secRestart 3
      let p := if readA && !okA then p.reportHubEdge 0 0x0801 clsInfo else p
      let p := if readB && !okB then p.reportHubEdge 3 0x0801 clsInfo else p
      let ca := copyCode readA okA
      let cb := copyCode readB okB
      let p := (p.fput F.PMC_FLACON_STATUS_copy_a ca).fput F.PMC_FLACON_STATUS_copy_b cb
      let run := (if okA then [0, 1] else []) ++ (if okB then [2, 3] else [])
      let x := if okA then some a else if okB then some b else none
      let p := { p with
        bring := { p.bring with
          running := run.filter p.hubUp, inRom := upTo 4 fun h => p.hubUp h && !run.contains h
          read := (if okA then [(0, a)] else []) ++ (if okB then [(3, b)] else []), own := []
          flacon := x, copyB := !okA && okB, hubsPassed := [], sitesTested := [] }
        pmc := { p.pmc with primaryHd3 := !okA && (okB || !p.hubUp 0), restarting := [] } }
      let words := flaconWords ca cb p.bring.copyB x
      match x with
      | none => p.failStage 1 detNoFlacon words
      | some x =>
        let p := p.loadHub x (if okA then 0 else 3)
        let p := if okA then p.bootHub 0 a else p
        let p := if okB then p.bootHub 3 b else p
        ((p.loadFfl).showFlacon).passStage 1 false words

/-- A bit blown in one fuse set and blank in the other is blown in the other; two different hashes in a slot revoke it (R451). -/
def FuseSet.merge (f g : FuseSet) : FuseSet :=
  { rootHash := f.rootHash ||| g.rootHash
    owners := (List.range 4).map fun k =>
      let a := f.slot k
      let b := g.slot k
      (a.1 ||| b.1, a.2 || b.2 || (a.1 != 0 && b.1 != 0 && a.1 != b.1))
    floorC := max f.floorC g.floorC
    floorF := max f.floorF g.floorF
    certOtp := (List.range (max f.certOtp.length g.certOtp.length)).map fun i => f.certOtp.getD i 0 ||| g.certOtp.getD i 0 }

/-- Each hub compares its fuse set with the other's (R451). -/
def Panel.repairFuses (p : Panel) : Panel :=
  if p.hubUp 0 && p.hubUp 3 then
    let m := FuseSet.merge p.fab.fuses0 p.fab.fuses3
    let p := if m = p.fab.fuses0 then p else p.reportHubEdge 0 0x0802 clsInfo
    let p := if m = p.fab.fuses3 then p else p.reportHubEdge 3 0x0802 clsInfo
    { p with fab := { p.fab with fuses0 := m, fuses3 := m } }
  else p

/-- STAGE_2 (R351, R451, R458). -/
def execStage2 (i : Stage2In) (s : State) : Host.Outcome State Fault Refusal :=
  whenStage 2 s fun p =>
    let passed := upTo 4 fun h => p.hubUp h && i.hubsPassed.contains h
    let failed := upTo 4 fun h => p.hubUp h && !i.hubsPassed.contains h
    let p := p.repairFuses
    let p := [0, 3].foldl (fun (p : Panel) h =>
      p.fput F.SEC_STATUS_entropy_ok (b2n (p.hubUp h && !(smGetD p.sec h .empty).entropyFailed)) h) p
    let p := { p with bring := { p.bring with hubsPassed := passed } }
    let words := [siteMask passed + siteMask failed * 16]
    if [0, 3].any fun h => passed.contains h && p.bring.running.contains h then p.passStage 2 (!failed.isEmpty) words
    else p.failStage 2 detHubSelftest words

/-- Failed links that the field fault list names (R350). -/
def Panel.fflLinks (p : Panel) : List (Nat × Nat) :=
  (p.ffl.entries.filter fun e => e.kind == 4).map fun e => linkName e.site.toNat e.sub.toNat

/-- The copy that HD0 or HD3 read at stage 1, where the hub still takes it as a candidate. -/
def Panel.offered (p : Panel) (hub : Nat) : Option Flacon := (smGet p.bring.read hub).filter fun x => p.hubUp hub && p.candidate hub x

/-- The panel's flacon is the newer candidate of those read at stage 1; an edge zone not running it receives it, verifies it, restarts
and repeats stage 2, which `retested` names the passing hubs of (R347, R353, R362). -/
def Panel.converge (p : Panel) (retested : List Nat) : Panel :=
  let pick : Option (Bool × Flacon) := match p.offered 0, p.offered 3 with
    | some x, some y => some (if newer x y then (true, y) else (false, x))
    | some x, none => some (false, x)
    | none, y => y.map (true, ·)
  match pick with
  | none => p
  | some (useB, x) =>
    let take (h : Nat) : Bool := p.hubUp h && p.candidate h x
    let had (h : Nat) : Bool := p.bring.running.contains h && smGet p.bring.own h == some x
    let again := [0, 3].filter fun h => take h && !had h
    let run := (if take 0 then [0, 1] else []) ++ (if take 3 then [2, 3] else [])
    let p := { p with bring := { p.bring with
      flacon := some x, copyB := useB, running := run.filter p.hubUp
      inRom := upTo 4 fun h => p.hubUp h && !run.contains h, converged := !again.isEmpty } }
    let p := again.foldl (fun (p : Panel) h => p.bootHub h x) p
    if again.isEmpty then p.showFlacon
    else
      let back := again.flatMap fun h => if h = 0 then [0, 1] else [2, 3]
      let passed := upTo 4 fun h => if back.contains h then p.hubUp h && retested.contains h else p.bring.hubsPassed.contains h
      let failed := upTo 4 fun h => p.hubUp h && !passed.contains h
      let p := { p with bring := { p.bring with
        hubsPassed := passed, attempts := smSet p.bring.attempts 2 (smGetD p.bring.attempts 2 0 + 1) } }
      let p := p.stageRecord 2 (if failed.isEmpty then resPass else resDegraded) 0 [siteMask passed + siteMask failed * 16]
      (p.loadHub x (if take 0 then 0 else 3)).showFlacon

/-- The mesh does not join the edge zones: one of them proceeds, ZW if HD0 runs a candidate; the other stays in ROM, or in
management service on its own copy (R353). -/
def Panel.oneZone (p : Panel) : Panel :=
  let west := p.bring.running.contains 0
  let run := p.bring.running.filter fun h => decide (h < 2) == west
  let x := smGet p.bring.own (if west then 0 else 3)
  let p := { p with bring := { p.bring with
    running := run
    flacon := x.orElse fun _ => p.bring.flacon, copyB := !west } }
  p.showFlacon

/-- STAGE_3 words (R363). -/
def Panel.words3 (p : Panel) : List Nat :=
  let m := siteMask (upTo 72 p.siteUp)
  [m % 2 ^ 64, m / 2 ^ 64, siteMask (upTo 36 fun k => p.siteUp (72 + k)),
    b2n p.bring.converged * 2 ^ 32 + p.bring.linksFailed.length % 2 ^ 16 * 2 ^ 16 + sumL (p.bring.lanes.map (·.2)) % 2 ^ 16]

/-- Lanes that training repaired, under the name of their link. -/
def laneMap (l : List (Nat × Nat × Nat)) : SMap Nat :=
  l.foldl (fun m e => let k := linkName e.1 e.2.1; smSet m (k.1 * 16 + k.2) (smGetD m (k.1 * 16 + k.2) 0 + e.2.2)) []

/-- STAGE_3 (R351, R353): rails rise and gates open, links train, bring-up routes are set and the flacon converges. The islands of
every site whose gates are open run at P2 from here to stage 8; a die's CLK registers show it once the die has a logical number.
With the mesh in two, only one edge zone proceeds. -/
def execStage3 (i : Stage3In) (s : State) : Host.Outcome State Fault Refusal :=
  whenStage 3 s fun p =>
    let p := p.powerZones
    let links := (i.linksFailed.map (fun l => linkName l.1 l.2) ++ p.fflLinks).eraseDups
    let p := { p with bring := { p.bring with
      linksFailed := links, failed4 := .empty, failed5 := .empty, failed7 := .empty, stackFailed := [], stacksTested := []
      sitesTested := [], runs := [], lanes := laneMap i.lanesRepaired
      rowPairs := [], unused := [] } }
    let p := if i.meshJoins then p.converge i.retested else p.oneZone
    let p := { p with pmc := { p.pmc with primaryHd3 := !p.bring.running.contains 0 } }
    let p := p.installRoutes
    let words := p.words3
    if (upTo 72 p.siteUp).isEmpty then p.failStage 3 detNoMesh words
    else p.passStage 3 (decide ((upTo 72 p.siteUp).length < 72) || decide ((upTo 36 fun k => p.siteUp (72 + k)).length < 36) ||
      !links.isEmpty) words

/-! ### Stages 4 to 6 -/

/-- Sites of a kind that the field fault list names; a core site as site × 18 + core site. -/
def Panel.fflSites (p : Panel) (kind : BitVec 8) : List Nat :=
  (p.ffl.entries.filter fun e => e.kind == kind).map fun e =>
    if kind = 2 then e.site.toNat * 18 + e.sub.toNat else e.site.toNat

/-- Powered dies that do not provide the pinned level, as link end indices (R9, R509). -/
def Panel.offenders (p : Panel) (x : Flacon) : List Nat :=
  let lacks (e : Nat) : Bool := !(decide (1 ≤ x.level.toNat) && bit (p.levelsOf e).toNat (x.level.toNat - 1))
  (upTo 108 fun e => p.zoneState (zoneOfEnd e) == zoneOn && lacks e) ++
    (upTo 4 fun h => p.hubUp h && lacks (120 + h)).map (120 + ·)

/-- Site not in use of each physical row, 4 bits per row, 0xF for rows not kept (R363). -/
def Panel.unusedWord (p : Panel) : Nat :=
  sumL ((List.range 8).map fun r => ((p.bring.unused.lookup r).getD 15) * 2 ^ (4 * r))

/-- STAGE_4 words, with the kept row pairs (R363). -/
def Panel.words4 (p : Panel) (off : List Nat) : List Nat :=
  let m := siteMask (upTo 72 p.siteBad)
  let o := siteMask (off.filter (· < 72))
  let om := siteMask ((off.filter fun e => decide (72 ≤ e) && decide (e < 120)).map (· - 72))
  let oh := siteMask ((off.filter (120 ≤ ·)).map (· - 120))
  [m % 2 ^ 64, p.bring.rowPairs.length * 2 * 2 ^ 12 + p.pairMask * 2 ^ 8 + m / 2 ^ 64,
    o % 2 ^ 64, oh * 2 ^ 44 + om * 2 ^ 8 + o / 2 ^ 64, p.unusedWord, p.bring.coreFailed.length % 2 ^ 16]

/-! ### Restarts (R360) -/

/-- An automatic restart from stage 4, or RESTART_LIMIT where it would exceed max_restarts. -/
def Panel.restart4 (p : Panel) : Panel :=
  let lim := match p.bring.flacon with | some x => flaconMaxRestarts x | none => 0
  if lim ≤ p.fget F.PMC_STAGE_restarts then p.failStage 4 detRestartLimit (p.words4 [])
  else
    let p := p.fput F.PMC_STAGE_restarts (p.fget F.PMC_STAGE_restarts + 1)
    (p.computeReset).enterStage 4

/-! ### Stage 4 -/

/-- The restart that led here is automatic: it keeps what sites with closed gates showed, and powers nothing again (R357, R360,
R366). -/
def Panel.isRestart (p : Panel) : Bool := decide (0 < p.fget F.PMC_STAGE_restarts)

/-- What stage 4 found, over what earlier passes of this bring-up found at sites whose gates are closed (R350, R357). -/
def Panel.findings4 (p : Panel) (i : Stage4In) : FailSet :=
  let old := p.bring.failed4
  let shut (e : Nat) : Bool := !p.bring.gates.contains e
  let keep (l : List Nat) (f : Nat → Nat) : List Nat := if p.isRestart then l.filter fun e => shut (f e) else []
  ⟨addAll (keep old.compute id) (i.computeFailed ++ p.fflSites 1), addAll (keep old.core (· / 18)) (i.coreFailed ++ p.fflSites 2),
    addAll (keep old.mpd (72 + ·)) (i.mpdFailed ++ p.fflSites 3)⟩

/-- The gates of row pairs that are not eligible close (R326, R351). -/
def Panel.closePairs (p : Panel) (x : Flacon) : Panel :=
  let pairs := upTo 4 fun q => p.eligible x (if p.bring.servingHd3 then 3 else 0) q
  p.keepGates fun e => pairs.contains (if e < 72 then e / 18 else (e - 72) / 9)

/-- STAGE_4 (R350, R351, R354 to R356). -/
def execStage4 (i : Stage4In) (s : State) : Host.Outcome State Fault Refusal :=
  whenStage 4 s fun p =>
    let p := { p with bring := { p.bring with failed4 := p.findings4 i, rowPairs := [], unused := [] } }
    match p.bring.flacon with
    | none => p
    | some x =>
      let off := p.offenders x
      if !off.isEmpty then p.failStage 4 detLevel (p.words4 off)
      else
        match p.selectShape x with
        | none => p.failStage 4 detNoShape (p.words4 [])
        | some k =>
          let p := (p.setPick k).closePairs x
          let bad := (List.range 72).any p.siteBad || !p.bring.coreFailed.isEmpty || !p.bring.mpdFailed.isEmpty
          p.passStage 4 bad (p.words4 [])

/-- Result of a stage that tests what no earlier pass has: REUSED where all its results are carried over (R360, R362). -/
def testResult (new : List Nat) (degraded : Bool) : Nat :=
  if new.isEmpty then resReused else if degraded then resDegraded else resPass

/-- Compute sites in use of the shape. -/
def Panel.sitesInUse (p : Panel) : List Nat := (List.range p.nDies).map p.dieSite

/-- The zones of row pairs not kept go down, and the gates of sites not in use close; those of sites in use are open (R326, R357). -/
def Panel.dropZones (p : Panel) : Panel :=
  let p := (upTo 12 fun z => !p.bring.rowPairs.contains (z / 3)).foldl (fun (p : Panel) z => p.zoneRailsDown z) p
  let used := p.sitesInUse
  let open' := upTo 108 fun e =>
    if e < 72 then used.contains e else p.bring.gates.contains e && p.bring.rowPairs.contains ((e - 72) / 9)
  { p.keepGates open'.contains with bring := { (p.keepGates open'.contains).bring with gates := open' } }

/-- Sites that stage 5 tests: those of eligible row pairs that passed stage 4, as link end indices (R351). -/
def Panel.sramSites (p : Panel) (x : Flacon) : List Nat :=
  let pairs := upTo 4 fun q => p.eligible x (if p.bring.servingHd3 then 3 else 0) q
  (upTo 72 fun e => pairs.contains (e / 18) && !p.siteBad e && p.bring.gates.contains e) ++
    (upTo 36 fun k => pairs.contains (k / 9) && !p.bring.mpdFailed.contains k && p.siteUp (72 + k)).map (72 + ·)

/-- STAGE_5 (R351, R357, R360): where a kept row's site not in use or an eligibility changed, the selection is made again; it completes,
every die of the shape takes its identity and its bring-up routes, and stage 6 begins. A restart keeps the results of sites already
tested. -/
def execStage5 (i : Stage5In) (s : State) : Host.Outcome State Fault Refusal :=
  whenStage 5 s fun p =>
    match p.bring.flacon with
    | none => p
    | some x =>
      let new := (p.sramSites x).filter fun e => !p.bring.sitesTested.contains e
      let sites := (i.computeFailed ++ i.clusterFailed.map (· / 2)).filter new.contains
      let cores := i.coreFailed.filter fun k => new.contains (k / 18)
      let mpds := i.mpdFailed.filter fun k => new.contains (72 + k)
      let was := upTo 72 p.siteBad
      let key := p.shapeKey x
      let p := { p with bring := { p.bring with
        sitesTested := addAll p.bring.sitesTested new
        failed5 := ⟨addAll p.bring.failed5.compute sites, addAll p.bring.failed5.core cores,
          addAll p.bring.failed5.mpd mpds⟩ } }
      let lost := upTo 72 fun e => p.siteBad e && !was.contains e
      let m := siteMask lost
      match if p.shapeKey x = key then some p.heldPick else p.selectShape x with
      | none => p.failStage 5 detNoShape [m % 2 ^ 64, m / 2 ^ 64, i.rowsRepaired % 2 ^ 32]
      | some k =>
        let p := (((p.setPick k).applyShape x).dropZones).installRoutes
        (p.endStage 5 (testResult new (!lost.isEmpty || !cores.isEmpty || !mpds.isEmpty))
          [m % 2 ^ 64, p.pairMask * 2 ^ 8 + m / 2 ^ 64, i.rowsRepaired % 2 ^ 32]).startRuns x

/-- STAGE_6 words (R363). -/
def Panel.words6 (p : Panel) (x : Flacon) (rows : Nat) : List Nat :=
  let sites := p.stackSites
  let good := sites.filter fun k => !p.bring.stackFailed.contains k
  [siteMask good, siteMask (sites.filter fun k => p.bring.stackFailed.contains k),
    b2n (flaconQuick x) * 2 ^ 32 + rows % 2 ^ 16 * 2 ^ 16 + good.length]

/-- STAGE_6 (R187, R197, R351, R360): a restart tests only stacks not yet tested; the others keep their results. -/
def execStage6 (i : Stage6In) (s : State) : Host.Outcome State Fault Refusal :=
  whenStage 6 s fun p =>
    match p.bring.flacon with
    | none => p
    | some x =>
      let sites := p.stackSites
      let new := sites.filter fun k => !p.bring.stacksTested.contains k
      let p := (p.hbmRailsUp).stageRuns (flaconQuick x) new i.stackFailed
      let failed := new.filter fun k => (smGet p.bring.runs k).any fun r => r.result == 2
      let p := { p with bring := { p.bring with
        stackFailed := addAll p.bring.stackFailed failed, stacksTested := addAll p.bring.stacksTested sites } }
      let words := p.words6 x i.rowsRepaired
      let good := sites.filter fun k => !p.bring.stackFailed.contains k
      if good.isEmpty then p.failStage 6 detNoStack words
      else ((p.applyStacks x good).installRoutes).endStage 6 (testResult new (decide (good.length < sites.length))) words

/-! ### Stage 7 (R26, R358, R360) -/

/-- The spare of a logical core's cluster takes its number (R26): the gate of the site it replaces closes and its island stops, and the
spare's gate opens and its island starts, at P2 until stage 8 (R312, R326, R351). -/
def Panel.promote (p : Panel) (c : Nat) : Panel :=
  let d := c / 16
  let base := c / 8 % 2 * 9
  let site := p.dieSite d
  let old := p.coreSite c
  let p := p.stopIsland d (base + old)
  let p := { p with bring := { p.bring with
    promoted := smSet p.bring.promoted c 8, sparesUsed := insertAsc p.bring.sparesUsed (c / 8)
    coreGates := insertAsc (p.bring.coreGates.filter (· != site * 18 + base + old)) (site * 18 + base + 8) } }
  let p := p.showSpares d
  if p.stage < 8 then (p.fput F.CLK_ISLAND_current 2 d (base + 8)).fput F.CLK_ISLAND_stopped 0 d (base + 8)
  else p.takePoint d (base + 8)

/-- The atomizer broadcasts core firmware (R344) to the cores of a mask on the dies of a mask, by multicasts of unit kind 0b10, of
512 B each (R226, R358). -/
def Panel.atomize (p : Panel) (x : Flacon) (dies cores : Nat) : Panel :=
  let bs := x.coreFw.flatMap fun w => toBytes 8 w.toNat
  let w2 := mcWord 0 0 none 2 cores
  ((payloads (bs.length / 512 + 1) bs).zipIdx).foldl (fun p e =>
    (p.multicast (mcPacket p.primaryHub 24 0x01 w2 dies (512 * e.2) e.1)).1) p

/-- A core runs its check: it starts at the check entry with clear_state, leaves the digest of the instructions it holds at
scratchpad offset 0, posts t0 and halts, at an index the spec does not state (R358). -/
def Panel.checkedCore (p : Panel) (x : Flacon) (c : Nat) : Panel :=
  let p := p.startCore c x.checkEntry.toNat true
  let held := (List.range x.coreFw.length).map fun k => smGetD p.st.imem (c * 32768 + k) 0
  let d := digestBE (Config.sha384 (held.flatMap fun w => toBytes 8 w.toNat))
  let p := p.writeTagged (scratchPa c 0) (d.map (·, false))
  let p := p.fput F.CORE_TOKEN_value 1 c 0
  let (pc, p) := p.draw 32768
  let p := p.modCore c fun k => { k with q := { k.q with pc := pc } }
  (p.fput F.CORE_STATUS_running 0 c).fput F.CORE_STATUS_halted 1 c

/-- The atomizer has loaded every core and each has checked its firmware. -/
def Panel.loadCores (p : Panel) (x : Flacon) : Panel :=
  (List.range p.nCores).foldl (fun (p : Panel) c => p.checkedCore x c)
    (p.atomize x (rectMask 0 (p.nDies / 8 - 1) 0 7) 0xFFFF)

/-- The digest that a core's check left is that of the firmware section's instructions (R358 step 4). -/
def Panel.checkOk (p : Panel) (x : Flacon) (c : Nat) : Bool :=
  (p.readTagged (scratchPa c 0) 48).1.map (·.1) == digestBE (Config.sha384 (x.coreFw.flatMap fun w => toBytes 8 w.toNat))

/-- A core that failed its check: its site is failed, and the cluster's spare takes its number where there is one, is loaded, and is
checked in turn (R358). Beside the panel stand the sites of dies that cannot be mended, and how many spares were promoted. -/
def Panel.mendCore (p : Panel) (x : Flacon) (i : Stage7In) (c : Nat) (dead : List Nat) (n : Nat) : Panel × List Nat × Nat :=
  let site := p.dieSite (c / 16)
  let base := c / 8 % 2 * 9
  let spare := p.spareOf (c / 16) (c / 8 % 2)
  let p := p.addFailed [] [site * 18 + base + p.coreSite c]
  if spare = 15 then (p, insertAsc dead site, n)
  else
    let p := ((p.promote c).atomize x (2 ^ (c / 16)) (2 ^ (c % 16))).checkedCore x c
    if i.replacementFailed.contains c || !p.checkOk x c then (p.addFailed [] [site * 18 + base + spare], insertAsc dead site, n + 1)
    else (p, dead, n + 1)

/-- STAGE_7 (R358, R360): a core fails whose digest does not match the firmware's; `mismatched` names those that fail for a fault of
their own, or do not halt in 100 ms. -/
def execStage7 (i : Stage7In) (s : State) : Host.Outcome State Fault Refusal :=
  whenStage 7 s fun p =>
    match p.bring.flacon with
    | none => p
    | some x =>
      let p := p.loadCores x
      let bad := upTo p.nCores fun c => i.mismatched.contains c || !p.checkOk x c
      let n := p.nCores
      let (p, dead, k) := bad.foldl (fun (acc : Panel × List Nat × Nat) c => acc.1.mendCore x i c acc.2.1 acc.2.2) (p, [], 0)
      let words := [n + bad.length * 2 ^ 16 + k * 2 ^ 32]
      if dead.isEmpty then p.passStage 7 (!bad.isEmpty) words
      else
        let p := p.addFailed dead []
        (p.stageRecord 7 resDegraded 0 words).restart4

/-! ### Stage 8 (R359) -/

/-- Accord units, multicast groups and barrier channels are cleared (R351). -/
def Panel.clearServices (p : Panel) : Panel :=
  let regs := ([Reg.PNW_MC_ENTRY, .PNW_MC_DEF, .PNW_MC_UNIT, .HUB_BAR_DIES, .HUB_BAR_CORES, .HUB_BAR_EXT, .HUB_BAR_STATUS] ++
    accRegs).map Reg.ctorIdx
  { p with regs := p.regs.filter fun e => !regs.contains (e.1 / 2 ^ 31), accords := [], bars := [] }

/-- Islands in use, as (node, island). -/
def Panel.islandsInUse (p : Panel) : List (Nat × Nat) :=
  ((List.range p.nDies) ++ (List.range p.nStacks).map (0x40 + ·)).flatMap fun n => (p.usedIslands n).map (n, ·)

/-- Every island in use runs at its plan point under its zone's ceiling (R318, R359). -/
def Panel.raiseIslands (p : Panel) : Panel := p.islandsInUse.foldl (fun (p : Panel) (e : Nat × Nat) => p.takePoint e.1 e.2) p

/-- An island's margin at its planned point: at or below alarm it is lowered one step, and held, and its baseline is the margin at
the lowered point, a free value; else it is the baseline (R323, R324, R359). -/
def Panel.baseline (p : Panel) (node n code : Nat) : Panel :=
  if code ≤ (p.marginLimits node).2 then
    let p := p.fput F.CLK_ISLAND_point (min 4 (p.fget F.CLK_ISLAND_point node n + 1)) node n
    let p := (p.fput F.CLK_ISLAND_alarm_hold 1 node n).takePoint node n
    let (m, p) := p.draw 64
    p.fput F.CLK_MARGIN_baseline m node n
  else p.fput F.CLK_MARGIN_baseline code node n

/-- Calibrated clocks, droop thresholds, service routes, cleared services and an armed error manager (R351, R359). -/
def Panel.calibrated (p : Panel) : Panel :=
  let p := { p with pwr := { p.pwr with droopMv := match p.bring.flacon with | some x => x.droop | none => [] } }
  let p := ((p.raiseIslands).clearServices).installRoutes
  { p with pmc := { p.pmc with armed := true } }

/-- STAGE_8 words over the islands calibrated (R363). -/
def Panel.words8 (p : Panel) (l : List (Nat × Nat)) : List Nat :=
  let held := l.filter fun m => p.flag F.CLK_ISLAND_alarm_hold m.1 m.2
  [held.length * 2 ^ 8 + l.foldl (fun a m => min a (p.fget F.CLK_MARGIN_baseline m.1 m.2)) 63]

/-- STAGE_8 (R323, R351, R359). -/
def execStage8 (i : Stage8In) (s : State) : Host.Outcome State Fault Refusal :=
  whenStage 8 s fun p =>
    if i.cannotHold then p.failStage 8 detCalibration (p.words8 p.islandsInUse)
    else
      let p := p.calibrated
      let l := i.margins.filter fun m => p.hasIsland m.1 m.2.1
      let p := l.foldl (fun (p : Panel) m => p.baseline m.1 m.2.1 m.2.2) p
      let isl := l.map fun m => (m.1, m.2.1)
      p.passStage 8 false (p.words8 isl)

/-! ### Stage 9 (R361, R466, R467) -/

def gsAdmitted : Nat := 3
def gsRefused : Nat := 4
def gsFenced : Nat := 5

/-- Byte ranges of an entry's enabled windows. -/
def GuestEntry.ranges (e : GuestEntry) : List (Nat × Nat) :=
  (e.windows.filter fun w => F.SEC_GUEST_WIN_BASE_enable.read w.1 == 1).filterMap fun w =>
    let lo := F.SEC_GUEST_WIN_BASE_base.read w.1 * 4096
    let hi := (F.SEC_GUEST_WIN_LIMIT_limit.read w.2 + 1) * 4096
    if lo < hi then some (lo, hi) else none

/-- Two lists of ranges overlap. -/
def rangesOverlap (a b : List (Nat × Nat)) : Bool := a.any fun x => b.any fun y => decide (x.1 < y.2) && decide (y.1 < x.2)

/-- A guest's signature over the challenge followed by its measurement verifies with its key (R467). -/
def GuestIdent.signed (w : GuestIdent) (challenge : BitVec 384) : Bool :=
  Config.ecdsaVerify w.key (digestBE challenge ++ digestBE w.measurement) w.sig

/-- The entry accepts the guest's key: its hash, or any where the entry's is zero (R467). -/
def GuestEntry.takesKey (e : GuestEntry) (w : GuestIdent) : Bool :=
  e.keyHash == 0 || e.keyHash == Config.sha384 (bytesBE 96 w.key.toNat)

/-- Why a guest is not admitted, 0 where it is (R361, R467, R474). -/
def guestRefusal (x : Flacon) (g : Nat) (challenge : BitVec 384) (who : Option GuestIdent) : Nat :=
  match who with
  | none => 6
  | some w =>
    if !w.linkUp then 6
    else
      match x.guests[g]? with
      | none => 1
      | some e =>
        if !e.admitted then 1
        else if e.vendor ≠ w.vendor ∨ e.product ≠ w.product then 2
        else if e.measurement ≠ w.measurement then 3
        else if !GuestEntry.takesKey e w || !GuestIdent.signed w challenge then 4
        else if rangesOverlap (GuestEntry.ranges e) [(regBase, regBase + 0x10000000)] ||
            (x.guests.take g).any fun o => rangesOverlap (GuestEntry.ranges e) (GuestEntry.ranges o) then 5
        else 0

/-- An admitted guest's windows and limits load into its registers; its bucket starts full (R467, R469; DESIGN CHOICE, log 34). -/
def Panel.guestOn (p : Panel) (g : Nat) (e : GuestEntry) (w : GuestIdent) : Panel :=
  let h := guestHub g
  let i := g % 2
  let p := (p.clearGuestRegs g).setGuest g { GuestSite.off with powered := true, entry := some e, measurement := w.measurement, bucket := 65536 }
  let p := (p.fput F.SEC_GUEST_STATUS_state gsAdmitted h i).fput F.SEC_GUEST_STATUS_width (if w.width16 then 2 else 1) h i
  let p := (p.fput F.SEC_GUEST_LIMITS_post_hi e.postHi.toNat h i).fput F.SEC_GUEST_LIMITS_post_lo e.postLo.toNat h i
  let p := p.fput F.SEC_GUEST_LIMITS_post_enable (b2n e.postEnable) h i
  let p := p.fput F.SEC_GUEST_LIMITS_rate_gbs e.rateGbs.toNat h i
  ((e.windows.take 16).zipIdx).foldl (fun (p : Panel) v =>
    (p.put .SEC_GUEST_WIN_BASE (v.1.1 &&& Reg.usedMask .SEC_GUEST_WIN_BASE) h i v.2).put .SEC_GUEST_WIN_LIMIT
      (v.1.2 &&& Reg.usedMask .SEC_GUEST_WIN_LIMIT) h i v.2) p

/-- Guest admission at one site (R3, R361, R467): a guest that answers is sent a challenge from the entropy source, a free value. A site where no guest answers and whose entry admits none has nobody to
take in: it is off, with no record (DEDUCED, log 21). -/
def Panel.admitGuest (p : Panel) (x : Flacon) (who : Option GuestIdent) (g : Nat) : Panel :=
  let empty := who.isNone && !((x.guests[g]?).any fun e => e.admitted)
  if p.fab.grade ≠ 0 ∨ !p.hubUp (guestHub g) ∨ !p.bring.running.contains (guestHub g) ∨ empty then p.guestOff g gsOff 0
  else
    let (c, p) := p.drawBits 384
    let p := if who.any (·.linkUp) then p.emit (.guestChallenge g c) else p
    let r := guestRefusal x g c who
    match r, x.guests[g]?, who with
    | 0, some e, some w => p.guestOn g e w
    | _, _, _ =>
      let p := p.guestOff g gsRefused r
      p.sendReport (guestHub g) 0x0806 clsInfo lvEdge 8 (BitVec.ofNat 8 g) 0 (some r) none

/-- The forwarding domain of a hub opens, and its ports that train come up, once the coordinate is set (R405, R407, R426, R428). -/
def Panel.openDomain (p : Panel) (h : Nat) (ports : List (Nat × BitVec 12 × PortEnd)) : Panel :=
  let p := p.fput F.HJF_CONTROL_domain_state domForwarding h
  if !p.flag F.HJF_COORD_valid then p
  else
    (ports.filter fun e => e.1 / 4 == h).foldl (fun (p : Panel) e =>
      if p.portState h (e.1 % 4) = portUp then p else p.trainPort h (e.1 % 4) e.2.1 e.2.2) p

def clearHandling (e : Nat × ErrMgr) : Nat × ErrMgr := (e.1, { e.2 with handling := none })

/-- Service opens: PANEL_STAGE SERVICE, PANEL_STATE SERVING (R352, R395), and a new service epoch (R277). -/
def Panel.openService (p : Panel) : Panel :=
  let p := { p with
    pmc := { p.pmc with dry := none, des := [] }
    bring := { p.bring with dropPairs := [] }
    errs := p.errs.map clearHandling
    ing := { p.ing with recs := [] } }
  let p := (p.nextEpoch p.primaryHub).bothEngines F.RQE_STEP_committed 0
  (p.setStage stageService).setServing servServing

/-- The hub answers SPDM (R459, R464). -/
def Panel.attests (p : Panel) (hub : Nat) : Bool :=
  let s := smGetD p.sec hub .empty
  s.aliasHeld && !s.entropyFailed && !s.erased

/-- STAGE_9 (R351, R361, R384, R467). The mirror engine injects once service is open (R426). -/
def execStage9 (i : Stage9In) (s : State) : Host.Outcome State Fault Refusal :=
  whenStage 9 s fun p =>
    match p.bring.flacon with
    | none => p
    | some x =>
      let p := p.bring.running.foldl (fun (p : Panel) h => p.openDomain h i.ports) p
      let pairs := p.flag F.MIR_CONFIG_enable
      let p := if pairs then p.setMirSt mirPairing else p
      let p := (List.range 4).foldl (fun (p : Panel) g => p.admitGuest x (i.guests.find? (·.site == g)) g) p
      let ups := upTo 16 fun q => p.portState (q / 4) (q % 4) == portUp
      let adm := upTo 4 fun g => p.fget F.SEC_GUEST_STATUS_state (guestHub g) (g % 2) == gsAdmitted
      let paired := pairs && p.pairError i.peer == 0
      let w := b2n (p.attests p.primaryHub) * 2 ^ 24 + siteMask adm * 2 ^ 20 + b2n paired * 2 ^ 16 + siteMask ups
      let p := (p.stageRecord 9 resPass 0 [w]).openService
      if pairs then p.tryPair i.peer else p

/-! ### Bounds, retries and the field fault list -/

/-- Words 2 to 7 of a stage that ends before its work is done: what the panel holds of the stage by then (R363). -/
def Panel.wordsNow (p : Panel) (n : Nat) : List Nat :=
  match n with
  | 1 => flaconWords (p.fget F.PMC_FLACON_STATUS_copy_a) (p.fget F.PMC_FLACON_STATUS_copy_b) p.bring.copyB p.bring.flacon
  | 2 => [siteMask p.bring.hubsPassed]
  | 3 => p.words3
  | 4 => p.words4 []
  | 5 => [siteMask p.bring.failed5.compute % 2 ^ 64, p.pairMask * 2 ^ 8 + siteMask p.bring.failed5.compute / 2 ^ 64]
  | 6 => match p.bring.flacon with
    | some x => p.words6 x (sumL (p.bring.runs.map fun e => e.2.rows))
    | none => []
  | 8 => p.words8 p.islandsInUse
  | _ => []

/-- STAGE_BOUND_EXPIRE (R351): the stage in progress fails. -/
def execStageBoundExpire (s : State) : Host.Outcome State Fault Refusal :=
  .next (s.upd fun p => if p.stage ≤ 9 ∧ p.inStage p.stage then p.failStage p.stage detBound (p.wordsNow p.stage) else p)

/-- A stage's earlier record, as REUSED (R362, R365). -/
def Panel.reuseStage (p : Panel) (n : Nat) : Panel :=
  let ws := (List.range 6).map fun w => (p.get .PMC_REPORT 0 n (w + 2)).toNat
  p.stageRecord n resReused 0 ws

/-- The spares' places as stage 7 left them hold again (R365). -/
def Panel.restoreSpares (p : Panel) (x : Flacon) (b : Bringup) : Panel :=
  let p := { p with bring := { p.bring with sparesUsed := b.sparesUsed, promoted := b.promoted, skipSite := b.skipSite } }
  (List.range p.nDies).foldl (fun (p : Panel) d => p.nameDie x d) p

/-- Points, holds and baselines as stage 8 left them hold again (R365). -/
def Panel.restoreClocks (p old : Panel) : Panel :=
  p.islandsInUse.foldl (fun (p : Panel) e =>
    let p := p.fput F.CLK_ISLAND_point (old.fget F.CLK_ISLAND_point e.1 e.2) e.1 e.2
    let p := p.fput F.CLK_ISLAND_alarm_hold (old.fget F.CLK_ISLAND_alarm_hold e.1 e.2) e.1 e.2
    (p.fput F.CLK_MARGIN_baseline (old.fget F.CLK_MARGIN_baseline e.1 e.2) e.1 e.2).takePoint e.1 e.2) p

/-- What stages 3 to n − 1 found is applied again (R365): rails, shape and spares, stacks after elements 1 and 7, firmware, clocks. -/
def Panel.reapply (p : Panel) (n : Nat) : Panel :=
  let old := p
  let p := if 4 ≤ n then p.powerZones else p
  match p.bring.flacon with
  | none => p
  | some x =>
    let p := if 5 ≤ n then p.closePairs x else p
    let p := if 6 ≤ n then ((p.applyShape x).dropZones).installRoutes else p
    let p := if 8 ≤ n then p.restoreSpares x old.bring else p
    let p := if 7 ≤ n then
        ((p.hbmRailsUp).applyStacks x (p.stackSites.filter fun k => !p.bring.stackFailed.contains k)).installRoutes
      else p
    let p := if 8 ≤ n then p.loadCores x else p
    if 9 ≤ n then (p.calibrated).restoreClocks old else p

/-- A retry from stage n (R365): what stage n and the later ones found is dropped. -/
def Panel.retryFrom (p : Panel) (n : Nat) : Panel :=
  let p := (p.fput F.PMC_BRINGUP_CONTROL_refused 0).fput F.PMC_STAGE_restarts 0
  let b := { p.bring with pmcRetried := false }
  let b := if n ≤ 4 then { b with failed4 := .empty } else b
  let b := if n ≤ 5 then { b with failed5 := .empty, sitesTested := [] } else b
  let b := if n ≤ 6 then { b with stackFailed := [], stacksTested := [], runs := [] } else b
  let b := if n ≤ 7 then { b with failed7 := .empty } else b
  let p := { p with bring := b }
  let p := if n = 1 then p.restartHubs else p
  let p := (((List.range n).filter (3 ≤ ·)).foldl (fun (p : Panel) k => p.reuseStage k) p).reapply n
  match p.bring.flacon with
  | some x => (p.enterStage n).startRuns x
  | none => p.enterStage n

/-- The retry may be made: in SAFE, from a stage not later than the failed one; with every hub in ROM, from stage 1 (R364, R365). -/
def Panel.mayRetry (p : Panel) (n : Nat) : Bool :=
  p.stage == stageSafe && decide (1 ≤ n) && decide (n ≤ 9) && decide (n ≤ max 1 (p.fget F.PMC_STAGE_failed_stage)) &&
    (!p.bring.running.isEmpty || n == 1)

/-- Remove a field fault list entry (R350, R364): in SAFE, by firmware that runs, and with a key for the new bank. -/
def Panel.fflRemove (p : Panel) (k : Nat) : Panel :=
  let l := p.ffl.entries
  if p.stage = stageSafe ∧ !p.bring.running.isEmpty ∧ k < l.length ∧ !p.keysErased p.primaryHub then
    (p.fput F.PMC_BRINGUP_CONTROL_refused 0).writeFfl (l.eraseIdx k)
  else p.fput F.PMC_BRINGUP_CONTROL_refused 1

/-- A write of PMC_BRINGUP_CONTROL (R364, R365, R368). -/
def Panel.bringupControl (p : Panel) (v : W64) : Panel :=
  let p := p.store .PMC_BRINGUP_CONTROL false v
  let p := if bit v.toNat F.PMC_BRINGUP_CONTROL_ffl_clear.lo then p.fflRemove (F.PMC_BRINGUP_CONTROL_ffl_entry.read v) else p
  if bit v.toNat F.PMC_BRINGUP_CONTROL_retry.lo then
    let n := F.PMC_BRINGUP_CONTROL_retry_from.read v
    if p.mayRetry n then p.retryFrom n else p.fput F.PMC_BRINGUP_CONTROL_refused 1
  else p

/-- BRINGUP_RETRY (R365): a write of PMC_BRINGUP_CONTROL with retry set. -/
def execBringupRetry (src : Writer) (v : W64) (s : State) : Host.Outcome State Fault Refusal :=
  .next (s.upd fun p => p.asManager src fun p => p.bringupControl (v ||| maskOf 16 16))

/-- FFL_CLEAR (R350): a write of PMC_BRINGUP_CONTROL with ffl_clear set. -/
def execFflClear (src : Writer) (v : W64) (s : State) : Host.Outcome State Fault Refusal :=
  .next (s.upd fun p => p.asManager src fun p => p.bringupControl (v ||| maskOf 17 17))

end Sys2Proof.Machine
end

