-- ==== Sys2Proof/Machine/Power.lean ====
section
/-! DEFINITION. Power at the panel's boundary (R485 to R489): the 44 V input, brown-outs, over-voltage, removal, and PANEL_RESET_N. -/

namespace Sys2Proof.Machine

/-- Neighbours see the links of every port that is up go down (R429, R487, R488). -/
def Panel.linksDown (p : Panel) : Panel :=
  (List.range 16).foldl (fun (p : Panel) q =>
    if p.flag F.HJF_PORT_STATUS_link_up (q / 4) (q % 4) then p.emit (.linkDown q) else p) p

/-- Every rail goes down. What is left is what is fused or held in NVM, and what has been seen of the panel; the latches of
eFuses, of over-voltage and of a trip stay until 44 V is removed (R13, R327, R336, R485). -/
def Panel.railsLost (p : Panel) : Panel :=
  let p := p.linksDown
  { Panel.reset with
    fab := p.fab, nvmA := p.nvmA, nvmB := p.nvmB, out := p.out, freeCtr := p.freeCtr
    pwr := { Power.off with efuse := p.pwr.efuse, overVolt := p.pwr.overVolt, trip := p.pwr.trip, resetHeld := p.pwr.resetHeld }
    portA := { Port.empty with cold := p.portA.cold }, portB := { Port.empty with cold := p.portB.cold } }

/-- POWER_APPLIED (R486): converters start, unless latched off, and bring-up begins at stage 0. -/
def execPowerApplied (s : State) : Host.Outcome State Fault Refusal :=
  .next (s.upd fun p =>
    if p.pwr.in44 then p
    else
      let p := { p with pwr := { p.pwr with in44 := true, convStopped := p.pwr.overVolt } }
      if p.pwr.convStopped || p.pwr.resetHeld then p else p.beginBringup 0)

/-- INPUT_UNDER_VOLTAGE (R485): every converter stops. -/
def execInputUnderVoltage (s : State) : Host.Outcome State Fault Refusal :=
  .next (s.upd fun p => if p.pwr.in44 then p.railsLost else p)

/-- INPUT_OVER_VOLTAGE (R485): every converter stops and is latched off. -/
def execInputOverVoltage (s : State) : Host.Outcome State Fault Refusal :=
  .next (s.upd fun p =>
    if p.pwr.in44 then
      let p := p.railsLost
      { p with pwr := { p.pwr with in44 := true, convStopped := true, overVolt := true } }
    else p)

/-- POWER_REMOVED (R327, R335, R336, R485): the latches clear. -/
def execPowerRemoved (s : State) : Host.Outcome State Fault Refusal :=
  .next (s.upd fun p =>
    let p := p.railsLost
    { p with pwr := { p.pwr with efuse := [], overVolt := false, trip := false } })

/-- BROWN_OUT_SUSTAINED (R485): INPUT_LOW is logged and dry-down starts, which waits where no primary PMC exists (R377). -/
def execBrownOutSustained (s : State) : Host.Outcome State Fault Refusal :=
  .next (s.upd fun p =>
    if p.pwr.in44 && !p.pwr.convStopped && !p.pwr.brownOut then
      let p := { p with pwr := { p.pwr with brownOut := true } }
      (p.logPanel 0x0407 clsPF).startDry .safe
    else p)

/-- BROWN_OUT_RAILS_OFF (R364, R485): dry-down has ended, or 100 ms have passed; SAFE with failed_stage 3. -/
def execBrownOutRailsOff (s : State) : Host.Outcome State Fault Refusal :=
  .next (s.upd fun p =>
    if p.pwr.brownOut then
      let p := if p.serving = servDrying && p.hasPrimary then p.dryFail else p
      let p := { p with pwr := { p.pwr with brownOut := false } }
      p.goSafe 3
    else p)

/-- Counts as they stand, to show again when the next bring-up begins: every register reads its reset value while PANEL_RESET_N
is asserted (R13), and these last as long as 44 V (R335, R362, R464, R510; log 18). -/
def Panel.counts (p : Panel) : Kept :=
  { selections := p.pwr.kept.selections + p.fget F.HUB_SHAPE_selections
    trips := p.pwr.kept.trips + p.fget F.PMC_WATCHDOG_trips
    debugEver := [0, 3].map fun h => p.fget F.SEC_STATUS_debug_ever h ||| p.pwr.kept.debugEver.getD (h / 3) 0
    heatOffs := (List.range 14).map fun z => p.fget F.PWR_ZONE_STATUS_thermal_offs 0 z + p.pwr.kept.heatOffs.getD z 0
    zonesDue := true }

/-- The hubs are reset and the compute and HBM rails go down; the edge rails stay up (R487). A zone that is hot stays so, and the
held region table and the margins' counts last as long as 44 V (R187, R335, R398). Every register reads its reset value (R13). -/
def Panel.hubsReset (p : Panel) : Panel :=
  let q := p.railsLost
  let q := { q with st := { q.st with heldTable := p.st.heldTable }, pmc := { q.pmc with deCounts := p.pmc.deCounts, ceCounts := p.pmc.ceCounts } }
  { q with pwr := { q.pwr with in44 := p.pwr.in44, convStopped := p.pwr.convStopped, railW := p.pwr.railW, railE := p.pwr.railE
                               rails := p.pwr.rails.filter (12 ≤ ·.1), temps := p.pwr.temps, hot := p.pwr.hot
                               bringups := p.pwr.bringups, kept := p.counts, resetHeld := true } }

/-- PANEL_RESET_ASSERT (R487, R489): a pulse shorter than 0.5 µs, or one under a panel trip, is ignored. -/
def execPanelResetAssert (widthNs : Nat) (s : State) : Host.Outcome State Fault Refusal :=
  .next (s.upd fun p => if widthNs < 500 ∨ p.pwr.trip then p else p.hubsReset)

/-- PANEL_RESET_DEASSERT (R487): stage 0 runs again. -/
def execPanelResetDeassert (s : State) : Host.Outcome State Fault Refusal :=
  .next (s.upd fun p =>
    if p.pwr.resetHeld then
      let p := { p with pwr := { p.pwr with resetHeld := false } }
      if p.pwr.in44 && !p.pwr.convStopped then p.beginBringup 0 else p
    else p)

end Sys2Proof.Machine
end

