-- ==== Sys2Proof/Machine/System.lean ====
section
/-! DEFINITION. The system class (R69): core CSRs, software traps, return from a trap, halting, and the delivery of an
asynchronous cause (R77). -/

namespace Sys2Proof.Machine

/-- The core register that a CSR number names (R85, R498). -/
def csrReg (n : Nat) : Option (Reg × Nat) := if n < 512 then (findReg .core (8 * n)).map fun x => (x.1, x.2.1) else none

/-- CSRR (R69): a = rd, b unused. -/
def execCsrr (c : Nat) (f : CsrForm) (s : State) : Host.Outcome State Fault Refusal :=
  .next (s.upd fun p => p.issue c .waits (f.b != 0 || f.rsvd != 0) fun p k =>
    if k.unready f.a then .stall
    else
      match csrReg f.csr.toNat with
      | none => trapFree trapCsr
      | some (r, i) => let (v, p) := p.coreRead c r i; .done (p.setS c f.a v))

/-- CSRW, CSRS and CSRC (R39, R69): the value written is a function of the register and of ra. -/
def Panel.csrOp (p : Panel) (c : Nat) (f : CsrForm) (value : W64 → W64 → W64) : Panel :=
  p.issue c .waits (f.a != 0 || f.rsvd != 0) fun p k =>
    if k.unready f.b then .stall
    else
      match csrReg f.csr.toNat with
      | none => trapFree trapCsr
      | some (r, i) =>
        let (old, p) := p.coreRead c r i
        let v := value old (k.sreg f.b)
        if r.info.fwOnly && !p.fwMode c then trapFree trapCsr
        else if (old ^^^ v) &&& r.roMask != 0 then trapFree trapCsr
        else .done (p.coreWrite c r i v)

/-- CSRW (R69). -/
def execCsrw (c : Nat) (f : CsrForm) (s : State) : Host.Outcome State Fault Refusal :=
  .next (s.upd fun p => p.csrOp c f fun _ a => a)

/-- CSRS (R69). -/
def execCsrs (c : Nat) (f : CsrForm) (s : State) : Host.Outcome State Fault Refusal :=
  .next (s.upd fun p => p.csrOp c f fun r a => r ||| a)

/-- CSRC (R69). -/
def execCsrc (c : Nat) (f : CsrForm) (s : State) : Host.Outcome State Fault Refusal :=
  .next (s.upd fun p => p.csrOp c f fun r a => r &&& ~~~ a)

/-- TRAP (R69, R79): SOFTWARE with the code. -/
def execTrap (c : Nat) (f : TrapForm) (s : State) : Host.Outcome State Fault Refusal :=
  .next (s.upd fun p => p.issue c .waits (f.rsvd != 0) fun _ _ =>
    trapWith trapSoftware (f.code.setWidth 64))

/-- RETT (R39, R69): firmware only. -/
def execRett (c : Nat) (rsvd : BitVec 56) (s : State) : Host.Outcome State Fault Refusal :=
  .next (s.upd fun p => p.issue c .waits (rsvd != 0) fun p _ => if p.fwMode c then .rett else illegal)

/-- HALT (R39, R69): firmware only; issue stops, and the core halts once its engines drain. -/
def execHalt (c : Nat) (rsvd : BitVec 56) (s : State) : Host.Outcome State Fault Refusal :=
  .next (s.upd fun p => p.issue c .waits (rsvd != 0) fun p _ => if p.fwMode c then .block .halting else illegal)

/-- The detail of an asynchronous cause at its delivery; TOKEN_OVERFLOW names the lowest counter whose overflow bit is set
(R57). -/
def Panel.asyncDetail (p : Panel) (c cause : Nat) : W64 :=
  if cause = asyncOverflow then
    BitVec.ofNat 64 (((List.range 32).find? (bit (p.fget F.CORE_TOKEN_STATUS_overflow c))).getD 0)
  else smGetD (p.core c).asyncInfo cause 0

/-- ASYNC_TRAP_DELIVERY (R77): in program mode, before the next instruction issues, the lowest pending cause is taken. An
instruction that issue is blocked on has not issued, and its index is saved (log 7). -/
def execAsyncTrapDelivery (c : Nat) (s : State) : Host.Outcome State Fault Refusal :=
  .next (s.upd fun p =>
    let k := p.core c
    if p.asyncDue c && p.running c && k.spec.isNone && k.blocked != some .halting then
      match (List.range 32).find? (bit (p.fget F.CORE_TRAP_PENDING_pending c)) with
      | none => p
      | some cause =>
        let info := p.asyncDetail c cause
        let p := p.fput F.CORE_TRAP_PENDING_pending (p.fget F.CORE_TRAP_PENDING_pending c - 2 ^ cause) c
        let p := p.modCore c fun k => { k with asyncInfo := smDel k.asyncInfo cause }
        p.enterTrap c k.q.pc cause true info
    else p)

end Sys2Proof.Machine
end

