-- ==== Sys2Proof/Machine/Faults.lean ====
section
/-! DEFINITION. The error manager (R372 to R377), containment (R374, R375, R380 to R382), recording in service (R397), predictive
margins (R398) and the PMC watchdog. -/

namespace Sys2Proof.Machine

/-! ### Units (R371, R375) -/

/-- Zone of a report's location. -/
def reportZoneOf (r : Report) : Option Nat :=
  match r.kind.toNat with
  | 1 => some (zoneOfEnd r.site.toNat)
  | 2 => some (zoneOfEnd r.site.toNat)
  | 3 => some (zoneOfEnd (72 + r.site.toNat))
  | 4 => some (zoneOfEnd r.site.toNat)
  | 6 => some r.site.toNat
  | _ => none

/-- Compute site and cluster of a location that lies in one. -/
def reportClusterOf (r : Report) : Option (Nat × Nat) :=
  match r.kind.toNat with
  | 1 => if r.level = lvCluster then some (r.site.toNat, r.sub.toNat) else none
  | 2 => some (r.site.toNat, r.sub.toNat / 9)
  | _ => none

/-- Row pair of a compute zone; an edge zone lies in none, and stands for itself. -/
def pairOf (z : Nat) : Nat := if z < 12 then z / 3 else z

/-- The unit of the first report, at a level, contains or is the unit of the second at its own level. Hubs, engines and guests lie
outside the compute hierarchy (R371). -/
def unitHolds (level : BitVec 3) (a b : Report) : Bool :=
  if level = lvEdge ∨ b.level = lvEdge then level == lvEdge && b.level == lvEdge && a.kind == b.kind && a.site == b.site
  else if level = lvPanel then true
  else if level.toNat < b.level.toNat then false
  else if level = lvRowPair then (reportZoneOf a).isSome && (reportZoneOf a).map pairOf == (reportZoneOf b).map pairOf
  else if level = lvZone then (reportZoneOf a).isSome && reportZoneOf a == reportZoneOf b
  else if level = lvDie then
    if a.kind = 1 ∨ a.kind = 2 then (b.kind == 1 || b.kind == 2) && a.site == b.site
    else a.kind == b.kind && a.site == b.site && a.sub == b.sub
  else if level = lvCluster then (reportClusterOf a).isSome && reportClusterOf a == reportClusterOf b
  else a.kind == b.kind && a.site == b.site && a.sub == b.sub

/-- A report names the spare of the cluster whose core is in handling (R375). -/
def Panel.namesSpare (p : Panel) (h : Handling) (r : Report) : Bool :=
  h.level == lvCore && r.level == lvCore && h.r.kind == 2 && r.kind == 2 && h.r.site == r.site &&
    h.r.sub.toNat / 9 == r.sub.toNat / 9 && r.sub.toNat % 9 == 8 && (p.coreFails r.site.toNat (r.sub.toNat / 9)).length ≤ 1

/-- The report's unit is the unit in handling, lies inside it or contains it. -/
def Panel.related (p : Panel) (h : Handling) (r : Report) : Bool :=
  unitHolds h.level h.r r || unitHolds r.level r h.r || p.namesSpare h r

/-- UC, UF or PF. -/
def reportStarts (r : Report) : Bool := decide (3 ≤ r.cls.toNat) && decide (r.cls.toNat ≤ 5)

/-- Logical die at a compute site. -/
def Panel.dieAt (p : Panel) (site : Nat) : Option Nat := (List.range p.nDies).find? fun d => p.hasDie d && p.dieSite d == site

/-- Logical core at a core site of a compute site. -/
def Panel.coreAt (p : Panel) (site sub : Nat) : Option Nat :=
  match p.dieAt site with
  | some d => ((List.range 8).map fun i => d * 16 + sub / 9 * 8 + i).find? fun c => p.coreSite c == sub % 9
  | none => none

/-! ### The managers -/

def Panel.mgr (p : Panel) (hub : Nat) : ErrMgr := smGetD p.errs hub ⟨[], none⟩

def Panel.modMgr (p : Panel) (hub : Nat) (f : ErrMgr → ErrMgr) : Panel :=
  { p with errs := smSet p.errs hub (f (p.mgr hub)) }

def Panel.setHandling (p : Panel) (hub : Nat) (h : Option Handling) : Panel := p.modMgr hub fun m => { m with handling := h }

/-- A handling that waits for a retried step is over once the step's results are accepted (R374). -/
def Panel.settle (p : Panel) (hub : Nat) : Panel :=
  match (p.mgr hub).handling with
  | some h =>
    match h.phase with
    | .retry n =>
      let waits : Bool := match p.activeHub with
        | some a => (match (p.eng a).step with | some s => s.n == n && s.phase != .accepted | none => false)
        | none => false
      if waits then p else p.setHandling hub none
    | _ => p
  | none => p

/-- The phase of an action whose units serve again: it waits for the retried step, if one runs. -/
def Panel.retryPhase (p : Panel) : Option HPhase :=
  match p.activeHub with
  | some a => (p.eng a).step.bind fun s => if s.phase = .accepted then none else some (.retry s.n)
  | none => none

def Panel.endAction (p : Panel) (hub : Nat) (h : Handling) : Panel :=
  p.setHandling hub (p.retryPhase.map fun ph => { h with phase := ph })

/-- The step in progress is retried (R272, R380). -/
def Panel.askRetry (p : Panel) : Panel :=
  match p.activeHub with
  | some a => p.retryStep a
  | none => p

/-! ### Actions at DIE level and above (R380, R397) -/

/-- A compute site, memory port die or link fails. -/
def Panel.failUnit (p : Panel) (r : Report) : Panel :=
  let b := p.bring
  let k := r.kind.toNat
  if k = 1 ∨ k = 2 then p.addFailed [r.site.toNat] []
  else if k = 3 then
    let b := { b with stackFailed := insertAsc b.stackFailed r.site.toNat }
    let g := b.failed7
    { p with bring := if r.event = 0x0203 then b else { b with failed7 := { g with mpd := insertAsc g.mpd r.site.toNat } } }
  else if k = 4 then
    let l := linkName r.site.toNat r.sub.toNat
    { p with bring := { b with linksFailed := if b.linksFailed.contains l then b.linksFailed else b.linksFailed ++ [l] } }
  else p

/-- The entry R397 makes when a die, stack or link is taken out. -/
def Panel.recordUnit (p : Panel) (r : Report) (replaced : Bool) : Panel :=
  let reason : BitVec 8 := r.cls.setWidth 8
  if replaced ∨ r.event = 0x0121 then
    if r.kind = 3 then p.addFfl 3 r.site 0 reason
    else if r.kind = 1 ∨ r.kind = 2 then p.addFfl 1 r.site 0 reason else p
  else if r.event = 0x0203 then p.addFfl 3 r.site 0 reason
  else if r.event = 0x0305 then
    let l := linkName r.site.toNat r.sub.toNat
    p.addFfl 4 (BitVec.ofNat 8 l.1) (BitVec.ofNat 8 l.2) reason
  else p

/-- The hub's fabric ports are lost and its guests go off (R399). -/
def Panel.hubLost (p : Panel) (hub : Nat) : Panel :=
  let p := (List.range 4).foldl (fun (p : Panel) i => p.portLost hub i) p
  (upTo 4 fun g => guestHub g == hub).foldl (fun (p : Panel) g => p.guestOff g gsOff 0) p

/-- A kept row pair no longer reaches the serving hub (R329). -/
def Panel.cutOff (p : Panel) : Bool :=
  match p.bring.flacon with
  | some x => p.bring.rowPairs.any fun q => !p.eligible x (if p.hubUp 0 && p.bring.running.contains 0 then 0 else 3) q
  | none => false

/-- An EDGE handling (R380, R399). -/
def Panel.edgeAction (p : Panel) (r : Report) : Panel :=
  if r.event = 0x0505 then p.rqeTakeover (3 - r.site.toNat)
  else if r.event = 0x0602 then p.hubLost r.site.toNat
  else p

/-- The action calls for a dry-down: the loss of an edge zone does where it cuts off a kept row pair (R329, R380). -/
def Panel.callsDry (p : Panel) (r : Report) (level : BitVec 3) : Bool :=
  !(level == lvZone && r.event == 0x0405 && (reportZoneOf r).any (12 ≤ ·)) || p.cutOff

/-- The action of DIE level or above, by the primary PMC. -/
def Panel.bigAction (p : Panel) (r : Report) (level : BitVec 3) (replaced : Bool) : Panel :=
  if level = lvDie then (((p.failUnit r).recordUnit r replaced)).startDry .reshape
  else if level = lvZone ∨ level = lvRowPair then
    match reportZoneOf r with
    | some z =>
      let p := if z < 12 then { p with bring := { p.bring with dropPairs := insertAsc p.bring.dropPairs (z / 3) } } else p
      p.startDry .reshape
    | none => p
  else if level = lvPanel then p.startDry (if r.event = 0x0406 then .hold else .restart3)
  else p.edgeAction r

/-- A full queue: an error storm, and the restart it calls for (R376). -/
def Panel.stormed (p : Panel) : Panel :=
  let p := (p.addHold F.PMC_ERR_STATUS_lost 1).fput F.PMC_ERR_STATUS_storm 1
  (p.logPanel 0x0603 clsPF).startDry .restart3

/-- An entry joins a hub's queue of 256, or is lost in a storm (R373, R376). -/
def Panel.joinQueue (p : Panel) (hub : Nat) (e : QEntry) : Panel :=
  if (p.mgr hub).queue.length < 256 then p.modMgr hub fun m => { m with queue := m.queue ++ [e] } else p.stormed

/-- A handling of DIE level or above goes to the primary PMC's queue, already logged (R374). -/
def Panel.passUp (p : Panel) (hub : Nat) (h : Handling) : Panel := p.joinQueue p.primaryHub ⟨h.r, 1, hub, some h⟩

/-- Actions of DIE level and above are the primary PMC's, one at a time: one that another hub, or no primary, has in hand joins its
queue. It is in progress until the reshape completes (R374, R377). -/
def Panel.actBig (p : Panel) (hub : Nat) (h : Handling) : Panel :=
  let p := p.setHandling hub none
  if h.level = lvEdge then p.bigAction h.r h.level h.replaced
  else if hub != p.primaryHub || !p.hasPrimary then p.passUp hub h
  else if !p.callsDry h.r h.level then p
  else (p.setHandling hub (some { h with phase := .reshape })).bigAction h.r h.level h.replaced

/-- An action that cannot complete is replaced by DIE's (R375, R382). -/
def Panel.replaceByDie (p : Panel) (hub : Nat) (h : Handling) : Panel :=
  let p := p.logError hub h.r lvDie false true h.seq.toNat 1
  let p := p.addWrap F.PMC_ERR_STATUS_escalations 1
  p.actBig hub { h with level := lvDie, replaced := true, seq := BitVec.ofNat 32 p.lastLogged }

/-! ### Cluster restart (R382) -/


/-- The cluster's cores have halted: epoch, hot slots, rebuild mark and start (R382 steps 2, 3). -/
def Panel.restartCluster (p : Panel) (die cl : Nat) : Panel :=
  let p := p.advanceEpoch die cl 1
  let k := hotKey die cl
  let p := [0, 3].foldl (fun (p : Panel) h => p.modEng h fun e => { e with hot := smDel e.hot k }) p
  let p := p.markUndef [die * 2 + cl]
  (clusterCores die cl).foldl (fun (p : Panel) c => (p.put .CORE_TRAP_INFO 1 c).startCore c 0 true) p

/-- A halting cluster all of whose cores have halted goes on. -/
def Panel.clusterHalted (p : Panel) (hub : Nat) : Panel :=
  match (p.mgr hub).handling with
  | some h =>
    match h.phase with
    | .halting die cl =>
      if (clusterCores die cl).all p.halted then (p.restartCluster die cl).endAction hub h else p
    | _ => p
  | none => p

/-- CLUSTER level: the step is retried and the cluster's cores are halted (R380, R382 step 1). -/
def Panel.actCluster (p : Panel) (hub : Nat) (h : Handling) : Panel :=
  match reportClusterOf h.r with
  | none => p.setHandling hub none
  | some (site, cl) =>
    match p.dieAt site with
    | none => p.setHandling hub none
    | some d =>
      if (clusterCores d cl).any p.isFenced then p.replaceByDie hub h
      else
        let p := p.askRetry
        let p := (clusterCores d cl).foldl (fun (p : Panel) c => (p.abortQueues c).haltReq c) p
        let p := p.setHandling hub (some { h with phase := .halting d cl })
        p.clusterHalted hub

/-! ### Spare promotion (R381) -/

/-- The core is fenced: delivery closed, core halted, gates closed; its site enters the list (R225, R381 step 3, R397). -/
def Panel.fenceCore (p : Panel) (c : Nat) (r : Report) : Panel :=
  let p := (p.fput F.CORE_STATUS_running 0 c).fput F.CORE_STATUS_halted 1 c
  let p := p.setCore c { Core.zero with fenced := true }
  let n := r.sub.toNat
  let p := p.stopIsland (c / 16) n
  let p := { p with bring := { p.bring with coreGates := p.bring.coreGates.filter (· != r.site.toNat * 18 + n) } }
  let p := p.addFfl 2 r.site r.sub (r.cls.setWidth 8)
  p.addFailed [] [r.site.toNat * 18 + r.sub.toNat]

/-- CORE level (R380, R381). -/
def Panel.actCore (p : Panel) (hub : Nat) (h : Handling) : Panel :=
  match p.coreAt h.r.site.toNat h.r.sub.toNat with
  | none => p.setHandling hub none
  | some c =>
    let spare := p.spareOf (c / 16) (c / 8 % 2)
    let p := (p.askRetry).fenceCore c h.r
    if spare = 15 then p.replaceByDie hub h
    else p.setHandling hub (some { h with phase := .spareCheck (c / 16) (c / 8 % 2) c })

/-- The action of a handling at its level. -/
def Panel.act (p : Panel) (hub : Nat) (h : Handling) : Panel :=
  if h.level = lvCore then p.actCore hub h
  else if h.level = lvCluster then p.actCluster hub h
  else p.actBig hub h

/-! ### Taking reports (R373 to R376) -/

/-- The handling rises to one level above the larger of the two, and its action restarts (R375). -/
def Panel.escalate (p : Panel) (hub : Nat) (h : Handling) (r : Report) : Panel :=
  let up := BitVec.ofNat 3 (min 5 (max h.level.toNat r.level.toNat + 1))
  let p := p.logError hub r up true false h.seq.toNat 1
  let p := p.addWrap F.PMC_ERR_STATUS_escalations 1
  p.act hub { h with level := up, escalated := true, seq := BitVec.ofNat 32 p.lastLogged }

/-- A report before stage 8 is logged, and the loss of a kept zone in stages 4 to 8 restarts from stage 4 (R360, R366, R372). -/
def Panel.unarmedReport (p : Panel) (hub : Nat) (r : Report) : Panel :=
  let p := if p.hasPrimary then p.logError hub r r.level false false 0 1 else p
  let z := r.site.toNat
  if (r.event = 0x0404 ∨ r.event = 0x0405) ∧ r.kind = 6 ∧ z < 12 ∧ 4 ≤ p.stage ∧ p.stage ≤ 8 ∧
      p.bring.rowPairs.contains (z / 3) then
    ({ p with bring := { p.bring with zonesLost := insertAsc p.bring.zonesLost z } }).restart4
  else p

/-- Add a report to a hub's queue: INFO and CE coalesce; a full queue is an error storm (R373, R376). -/
def Panel.enqueueReport (p : Panel) (hub : Nat) (r : Report) : Panel :=
  let m := p.mgr hub
  let same (e : QEntry) : Bool := e.r.event == r.event && e.r.kind == r.kind && e.r.site == r.site && e.r.sub == r.sub
  if p.flag F.PMC_ERR_STATUS_storm then p.addHold F.PMC_ERR_STATUS_lost 1
  else if decide (r.cls.toNat ≤ 1) && m.queue.any same then
    p.modMgr hub fun m => { m with queue := m.queue.map fun e => if same e then { e with count := e.count + 1 } else e }
  else p.joinQueue hub ⟨r, 1, hub, none⟩

/-- First element of a list that equals x, removed. -/
def eraseFirst {α : Type} [DecidableEq α] (l : List α) (x : α) : List α := l.erase x

/-- A report reaches a hub's error manager. -/
def Panel.takeReport (p : Panel) (hub : Nat) (r : Report) : Panel :=
  let p := { p with reports := eraseFirst p.reports (hub, r) }
  if !p.pmc.armed then p.unarmedReport hub r
  else
    let p := if r.cls = clsDE ∧ p.activeHub.any (fun a => (p.eng a).step.isSome) then
        { p with pmc := { p.pmc with des := p.pmc.des ++ [r.detail0.toNat] } }
      else p
    let p := p.settle hub
    match (p.mgr hub).handling with
    | some h =>
      if reportStarts r && !p.flag F.PMC_ERR_STATUS_storm && p.pmc.dry.isNone && !p.pmc.restarting.contains hub &&
          h.phase != .reshape && p.related h r then
        p.escalate hub h r
      else p.enqueueReport hub r
    | none => p.enqueueReport hub r

/-- ERROR_REPORT (R372, R373). -/
def execErrorReport (hub : Nat) (r : Report) (s : State) : Host.Outcome State Fault Refusal :=
  .next (s.upd fun p => if decide (hub < 4) && p.hubUp hub then p.takeReport hub r else p)

/-- The unit of a report of DIE to ROW_PAIR level leaves by the dry-down: the reshape excludes it or tests it again (R400). -/
def Panel.leaves (p : Panel) (r : Report) : Bool :=
  decide (2 ≤ r.level.toNat) && decide (r.level.toNat ≤ 4) &&
    (p.pmc.dry == some .restart3 || (reportZoneOf r).any (fun z => p.bring.dropPairs.contains (pairOf z)) ||
      match r.kind.toNat with
      | 1 => p.bring.computeFailed.contains r.site.toNat
      | 2 => p.bring.computeFailed.contains r.site.toNat
      | 3 => p.bring.stackFailed.contains r.site.toNat || p.bring.mpdFailed.contains r.site.toNat
      | 4 => p.bring.linksFailed.contains (linkName r.site.toNat r.sub.toNat)
      | _ => false)

/-- Start the handling of a report (R374). While a dry-down runs, a report at DIE level or above merges with it; one below, and
one whose unit is leaving already, is logged: the reshape tests or excludes its unit (R400). A hub other than the primary's passes reports of DIE level and above on; one that
was passed on with its handling goes on with it. -/
def Panel.startHandling (p : Panel) (hub : Nat) (e : QEntry) : Panel :=
  let r := e.r
  let big := decide (2 ≤ r.level.toNat)
  match e.passed with
  | some h => p.act hub h
  | none =>
    if big && hub != p.primaryHub && r.level != lvEdge then
      p.joinQueue p.primaryHub e
    else
      let p := p.logError e.src r r.level false false 0 e.count
      let h : Handling := ⟨r, r.level, false, false, BitVec.ofNat 32 p.lastLogged, .reshape⟩
      if p.pmc.dry.isSome && (!big || p.leaves r) then p else p.act hub h

/-- Take entries in queue order: INFO, CE and DE are logged, up to the first that starts handling. -/
def takeEntries (hub : Nat) : List QEntry → Panel → Panel
  | [], p => p.modMgr hub fun m => { m with queue := [] }
  | e :: rest, p =>
    if reportStarts e.r then (p.modMgr hub fun m => { m with queue := rest }).startHandling hub e
    else takeEntries hub rest (p.logError e.src e.r e.r.level false false 0 e.count)

/-- ERROR_HANDLING_START (R374). An unarmed manager logs what it holds. Without a primary PMC the actions below DIE level go on, and
those of DIE level and above wait (R377). -/
def execErrorHandlingStart (hub : Nat) (s : State) : Host.Outcome State Fault Refusal :=
  .next (s.upd fun p =>
    if !p.hubUp hub || decide (4 ≤ hub) || p.pmc.restarting.contains hub || p.pmc.halted.contains hub then p
    else
      let p := p.settle hub
      let m := p.mgr hub
      if !p.pmc.armed then
        (m.queue.foldl (fun (p : Panel) e => p.logError e.src e.r e.r.level false false 0 e.count) p).modMgr hub fun m =>
          { m with queue := [] }
      else if m.handling.isSome && p.pmc.dry.isNone then p
      else takeEntries hub m.queue p)

/-! ### Ends of actions -/

/-- The spare passed its check: it takes the logical number and starts at the firmware entry (R26, R381 step 6). -/
def Panel.spareStarts (p : Panel) (c : Nat) : Panel :=
  let p := { p with regs := p.regs.filter fun e =>
    !((coreRegs.map Reg.ctorIdx).contains (e.1 / 2 ^ 31) && e.1 / 2 ^ 20 % 2048 == c) }
  let p := (p.promote c).put .CORE_ID (coreIdWord c) c
  let p := (p.setCore c .zero).markUndef [256 + c]
  let p := match p.bring.flacon with | some x => p.atomize x (2 ^ (c / 16)) (2 ^ (c % 16)) | none => p
  p.startCore c 0 true

/-- SPARE_CHECK_DONE (R375, R381 steps 5, 6). -/
def execSpareCheckDone (ok : Bool) (s : State) : Host.Outcome State Fault Refusal :=
  .next (s.upd fun p =>
    match (List.range 4).find? fun hub => match (p.mgr hub).handling with
        | some h => (match h.phase with | .spareCheck .. => true | _ => false)
        | none => false with
    | none => p
    | some hub =>
      match (p.mgr hub).handling with
      | some h =>
        match h.phase with
        | .spareCheck die cl c =>
          if ok then (p.spareStarts c).endAction hub h
          else
            let site := p.dieSite die
            let r : Report := ⟨0x0106, clsUC, lvCore, 2, BitVec.ofNat 8 site, BitVec.ofNat 8 (cl * 9 + 8), 0, 0⟩
            let p := p.addFfl 2 r.site r.sub 3
            p.escalate hub { h with r := r } r
        | _ => p
      | none => p)

/-- CLUSTER_HALT_TIMEOUT (R382): the handling is replaced by DIE, and no core of the cluster is started. -/
def execClusterHaltTimeout (s : State) : Host.Outcome State Fault Refusal :=
  .next (s.upd fun p =>
    (List.range 4).foldl (fun (p : Panel) hub =>
      match (p.mgr hub).handling with
      | some h => (match h.phase with | .halting .. => p.replaceByDie hub h | _ => p)
      | none => p) p)

/-- HALT_COMPLETE (R69, R85): the engines of a halting core have drained. A cluster restart goes on when the last of its cores has
halted (R382). -/
def execHaltComplete (c : Nat) (s : State) : Host.Outcome State Fault Refusal :=
  .next (s.upd fun p =>
    let k := p.core c
    if k.blocked = some .halting ∧ k.drained ∧ k.spec.isNone then
      let p := p.setCore c { k with blocked := none }
      let p := (p.fput F.CORE_STATUS_running 0 c).fput F.CORE_STATUS_halted 1 c
      (List.range 4).foldl (fun (p : Panel) hub => p.clusterHalted hub) p
    else p)

/-! ### The PMC watchdog (R366, R377) -/

/-- PMC_WATCHDOG_TRIP: the PMC restarts; the alternate becomes primary; a second trip within 60 s is HUB_LOST. A stage in progress
fails with PMC_RESTART, and is tried once more without a command (R366). -/
def execPmcWatchdogTrip (hub : Nat) (within60s : Bool) (s : State) : Host.Outcome State Fault Refusal :=
  .next (s.upd fun p =>
    if decide (4 ≤ hub) || !p.hubUp hub then p
    else
      let was := decide (p.primaryHub = hub)
      let p := p.addHold F.PMC_WATCHDOG_trips 1
      let p := { p with pmc := { p.pmc with restarting := insertAsc p.pmc.restarting hub } }
      let other := 3 - hub
      let p := if was && p.hubUp other && !p.pmc.restarting.contains other then
          { p with pmc := { p.pmc with primaryHd3 := !p.pmc.primaryHd3, tookOver := true } }
        else p
      let p := p.reportHubEdge hub 0x0601 clsUC
      let p := if within60s then p.reportHubEdge hub 0x0602 clsUF else p
      if was && decide (1 ≤ p.stage) && decide (p.stage ≤ 9) then
        let n := p.stage
        if p.bring.pmcRetried then p.failStage n detPmcRestart (p.wordsNow n)
        else
          let p := p.stageRecord n resFail detPmcRestart (p.wordsNow n)
          ({ p with bring := { p.bring with pmcRetried := true } }).enterStage n
      else p)

/-- PMC_RESUME (R377): firmware runs again from protected SRAM; a dry-down that waited for a primary goes on (R400). -/
def execPmcResume (hub : Nat) (s : State) : Host.Outcome State Fault Refusal :=
  .next (s.upd fun p =>
    let p := { p with pmc := { p.pmc with restarting := p.pmc.restarting.filter (· != hub) } }
    let p := if p.pmc.restarting.isEmpty then { p with pmc := { p.pmc with tookOver := false } } else p
    if p.pmc.dry.isSome then p.dryBegin else p.handoffOut)

/-! ### Predictive margins (R398) -/

/-- Level that R398 gives a margin's record; the timing margin of a compute site is a cluster memory's or the die network's, as the
crossing names it. -/
def predictLevel (a : PredictAt) : BitVec 3 :=
  let k := a.kind.toNat
  match a.margin.toNat with
  | 0 => if k = 2 then lvCore else if k = 1 then lvCluster else lvDie
  | 1 => if k = 1 then lvCluster else lvDie
  | 4 => if k = 2 then lvCore else if k = 1 ∧ a.level = lvCluster then lvCluster else lvDie
  | 5 => if a.site.toNat < 12 then lvZone else lvEdge
  | 6 => lvEdge
  | 8 => lvPanel
  | _ => lvDie

/-- Node of the island that a timing margin's location names, and the island (R340, R398). -/
def Panel.predictIsland (p : Panel) (a : PredictAt) : Option (Nat × Nat) :=
  let site := a.site.toNat
  if a.kind = 3 then ((List.range p.nStacks).find? fun s => p.stackSite s == site).map fun s => (0x40 + s, 0)
  else (p.dieAt site).map fun d =>
    (d, if a.kind = 2 then a.sub.toNat else if predictLevel a = lvCluster then 18 + a.sub.toNat else 20)

/-- The memory unit that a margin's location names, as `Panel.memUnit` counts it. -/
def predictUnit (a : PredictAt) : Nat :=
  if a.kind = 2 then 512 + a.site.toNat * 18 + a.sub.toNat
  else if a.kind = 3 then 256 + a.site.toNat else a.site.toNat * 2 + a.sub.toNat

/-- What the panel holds allows the crossing (R398). The windows of an hour and of a day are hub cycles that the model does not count:
the counts since 44 V stand for the most that a window holds; and the voltages that a zone's monitors see are not registers (log 57). -/
def Panel.mayCross (p : Panel) (a : PredictAt) : Bool :=
  let site := a.site.toNat
  let limit (f : RField) : Nat := p.fget f
  match a.margin.toNat with
  | 0 => decide (limit F.PMC_PREDICT_LIMITS_ce_rate < smGetD p.pmc.ceCounts (predictUnit a) 0)
  | 1 => p.pmc.deCounts.any fun e => e.1 / 64 == predictUnit a && decide (3 ≤ e.2)
  | 2 => (List.range p.nStacks).any fun s => p.stackSite s == site && p.fget F.MPD_TPE_RESULT_result s != 0 &&
      decide (p.fget F.MPD_TPE_RESULT_repair_left_min s ≤ limit F.PMC_PREDICT_LIMITS_repair_left)
  | 3 => (List.range p.nStacks).any fun s => p.stackSite s == site && decide (4096 < p.fget F.MPD_ECS_ecs_total s)
  | 4 => (p.predictIsland a).any fun e => p.fget F.CLK_MARGIN_alarms e.1 e.2 != 0 || p.flag F.CLK_ISLAND_alarm_hold e.1 e.2 ||
      decide (p.fget F.CLK_MARGIN_low e.1 e.2 + limit F.PMC_PREDICT_LIMITS_margin_drop < p.fget F.CLK_MARGIN_baseline e.1 e.2)
  | 6 => (smGet p.oe (oeKey site 2)).any fun v => decide (v.toNat < limit F.PMC_PREDICT_LIMITS_optical_margin)
  | 7 => decide (16 < smGetD p.pmc.ceCounts (4096 + site * 16 + a.sub.toNat) 0)
  | 8 => if a.kind = 1 then p.bring.unused.contains (site / 9, site % 9) && p.siteBad site
    else decide (8 ≤ p.bring.sparesUsed.length)
  | _ => true

/-- PREDICT_MARGIN_CROSS: where the crossing can be, PREDICT is logged where the margin says, and its bit of PMC_HEALTH is set. -/
def execPredictMarginCross (a : PredictAt) (s : State) : Host.Outcome State Fault Refusal :=
  .next (s.upd fun p =>
    if !p.hasPrimary || decide (8 < a.margin.toNat) || !p.mayCross a then p
    else
      let p := p.logError p.primaryHub ⟨0x0606, clsInfo, predictLevel a, a.kind, a.site, a.sub, 0, 0⟩ (predictLevel a) false false 0 1
      let p := p.addWrap F.PMC_HEALTH_predicts 1
      let p := p.fput F.PMC_HEALTH_margins (p.fget F.PMC_HEALTH_margins ||| 2 ^ a.margin.toNat)
      p.platformEvent 0x102 (p.fget F.PMC_HEALTH_margins))

end Sys2Proof.Machine
end

