-- ==== Sys2Proof/Machine/Security.lean ====
section
/-! DEFINITION. Security (chapter 16): signed commands (R461 to R463), debug scopes (R464), the entropy source (R458), guest
transactions (R468, R469), optical engine readings (R470), and SPDM over DOE and MCTP (R459, R460). -/

namespace Sys2Proof.Machine

/-! ### Hubs and transports (R475, R476) -/

/-- HD0 or HD3, with power and out of reset. -/
def Panel.secUp (p : Panel) (hub : Nat) : Bool := (hub == 0 || hub == 3) && p.hubUp hub && !p.pwr.resetHeld

def Panel.mgmtOf (p : Panel) (hub : Nat) : Mgmt := smGetD p.mgmt hub .empty

def Panel.modMgmt (p : Panel) (hub : Nat) (f : Mgmt → Mgmt) : Panel := { p with mgmt := smSet p.mgmt hub (f (p.mgmtOf hub)) }

def transportKey : Transport → Nat
  | .i3c => 0
  | .smbus => 1
  | .pcieVdm => 2

/-- The transport works: the bus is I3C once it has a dynamic address and SMBus until then; VDM needs a link (R475). -/
def Panel.transportUp (p : Panel) (hub : Nat) (t : Transport) : Bool :=
  p.secUp hub &&
    match t with
    | .i3c => (p.mgmtOf hub).i3cAddr.isSome
    | .smbus => (p.mgmtOf hub).i3cAddr.isNone
    | .pcieVdm => p.flag F.PCI_PORT_STATUS_link_up hub

/-- An answer goes out; on the I3C bus an in-band interrupt signals it (R475). -/
def Panel.reply (p : Panel) (hub : Nat) (t : Option Transport) (a : Answer) : Panel :=
  (if t = some .i3c then p.emit (.inBand hub) else p).emit (.answer hub a)

/-! ### Signed command blocks (R461 to R463) -/

def secOk : Nat := 0
def secBadSignature : Nat := 1
def secBadNonce : Nat := 2
def secBadDevice : Nat := 3
def secCondition : Nat := 4
def secBusy : Nat := 5
def secState : Nat := 6
def secReserved : Nat := 7

def cmdOwnerProgram : Nat := 1
def cmdOwnerRevoke : Nat := 2
def cmdFlaconFloor : Nat := 3
def cmdFwFloor : Nat := 4
def cmdDebugUnlock : Nat := 5

/-- Word w of the command block in a hub. -/
def Panel.secWord (p : Panel) (hub w : Nat) : W64 := p.get .SEC_CMD hub w

def Panel.secCommand (p : Panel) (hub : Nat) : Nat := bits (p.secWord hub 0).toNat 55 48

/-- Signer field: 0 root, 0x10 to 0x13 an owner slot. -/
def Panel.secSigner (p : Panel) (hub : Nat) : Nat := bits (p.secWord hub 0).toNat 47 40

/-- The numeric argument, word 13 (R462). -/
def Panel.secArg (p : Panel) (hub : Nat) : Nat := (p.secWord hub 13).toNat

/-- The hash of words 14 to 19 (R462), word 14 its lowest bits (DESIGN CHOICE, log 17). -/
def Panel.secHash (p : Panel) (hub : Nat) : BitVec 384 :=
  BitVec.ofNat 384 (sumL ((List.range 6).map fun i => (p.secWord hub (14 + i)).toNat * 2 ^ (64 * i)))

/-- Scope mask and window of a DEBUG_UNLOCK, both in word 13: [35:32] and [31:0] (DESIGN CHOICE, log 17). -/
def Panel.secScopes (p : Panel) (hub : Nat) : Nat := p.secArg hub / 2 ^ 32

def Panel.secWindow (p : Panel) (hub : Nat) : Nat := p.secArg hub % 2 ^ 32

/-- The layout of R461 holds: format, a command of R462, a signer, zeros, and an argument in its range. -/
def Panel.secLayout (p : Panel) (hub : Nat) : Bool :=
  let w0 := (p.secWord hub 0).toNat
  let c := p.secCommand hub
  let s := p.secSigner hub
  let argOk :=
    if c = cmdDebugUnlock then decide (p.secScopes hub < 8) && decide (1 ≤ p.secWindow hub) && decide (p.secWindow hub ≤ 3600000)
    else if c = cmdFlaconFloor then decide (p.secArg hub ≤ 255)
    else if c = cmdFwFloor then decide (p.secArg hub ≤ 63)
    else decide (p.secArg hub < 4)
  bits w0 63 56 == 1 && decide (1 ≤ c) && decide (c ≤ 5) && (s == 0 || (decide (0x10 ≤ s) && decide (s ≤ 0x13))) &&
    bits w0 39 0 == 0 && (List.range 19).all (fun i => p.secWord hub (45 + i) == 0) && argOk

/-- Bytes of n words of the block from word a. -/
def Panel.secBytes (p : Panel) (hub a n : Nat) : List Byte := (List.range n).flatMap fun i => toBytes 8 (p.secWord hub (a + i)).toNat

/-- The signer's key, words 21 to 32, hashes to what the signer field names, and its signature, words 33 to 44, verifies over words 0 to
32 (R461). -/
def Panel.secSigned (p : Panel) (hub : Nat) : Bool :=
  let f := p.fuses hub
  let s := p.secSigner hub
  let key := p.secBytes hub 21 12
  let named := if s = 0 then some f.rootHash else if f.slotValid (s - 0x10) then some (f.slot (s - 0x10)).1 else none
  named.any (· == Config.sha384 key) &&
    Config.ecdsaVerify (BitVec.ofNat 768 (ofBytes key)) (p.secBytes hub 0 33) (BitVec.ofNat 768 (ofBytes (p.secBytes hub 33 12)))

/-- Every owner slot is blank. -/
def FuseSet.allBlank (f : FuseSet) : Bool := (List.range 4).all f.slotBlank

/-- The condition of R462, the signer the command asks for included. -/
def Panel.secAllowed (p : Panel) (hub : Nat) : Bool :=
  let f := p.fuses hub
  let c := p.secCommand hub
  let root := decide (p.secSigner hub = 0)
  let slot := p.secSigner hub - 0x10
  let n := p.secArg hub
  if c = cmdOwnerProgram then (root == f.allBlank) && f.slotBlank n
  else if c = cmdOwnerRevoke then !root && slot != n && (List.range 4).any fun k => k != n && f.slotValid k
  else
    match p.bring.flacon with
    | none => false
    | some x =>
      if c = cmdFlaconFloor then !root && decide (f.floorC < n) && decide (floorVersion n ≤ x.version.toNat)
      else if c = cmdFwFloor then !root && decide (f.floorF < n) && decide (n ≤ x.hubSvn.toNat) && decide (n ≤ x.coreSvn.toNat)
      else if root then bit x.policy0.toNat 0
      else bit x.policy0.toNat 1 && p.secScopes hub &&& bits x.policy0.toNat 7 4 == p.secScopes hub

/-- States in which a command is refused (R458, R463). A hub in ROM takes OWNER_PROGRAM on its own. -/
def Panel.secClosed (p : Panel) (hub : Nat) : Bool :=
  let early := decide (1 ≤ p.stage) && decide (p.stage ≤ 8)
  (smGetD p.sec hub .empty).entropyFailed || early ||
    (if p.bring.running.contains hub then !p.hubUp 0 || !p.hubUp 3 || p.fab.fuses0 != p.fab.fuses3
     else p.secCommand hub != cmdOwnerProgram)

/-- Result of a submit. The order of the checks is the model's (DESIGN CHOICE, log 19). -/
def Panel.secResult (p : Panel) (hub : Nat) : Nat :=
  if p.flag F.SEC_CMD_CONTROL_busy hub then secBusy
  else if p.secClosed hub then secState
  else if !p.secLayout hub then secReserved
  else if !p.secSigned hub then secBadSignature
  else if (List.range 6).any (fun i => p.secWord hub (1 + i) != p.get .SEC_DEVICE_ID hub i) then secBadDevice
  else if (List.range 6).any (fun i => p.secWord hub (7 + i) != p.get .SEC_NONCE hub i) then secBadNonce
  else if !p.secAllowed hub then secCondition
  else secOk

/-- Change the fuse sets: HD0's, then HD3's; a hub in ROM programs only its own (R451, R463). -/
def Panel.blow (p : Panel) (hub : Nat) (f : FuseSet → FuseSet) : Panel :=
  let both := p.bring.running.contains hub
  let p := if both || hub = 0 then { p with fab := { p.fab with fuses0 := f p.fab.fuses0 } } else p
  if both || hub = 3 then { p with fab := { p.fab with fuses3 := f p.fab.fuses3 } } else p

def FuseSet.setSlot (f : FuseSet) (k : Nat) (x : BitVec 384 × Bool) : FuseSet := { f with owners := f.owners.set k x }

/-- Debug scopes open for the window; SECURE_SRAM erases the hub's CDI, alias private key and device key first (R464). -/
def Panel.openDebug (p : Panel) (hub scopes window : Nat) : Panel :=
  let p := if bit scopes 2 then p.modSec hub fun s => { s with erased := true, cdi := 0, aliasSeed := 0, deviceKey := 0 } else p
  let p := p.fput F.SEC_STATUS_debug_open (p.fget F.SEC_STATUS_debug_open hub ||| scopes) hub
  let p := p.fput F.SEC_STATUS_debug_ever (p.fget F.SEC_STATUS_debug_ever hub ||| scopes) hub
  (p.fput F.SEC_DEBUG_remaining_ms window hub).reportPanel hub 0x0804 clsInfo

/-- What an accepted command does (R462). -/
def Panel.secApply (p : Panel) (hub : Nat) : Panel :=
  let c := p.secCommand hub
  let n := p.secArg hub
  let h := p.secHash hub
  if c = cmdOwnerProgram then p.blow hub fun f => f.setSlot n (h, (f.slot n).2)
  else if c = cmdOwnerRevoke then p.blow hub fun f => f.setSlot n ((f.slot n).1, true)
  else if c = cmdFlaconFloor then p.blow hub fun f => { f with floorC := n }
  else if c = cmdFwFloor then p.blow hub fun f => { f with floorF := n }
  else p.openDebug hub (p.secScopes hub) (p.secWindow hub)

/-- A hub in ROM runs the health test before it draws the nonce for its first command (R458, R463); a failure is ENTROPY_FAIL. -/
def Panel.romTest (p : Panel) (hub : Nat) : Panel :=
  if p.bring.running.contains hub then p
  else p.fput F.SEC_STATUS_entropy_ok (b2n (!(smGetD p.sec hub .empty).entropyFailed)) hub

/-- A submit (R463): accepted or refused, a new nonce is drawn before the result shows. -/
def Panel.secSubmit (p : Panel) (hub : Nat) : Panel :=
  let r := p.secResult hub
  let p := p.fput F.SEC_CMD_CONTROL_last_command (p.secCommand hub) hub
  let p := if r = secOk then p.secApply hub else p.reportPanel hub 0x0803 clsInfo
  ((p.romTest hub).drawNonce hub).fput F.SEC_CMD_CONTROL_result r hub

/-- A writer may submit to the hub: a hub in ROM takes a block only through its own port or its own bus (R463). -/
def Panel.secOwnWay (p : Panel) (hub : Nat) (src : Writer) : Bool :=
  p.bring.running.contains hub ||
    match src with
    | .hostA => hub == 0
    | .hostB => hub == 3
    | .bmc => true
    | _ => false

/-- The hub that serves a block received over MCTP: the primary PMC's, or a hub in ROM itself (R463, R476). -/
def Panel.secServer (p : Panel) (hub : Nat) (t : Transport) : Option Nat :=
  if !p.transportUp hub t then none
  else if !p.bring.running.contains hub then some hub
  else if p.hasPrimary then some p.primaryHub else none

/-- A block stands in a hub's SEC_CMD. -/
def Panel.putBlock (p : Panel) (hub : Nat) (block : List W64) : Panel :=
  (List.range 64).foldl (fun (p : Panel) w => p.put .SEC_CMD (block.getD w 0) hub w) p

/-- The submit of a block that names a command (R461, R463): a host needs the control lease, the board management controller does not
(R439). -/
def Panel.secCmd (p : Panel) (hub c : Nat) (v : SecVia) : Panel :=
  match v with
  | .submit src =>
    if p.secUp hub && p.secCommand hub == c && p.secOwnWay hub src then p.asManager src fun p => p.secSubmit hub else p
  | .mctp t block =>
    match p.secServer hub t with
    | some a =>
      let q := p.putBlock a block
      if q.secCommand a = c then q.secSubmit a else p
    | none => p

/-- OWNER_PROGRAM (R462, R463). -/
def execOwnerProgram (hub : Nat) (v : SecVia) (s : State) : Host.Outcome State Fault Refusal :=
  .next (s.upd fun p => p.secCmd hub cmdOwnerProgram v)

/-- OWNER_REVOKE (R462). -/
def execOwnerRevoke (hub : Nat) (v : SecVia) (s : State) : Host.Outcome State Fault Refusal :=
  .next (s.upd fun p => p.secCmd hub cmdOwnerRevoke v)

/-- FLACON_FLOOR (R462). -/
def execFlaconFloor (hub : Nat) (v : SecVia) (s : State) : Host.Outcome State Fault Refusal :=
  .next (s.upd fun p => p.secCmd hub cmdFlaconFloor v)

/-- FW_FLOOR (R462). -/
def execFwFloor (hub : Nat) (v : SecVia) (s : State) : Host.Outcome State Fault Refusal :=
  .next (s.upd fun p => p.secCmd hub cmdFwFloor v)

/-- DEBUG_UNLOCK (R462, R464). -/
def execDebugUnlock (hub : Nat) (v : SecVia) (s : State) : Host.Outcome State Fault Refusal :=
  .next (s.upd fun p => p.secCmd hub cmdDebugUnlock v)

/-- DEBUG_RELOCK (R464): the write of relock. -/
def execDebugRelock (hub : Nat) (s : State) : Host.Outcome State Fault Refusal :=
  .next (s.upd fun p => if p.secUp hub then p.closeDebug hub else p)

/-- DEBUG_WINDOW_EXPIRE (R464): window_ms elapsed. -/
def execDebugWindowExpire (hub : Nat) (s : State) : Host.Outcome State Fault Refusal :=
  .next (s.upd fun p => if p.secUp hub then p.closeDebug hub else p)

/-- ENTROPY_FAIL (R458). -/
def execEntropyFail (hub : Nat) (s : State) : Host.Outcome State Fault Refusal :=
  .next (s.upd fun p =>
    if p.secUp hub then
      let p := p.modSec hub fun x => { x with entropyFailed := true }
      (p.fput F.SEC_STATUS_entropy_ok 0 hub).reportHubEdge hub 0x0805 clsUF
    else p)

/-! ### Guests (R468, R469) -/

/-- Unit number of the firewall (R211). -/
def unitFirewall : Nat := 28

/-- The access of n bytes lies in one enabled window of the site that allows its kind. -/
def Panel.guestWindow (p : Panel) (g addr n : Nat) (write : Bool) : Bool :=
  let h := guestHub g
  (List.range 16).any fun k =>
    let b := p.get .SEC_GUEST_WIN_BASE h (g % 2) k
    let l := p.get .SEC_GUEST_WIN_LIMIT h (g % 2) k
    F.SEC_GUEST_WIN_BASE_enable.read b == 1 &&
      (if write then F.SEC_GUEST_WIN_BASE_write.read b else F.SEC_GUEST_WIN_BASE_read.read b) == 1 &&
      decide (F.SEC_GUEST_WIN_BASE_base.read b * 4096 ≤ addr) &&
      decide (addr + n ≤ (F.SEC_GUEST_WIN_LIMIT_limit.read l + 1) * 4096)

/-- The firewall passes the transaction (R468). -/
def Panel.guestPasses (p : Panel) (g : Nat) (k : Packet) : Bool :=
  let h := guestHub g
  let i := g % 2
  let n := bits k.w2.toNat 14 10
  !k.mc &&
    match k.opcode.toNat with
    | 0 => p.guestWindow g k.addr.toNat k.length.toNat false && !inRegs k.addr.toNat
    | 1 => p.guestWindow g k.addr.toNat k.payload.length true && !inRegs k.addr.toNat
    | 2 => p.flag F.SEC_GUEST_LIMITS_post_enable h i && decide (p.fget F.SEC_GUEST_LIMITS_post_lo h i ≤ n) &&
        decide (n ≤ p.fget F.SEC_GUEST_LIMITS_post_hi h i)
    | _ => false

/-- The answer NAK with a status, from the hub to the guest. -/
def guestNak (h : Nat) (k : Packet) (status : Nat) : Packet :=
  { plainPacket 0x0B 1 (hubNode h) unitFirewall (hubNode h) k.tag with status := BitVec.ofNat 8 status }

/-- A transaction that fails: NAK DENIED, counted and logged; at deny_limit the guest is fenced (R468). -/
def Panel.guestDenied (p : Panel) (g : Nat) (k : Packet) : Panel :=
  let h := guestHub g
  let i := g % 2
  let p := p.emit (.guest g (guestNak h k 3))
  let p := p.addHold F.SEC_GUEST_STATUS_denials 1 h i
  let p := p.sendReport h 0x0807 clsInfo lvEdge 8 (BitVec.ofNat 8 g) 0 none none
  let limit := match (p.guestSite g).entry with | some e => e.denyLimit.toNat | none => 0
  if p.fget F.SEC_GUEST_STATUS_denials h i < limit then p
  else
    let p := p.unawait fun w => match w.kind with | .guest site _ => site == g | _ => false
    let p := p.guestOff g gsFenced 0
    p.sendReport h 0x0808 clsUF lvEdge 8 (BitVec.ofNat 8 g) 0 none none

/-- A transaction that has passed travels with src_unit 28 to the home of its address or to the core it posts to (R468). -/
def Panel.guestForward (p : Panel) (g : Nat) (k : Packet) : Panel :=
  let h := guestHub g
  let post := bits k.w2.toNat 9 0
  let dst := if k.opcode = 2 then (if p.hasCore post then some (post / 16) else none) else p.homeNode k.addr.toNat
  match dst with
  | none => p.toGuest g (guestNak h k 1)
  | some d =>
    let (t, p) := p.await (hubNode h) unitFirewall (.guest g k.tag)
    p.inject (hubNode h) { k with
      tag := t, srcUnit := BitVec.ofNat 5 unitFirewall, srcNode := BitVec.ofNat 7 (hubNode h)
      dstNode := BitVec.ofNat 7 d, tclass := 0, status := 0 }

/-- A transaction that passes takes its data out of the guest's bucket; beyond the bucket it waits, in order (R468, R469). -/
def Panel.guestSend (p : Panel) (g : Nat) (k : Packet) : Panel :=
  let s := p.guestSite g
  if s.into.isEmpty && decide (k.payload.length ≤ s.bucket) then
    (p.setGuest g { s with bucket := s.bucket - k.payload.length }).guestForward g k
  else p.setGuest g { s with into := s.into ++ [k] }

/-- What waits for a guest's bucket goes on as far as it holds: answers, then transactions (R469). -/
def Panel.guestFlush (p : Panel) (g : Nat) : Panel :=
  let s := p.guestSite g
  let p := p.setGuest g { s with back := [], into := [] }
  let p := s.back.foldl (fun (p : Panel) k => p.toGuest g k) p
  s.into.foldl (fun (p : Panel) k => p.guestSend g k) p

/-- Time passes at an admitted guest: its bucket refills by rate_gbs bytes for each cycle of the hub clock, and its readings are what it
reports; how many cycles pass and what it reports are free values (R466, R469). -/
def Panel.guestTick (p : Panel) (g : Nat) : Panel :=
  if !(p.guestSite g).powered then p
  else
    let (n, p) := p.draw 0
    let (t, p) := p.draw 256
    let (w, p) := p.draw (2 ^ 16)
    let s := p.guestSite g
    let rate := p.fget F.SEC_GUEST_LIMITS_rate_gbs (guestHub g) (g % 2)
    (p.setGuest g { s with bucket := min 65536 (s.bucket + rate * n), tempC := t, powerW := w }).guestFlush g

/-- GUEST_TRANSACTION (R468, R469). -/
def execGuestTransaction (site : Nat) (k : Packet) (s : State) : Host.Outcome State Fault Refusal :=
  .next (s.upd fun p =>
    if decide (4 ≤ site) || !p.hubUp (guestHub site) || p.fget F.SEC_GUEST_STATUS_state (guestHub site) (site % 2) != gsAdmitted
    then p
    else if p.guestPasses site k then p.guestSend site k else p.guestDenied site k)

/-! ### Optical engines (R470) -/

/-- OE_READING (R470): a reading outside the engine's declared range is discarded and logged; the last valid one stands. -/
def execOeReading (k kind : Nat) (value lo hi : BitVec 16) (s : State) : Host.Outcome State Fault Refusal :=
  .next (s.upd fun p =>
    if decide (8 ≤ k) || decide (4 ≤ kind) || !p.hubUp (k / 2) then p
    else if lo.toNat ≤ value.toNat ∧ value.toNat ≤ hi.toNat then { p with oe := smSet p.oe (oeKey k kind) value }
    else p.sendReport (k / 2) 0x0809 clsInfo lvEdge 7 (BitVec.ofNat 8 k) 0 none none)

/-! ### SPDM (R459, R460, R476) -/

/-- The hub holds an alias key and a working entropy source. -/
def Panel.hasAlias (p : Panel) (hub : Nat) : Bool :=
  let s := smGetD p.sec hub .empty
  s.aliasHeld && !s.entropyFailed && p.bring.running.contains hub

/-- The hub that answers an SPDM request received at a hub: over DOE that hub, over an MCTP transport that works the primary PMC's
(R459, R475, R476). -/
def Panel.spdmHub (p : Panel) (hub : Nat) (t : Option Transport) : Option Nat :=
  let h := match t with
    | none => if p.secUp hub && p.flag F.PCI_PORT_STATUS_link_up hub then some hub else none
    | some t => if p.transportUp hub t && p.hasPrimary && p.bring.running.contains hub then some p.primaryHub else none
  h.filter p.hasAlias

/-- A request that a hub answers. -/
def Panel.spdm (p : Panel) (hub : Nat) (t : Option Transport) (f : Nat → Answer) : Panel :=
  match p.spdmHub hub t with
  | some a => p.reply hub t (f a)
  | none => p

/-- The alias certificate: the public key, measurements 1 to 7 as at boot, and the DeviceID key's signature (R457); how its parts are
joined is the model's (DESIGN CHOICE, log 17). -/
def Panel.aliasCertificate (p : Panel) (hub : Nat) : List Byte :=
  let s := smGetD p.sec hub .empty
  bytesBE 96 s.aliasKey.toNat ++ s.tcbInfo ++ bytesBE 96 s.aliasCert.toNat

/-- The certificate chain of slot 0 (R457, R459). -/
def Panel.certChain (p : Panel) (hub : Nat) : List (List Byte) :=
  [Config.rootCert, Config.mfgCert, (p.fuses hub).certOtp, p.aliasCertificate hub]

/-- GET_VERSION (R459): SPDM 1.2. -/
def execGetVersion (hub : Nat) (t : Option Transport) (s : State) : Host.Outcome State Fault Refusal :=
  .next (s.upd fun p => p.spdm hub t fun _ => .spdmVersion 1 2)

/-- GET_CAPABILITIES (R459): no key exchange, no secure session, no mutual authentication. -/
def execGetCapabilities (hub : Nat) (t : Option Transport) (s : State) : Host.Outcome State Fault Refusal :=
  .next (s.upd fun p => p.spdm hub t fun _ => .spdmCapabilities [.certificates, .challenge, .signedMeasurements])

/-- NEGOTIATE_ALGORITHMS (R459): ECDSA P-384 and SHA-384. -/
def execNegotiateAlgorithms (hub : Nat) (t : Option Transport) (s : State) : Host.Outcome State Fault Refusal :=
  .next (s.upd fun p => p.spdm hub t fun _ => .spdmAlgorithms [.ecdsaP384, .sha384])

/-- GET_DIGESTS (R459): slot 0 only. -/
def execGetDigests (hub : Nat) (t : Option Transport) (s : State) : Host.Outcome State Fault Refusal :=
  .next (s.upd fun p => p.spdm hub t fun a => .spdmDigests (Config.sha384 (p.certChain a).flatten))

/-- GET_CERTIFICATE (R459): slot 0 only. -/
def execGetCertificate (hub : Nat) (t : Option Transport) (slot : Nat) (s : State) : Host.Outcome State Fault Refusal :=
  .next (s.upd fun p => p.spdm hub t fun a => if slot = 0 then .spdmCertificate (p.certChain a) else .spdmError)

/-- A signature of the hub's alias key; what SPDM puts under it is DMTF's (log 20). -/
def Panel.aliasSign (p : Panel) (hub : Nat) (msg : List Byte) : BitVec 768 :=
  Config.ecdsaSign (smGetD p.sec hub .empty).aliasSeed msg

/-- CHALLENGE (R459, R464): slot 0, signed with the alias key; no answer once the keys are erased. -/
def execChallenge (hub : Nat) (t : Option Transport) (slot : Nat) (nonce : BitVec 256) (s : State) :
    Host.Outcome State Fault Refusal :=
  .next (s.upd fun p =>
    if (p.spdmHub hub t).any p.keysErased then p
    else p.spdm hub t fun a =>
      if slot = 0 then .spdmChallenge nonce (p.aliasSign a (bytesBE 32 nonce.toNat)) else .spdmError)

/-- The measurements whose values are known, by index (R460); how a raw one is packed is the model's (DESIGN CHOICE, log 17). -/
def Panel.measurements (p : Panel) (hub : Nat) : List (Nat × List Byte) :=
  let m8 := toBytes 8 (p.fget F.SEC_STATUS_debug_ever hub + p.fget F.SEC_STATUS_debug_open hub * 2 ^ 32)
  let m9 := if p.flag F.RQE_ILOG_STATUS_recording then
      [(9, digestBE p.imageDigest ++ digestBE p.planDigest ++ toBytes 2 (p.fget F.RQE_STEP_service_epoch (p.activeHub.getD 0)))]
    else []
  let m10 := if p.shapeValid && p.nStacks != 0 then
      [(10, toBytes 8 (p.fab.grade + p.fget F.HUB_SHAPE_logical_rows * 2 ^ 8 + p.nStacks * 2 ^ 16))]
    else []
  let gs := (upTo 4 fun g => p.fget F.SEC_GUEST_STATUS_state (guestHub g) (g % 2) == gsAdmitted).map fun g =>
    (16 + g, digestBE (p.guestSite g).measurement)
  p.bootMeasurements hub (p.flaconOf hub) ++ [(8, m8)] ++ m9 ++ m10 ++ gs

/-- GET_MEASUREMENTS (R460): index 0 asks how many, 0xFF for all, any other for that one. -/
def execGetMeasurements (hub : Nat) (t : Option Transport) (index : Nat) (nonce : BitVec 256) (s : State) :
    Host.Outcome State Fault Refusal :=
  .next (s.upd fun p =>
    if (p.spdmHub hub t).any p.keysErased then p
    else p.spdm hub t fun a =>
      let all := p.measurements a
      let bs := if index = 0 then [(0, [BitVec.ofNat 8 all.length])] else if index = 0xFF then all else all.filter (·.1 == index)
      if bs.isEmpty then .spdmError
      else .spdmMeasurements bs (p.aliasSign a (bytesBE 32 nonce.toNat ++ bs.flatMap (·.2))))

/-- DOE_DISCOVERY (R459): answered even by a hub in ROM, which offers discovery (0) alone; firmware offers SPDM (1) too. -/
def execDoeDiscovery (hub : Nat) (index : BitVec 8) (s : State) : Host.Outcome State Fault Refusal :=
  .next (s.upd fun p =>
    if p.secUp hub && p.flag F.PCI_PORT_STATUS_link_up hub then
      let l := if p.bring.running.contains hub then [0, 1] else [0]
      p.emit (.answer hub (.doeDiscovery ((l.drop index.toNat).take 1)))
    else p)

end Sys2Proof.Machine
end

