-- ==== Sys2Proof/Machine/Mgmt.lean ====
section
/-! DEFINITION. The management endpoints (chapter 17): MCTP control, I3C addresses, PLDM types 2 and 5, and JTAG. -/

namespace Sys2Proof.Machine

/-! ### Endpoints (R475, R476) -/

/-- An MCTP control command is answered by the hub that receives it, in ROM too (R476). -/
def Panel.mctp (p : Panel) (hub : Nat) (t : Transport) (a : Answer) : Panel :=
  if p.transportUp hub t then p.reply hub (some t) a else p

def Panel.eid (p : Panel) (hub : Nat) (t : Transport) : BitVec 8 := smGetD (p.mgmtOf hub).eids (transportKey t) 0

/-- SET_ENDPOINT_ID (R475): the null and broadcast identifiers are not taken (PRESUMED from MCTP, log 20). -/
def execSetEndpointId (hub : Nat) (t : Transport) (eid : BitVec 8) (s : State) : Host.Outcome State Fault Refusal :=
  .next (s.upd fun p =>
    if p.transportUp hub t then
      let p := if eid = 0 ∨ eid = 0xFF then p
        else p.modMgmt hub fun m => { m with eids := smSet m.eids (transportKey t) eid }
      p.mctp hub t (.mctpEid (p.eid hub t))
    else p)

/-- GET_ENDPOINT_ID (R475). -/
def execGetEndpointId (hub : Nat) (t : Transport) (s : State) : Host.Outcome State Fault Refusal :=
  .next (s.upd fun p => p.mctp hub t (.mctpEid (p.eid hub t)))

/-- GET_MCTP_VERSION_SUPPORT (R475): base specification 1.3. -/
def execGetMctpVersionSupport (hub : Nat) (t : Transport) (s : State) : Host.Outcome State Fault Refusal :=
  .next (s.upd fun p => p.mctp hub t (.mctpVersion 0x13))

/-- GET_MESSAGE_TYPE_SUPPORT (R475): control, PLDM, SPDM, vendor-defined. -/
def execGetMessageTypeSupport (hub : Nat) (t : Transport) (s : State) : Host.Outcome State Fault Refusal :=
  .next (s.upd fun p => p.mctp hub t (.mctpTypes [0x00, 0x01, 0x05, 0x7F]))

/-- GET_VENDOR_DEFINED_MESSAGE_SUPPORT (R475). -/
def execGetVendorDefinedMessageSupport (hub : Nat) (t : Transport) (s : State) : Host.Outcome State Fault Refusal :=
  .next (s.upd fun p => p.mctp hub t .mctpVendor)

/-! ### I3C addresses (R475) -/

/-- ENTDAA: a target without a dynamic address takes one. -/
def execEntdaa (hub : Nat) (addr : BitVec 7) (s : State) : Host.Outcome State Fault Refusal :=
  .next (s.upd fun p =>
    if p.secUp hub && (p.mgmtOf hub).i3cAddr.isNone then p.modMgmt hub fun m => { m with i3cAddr := some addr } else p)

/-- SETDASA: the target of static address 0x3A takes a dynamic address. -/
def execSetdasa (hub : Nat) (static addr : BitVec 7) (s : State) : Host.Outcome State Fault Refusal :=
  .next (s.upd fun p =>
    if p.secUp hub && static == 0x3A && (p.mgmtOf hub).i3cAddr.isNone then
      p.modMgmt hub fun m => { m with i3cAddr := some addr }
    else p)

/-- RSTDAA: the port works as SMBus again. -/
def execRstdaa (hub : Nat) (s : State) : Host.Outcome State Fault Refusal :=
  .next (s.upd fun p => if p.secUp hub then p.modMgmt hub fun m => { m with i3cAddr := none } else p)

/-! ### PLDM type 5 (R456, R476, R477) -/

/-- A PLDM command, on a transport that works: relayed to the primary PMC; ERROR_NOT_READY without a path to it or in ROM (R475,
R476). -/
def Panel.pldm (p : Panel) (e : Endpoint) (f : Panel → Panel × Answer) : Panel :=
  if !p.transportUp e.hub e.via then p
  else if !p.hasPrimary || !p.bring.running.contains e.hub then p.reply e.hub (some e.via) .notReady
  else
    let (p, a) := f p
    p.reply e.hub (some e.via) a

/-- A PLDM type 5 command: by the primary PMC, or by a hub in ROM in the safe talkative state, for its own NVM (R364, R476; log 19). -/
def Panel.pldm5 (p : Panel) (e : Endpoint) (f : Nat → Panel → Panel × Answer) : Panel :=
  if p.transportUp e.hub e.via && p.bring.inRom.contains e.hub && p.stage == stageSafe then
    let (p, a) := f e.hub p
    p.reply e.hub (some e.via) a
  else p.pldm e fun p => f p.primaryHub p

/-- The component is in reach of the hub that serves the command. -/
def Panel.ownComponent (p : Panel) (owner component : Nat) : Bool :=
  p.bring.running.contains owner && (component == 1 || component == 2) ||
    component == (if owner = 3 then 2 else 1)

/-- Bring-up is in a stage from 1 to 9, and NVM writes are refused (R366, R477). -/
def Panel.nvmClosed (p : Panel) : Bool := decide (1 ≤ p.stage) && decide (p.stage ≤ 9)

/-- The NVM whose copy is the panel's flacon is protected while the other NVM's bytes spell no candidate (R456). -/
def Panel.nvmProtected (p : Panel) (component : Nat) : Bool :=
  let isB := decide (component = 2)
  let other := if isB then 0 else 3
  p.bring.flacon.isSome && p.bring.copyB == isB && !p.candidate other (p.copyOf other (p.nvmOf other))

def Panel.setUpdate (p : Panel) (hub : Nat) (u : Option Update) : Panel := p.modMgmt hub fun m => { m with update := u }

/-- REQUEST_UPDATE (R456, R477): a request starts the update anew. -/
def execRequestUpdate (e : Endpoint) (component : Nat) (s : State) : Host.Outcome State Fault Refusal :=
  .next (s.upd fun p => p.pldm5 e fun o p =>
    if p.nvmClosed then (p, .pldmRetry)
    else if !p.ownComponent o component then (p, .pldmFail)
    else if p.nvmProtected component then (p, .pldmNotUpdateable)
    else (p.setUpdate o (some ⟨component, [], false⟩), .pldmOk))

/-- Received bytes are written into the copy region of the component's NVM (R342, R456). -/
def Panel.writeImage (p : Panel) (component off : Nat) (data : List Byte) : Panel :=
  let h := if component = 1 then 0 else 3
  let n := p.nvmOf h
  p.setNvm h { n with image := (data.zipIdx).foldl (fun m e => smSet m (off + e.2) e.1) n.image }

/-- PLDM_TYPE_5_TRANSFER (R456, R477): at most 4,096 B, inside 120 MiB; the NVM is written as received. -/
def execPldmType5Transfer (e : Endpoint) (off : Nat) (data : List Byte) (s : State) : Host.Outcome State Fault Refusal :=
  .next (s.upd fun p => p.pldm5 e fun o p =>
    match (p.mgmtOf o).update with
    | none => (p, .pldmFail)
    | some u =>
      if p.nvmClosed then (p, .pldmRetry)
      else if p.nvmProtected u.component then (p, .pldmNotUpdateable)
      else if 4096 < data.length ∨ 120 * 2 ^ 20 < off + data.length then (p, .pldmFail)
      else
        let d := (data.zipIdx).foldl (fun m e => smSet m (off + e.2) e.1) u.data
        ((p.writeImage u.component off data).setUpdate o (some { u with data := d, verified := false }), .pldmOk))

/-- VERIFY_COMPLETE (R477): success when a read-back digest matches what was transferred. -/
def execVerifyComplete (e : Endpoint) (digestOk : Bool) (s : State) : Host.Outcome State Fault Refusal :=
  .next (s.upd fun p => p.pldm5 e fun o p =>
    match (p.mgmtOf o).update with
    | none => (p, .pldmFail)
    | some u => if digestOk then (p.setUpdate o (some { u with verified := true }), .pldmOk) else (p, .pldmFail))

/-- ACTIVATE_FIRMWARE (R477): in DOWN, DRIED or SAFE the hubs detach and restart from stage 1; else activation is pending until the next
stage 1. -/
def execActivateFirmware (hub : Nat) (t : Transport) (s : State) : Host.Outcome State Fault Refusal :=
  .next (s.upd fun p => p.pldm5 ⟨hub, t⟩ fun o p =>
    match (p.mgmtOf o).update with
    | none => (p, .pldmFail)
    | some u =>
      if !u.verified then (p, .pldmFail)
      else
        let p := p.setUpdate o none
        if p.serving = servDown ∨ p.serving = servDried ∨ p.stage = stageSafe then
          ((p.restartHubs).beginBringup 1, .pldmOk)
        else (p, .pldmPending))

/-! ### PLDM type 2 (R478) -/

/-- How many upper thresholds a reading has reached, and how many lower ones. -/
def upper (x : Nat) (l : List Nat) : Nat := (l.filter (· ≤ x)).length

def lower (x : Nat) (l : List Nat) : Nat := (l.filter (x ≤ ·)).length

/-- A sensor is refreshed: a threshold crossing is a platform event. A sensor that is unavailable holds none. -/
def Panel.sensor (p : Panel) (id : Nat) (live : Bool) (reading code : Nat) : Panel :=
  if !live then { p with pmc := { p.pmc with sensors := smDel p.pmc.sensors id } }
  else if smGetD p.pmc.sensors id 0 = code then p
  else ({ p with pmc := { p.pmc with sensors := smPut p.pmc.sensors 0 id code } }).platformEvent id reading

/-- Input voltage sensors: every zone's vin_dv is measured, a free value (log 1). -/
def Panel.vinSensors (p : Panel) : Panel :=
  let (a, p) := p.draw 1024
  let (d, p) := p.draw 1024
  let b := min 1023 (a + d)
  (p.sensor 0x0002 true a (lower a [410, 400, 380])).sensor 0x0003 true b (upper b [490, 500, 550])

/-- A zone's temperature. -/
def Panel.zoneSensor (p : Panel) (z : Nat) : Panel :=
  let t := p.fget F.PWR_ZONE_STATUS_temp_c 0 z
  let l := [p.throttleC, p.shutdownC, p.tripC]
  p.sensor (0x20 + z) (p.zoneState z == zoneOn || p.zoneState z == zoneDraining) t (upper t l)

/-- A stack's temperature, under its MPD site. -/
def Panel.stackSensor (p : Panel) (site : Nat) : Panel :=
  match (List.range p.nStacks).find? fun s => p.hasStack s && p.stackSite s == site with
  | none => p.sensor (0x40 + site) false 0 0
  | some s =>
    let t := p.fget F.MPD_HBM_STATUS_temp_c s
    let l := [p.fget F.MPD_TEMP_LIMITS_refresh_x2_c s, p.fget F.MPD_TEMP_LIMITS_throttle_c s, p.fget F.MPD_TEMP_LIMITS_shutdown_c s]
    p.sensor (0x40 + site) true t (upper t l)

/-- The least optical margin of an engine. -/
def Panel.opticalSensor (p : Panel) (k : Nat) : Panel :=
  match smGet p.oe (oeKey k 2) with
  | none => p.sensor (0x78 + k) false 0 0
  | some v => p.sensor (0x78 + k) true v.toNat (lower v.toNat [p.fget F.PMC_PREDICT_LIMITS_optical_margin, 0])

/-- The lowest island margin code, with its node's limits. -/
def Panel.marginSensor (p : Panel) : Panel :=
  let nodes := (List.range p.nDies).filter p.hasDie ++ (((List.range p.nStacks).filter p.hasStack).map (0x40 + ·))
  let l := nodes.flatMap fun n => (islandsOf n).filterMap fun i =>
    if p.hasIsland n i then some (p.fget F.CLK_MARGIN_now n i, n) else none
  match l with
  | [] => p.sensor 0x90 false 0 0
  | x :: xs =>
    let (m, n) := xs.foldl (fun a b => if b.1 < a.1 then b else a) x
    let (w, a) := p.marginLimits n
    p.sensor 0x90 true m (lower m [w, a])

/-- Ports of the fabric that are up, as a bit set (a state sensor). -/
def Panel.portSensor (p : Panel) : Panel :=
  let m := siteMask (upTo 16 fun q => p.flag F.HJF_PORT_STATUS_link_up (q / 4) (q % 4))
  p.sensor 0x104 true m m

/-- PLDM_SENSOR_REFRESH (R478): every 10 ms the primary PMC refreshes its sensors. The states of 0x0100 to 0x0103 are sent as they
change. -/
def execPldmSensorRefresh (s : State) : Host.Outcome State Fault Refusal :=
  .next (s.upd fun p =>
    if !p.hasPrimary then p
    else
      let w := p.fget F.PWR_PANEL_input_w
      let p := (p.sensor 0x0001 true w (upper w [p.capW, 25000])).vinSensors
      let p := (List.range 14).foldl (fun (p : Panel) z => p.zoneSensor z) p
      let p := (List.range 36).foldl (fun (p : Panel) i => p.stackSensor i) p
      let p := (List.range 8).foldl (fun (p : Panel) k => p.opticalSensor k) p
      (p.marginSensor).portSensor)

/-- SET_EVENT_RECEIVER (R478). -/
def execSetEventReceiver (e : Endpoint) (eid : BitVec 8) (s : State) : Host.Outcome State Fault Refusal :=
  .next (s.upd fun p => p.pldm e fun p => (p.modMgmt e.hub fun m => { m with receiver := some eid }, .pldmOk))

/-! ### JTAG (R464, R465, R479) -/

/-- IDCODE of a hub. -/
def Panel.idcode (p : Panel) (hub : Nat) : BitVec 32 :=
  BitVec.ofNat 32 ((p.steppingOf (120 + hub)).toNat * 2 ^ 28 + 0x7264 * 2 ^ 12 + Config.jedecCode.toNat * 2 + 1)

/-- What an instruction that acts does: IDCODE shifts out its code; PMC_DEBUG halts the hub's PMC and lets it run, and its registers, as
the protected SRAM under SECURE_SRAM, shift out what the spec does not give, a free value (R464). -/
def Panel.jtagEffect (p : Panel) (hub : Nat) (a : JtagInstr) : Panel :=
  match a with
  | .idcode => p.emit (.idcode hub (p.idcode hub))
  | .pmcHalt => { p with pmc := { p.pmc with halted := insertAsc p.pmc.halted hub } }
  | .pmcResume => { p with pmc := { p.pmc with halted := p.pmc.halted.filter (· != hub) } }
  | .pmcRegs => let (v, p) := p.drawBits 64; p.emit (.jtagData hub v)
  | .sramRead => let (v, p) := p.drawBits 64; p.emit (.jtagData hub v)
  | _ => p

/-- JTAG_INSTRUCTION (R464, R465, R479). -/
def execJtagInstruction (hub : Nat) (i : JtagInstr) (s : State) : Host.Outcome State Fault Refusal :=
  .next (s.upd fun p =>
    if decide (4 ≤ hub) || !p.hubUp hub then p
    else
      let a := p.jtagActs i
      ((p.modMgmt hub fun m => { m with jtag := a }).emit (.jtag hub a)).jtagEffect hub a)

end Sys2Proof.Machine
end

