-- ==== Sys2Proof/Machine/RegAccess.lean ====
section
/-! DEFINITION. The register map (chapter 18): where an offset of register space leads (R495 to R500), one read and one write of a
register (R501 to R510), and the commands that carry them: MRD and MWR with their answers (R212), BAR0 TLPs (R437, R501), and a
plain register write (R11). -/

namespace Sys2Proof.Machine

/-! ### Where an offset leads (R495 to R500) -/

inductive Target where
  /-- ADDRESS_ERROR (R500) -/
  | absent
  /-- an offset of a block that names no register: reads as zero, ignores writes (R500) -/
  | zero
  | reg (w : Win) (r : Reg) (i j : Nat)
  /-- word 0 or 1 of an MSI-X table entry, and a word of the pending bits (R498) -/
  | msix (host : Bool) (v w : Nat)
  | pba (host : Bool) (k : Nat)
  deriving DecidableEq, Repr

/-- The window an offset of register space lies in, with the offset in it, where it is addressable (R495, R499). -/
def Panel.window (p : Panel) (off : Nat) : Option (Win × Nat) :=
  if off < 0x800000 then
    let h := off / 0x200000
    if p.hubUp h && !p.pwr.resetHeld then some (.hub h, off % 0x200000) else none
  else if off < 0xC00000 then
    let d := (off - 0x800000) / 0x10000
    if p.hasDie d && p.nodeUp d then some (.die d, off % 0x10000) else none
  else if off < 0xE00000 then
    let s := (off - 0xC00000) / 0x8000
    if p.hasStack s && p.nodeUp (0x40 + s) then some (.stack s, off % 0x8000) else none
  else if 0x1000000 ≤ off ∧ off < 0x1400000 then
    let c := (off - 0x1000000) / 0x1000
    if p.coreUp c then some (.core c, off % 0x1000) else none
  else none

/-- The block exists in the window (R496). -/
def Win.hasBlock (w : Win) (b : Blk) : Bool :=
  match w with
  | .hub h => h == 0 || h == 3 || !([Blk.rqe, .mir, .pwr, .pci, .pmc].contains b)
  | _ => true

/-- The error log and the field fault list of a hub in ROM cannot be read: it offers its reports only (R364); such a read is answered as
one of an absent register is (DESIGN CHOICE, log 56). -/
def Panel.romHides (p : Panel) (w : Win) (b : Blk) (off : Nat) : Bool :=
  match w with
  | .hub h =>
    p.bring.inRom.contains h && b == .pmc &&
      match findReg b off with
      | some (r, _, _) => [Reg.PMC_LOG, .PMC_LOG_HEAD, .PMC_FFL_STATUS].contains r
      | none => false
  | _ => false

/-- Where an 8 B-aligned offset leads. -/
def Panel.locate (p : Panel) (off : Nat) : Target :=
  match p.window off with
  | none => .absent
  | some (w, o) =>
    match w.block o with
    | none => .absent
    | some (b, x) =>
      if !w.hasBlock b || p.romHides w b x then .absent
      else if b = .pci ∧ 0x8000 ≤ x ∧ x < 0x10000 then .msix (off / 0x200000 == 3) ((x - 0x8000) / 16) (x / 8 % 2)
      else if b = .pci ∧ 0x10000 ≤ x ∧ x < 0x10100 then .pba (off / 0x200000 == 3) ((x - 0x10000) / 8)
      else
        match w.find o with
        | some (r, i, j) => if (r == .MIR_REGION || r == .MIR_GUEST_WIN) && i == 0 then .zero else .reg w r i j
        | none => .zero

/-! ### Reading (R501, R507 to R511) -/

/-- HUB_ID of a hub (R508 to R510). -/
def Panel.hubIdRead (p : Panel) (h : Nat) : W64 :=
  let v := F.HUB_ID_part.write 0 (if p.fab.grade = 2 then 0x7248 else 0x7264)
  let v := F.HUB_ID_grade.write v p.fab.grade
  let v := F.HUB_ID_stepping.write v (p.steppingOf (120 + h)).toNat
  let v := F.HUB_ID_levels.write v (p.levelsOf (120 + h)).toNat
  let v := F.HUB_ID_pinned_level.write v
    (match p.flaconOf h with | some x => if p.bring.running.contains h then x.level.toNat else 0 | none => 0)
  F.HUB_ID_hub.write v h

/-- SEC_STATUS of a hub (R450, R451, R473). -/
def Panel.secStatusRead (p : Panel) (h : Nat) : W64 :=
  let f := p.fuses h
  let v := F.SEC_STATUS_flacon_floor.write (p.get .SEC_STATUS h) f.floorC
  let v := F.SEC_STATUS_fw_floor.write v f.floorF
  let v := F.SEC_STATUS_owner_slots.write v (sumL ((List.range 4).map fun k => f.slotCode k * 4 ^ k))
  let v := F.SEC_STATUS_attestation_ready.write v (b2n (p.attests h))
  F.SEC_STATUS_fuses_equal.write v (b2n (p.hubUp 0 && p.hubUp 3 && p.fab.fuses0 == p.fab.fuses3))

/-- A measured or elapsing quantity reads as a free value below a bound while its condition holds, zero otherwise (log 1). -/
def Panel.readFree (p : Panel) (f : RField) (v : W64) (live : Bool) (bound : Nat) : W64 × Panel :=
  if live then
    let (n, p) := p.draw bound
    (f.write v n, p)
  else (f.write v 0, p)

/-- A register as it reads. -/
def Panel.regRead (p : Panel) (w : Win) (r : Reg) (i j : Nat) : W64 × Panel :=
  let u := w.unitOf r.info.blk
  let v := p.get r u i j
  if r.info.blk = .core then p.coreRead u r i
  else
    match r with
    | .PNW_POOL_STATUS => (p.poolStatus u, p)
    | .HJF_POOL_STATUS => (p.fPoolStatus u, p)
    | .HJF_CONTROL => (p.hjfControlRead u, p)
    | .MIR_STATUS => (p.mirStatusRead, p)
    | .PWR_TOKEN_STATUS => (p.tokenStatus, p)
    | .PWR_ZONE_STATUS => p.readFree F.PWR_ZONE_STATUS_vin_dv v p.pwr.in44 1024
    | .CLK_ISLAND => (F.CLK_ISLAND_ceiling.write v (p.ceilingOf u), p)
    | .PCI_LEASE => p.readFree F.PCI_LEASE_remaining_ms v (p.fget F.PCI_LEASE_holder != leaseNone) 1001
    | .PMC_ERR_STATUS => (F.PMC_ERR_STATUS_queue_depth.write v (p.mgr u).queue.length, p)
    | .SEC_DEBUG => p.readFree F.SEC_DEBUG_remaining_ms v (p.fget F.SEC_STATUS_debug_open u != 0)
        (p.fget F.SEC_DEBUG_remaining_ms u + 1)
    | .SEC_STATUS => (p.secStatusRead u, p)
    | .HUB_ID => (p.hubIdRead u, p)
    | _ => (v, p)

/-- A read of a target; none where it is answered ADDRESS_ERROR. -/
def Panel.readTarget (p : Panel) (t : Target) : Option (W64 × Panel) :=
  match t with
  | .absent => none
  | .zero => some (0, p)
  | .reg w r i j => some (p.regRead w r i j)
  | .msix host v w => some ((p.port host).msixWord v w, p)
  | .pba host k =>
    some (BitVec.ofNat 64 (sumL ((upTo 64 fun b => smHas (p.port host).pba (64 * k + b)).map (2 ^ ·))), p)

/-! ### Writing (R11, R277, R402, R439, R502 to R506) -/

/-- The RWL fields of the window's block are locked: a hub's once stage 1 has loaded its presets, a die's or stack's always
when it is addressable (R506). -/
def Panel.isLocked (p : Panel) (w : Win) (r : Reg) : Bool :=
  match w with
  | .hub h => if r.info.share = .own then p.bring.running.contains h else !p.bring.running.isEmpty
  | _ => true

/-- LOCK_VIOLATION at the window's unit. -/
def Panel.reportLock (p : Panel) (w : Win) : Panel :=
  match w with
  | .hub h => p.sendReport h 0x0107 clsInfo lvDie 5 (BitVec.ofNat 8 h) 0 none none
  | .die d => p.reportNode d 0x0107 clsInfo
  | .stack s => p.reportNode (0x40 + s) 0x0107 clsInfo
  | .core c => p.reportNode (c / 16) 0x0107 clsInfo

/-- A write by field types, with the lock of R506. -/
def Panel.plainWrite (p : Panel) (w : Win) (r : Reg) (i j : Nat) (v : W64) : Panel :=
  let u := w.unitOf r.info.blk
  let k := p.isLocked w r
  let p := if k && r.triesLocked (p.get r u i j) v then p.reportLock w else p
  p.store r k v u i j

/-- A field was written with all ones (R245, R277, R434). -/
def allOnes (f : RField) (v : W64) : Bool := f.read v == f.max

/-- An engine is enabled in a hub (R277). -/
def Panel.engineOn (p : Panel) : Bool := p.flag F.RQE_CONTROL_enable 0 || p.flag F.RQE_CONTROL_enable 3

/-- Writer code of a POLICY record (R296); other writers are counted as the PMC. -/
def policyWriter : Writer → BitVec 2
  | .hostA => 0
  | .hostB => 1
  | _ => 2

/-- A policy write is an input of the active engine, and both copies change at once; `mask` holds the bits that are policy, and the
others are configuration (R277). -/
def Panel.policyWrite (p : Panel) (src : Writer) (r : Reg) (i : Nat) (mask v : W64) : Panel :=
  let old := p.get r 0 i
  let v' := if p.engineOn then (v &&& mask) ||| (old &&& ~~~ mask) else v
  let p := p.store r false v' 0 i
  match p.activeHub with
  | some h =>
    let off := BitVec.ofNat 16 (r.info.off + i * r.info.s1)
    p.modEng h fun e => { e with inputs := e.inputs ++ [.policy (policyWriter src) off v (p.get r 0 i)] }
  | none => p

/-- A configuration register of the engine or of the mirror is written while what it configures is off. -/
def Panel.whileOff (p : Panel) (on : Bool) (f : Panel → Panel) : Panel := if on then p else f p

/-- Writes to RQE registers (R277, R298, R310). -/
def Panel.rqeWrite (p : Panel) (src : Writer) (hub : Nat) (r : Reg) (i : Nat) (v : W64) : Panel :=
  match r with
  | .RQE_CONTROL => p.rqeControl hub v
  | .RQE_BATCH => p.policyWrite src r i (BitVec.allOnes 64) v
  | .RQE_PRIO => p.policyWrite src r i (BitVec.allOnes 64) v
  | .RQE_STEP_CONFIG => p.policyWrite src r i (maskOf 63 16) v
  | .RQE_KV_CONFIG => p.policyWrite src r i (maskOf 62 40) v
  | .RQE_ILOG_STREAM => p.streamStored v
  | .RQE_KV_FREE =>
    if allOnes F.RQE_KV_FREE_low_water v then p.fput F.RQE_KV_FREE_low_water (p.fget F.RQE_KV_FREE_free hub) hub
    else p.store r false v hub i
  | .RQE_ILOG_STATUS => p.store r false v hub i
  | _ => p.whileOff p.engineOn fun p => p.store r false v hub i

/-- Bits of MIR_CONFIG that are no configuration: enable, on_loss, auto_return and ack_timeout_us (DEDUCED from R388, log 19). -/
def mirFree : W64 := maskOf 47 32 ||| maskOf 2 0

/-- Writes to MIR registers (R402). -/
def Panel.mirWrite (p : Panel) (r : Reg) (i : Nat) (v : W64) : Panel :=
  let was := p.flag F.MIR_CONFIG_enable
  match r with
  | .MIR_CONFIG =>
    let v := if was then (v &&& mirFree) ||| (p.get r &&& ~~~ mirFree) else v
    (p.store r false v).mirConfigured was
  | _ => p.whileOff was fun p => p.store r false v 0 i

/-- Writes to HJF registers (R417, R418, R427, R434). -/
def Panel.hjfWrite (p : Panel) (hub : Nat) (r : Reg) (i j : Nat) (v : W64) : Panel :=
  match r with
  | .HJF_COORD =>
    let held := (List.range 16).any fun q => p.portState (q / 4) (q % 4) == portUp
    p.store r false (if held then F.HJF_COORD_coord.write v (p.fget F.HJF_COORD_coord) else v)
  | .HJF_CONTROL =>
    let p := if bit v.toNat F.HJF_CONTROL_apply_routes.lo then p.routeApply hub else p
    if bit v.toNat F.HJF_CONTROL_detach.lo then p.detachHub hub else p
  | .HJF_FQ_CONFIG =>
    let n := F.HJF_FQ_CONFIG_size_log2.read v
    p.store r false (if n < 4 ∨ 15 < n then F.HJF_FQ_CONFIG_enable.write v 0 else v) hub i
  | .HJF_EXPORT =>
    let lo := F.HJF_EXPORT_base.read v * 2 ^ 21
    let hi := lo + F.HJF_EXPORT_size_mib.read v * 2 ^ 20
    let bad := decide (lo < regBase + 0x10000000) && decide (regBase < hi)
    p.store r false (if bad then F.HJF_EXPORT_enable.write v 0 else v) hub i
  | .HJF_POOL_STATUS =>
    let p := p.store r false v hub
    if allOnes F.HJF_POOL_STATUS_high_water v then p.fput F.HJF_POOL_STATUS_high_water (p.fUsed hub) hub else p
  | _ => p.store r false v hub i j

/-- Writes to PCI registers (R436 to R449). -/
def Panel.pciWrite (p : Panel) (src : Writer) (hub : Nat) (r : Reg) (i : Nat) (v : W64) : Panel :=
  match r with
  | .PCI_LEASE => match writerHost src with | some h => p.leaseWrite h v | none => p
  | .PCI_SQ_BASE => p.sqBaseWrite hub i v
  | .PCI_SQ_TAIL => p.sqTailWrite hub i v
  | .PCI_CQ_BASE => p.cqBaseWrite hub i v
  | .PCI_CQ_HEAD => p.cqHeadWrite hub i v
  | .PCI_REGION_BASE => p.whileOff p.engineOn fun p => p.store r false v hub i
  | .PCI_REGION_SIZE => p.whileOff p.engineOn fun p => p.store r false v hub i
  | _ => p.store r false v hub i

/-- Writes to SEC registers (R463, R464). -/
def Panel.secWrite (p : Panel) (src : Writer) (hub : Nat) (r : Reg) (i : Nat) (v : W64) : Panel :=
  match r with
  | .SEC_CMD_CONTROL => if bit v.toNat 0 && p.secOwnWay hub src then p.secSubmit hub else p
  | .SEC_DEBUG => if bit v.toNat F.SEC_DEBUG_relock.lo then p.closeDebug hub else p
  | _ => p.store r false v hub i

/-- A write of a register by a writer that may write it: its action where it has one, else its fields by type. -/
def Panel.regWrite (p : Panel) (src : Writer) (w : Win) (r : Reg) (i j : Nat) (v : W64) : Panel :=
  let u := w.unitOf r.info.blk
  match r.info.blk with
  | .core => p.coreWrite u r i v
  | .rqe => p.rqeWrite src u r i v
  | .mir => p.mirWrite r i v
  | .hjf => p.hjfWrite u r i j v
  | .pci => p.pciWrite src u r i v
  | .sec => p.secWrite src u r i v
  | _ =>
    match r with
    | .CD_CMEM_PART => p.cmemPartWrite u i v
    | .CD_RC_EPOCH => p.rcEpochWrite u i v
    | .MPD_HBM_CONFIG => p.mpdConfigWrite u v
    | .MPD_TPE_CONTROL => p.tpeControl u v src
    | .ACC_DESC => p.accDescWrite u i j v
    | .CLK_ISLAND => p.clkPointWrite u i v
    | .CLK_MARGIN =>
      let p := p.store r false v u i
      if allOnes F.CLK_MARGIN_low v then p.fput F.CLK_MARGIN_low 0x3F u i else p
    | .PWR_ZONE_CONTROL =>
      let q := F.PWR_ZONE_CONTROL_max_point.read v
      if q = 5 ∨ q = 6 then p else p.store r false v u i
    | .HUB_HBM_MAP_CONTROL => p.mapControl v
    | .HUB_BAR_CONTROL => p.barControl v
    | .PNW_MC_CONTROL => p.mcControl v
    | .PNW_POOL_STATUS =>
      let p := p.plainWrite w r i j v
      if allOnes F.PNW_POOL_STATUS_high_water v then p.fput F.PNW_POOL_STATUS_high_water (p.poolUsed u) u else p
    | .PMC_BRINGUP_CONTROL => p.bringupControl v
    | .PMC_SERVICE_CONTROL => p.serviceControl (if src = .bmc then v &&& maskOf 0 0 else v)
    | _ => p.plainWrite w r i j v

/-- How a writer's access to a register is judged: taken, ignored, or refused for want of the lease and counted. -/
inductive Verdict where
  | take
  | ignore
  | deny
  deriving DecidableEq, Repr

/-- A port's queue registers, which nobody writes through the other port (R440). -/
def queueReg (r : Reg) : Bool := [Reg.PCI_SQ_BASE, .PCI_SQ_TAIL, .PCI_CQ_BASE, .PCI_CQ_HEAD].contains r

/-- A register with a field that a write may change or act by; of these all are control registers but for R439's exceptions. -/
def Reg.writable (r : Reg) : Bool := r.fields.any fun f => f.kind != .ro

/-- Registers of the commands that the board management controller gives over MCTP (R364, R390, R461, R502). -/
def bmcRegs : List Reg := [.PMC_BRINGUP_CONTROL, .PMC_SERVICE_CONTROL, .SEC_CMD, .SEC_CMD_CONTROL]

/-- The rules of R439, R440 and R502 for a writer. -/
def Panel.mayWrite (p : Panel) (src : Writer) (w : Win) (r : Reg) : Verdict :=
  match writerHost src with
  | none =>
    if src = .bmc && !(bmcRegs.contains r) then .ignore else .take
  | some h =>
    let own := (queueReg r || r == .PCI_BAR2_BASE) && ownPort src (w.unitOf .pci)
    if !r.writable then .ignore
    else if own ∨ r = .PCI_LEASE ∨ (r = .RQE_ILOG_STREAM ∧ p.holdsStream h) then .take
    else if !p.holdsLease h then .deny
    else if queueReg r then .ignore else .take

/-- A write counted and discarded for want of the lease (R439). -/
def Panel.leaseDenied (p : Panel) (src : Writer) : Panel :=
  match writerHost src with
  | some h => p.addHold F.PCI_PORT_STATUS_lease_denied 1 (portHub h)
  | none => p

/-- A write of a target; none where it is answered ADDRESS_ERROR. -/
def Panel.writeTarget (p : Panel) (src : Writer) (t : Target) (v : W64) : Option Panel :=
  match t with
  | .absent => none
  | .zero => some p
  | .reg w r i j =>
    some (match p.mayWrite src w r with
      | .take => p.regWrite src w r i j v
      | .ignore => p
      | .deny => p.leaseDenied src)
  | .msix host k w =>
    some (p.asWriter src fun p => (p.modPort host fun x => { x with msix := smSet x.msix (2 * k + w) v }).flushVectors host)
  | .pba .. => some p

/-! ### MRD and MWR (R212, R213, R502) -/

/-- The hub unit that sends a management request (R211, R502). -/
def unitWriter (u : Nat) : Option Writer :=
  if u = 24 then some .pmc else if u = 25 then some .rqe else if u = 26 then some .mirror else none

/-- Offset in register space of a panel address. -/
def regOffset (pa : Nat) : Option Nat := if inRegs pa ∧ pa % 8 = 0 then some (pa - regBase) else none

/-- MRD (R212, R219, R500): MRD_DATA with 8 B, or MNAK ADDRESS_ERROR. -/
def execMrd (k : Packet) (s : State) : Host.Outcome State Fault Refusal :=
  .next (s.upd fun p =>
    if !p.nodeUp k.dstNode.toNat || p.early k then p
    else
      let p := p.takePacket k
      match (unitWriter k.srcUnit.toNat).bind fun _ => (regOffset k.addr.toNat).bind fun o => p.readTarget (p.locate o) with
      | some (v, p) => p.answer k 0x1A 0 (toBytes 8 v.toNat)
      | none => p.answer k 0x1C 1)

/-- MWR (R212, R219, R500): MWR_ACK, or MNAK ADDRESS_ERROR. -/
def execMwr (k : Packet) (s : State) : Host.Outcome State Fault Refusal :=
  .next (s.upd fun p =>
    if !p.nodeUp k.dstNode.toNat || p.early k then p
    else
      let p := p.takePacket k
      let v : W64 := BitVec.ofNat 64 (ofBytes (k.payload.take 8))
      match (unitWriter k.srcUnit.toNat).bind fun src => (regOffset k.addr.toNat).bind fun o => p.writeTarget src (p.locate o) v with
      | some p => p.answer k 0x1B 0
      | none => p.answer k 0x1C 1)

/-- The requester takes the answer of a register access. -/
def Panel.mgmtAnswer (p : Panel) (k : Packet) : Panel :=
  p.response k fun p w => match w.kind with | .hub => some (p.endWait w) | _ => none

/-- MRD_DATA (R212). -/
def execMrdData (k : Packet) (s : State) : Host.Outcome State Fault Refusal := .next (s.upd fun p => p.mgmtAnswer k)

/-- MWR_ACK (R212, R504). -/
def execMwrAck (k : Packet) (s : State) : Host.Outcome State Fault Refusal := .next (s.upd fun p => p.mgmtAnswer k)

/-- MNAK (R213). -/
def execMnak (k : Packet) (s : State) : Host.Outcome State Fault Refusal := .next (s.upd fun p => p.mgmtAnswer k)

/-! ### BAR0 (R437, R501) -/

/-- The writer a host is. -/
def hostWriter (host : Bool) : Writer := if host then .hostB else .hostA

/-- Registers read one after another from an offset; none where one of them answers ADDRESS_ERROR. -/
def Panel.readRegs (p : Panel) : Nat → Nat → Option (List Byte × Panel)
  | _, 0 => some ([], p)
  | off, n + 1 =>
    match p.readTarget (p.locate off) with
    | none => none
    | some (v, p) => (p.readRegs (off + 8) n).map fun r => (toBytes 8 v.toNat ++ r.1, r.2)

/-- A read that R501 serves: 4 B aligned, or 8 B to 64 B of whole registers within one aligned 64 B. -/
def bar0ReadOk (off len : Nat) : Bool :=
  (len == 4 && off % 4 == 0) ||
    (decide (8 ≤ len) && decide (len ≤ 64) && len % 8 == 0 && off % 8 == 0 && off / 64 == (off + len - 1) / 64)

/-- A read of a register elsewhere than in the port's own hub may end in a timeout of the panel network: whether it does is free
(R437; DESIGN CHOICE, log 10). -/
def Panel.readLost (p : Panel) (host : Bool) (off : Nat) : Bool × Panel :=
  if off / 0x200000 = portHub host then (false, p)
  else
    let (t, p) := p.draw 2
    (t == 1, p)

/-- A host's read of registers (R437, R500, R501). -/
def Panel.bar0Read (p : Panel) (host : Bool) (off len : Nat) : Panel :=
  p.onBar host off len (2 ^ 28) 4096 fun p =>
  if !bar0ReadOk off len then (p.modPort host fun x => { x with aerUr := x.aerUr + 1 }).emit (.unsupported host)
  else
    let (lost, p) := p.readLost host off
    match if lost then none else p.readRegs (off / 8 * 8) ((len + 7) / 8) with
    | none => (p.modPort host fun x => { x with aerCa := x.aerCa + 1 }).emit (.completerAbort host)
    | some (bs, p) => p.emit (.readData host ((bs.drop (off % 8)).take len) false)

/-- A host's write of a register (R437, R439, R500, R501). -/
def Panel.bar0Write (p : Panel) (host : Bool) (off len : Nat) (v : W64) : Panel :=
  p.onBar host off len (2 ^ 28) 512 fun p =>
  if len ≠ 8 ∨ off % 8 ≠ 0 then p.modPort host fun x => { x with aerUr := x.aerUr + 1 }
  else (p.writeTarget (hostWriter host) (p.locate off) v).getD p

/-- Make an access that was held. -/
def Panel.access (p : Panel) : HeldAccess → Panel
  | .bar0Read h off len => p.bar0Read h off len
  | .bar0Write h off len v => p.bar0Write h off len v
  | .bar2Read h off len => p.bar2Read h off len
  | .bar2Write h off data poison => p.bar2Write h off data poison

/-- BAR0_READ_TLP (R220, R437, R500, R501). -/
def execBar0ReadTlp (host : Bool) (off len : Nat) (s : State) : Host.Outcome State Fault Refusal :=
  .next (s.upd fun p => p.orHeld (.bar0Read host off len) true (p.bar0Read host off len))

/-- BAR0_WRITE_TLP (R220, R437, R439, R500, R501). -/
def execBar0WriteTlp (host : Bool) (off len : Nat) (v : W64) (s : State) : Host.Outcome State Fault Refusal :=
  .next (s.upd fun p => p.orHeld (.bar0Write host off len v) true (p.bar0Write host off len v))

/-- REGISTER_WRITE (R11): a write to the register at an offset of register space. -/
def execRegisterWrite (src : Writer) (off : Nat) (v : W64) (s : State) : Host.Outcome State Fault Refusal :=
  .next (s.upd fun p => if off % 8 = 0 then (p.writeTarget src (p.locate off) v).getD p else p)

/-! ### The end of a drain (R220) -/

/-- Banks swap where new tables wait, topology entries and enabled groups follow, and shares are divided anew (R208, R220 step 4,
R230). -/
def Panel.swapTables (p : Panel) : Panel :=
  let p := if p.net.swapDue then (((p.swapBanks).writeTopo).rewriteGroups).divideShares else p
  { p with net := { p.net with swapDue := false } }

/-- DRAIN_ROUTERS_EMPTY (R220 steps 3 to 5, R230, R334): the tables swap, injection resumes, and the register accesses that were
held are made. The swap is also the drain of a zone that is being shut down (R334). -/
def execDrainRoutersEmpty (s : State) : Host.Outcome State Fault Refusal :=
  .next (s.upd fun p =>
    if !p.flag F.PNW_DRAIN_STATUS_in_progress || !p.routers.all p.poolEmpty || p.swapHeld then p
    else
      let p := (p.swapTables).finishDraining
      let p := p.routers.foldl (fun p n => p.fput F.PNW_POOL_STATUS_paused 0 n) p
      let (us, p) := p.draw 51
      let p := p.fput F.PNW_DRAIN_STATUS_last_pause_us us
      let p := (p.fput F.PNW_DRAIN_STATUS_in_progress 0).addWrap F.PNW_DRAIN_STATUS_drains 1
      p.net.held.foldl Panel.access { p with net := { p.net with held := [] } })

end Sys2Proof.Machine
end

