-- ==== Sys2Proof/Machine/Scalar.lean ====
section
/-! DEFINITION. The scalar class (R48 to R51): register, immediate, memory and descriptor-field instructions. -/

namespace Sys2Proof.Machine

/-- A register-form operation: rd := op ra rb (R48, R49). -/
def Panel.regOp (p : Panel) (c : Nat) (f : RegForm) (op : W64 → W64 → W64) : Panel :=
  p.issue c .issues (f.rsvd != 0) fun p k =>
    if k.unready f.ra || k.unready f.rb || k.unready f.rd then .stall
    else .done (p.setS c f.rd (op (k.sreg f.ra) (k.sreg f.rb)))

/-- The sign-extended immediate (R48). -/
def immVal (f : ImmForm) : W64 := f.imm.signExtend 64

/-- Bits [45:6] of a shift immediate are zero (R47, R49). -/
def shiftOk (f : ImmForm) : Bool := f.imm.toNat / 64 == 0

/-- An immediate-form operation: rd := op ra imm (R48, R49). -/
def Panel.immOp (p : Panel) (c : Nat) (f : ImmForm) (bad : Bool) (op : W64 → W64 → W64) : Panel :=
  p.issue c .issues bad fun p k =>
    if k.unready f.ra || k.unready f.rd then .stall else .done (p.setS c f.rd (op (k.sreg f.ra) (immVal f)))

/-- ADD (R49). -/
def execAdd (c : Nat) (f : RegForm) (s : State) : Host.Outcome State Fault Refusal :=
  .next (s.upd fun p => p.regOp c f (fun a b => a + b))

/-- SUB (R49). -/
def execSub (c : Nat) (f : RegForm) (s : State) : Host.Outcome State Fault Refusal :=
  .next (s.upd fun p => p.regOp c f (fun a b => a - b))

/-- AND (R49). -/
def execAnd (c : Nat) (f : RegForm) (s : State) : Host.Outcome State Fault Refusal :=
  .next (s.upd fun p => p.regOp c f (fun a b => a &&& b))

/-- OR (R49). -/
def execOr (c : Nat) (f : RegForm) (s : State) : Host.Outcome State Fault Refusal :=
  .next (s.upd fun p => p.regOp c f (fun a b => a ||| b))

/-- XOR (R49). -/
def execXor (c : Nat) (f : RegForm) (s : State) : Host.Outcome State Fault Refusal :=
  .next (s.upd fun p => p.regOp c f (fun a b => a ^^^ b))

/-- SLL (R49). -/
def execSll (c : Nat) (f : RegForm) (s : State) : Host.Outcome State Fault Refusal :=
  .next (s.upd fun p => p.regOp c f (fun a b => a <<< (b.toNat % 64)))

/-- SRL (R49). -/
def execSrl (c : Nat) (f : RegForm) (s : State) : Host.Outcome State Fault Refusal :=
  .next (s.upd fun p => p.regOp c f (fun a b => a >>> (b.toNat % 64)))

/-- SRA (R49). -/
def execSra (c : Nat) (f : RegForm) (s : State) : Host.Outcome State Fault Refusal :=
  .next (s.upd fun p => p.regOp c f (fun a b => a.sshiftRight (b.toNat % 64)))

/-- MUL (R49). -/
def execMul (c : Nat) (f : RegForm) (s : State) : Host.Outcome State Fault Refusal :=
  .next (s.upd fun p => p.regOp c f (fun a b => a * b))

/-- MULH (R49). -/
def execMulh (c : Nat) (f : RegForm) (s : State) : Host.Outcome State Fault Refusal :=
  .next (s.upd fun p => p.regOp c f (fun a b => BitVec.ofInt 64 (a.toInt * b.toInt / 2 ^ 64)))

/-- SLT (R49). -/
def execSlt (c : Nat) (f : RegForm) (s : State) : Host.Outcome State Fault Refusal :=
  .next (s.upd fun p => p.regOp c f (fun a b => if a.toInt < b.toInt then 1 else 0))

/-- SLTU (R49). -/
def execSltu (c : Nat) (f : RegForm) (s : State) : Host.Outcome State Fault Refusal :=
  .next (s.upd fun p => p.regOp c f (fun a b => if a.toNat < b.toNat then 1 else 0))

/-- MIN (R49). -/
def execMin (c : Nat) (f : RegForm) (s : State) : Host.Outcome State Fault Refusal :=
  .next (s.upd fun p => p.regOp c f (fun a b => if a.toInt ≤ b.toInt then a else b))

/-- MAX (R49). -/
def execMax (c : Nat) (f : RegForm) (s : State) : Host.Outcome State Fault Refusal :=
  .next (s.upd fun p => p.regOp c f (fun a b => if a.toInt ≤ b.toInt then b else a))

/-- ADDI (R49). -/
def execAddi (c : Nat) (f : ImmForm) (s : State) : Host.Outcome State Fault Refusal :=
  .next (s.upd fun p => p.immOp c f false (fun a i => a + i))

/-- ANDI (R49). -/
def execAndi (c : Nat) (f : ImmForm) (s : State) : Host.Outcome State Fault Refusal :=
  .next (s.upd fun p => p.immOp c f false (fun a i => a &&& i))

/-- ORI (R49). -/
def execOri (c : Nat) (f : ImmForm) (s : State) : Host.Outcome State Fault Refusal :=
  .next (s.upd fun p => p.immOp c f false (fun a i => a ||| i))

/-- XORI (R49). -/
def execXori (c : Nat) (f : ImmForm) (s : State) : Host.Outcome State Fault Refusal :=
  .next (s.upd fun p => p.immOp c f false (fun a i => a ^^^ i))

/-- SLLI (R49). -/
def execSlli (c : Nat) (f : ImmForm) (s : State) : Host.Outcome State Fault Refusal :=
  .next (s.upd fun p => p.immOp c f (!shiftOk f) (fun a i => a <<< (i.toNat % 64)))

/-- SRLI (R49). -/
def execSrli (c : Nat) (f : ImmForm) (s : State) : Host.Outcome State Fault Refusal :=
  .next (s.upd fun p => p.immOp c f (!shiftOk f) (fun a i => a >>> (i.toNat % 64)))

/-- SRAI (R49). -/
def execSrai (c : Nat) (f : ImmForm) (s : State) : Host.Outcome State Fault Refusal :=
  .next (s.upd fun p => p.immOp c f (!shiftOk f) (fun a i => a.sshiftRight (i.toNat % 64)))

/-- LI (R49): the ra field is unused and must be zero (R47). -/
def execLi (c : Nat) (f : ImmForm) (s : State) : Host.Outcome State Fault Refusal :=
  .next (s.upd fun p => p.immOp c f (f.ra != 0) fun _ i => i)

/-- LIH (R49): rd[63:32] := imm[31:0]; imm[45:32] and ra must be zero. -/
def execLih (c : Nat) (f : ImmForm) (s : State) : Host.Outcome State Fault Refusal :=
  .next (s.upd fun p => p.issue c .issues (f.ra != 0 || f.imm.toNat / 2 ^ 32 != 0) fun p k =>
    if k.unready f.rd then .stall
    else .done (p.setS c f.rd (f.imm.setWidth 32 ++ (k.sreg f.rd).setWidth 32)))

/-- A scalar load of n bytes (R50, R51). -/
def Panel.loadOp (p : Panel) (c : Nat) (f : ImmForm) (n : Nat) : Panel :=
  p.issue c .issues false fun p k =>
    if k.unready f.ra || k.unready f.rd then .stall
    else
      match offsetOf (k.sreg f.ra) f.imm n with
      | .inr t => t
      | .inl o =>
        let (d, pz, p) := p.spLoad c o n
        if pz then trapWith trapPoison (BitVec.ofNat 64 o) else .done (p.setS c f.rd (BitVec.ofNat 64 (ofBytes d)))

/-- A scalar store of the low n bytes of rs (R50). -/
def Panel.storeOp (p : Panel) (c : Nat) (f : ImmForm) (n : Nat) : Panel :=
  p.issue c .issues false fun p k =>
    if k.unready f.ra || k.unready f.rd then .stall
    else
      match offsetOf (k.sreg f.ra) f.imm n with
      | .inr t => t
      | .inl o => .done (p.spStore c o (toBytes n (k.sreg f.rd).toNat))

/-- LD (R50). -/
def execLd (c : Nat) (f : ImmForm) (s : State) : Host.Outcome State Fault Refusal :=
  .next (s.upd fun p => p.loadOp c f 8)

/-- LDW (R50). -/
def execLdw (c : Nat) (f : ImmForm) (s : State) : Host.Outcome State Fault Refusal :=
  .next (s.upd fun p => p.loadOp c f 4)

/-- ST (R50). -/
def execSt (c : Nat) (f : ImmForm) (s : State) : Host.Outcome State Fault Refusal :=
  .next (s.upd fun p => p.storeOp c f 8)

/-- STW (R50). -/
def execStw (c : Nat) (f : ImmForm) (s : State) : Host.Outcome State Fault Refusal :=
  .next (s.upd fun p => p.storeOp c f 4)

/-- DLD (R50, R51). -/
def execDld (c : Nat) (f : DMemForm) (s : State) : Host.Outcome State Fault Refusal :=
  .next (s.upd fun p => p.issue c .issues (f.rsvd != 0) fun p k =>
    if k.unready f.ra then .stall
    else
      match offsetOf (k.sreg f.ra) f.imm 32 with
      | .inr t => t
      | .inl o =>
        let (d, pz, p) := p.spLoad c o 32
        if pz then trapWith trapPoison (BitVec.ofNat 64 o)
        else .done (p.modCore c fun k => k.setD f.dn (BitVec.ofNat 256 (ofBytes d))))

/-- DST (R50). -/
def execDst (c : Nat) (f : DMemForm) (s : State) : Host.Outcome State Fault Refusal :=
  .next (s.upd fun p => p.issue c .issues (f.rsvd != 0) fun p k =>
    if k.unready f.ra then .stall
    else
      match offsetOf (k.sreg f.ra) f.imm 32 with
      | .inr t => t
      | .inl o => .done (p.spStore c o (toBytes 32 (k.dreg f.dn).toNat)))

/-- The bits of the descriptor field a sel names (R40, R49), and whether DGET sign-extends it. -/
def selField (sel : BitVec 4) : Option (Nat × Nat × Bool) :=
  match sel.toNat with
  | 0 => some (55, 0, false)
  | 1 => some (59, 56, false)
  | 2 => some (61, 60, false)
  | 3 => some (95, 64, true)
  | 4 => some (127, 96, true)
  | 5 => some (159, 128, true)
  | 6 => some (179, 160, false)
  | 7 => some (211, 192, false)
  | 8 => some (231, 212, false)
  | 9 => some (255, 232, false)
  | _ => none

/-- A 256-bit word with bits [hi:lo] replaced. -/
def putBits256 (w : W256) (hi lo v : Nat) : W256 :=
  BitVec.ofNat 256 (w.toNat - (bits w.toNat hi lo) * 2 ^ lo + v % 2 ^ (hi + 1 - lo) * 2 ^ lo)

/-- DSET (R49). -/
def execDset (c : Nat) (f : DFldForm) (s : State) : Host.Outcome State Fault Refusal :=
  .next (s.upd fun p => p.issue c .issues (f.rsvd != 0 || (selField f.sel).isNone) fun p k =>
    if k.unready f.r then .stall
    else
      match selField f.sel with
      | none => illegal
      | some (hi, lo, _) =>
        .done (p.modCore c fun k => k.setD f.dn (putBits256 (k.dreg f.dn) hi lo (k.sreg f.r).toNat)))

/-- DGET (R49). -/
def execDget (c : Nat) (f : DFldForm) (s : State) : Host.Outcome State Fault Refusal :=
  .next (s.upd fun p => p.issue c .issues (f.rsvd != 0 || (selField f.sel).isNone) fun p k =>
    if k.unready f.r then .stall
    else
      match selField f.sel with
      | none => illegal
      | some (hi, lo, sx) =>
        let v := bits (k.dreg f.dn).toNat hi lo
        .done (p.setS c f.r (if sx then wrap64 (signed (hi + 1 - lo) v) else BitVec.ofNat 64 v)))

end Sys2Proof.Machine
end

