-- ==== Sys2Proof/Machine/Sync.lean ====
section
/-! DEFINITION. The sync class (R55 to R63): token posts and waits, barriers as a core sees them, epochs, and the events
that end a wait. -/

namespace Sys2Proof.Machine

/-- Remote posts not yet acknowledged or not yet sent (R58). -/
def Core.remotePosts (k : Core) : Nat := k.postsOut + (k.posts.filter (·.remote)).length

/-- TPOST (R57, R58): the post waits for its release mask. -/
def execTpost (c : Nat) (f : TpostForm) (s : State) : Host.Outcome State Fault Refusal :=
  .next (s.upd fun p =>
    p.issue c .issues (f.rsvd != 0 || f.inc == 0 || (!f.remote && f.target != 0)) fun p k =>
      if f.remote && decide (16 ≤ k.remotePosts) then .stall
      else .done (p.setCore c { k with
        posts := k.posts ++ [⟨f.tn, f.remote, f.target, f.inc, f.mask, k.q.seq, k.spec.isSome⟩] }))

/-- The request-class token-post packet of R59, R210. -/
def postPacket (src unit dst core tn inc : Nat) (tag : BitVec 16) : Packet :=
  { plainPacket 0x02 0 src unit dst tag with w2 := BitVec.ofNat 64 (inc * 2 ^ 15 + tn * 2 ^ 10 + core) }

/-- Send a remote post; a target absent from the shape gives ADDRESS_ERROR at the source (R59, R60, R224). -/
def Panel.sendPost (p : Panel) (c : Nat) (o : Post) : Panel :=
  let t := o.target.toNat
  if !p.hasCore t then p.raiseAsync c asyncPost t
  else
    let (tag, p) := p.await (c / 16) (c % 16) (.post c t)
    let p := p.modCore c fun k => { k with postsOut := k.postsOut + 1 }
    p.inject (c / 16) (postPacket (c / 16) (c % 16) (t / 16) t o.tn.toNat o.inc.toNat tag)

/-- TPOST_RELEASE (R56, R58, R59): the k-th post held by the core, if its release mask is complete and no branch holds it,
is applied to the core's own counter or sent. -/
def execTpostRelease (c k : Nat) (s : State) : Host.Outcome State Fault Refusal :=
  .next (s.upd fun p =>
    let kr := p.core c
    match kr.posts[k]? with
    | none => p
    | some o =>
      if o.spec || !kr.classesDone o.mask o.seq then p
      else
        let p := p.setCore c { kr with posts := kr.posts.eraseIdx k }
        if o.remote then p.sendPost c o else p.tokenAdd c o.tn.toNat o.inc.toNat)

/-- TWAIT (R57): the threshold is subtracted at once, or issue blocks. -/
def execTwait (c : Nat) (f : TwaitForm) (s : State) : Host.Outcome State Fault Refusal :=
  .next (s.upd fun p => p.issue c .waits (f.rsvd != 0 || (f.ra != 0 && f.threshold != 0)) fun p k =>
    if k.unready f.ra then .stall
    else
      let t := if f.ra = 0 then f.threshold.toNat else (k.sreg f.ra).toNat % 2 ^ 32
      let v := p.fget F.CORE_TOKEN_value c f.tn.toNat
      if t ≤ v then .done (p.fput F.CORE_TOKEN_value (v - t) c f.tn.toNat) else .block (.twait f.tn t))

/-- TWAIT_SATISFY (R57). -/
def execTwaitSatisfy (c : Nat) (s : State) : Host.Outcome State Fault Refusal :=
  .next (s.upd fun p =>
    match (p.core c).blocked with
    | some (.twait tn t) =>
      let v := p.fget F.CORE_TOKEN_value c tn.toNat
      if t ≤ v then p.unblock c fun p => p.fput F.CORE_TOKEN_value (v - t) c tn.toNat else p
    | _ => p)

/-- TTEST (R57): a = rd, b = tn. -/
def execTtest (c : Nat) (f : TwoForm) (s : State) : Host.Outcome State Fault Refusal :=
  .next (s.upd fun p => p.issue c .waits (f.rsvd != 0) fun p k =>
    if k.unready f.a then .stall
    else .done (p.setS c f.a (BitVec.ofNat 64 (p.fget F.CORE_TOKEN_value c f.b.toNat))))

/-- TSET (R57): a = tn, b = ra. -/
def execTset (c : Nat) (f : TwoForm) (s : State) : Host.Outcome State Fault Refusal :=
  .next (s.upd fun p => p.issue c .waits (f.rsvd != 0) fun p k =>
    if k.unready f.b then .stall else .done (p.fput F.CORE_TOKEN_value (k.sreg f.b).toNat c f.a.toNat))

/-- BAR.ARRIVE (R62): issue blocks until every engine class is complete. -/
def execBarArrive (c : Nat) (f : BarForm) (s : State) : Host.Outcome State Fault Refusal :=
  .next (s.upd fun p => p.issue c .waits (f.rsvd != 0) fun _ k =>
    if smHas k.arrivals f.channel.toNat then trapFree trapBarrier else .block (.barArrive f.channel.toNat))

/-- BAR.WAIT (R62). -/
def execBarWait (c : Nat) (f : BarForm) (s : State) : Host.Outcome State Fault Refusal :=
  .next (s.upd fun p => p.issue c .waits (f.rsvd != 0) fun p k =>
    let ch := f.channel.toNat
    if !smHas k.arrivals ch then trapFree trapBarrier
    else if smHas k.released ch then
      .done (p.setCore c { k with arrivals := smDel k.arrivals ch, released := smDel k.released ch })
    else .block (.barWait ch))

/-- BAR_WAIT_RELEASE (R62, R303): the release has reached the core and its blocked BAR.WAIT completes. -/
def execBarWaitRelease (c : Nat) (s : State) : Host.Outcome State Fault Refusal :=
  .next (s.upd fun p =>
    match (p.core c).blocked with
    | some (.barWait ch) =>
      if smHas (p.core c).released ch then
        p.unblock c fun p => p.modCore c fun k =>
          { k with arrivals := smDel k.arrivals ch, released := smDel k.released ch }
      else p
    | _ => p)

/-- Advance the epoch of the core's cluster (R63, R172). -/
def Panel.coreEpoch (p : Panel) (c : Nat) : Panel := p.advanceEpoch (c / 16) (c / 8 % 2) 1

/-- EPOCH.ADVANCE (R63): at once where the DMA class is complete, else issue blocks; FENCE_COMPLETE ends the wait. -/
def execEpochAdvance (c : Nat) (rsvd : BitVec 56) (s : State) : Host.Outcome State Fault Refusal :=
  .next (s.upd fun p => p.issue c .waits (rsvd != 0) fun p k =>
    if k.classesDone 0b0010 k.q.seq then .done (p.coreEpoch c) else .block .epochAdvance)

/-- WAIT_TIMEOUT (R61): a blocked TWAIT or BAR.WAIT reaches a limit that is not zero. -/
def execWaitTimeout (c : Nat) (s : State) : Host.Outcome State Fault Refusal :=
  .next (s.upd fun p =>
    let k := p.core c
    let hit := if p.fget F.CORE_WAIT_LIMIT_limit c = 0 || p.asyncDue c then p
      else (p.setCore c { k with blocked := none }).syncTrap c k.q.pc trapWait none
    match k.blocked with
    | some (.twait ..) => hit
    | some (.barWait _) => hit
    | _ => p)

/-- FENCE (R56, R69). -/
def execFence (c : Nat) (f : FenceForm) (s : State) : Host.Outcome State Fault Refusal :=
  .next (s.upd fun p => p.issue c .waits (f.rsvd != 0) fun p k =>
    if k.classesDone f.mask k.q.seq then .done p else .block (.fence f.mask))

/-- FENCE_COMPLETE (R56, R63): the classes a FENCE or an EPOCH.ADVANCE waits on are complete. -/
def execFenceComplete (c : Nat) (s : State) : Host.Outcome State Fault Refusal :=
  .next (s.upd fun p =>
    let k := p.core c
    match k.blocked with
    | some (.fence m) => if k.classesDone m k.q.seq then p.unblock c id else p
    | some .epochAdvance => if k.classesDone 0b0010 k.q.seq then p.unblock c fun p => p.coreEpoch c else p
    | _ => p)

end Sys2Proof.Machine
end

