-- ==== Sys2Proof/Machine/Special.lean ====
section
/-! DEFINITION. The special functions of R149, correctly rounded. 1/x and 1/√x are rounded from exact integers. The others
are computed in fixed point with 512 fraction bits, with an error below 2^-490, and rounded: their values at a
representable argument are either exactly representable and computed exactly, or no value of a format and no midpoint of
two, and 512 bits keep them apart from every midpoint (log 5). -/

namespace Sys2Proof.Machine

/-- One in fixed point. -/
def fxOne : Nat := 2 ^ 512

/-- Integer square root by bits, from bit k down. -/
def isqrtFrom : Nat → Nat → Nat → Nat
  | 0, _, r => r
  | k + 1, n, r => let t := r + 2 ^ k; isqrtFrom k n (if t * t ≤ n then t else r)

def isqrt (n : Nat) : Nat := isqrtFrom (Nat.log2 n / 2 + 1) n 0

/-- Sum of z^(2k+1)/(2k+1), k from i, n terms; `t` is z^(2i+1). -/
def atanhSum (z2 : Nat) : Nat → Nat → Nat → Nat
  | 0, _, _ => 0
  | n + 1, i, t => t / (2 * i + 1) + atanhSum z2 n (i + 1) (t * z2 / fxOne)

/-- atanh of a fixed-point z at most 1/3. -/
def fxAtanh (z : Nat) : Nat := atanhSum (z * z / fxOne) 170 0 z

/-- ln 2 = 2 atanh(1/3). -/
def fxLn2 : Nat := 2 * fxAtanh (fxOne / 3)

/-- Sum of y^k/k!, k from i, n terms. -/
def expSum (y : Nat) : Nat → Nat → Nat → Nat
  | 0, _, _ => 0
  | n + 1, i, t => t + expSum y n (i + 1) (t * y / fxOne / (i + 1))

/-- e^y for y below 1. -/
def fxExp (y : Nat) : Nat := expSum y 130 0 fxOne

/-- atan(1/d) by its alternating series. -/
def atanSum (d2 : Nat) : Nat → Nat → Nat → Int
  | 0, _, _ => 0
  | n + 1, i, t => ((t / (2 * i + 1) : Nat) : Int) - atanSum d2 n (i + 1) (t / d2)

def fxAtanInv (d : Nat) : Int := atanSum (d * d) 120 0 (fxOne / d)

/-- π = 16 atan(1/5) − 4 atan(1/239). -/
def fxPi : Nat := (16 * fxAtanInv 5 - 4 * fxAtanInv 239).toNat

/-- A positive finite value in fixed point, rounded down. -/
def fxOf (m : Nat) (e : Int) : Nat := roundAt .tz false m e (-512)

/-- e^-y for a fixed-point y. -/
def fxExpNeg (y : Nat) : Nat :=
  let k := y / fxLn2
  fxOne * fxOne / (fxExp (y - k * fxLn2) * 2 ^ k)

/-- 2^x of a finite x = ±(i + f): 2^i times 2^f. -/
def exp2Val (n : Bool) (m : Nat) (e : Int) : FVal :=
  let x := fxOf m e
  let v : Int := if n then -(x : Int) else x
  let whole := v / (fxOne : Int)
  let f := (v % (fxOne : Int)).toNat
  if f = 0 then .fin false 1 whole else .fin false (fxExp (f * fxLn2 / fxOne)) (whole - 512)

/-- log2 of a positive finite value. -/
def log2Val (m : Nat) (e : Int) : FVal :=
  let k := Nat.log2 m
  let whole : Int := e + k
  if m = 2 ^ k then .fin (decide (whole < 0)) whole.natAbs 0
  else
    let x := m * fxOne / 2 ^ k
    let f := 2 * fxAtanh ((x - fxOne) * fxOne / (x + fxOne)) * fxOne / fxLn2
    let v : Int := whole * (fxOne : Int) + f
    .fin (decide (v < 0)) v.natAbs (-512)

/-- tanh of a finite magnitude. -/
def tanhVal (n : Bool) (m : Nat) (e : Int) : FVal :=
  if m = 0 then .fin n 0 0
  else if 64 ≤ roundAt .tz false m e 0 then .fin n (fxOne - 1) (-512)
  else
    let t := fxExpNeg (2 * fxOf m e)
    .fin n ((fxOne - t) * fxOne / (fxOne + t)) (-512)

/-- Sum of 2^k x^(2k+1) / (1·3·…·(2k+1)). -/
def erfSum (x2 : Nat) : Nat → Nat → Nat → Nat
  | 0, _, _ => 0
  | n + 1, i, t => t + erfSum x2 n (i + 1) (t * (2 * x2) / fxOne / (2 * i + 3))

/-- erf of a finite magnitude. -/
def erfVal (n : Bool) (m : Nat) (e : Int) : FVal :=
  if m = 0 then .fin n 0 0
  else if 6 ≤ roundAt .tz false m e 0 then .fin n (fxOne - 1) (-512)
  else
    let x := fxOf m e
    let x2 := x * x / fxOne
    let s := erfSum x2 700 0 x * fxExpNeg x2 / fxOne
    .fin n (2 * s * fxOne / isqrt (fxPi * fxOne)) (-512)

/-- A positive rational a / b times 2^e, rounded to a format. The quotient keeps 2^-256 and a sticky bit below it. -/
def ratVal (n : Bool) (a b : Nat) (e : Int) : FVal :=
  let s := 2 ^ (256 + Nat.log2 b)
  let q := a * s / b
  .fin n (2 * q + if a * s % b = 0 then 0 else 1) (e - ((256 + Nat.log2 b : Nat) : Int) - 1)

/-- 1/√(m × 2^e), with a sticky bit below 2^-256 of its leading bit. -/
def rsqrtVal (m : Nat) (e : Int) : FVal :=
  -- m × 2^e = m' × 2^(2h)
  let h := e / 2
  let m' := m * 2 ^ (e - 2 * h).toNat
  let k := 256 + Nat.log2 m'
  let r := isqrt (2 ^ (2 * k) / m')
  .fin false (2 * r + if r * r * m' = 2 ^ (2 * k) then 0 else 1) (-h - (k : Int) - 1)

/-- VSF of R149 by sub. -/
def specialFn (sub : Nat) (v : FVal) : FVal :=
  match sub, v with
  | _, .nan => .nan
  | 0, .inf n => if n then .fin false 0 0 else .inf false
  | 0, .fin n m e =>
    -- beyond every format's range, either way
    if 300 ≤ roundAt .tz false m e 0 then (if n then .fin false 1 (-300) else .inf false) else exp2Val n m e
  | 1, .inf n => if n then .nan else .inf false
  | 1, .fin n m e => if m = 0 then .inf true else if n then .nan else log2Val m e
  | 2, .inf n => .fin n 0 0
  | 2, .fin n m e => if m = 0 then .inf n else ratVal n 1 m (-e)
  | 3, .inf n => if n then .nan else .fin false 0 0
  | 3, .fin n m e => if m = 0 then .inf n else if n then .nan else rsqrtVal m e
  | 4, .inf n => .fin n 1 0
  | 4, .fin n m e => tanhVal n m e
  | _, .inf n => .fin n 1 0
  | _, .fin n m e => erfVal n m e

end Sys2Proof.Machine
end

