-- ==== Sys2Proof/Machine/Vector.lean ====
section
/-! DEFINITION. The vector engine (chapter 05): the checks of each operation at issue, its queue, and what the operation at
the head of the queue does when it finishes. -/

namespace Sys2Proof.Machine

/-! ### Lanes (R138, R139) -/

def tyFloat (t : Nat) : Bool := decide (t < 3)

def tyFmt (t : Nat) : FFmt :=
  match t with
  | 0 => fmtFP32
  | 1 => fmtBF16
  | _ => fmtFP16

/-- Bits of an element of a type. -/
def tyBits (t : Nat) : Nat :=
  match t with
  | 0 => 32
  | 1 => 16
  | 2 => 16
  | 3 => 32
  | _ => 8

/-- A result or scalar placed in a lane of the type (R138, R141). -/
def placeLane (t v : Nat) : Nat := if t = 4 then (BitVec.ofInt 32 (signed 8 v)).toNat else v % 2 ^ tyBits t

def laneInt (t raw : Nat) : Int := signed (tyBits t) raw

/-- The value of a lane. -/
def laneVal (t raw : Nat) : FVal :=
  if tyFloat t then (tyFmt t).decode (raw % 2 ^ tyBits t)
  else let i := laneInt t raw; .fin (decide (i < 0)) i.natAbs 0

def putInt (t : Nat) (i : Int) : Nat := placeLane t (BitVec.ofInt 32 i).toNat

def putVal (t : Nat) (v : FVal) : Nat := (tyFmt t).ofVal .ne v

def lanesOf (w : BitVec 4096) : List Nat := (List.range 128).map fun i => w.toNat / 2 ^ (32 * i) % 2 ^ 32

def ofLanes (l : List Nat) : BitVec 4096 := BitVec.ofNat 4096 (l.foldr (fun x acc => x % 2 ^ 32 + 2 ^ 32 * acc) 0)

/-- Place of a value in the total order of R148, greater values greater: −0 below +0, every NaN equal above +∞. -/
def totalKey (t raw : Nat) : Int :=
  if tyFloat t then
    match laneVal t raw with
    | .nan => 2 ^ 40
    | v =>
      let mag : Int := (raw % 2 ^ (tyBits t - 1) : Nat)
      if v.isNeg then -mag - 1 else mag
  else laneInt t raw

/-- VMIN and VMAX of two lanes (R143). -/
def minMax (t : Nat) (isMax : Bool) (a b : Nat) : Nat :=
  if tyFloat t && (laneVal t a == .nan || laneVal t b == .nan) then (tyFmt t).nanBits
  else if (totalKey t a < totalKey t b) = isMax then placeLane t b else placeLane t a

/-- Sum of two lanes (R140). -/
def addLane (t a b : Nat) : Nat :=
  if tyFloat t then putVal t ((laneVal t a).add (laneVal t b)) else putInt t (laneInt t a + laneInt t b)

def subLane (t a b : Nat) : Nat :=
  if tyFloat t then putVal t ((laneVal t a).add (laneVal t b).neg) else putInt t (laneInt t a - laneInt t b)

def mulLane (t a b : Nat) : Nat :=
  if tyFloat t then putVal t ((laneVal t a).mul (laneVal t b)) else putInt t (laneInt t a * laneInt t b)

def fmaLane (t a b c : Nat) : Nat := putVal t (((laneVal t a).mul (laneVal t b)).add (laneVal t c))

/-- VCMP of two lanes by condition (R143). -/
def cmpLane (t cond a b : Nat) : Bool :=
  let x := laneVal t a
  let y := laneVal t b
  if x == .nan || y == .nan then cond == 1
  else
    let o := x.cmp y
    match cond with
    | 0 => o == .eq
    | 1 => o != .eq
    | 2 => o == .lt
    | 3 => o != .gt
    | 4 => o == .gt
    | _ => o != .lt

/-- VLOGIC of two lanes by sub (R142). -/
def logicLane (sub a b : Nat) : Nat :=
  match sub with
  | 0 => a &&& b
  | 1 => a ||| b
  | 2 => a ^^^ b
  | 3 => a * 2 ^ (b % 32) % 2 ^ 32
  | 4 => a / 2 ^ (b % 32)
  | _ => (BitVec.ofInt 32 (signed 32 a / 2 ^ (b % 32))).toNat

/-- VCVT of one lane (R144). -/
def cvtLane (t d sub raw : Nat) : Nat :=
  let r : Rnd := if sub = 0 then .ne else .tz
  let v := laneVal t raw
  let sat (i : Int) : Nat :=
    let h : Int := 2 ^ (tyBits d - 1)
    putInt d (clampInt (-h) (h - 1) i)
  match tyFloat t, tyFloat d with
  | true, true => (tyFmt d).ofVal r v
  | false, true => (tyFmt d).ofVal .ne v
  | true, false =>
    match v with
    | .nan => 0
    | .inf n => sat (if n then -(2 ^ 40) else 2 ^ 40)
    | .fin n m e => sat (roundInt r n m e)
  | false, false => sat (laneInt t raw)

/-- One level of the reduction tree (R146). -/
def treeLevel (f : Nat → Nat → Nat) : List Nat → List Nat
  | a :: b :: l => f a b :: treeLevel f l
  | l => l

def treeReduce (f : Nat → Nat → Nat) (l : List Nat) : Nat :=
  ((List.range 7).foldl (fun l _ => treeLevel f l) l).headD 0

/-- Lowest lane holding the greatest value (R146). -/
def argMax (t : Nat) (l : List Nat) : Nat :=
  let ks := l.map (totalKey t)
  let m := ks.foldl max (ks.headD 0)
  ks.findIdx (· == m)

/-- VRED by sub (R146). -/
def reduceLanes (t sub : Nat) (l : List Nat) : Nat :=
  match sub with
  | 0 => treeReduce (addLane t) l
  | 1 => treeReduce (minMax t true) l
  | 2 => treeReduce (minMax t false) l
  | 3 => argMax t l
  | _ => l.findIdx fun x => match laneVal t x with | .fin _ m _ => m != 0 | _ => true

/-- VSCAN (R147). -/
def scanLanes (t : Nat) : List Nat → List Nat
  | [] => []
  | x :: l => (l.foldl (fun (acc : List Nat × Nat) y => let s := addLane t acc.2 y; (s :: acc.1, s)) ([x], x)).1.reverse

/-- Key, payload: the order of R148. -/
def pairBefore (t : Nat) (a b : Nat × Nat) : Bool :=
  let x := totalKey t a.1
  let y := totalKey t b.1
  decide (y < x) || (x == y && decide (a.2 ≤ b.2))

def insertPair (t : Nat) (a : Nat × Nat) : List (Nat × Nat) → List (Nat × Nat)
  | [] => [a]
  | b :: l => if pairBefore t a b then a :: b :: l else b :: insertPair t a l

def sortPairs (t : Nat) (l : List (Nat × Nat)) : List (Nat × Nat) := l.foldr (insertPair t) []

/-! ### Block formats (R121, R151) -/

def mxFmt (code : Nat) : FFmt :=
  match code with
  | 2 => fmtE4M3
  | 3 => fmtE5M2
  | 4 => fmtE3M2
  | 5 => fmtE2M3
  | _ => fmtE2M1

def mxEmax (code : Nat) : Int :=
  match code with
  | 2 => 8
  | 3 => 15
  | 4 => 4
  | 5 => 2
  | _ => 2

/-- Elements of w bits packed little-endian (R121). -/
def packBits (w : Nat) (l : List Nat) : Nat := l.foldr (fun x acc => x % 2 ^ w + 2 ^ w * acc) 0

/-- Scale and elements of one block of FP32 lanes (R151). An infinite lane makes the scale its largest. -/
def quantBlock (code : Nat) (l : List Nat) : Nat × List Nat :=
  let vs := l.map (laneVal 0)
  let f := mxFmt code
  let amax := vs.foldl (fun (a : FVal) v =>
    let v' := if v.isNeg then v.neg else v
    if v' == .nan || a == .nan then .nan else if a.cmp v' == .lt then v' else a) FVal.zero
  let elems (x : Nat) : List Nat := vs.map fun v =>
    match v with
    | .nan => 0
    | .inf n => f.signBit n + f.maxBits
    | .fin n m e => f.signBit n + min f.maxBits (f.roundMag .ne n m (e + 127 - (x : Int)))
  match amax with
  | .nan => (255, l.map fun _ => 0)
  | .inf _ => (254, elems 254)
  | .fin _ m e =>
    if m = 0 then (0, l.map fun _ => 0)
    else
      let x := (clampInt 0 254 ((Nat.log2 m : Int) + e - mxEmax code + 127)).toNat
      (x, elems x)

/-- VMXQ: the byte stream and the four scales, as lanes in INT8 form (R151). -/
def quantize (code : Nat) (l : List Nat) : List Nat × List Nat :=
  let blocks := (List.range 4).map fun j => quantBlock code ((l.drop (32 * j)).take 32)
  let w := fmtBits code
  let bs := toBytes (128 * w / 8) (packBits w (blocks.flatMap (·.2)))
  (bs.map fun b => placeLane 4 b.toNat, blocks.map fun b => placeLane 4 b.1)

/-- A key as a sort writes it: a NaN keeps no payload (R140, R148). -/
def quietKey (t raw : Nat) : Nat := if tyFloat t && laneVal t raw == .nan then putVal t .nan else raw

/-! ### Registers -/

def Core.vreg (k : Core) (r : BitVec 5) : List Nat := lanesOf (smGetD k.vregs r.toNat 0)

def Core.vpoisoned (k : Core) (r : BitVec 5) : Bool := smHas k.vpoison r.toNat

def Core.setV (k : Core) (r : BitVec 5) (l : List Nat) (pz : Bool) : Core :=
  { k with vregs := smPut k.vregs 0 r.toNat (ofLanes l)
           vpoison := if pz then smSet k.vpoison r.toNat () else smDel k.vpoison r.toNat }

/-! ### Issue (R139, R142, R71) -/

/-- Types an operation allows, as a mask over FP32, BF16, FP16, INT32, INT8 (R142). -/
def VOp.types : VOp → Nat
  | .vfma => 0b00111
  | .vsel => 0b01000
  | .vlogic => 0b01000
  | .vsf => 0b00111
  | .vscan => 0b01001
  | .vsort => 0b01001
  | .rng => 0b01001
  | .vmxq => 0b00001
  | _ => 0b11111

/-- Number of sub values an operation defines; the others are reserved (R142, R143, R149). -/
def VOp.subs : VOp → Nat
  | .vcmp => 6
  | .vlogic => 6
  | .vcvt => 2
  | .vsf => 6
  | .vred => 5
  | .vsort => 2
  | .vbcast => 2
  | .rng => 2
  | _ => 1

/-- Operations that take vb from a scalar register (R141). -/
def VOp.sbOk : VOp → Bool
  | .vadd | .vsub | .vmul | .vfma | .vmin | .vmax | .vcmp | .vsel | .vlogic => true
  | _ => false

/-- Bits of detail that an operation defines (R142). -/
def VOp.detailMask : VOp → Nat
  | .vcvt => 7 * 2 ^ 24
  | .vextr => 127
  | .vld => 0x7FF * 2 ^ 16
  | .vst => 0x7FF * 2 ^ 16
  | .rng => 3 * 2 ^ 25
  | .vmxq => 15 * 2 ^ 23
  | _ => 0

def VOp.usesVa (o : VOp) (sub : Nat) : Bool :=
  match o with
  | .vbcast => sub == 0
  | _ => true

def VOp.usesVb : VOp → Bool
  | .vcvt | .vsf | .vred | .vscan | .vbcast | .vextr | .vmxq => false
  | _ => true

def VOp.usesVc : VOp → Bool
  | .vfma | .vsel | .vsort | .rng | .vmxq => true
  | _ => false

/-- The conditions under which a vector instruction is illegal (R47, R139, R142, R149 to R151). R142 says of unused register fields that
they must be zero; that a sub with no row, a sub, sb or operation bit an operation does not use, and bits of [26:0] outside its fields
are illegal too when nonzero is the model's reading (DESIGN CHOICE, log 54). -/
def vecIllegal (o : VOp) (f : VecForm) : Bool :=
  let t := f.type.toNat
  let sub := f.sub.toNat
  let d := f.detail.toNat
  !(decide (t < 5) && bit o.types t) || decide (o.subs ≤ sub) || (f.sb && !o.sbOk) || d &&& o.detailMask != d ||
    (!o.usesVa sub && f.va != 0) || (!o.usesVb && f.vb != 0) || (!o.usesVc && f.vc != 0) ||
    (o == .vcvt && decide (5 ≤ bits d 26 24)) || (o == .rng && (sub == 0) != (t == 3)) ||
    (o == .vmxq && !fmtMx (bits d 26 23))

/-- Scalar registers an operation reads at issue. -/
def vecScalars (o : VOp) (f : VecForm) : List (BitVec 5) :=
  match o with
  | .vbcast => if f.sub = 0 then [f.va] else []
  | .vld => [f.va, f.vb]
  | .vst => [f.va, f.vb]
  | .rng => [f.va, f.vb, f.vc]
  | _ => if f.sb then [f.vb] else []

/-- Start address and length of a VLD or VST (R145). -/
def vecAddr (f : VecForm) (d : Desc) (i1 i2 : Nat) : Nat × Nat :=
  ((d.row i1 i2).toNat, (bits f.detail.toNat 22 16 + 1) * (tyBits f.type.toNat / 8))

/-- The same, or the trap it raises (R43, R44, R145). The checks of R43 come first, with a free detail; VX_PLACE stands in bits [63:56] of
the detail with the others zero, as R115 has it for the matrix engine: R145 gives no order and no place (DESIGN CHOICE, log 54). -/
def Panel.vecPlace (p : Panel) (c : Nat) (f : VecForm) (d : Desc) (i1 i2 : Nat) : (Nat × Nat) ⊕ Issued :=
  let t := f.type.toNat
  let n := bits f.detail.toNat 22 16 + 1
  let eb := tyBits t / 8
  let want := if t = 1 then 9 else if t = 2 then 10 else 7
  let place := trapWith trapDesc (BitVec.ofNat 64 (0x50 * 2 ^ 56))
  if !p.descOk d then .inr (trapFree trapDesc)
  else
    let a := d.row i1 i2
    let lo : Int := (scratchPa c 0 : Nat)
    if d.fmt ≠ want ∨ d.stride0 ≠ 0 ∨ d.extent1 ≤ i1 ∨ d.extent2 ≤ i2 ∨ d.extent0 * (fmtBits d.fmt / 8) < n * eb ∨
        a < lo ∨ lo + 0x400000 < a + ((n * eb : Nat) : Int) ∨ a % (eb : Int) ≠ 0 then .inr place
    else if !p.classesOk d.pclass a.toNat (n * eb) then .inr (trapFree trapProt)
    else .inl (a.toNat, n * eb)

/-- Issue a vector operation: its checks, then a place in the queue of 16 (R71). -/
def Panel.vecIssue (p : Panel) (c : Nat) (o : VOp) (f : VecForm) : Panel :=
  p.issue c .issues (vecIllegal o f) fun p k =>
    if (vecScalars o f).any k.unready || (o == .vextr && k.unready f.vd) || decide (16 ≤ k.vecQ.length) then .stall
    else
      let dn : BitVec 4 := BitVec.ofNat 4 (bits f.detail.toNat 26 23)
      let go := Issued.done (p.setCore c { k with
        vecQ := k.vecQ ++ [⟨o, f, k.sreg f.va, k.sreg f.vb, k.sreg f.vc, k.dreg dn, k.q.seq, k.spec.isSome⟩] })
      if o == .vld || o == .vst then
        match p.vecPlace c f (descOf (k.dreg dn)) (k.sreg f.va).toNat (k.sreg f.vb).toNat with
        | .inr t => t
        | .inl _ => go
      else go

/-! ### Execution (R142 to R153) -/

/-- Combine the lanes of va and vb (or the scalar of the sb form). -/
def VecOp.zip (o : VecOp) (k : Core) (f : Nat → Nat → Nat) : List Nat :=
  let b := if o.f.sb then List.replicate 128 (placeLane o.f.type.toNat o.svb.toNat) else k.vreg o.f.vb
  List.zipWith f (k.vreg o.f.va) b

/-- The lanes an operation writes to vd, for those that write one register. -/
def VecOp.result (o : VecOp) (k : Core) : List Nat :=
  let t := o.f.type.toNat
  let sub := o.f.sub.toNat
  let a := k.vreg o.f.va
  match o.op with
  | .vadd => o.zip k (addLane t)
  | .vsub => o.zip k (subLane t)
  | .vmul => o.zip k (mulLane t)
  | .vfma => List.zipWith (fun (g : Nat → Nat) z => g z)
      (List.zipWith (fun x y z => fmaLane t x y z) a
        (if o.f.sb then List.replicate 128 (placeLane t o.svb.toNat) else k.vreg o.f.vb)) (k.vreg o.f.vc)
  | .vmin => o.zip k (minMax t false)
  | .vmax => o.zip k (minMax t true)
  | .vcmp => o.zip k fun x y => b2n (cmpLane t sub x y)
  | .vsel => List.zipWith (fun (ab : Nat × Nat) z => if z = 0 then ab.2 else ab.1)
      (List.zip a (if o.f.sb then List.replicate 128 (placeLane t o.svb.toNat) else k.vreg o.f.vb)) (k.vreg o.f.vc)
  | .vlogic => o.zip k (logicLane sub)
  | .vcvt => a.map (cvtLane t (bits o.f.detail.toNat 26 24) sub)
  | .vsf => a.map fun x => putVal t (specialFn sub (laneVal t x))
  | .vred => List.replicate 128 (reduceLanes t sub a)
  | .vscan => scanLanes t a
  | .vbcast =>
    if sub = 0 then List.replicate 128 (placeLane t o.sva.toNat)
    else (List.range 128).map fun i => if tyFloat t then putVal t (.fin false i 0) else putInt t i
  | .rng =>
    (List.range 128).map fun i =>
      let s := o.svb.toNat
      let u := ((philox i (m32 o.svc.toNat) (m32 s) (bits s 63 48 * 65536 ||| bits s 47 32) (m32 o.sva.toNat)
        (bits o.sva.toNat 63 32)).drop (bits o.f.detail.toNat 26 25)).headD 0
      if sub = 0 then u else fmtFP32.ofVal .ne (.fin false (u / 256) (-24))
  | _ => []

/-- Vector registers an operation reads (R152). -/
def VecOp.reads (o : VecOp) : List (BitVec 5) :=
  let f := o.f
  match o.op with
  | .vbcast => []
  | .vld => []
  | .rng => []
  | .vst => [f.vd]
  | .vsort => if f.sub = 0 then [f.va, f.vb] else [f.va, f.vb, f.vd, f.vc]
  | .vfma | .vsel => (if f.sb then [f.va] else [f.va, f.vb]) ++ [f.vc]
  | .vadd | .vsub | .vmul | .vmin | .vmax | .vcmp | .vlogic => if f.sb then [f.va] else [f.va, f.vb]
  | _ => [f.va]

/-- Write a scalar register by an engine: the register behind the branch is written with it (R71, R73). -/
def Core.setSEngine (k : Core) (r : BitVec 5) (v : W64) : Core :=
  let k := k.setS r v
  { k with spec := k.spec.map fun sp => { sp with saved := { sp.saved with sregs := setSreg sp.saved.sregs r v } } }

/-- What a vector operation does when it finishes. Where vd and vc name one register the payloads of VSORT and the scales of VMXQ stand
there, written after the keys and elements: R148 and R151 do not say (DESIGN CHOICE, log 54). -/
def Panel.vecRun (p : Panel) (c : Nat) (o : VecOp) : Panel :=
  let k := p.core c
  let f := o.f
  let t := f.type.toNat
  let pz := o.reads.any k.vpoisoned
  let fill (l : List Nat) : List Nat := l ++ List.replicate (128 - l.length) 0
  match o.op with
  | .vextr =>
    if pz then p.raiseAsync c asyncEngine (0x51 * 2 ^ 56 + o.seq % 2 ^ 48)
    else
      let raw := ((k.vreg f.va).drop (bits f.detail.toNat 6 0)).headD 0
      let v : W64 := if tyFloat t then BitVec.ofNat 64 (raw % 2 ^ tyBits t) else wrap64 (laneInt t raw)
      p.setCore c (k.setSEngine f.vd v)
  | .vld =>
    let (a, n) := vecAddr f (descOf o.desc) o.sva.toNat o.svb.toNat
    let (d, dp, p) := p.readBlocks a n
    let eb := tyBits t / 8
    let l := (List.range (n / eb)).map fun i => placeLane t (ofBytes ((d.drop (i * eb)).take eb))
    p.modCore c fun k => k.setV f.vd (fill l) dp
  | .vst =>
    let (a, n) := vecAddr f (descOf o.desc) o.sva.toNat o.svb.toNat
    let eb := tyBits t / 8
    p.writeBlocks a (((k.vreg f.vd).take (n / eb)).flatMap fun x => toBytes eb x) pz
  | .vsort =>
    let own := List.zip (k.vreg f.va) (k.vreg f.vb)
    let all := if f.sub = 0 then own else own ++ List.zip (k.vreg f.vd) (k.vreg f.vc)
    let r := (sortPairs t all).take 128
    p.setCore c ((k.setV f.vd (r.map fun e => quietKey t e.1) pz).setV f.vc (r.map (·.2)) pz)
  | .vmxq =>
    let (e, x) := quantize (bits f.detail.toNat 26 23) (k.vreg f.va)
    p.setCore c ((k.setV f.vd (fill e) pz).setV f.vc (fill x) pz)
  | _ => p.setCore c (k.setV f.vd (o.result k) pz)

/-- VECTOR_OP_DONE (R153): the operation at the head of the queue finishes. One held by an unresolved branch waits for it
(R73). -/
def execVectorOpDone (c : Nat) (s : State) : Host.Outcome State Fault Refusal :=
  .next (s.upd fun p =>
    match (p.core c).vecQ with
    | o :: rest =>
      if o.spec then p else (p.vecRun c o).modCore c fun k => { k with vecQ := rest }
    | [] => p)

/-- VADD (R142): queued; its effect is that of `Panel.vecRun`. -/
def execVadd (c : Nat) (f : VecForm) (s : State) : Host.Outcome State Fault Refusal :=
  .next (s.upd fun p => p.vecIssue c .vadd f)

/-- VSUB (R142): queued; its effect is that of `Panel.vecRun`. -/
def execVsub (c : Nat) (f : VecForm) (s : State) : Host.Outcome State Fault Refusal :=
  .next (s.upd fun p => p.vecIssue c .vsub f)

/-- VMUL (R142): queued; its effect is that of `Panel.vecRun`. -/
def execVmul (c : Nat) (f : VecForm) (s : State) : Host.Outcome State Fault Refusal :=
  .next (s.upd fun p => p.vecIssue c .vmul f)

/-- VFMA (R142): queued; its effect is that of `Panel.vecRun`. -/
def execVfma (c : Nat) (f : VecForm) (s : State) : Host.Outcome State Fault Refusal :=
  .next (s.upd fun p => p.vecIssue c .vfma f)

/-- VMIN (R142, R143): queued; its effect is that of `Panel.vecRun`. -/
def execVmin (c : Nat) (f : VecForm) (s : State) : Host.Outcome State Fault Refusal :=
  .next (s.upd fun p => p.vecIssue c .vmin f)

/-- VMAX (R142, R143): queued; its effect is that of `Panel.vecRun`. -/
def execVmax (c : Nat) (f : VecForm) (s : State) : Host.Outcome State Fault Refusal :=
  .next (s.upd fun p => p.vecIssue c .vmax f)

/-- VCMP (R142, R143): queued; its effect is that of `Panel.vecRun`. -/
def execVcmp (c : Nat) (f : VecForm) (s : State) : Host.Outcome State Fault Refusal :=
  .next (s.upd fun p => p.vecIssue c .vcmp f)

/-- VSEL (R142): queued; its effect is that of `Panel.vecRun`. -/
def execVsel (c : Nat) (f : VecForm) (s : State) : Host.Outcome State Fault Refusal :=
  .next (s.upd fun p => p.vecIssue c .vsel f)

/-- VLOGIC (R142): queued; its effect is that of `Panel.vecRun`. -/
def execVlogic (c : Nat) (f : VecForm) (s : State) : Host.Outcome State Fault Refusal :=
  .next (s.upd fun p => p.vecIssue c .vlogic f)

/-- VCVT (R142, R144): queued; its effect is that of `Panel.vecRun`. -/
def execVcvt (c : Nat) (f : VecForm) (s : State) : Host.Outcome State Fault Refusal :=
  .next (s.upd fun p => p.vecIssue c .vcvt f)

/-- VSF (R142, R149): queued; its effect is that of `Panel.vecRun`. -/
def execVsf (c : Nat) (f : VecForm) (s : State) : Host.Outcome State Fault Refusal :=
  .next (s.upd fun p => p.vecIssue c .vsf f)

/-- VRED (R142, R146): queued; its effect is that of `Panel.vecRun`. -/
def execVred (c : Nat) (f : VecForm) (s : State) : Host.Outcome State Fault Refusal :=
  .next (s.upd fun p => p.vecIssue c .vred f)

/-- VSCAN (R142, R147): queued; its effect is that of `Panel.vecRun`. -/
def execVscan (c : Nat) (f : VecForm) (s : State) : Host.Outcome State Fault Refusal :=
  .next (s.upd fun p => p.vecIssue c .vscan f)

/-- VSORT (R142, R148): queued; its effect is that of `Panel.vecRun`. -/
def execVsort (c : Nat) (f : VecForm) (s : State) : Host.Outcome State Fault Refusal :=
  .next (s.upd fun p => p.vecIssue c .vsort f)

/-- VBCAST (R142): queued; its effect is that of `Panel.vecRun`. -/
def execVbcast (c : Nat) (f : VecForm) (s : State) : Host.Outcome State Fault Refusal :=
  .next (s.upd fun p => p.vecIssue c .vbcast f)

/-- VEXTR (R142, R152): queued; its effect is that of `Panel.vecRun`. -/
def execVextr (c : Nat) (f : VecForm) (s : State) : Host.Outcome State Fault Refusal :=
  .next (s.upd fun p => p.vecIssue c .vextr f)

/-- VLD (R142, R145): queued; its effect is that of `Panel.vecRun`. -/
def execVld (c : Nat) (f : VecForm) (s : State) : Host.Outcome State Fault Refusal :=
  .next (s.upd fun p => p.vecIssue c .vld f)

/-- VST (R142, R145): queued; its effect is that of `Panel.vecRun`. -/
def execVst (c : Nat) (f : VecForm) (s : State) : Host.Outcome State Fault Refusal :=
  .next (s.upd fun p => p.vecIssue c .vst f)

/-- RNG_GEN (R142, R150): queued; its effect is that of `Panel.vecRun`. -/
def execRngGen (c : Nat) (f : VecForm) (s : State) : Host.Outcome State Fault Refusal :=
  .next (s.upd fun p => p.vecIssue c .rng f)

/-- VMXQ (R142, R151): queued; its effect is that of `Panel.vecRun`. -/
def execVmxq (c : Nat) (f : VecForm) (s : State) : Host.Outcome State Fault Refusal :=
  .next (s.upd fun p => p.vecIssue c .vmxq f)

end Sys2Proof.Machine
end

