-- ==== Sys2Proof/Machine/Dispatch.lean ====
section
/-! DEFINITION. One arm per command: which meaning runs. -/

namespace Sys2Proof.Machine

def exec (i : Instr) (s : State) : Host.Outcome State Fault Refusal :=
  match i with
  | .add c f => Sys2Proof.Machine.execAdd c f s
  | .sub c f => Sys2Proof.Machine.execSub c f s
  | .and_ c f => Sys2Proof.Machine.execAnd c f s
  | .or_ c f => Sys2Proof.Machine.execOr c f s
  | .xor c f => Sys2Proof.Machine.execXor c f s
  | .sll c f => Sys2Proof.Machine.execSll c f s
  | .srl c f => Sys2Proof.Machine.execSrl c f s
  | .sra c f => Sys2Proof.Machine.execSra c f s
  | .mul c f => Sys2Proof.Machine.execMul c f s
  | .mulh c f => Sys2Proof.Machine.execMulh c f s
  | .slt c f => Sys2Proof.Machine.execSlt c f s
  | .sltu c f => Sys2Proof.Machine.execSltu c f s
  | .min_ c f => Sys2Proof.Machine.execMin c f s
  | .max_ c f => Sys2Proof.Machine.execMax c f s
  | .addi c f => Sys2Proof.Machine.execAddi c f s
  | .andi c f => Sys2Proof.Machine.execAndi c f s
  | .ori c f => Sys2Proof.Machine.execOri c f s
  | .xori c f => Sys2Proof.Machine.execXori c f s
  | .slli c f => Sys2Proof.Machine.execSlli c f s
  | .srli c f => Sys2Proof.Machine.execSrli c f s
  | .srai c f => Sys2Proof.Machine.execSrai c f s
  | .li c f => Sys2Proof.Machine.execLi c f s
  | .lih c f => Sys2Proof.Machine.execLih c f s
  | .ld c f => Sys2Proof.Machine.execLd c f s
  | .ldw c f => Sys2Proof.Machine.execLdw c f s
  | .st c f => Sys2Proof.Machine.execSt c f s
  | .stw c f => Sys2Proof.Machine.execStw c f s
  | .dld c f => Sys2Proof.Machine.execDld c f s
  | .dst c f => Sys2Proof.Machine.execDst c f s
  | .dset c f => Sys2Proof.Machine.execDset c f s
  | .dget c f => Sys2Proof.Machine.execDget c f s
  | .beq c f => Sys2Proof.Machine.execBeq c f s
  | .bne c f => Sys2Proof.Machine.execBne c f s
  | .blt c f => Sys2Proof.Machine.execBlt c f s
  | .bge c f => Sys2Proof.Machine.execBge c f s
  | .bltu c f => Sys2Proof.Machine.execBltu c f s
  | .bgeu c f => Sys2Proof.Machine.execBgeu c f s
  | .jmp c f => Sys2Proof.Machine.execJmp c f s
  | .call c f => Sys2Proof.Machine.execCall c f s
  | .jr c f => Sys2Proof.Machine.execJr c f s
  | .callr c f => Sys2Proof.Machine.execCallr c f s
  | .ret c rsvd => Sys2Proof.Machine.execRet c rsvd s
  | .loop c f => Sys2Proof.Machine.execLoop c f s
  | .branchResolve c => Sys2Proof.Machine.execBranchResolve c s
  | .tpost c f => Sys2Proof.Machine.execTpost c f s
  | .tpostRelease c k => Sys2Proof.Machine.execTpostRelease c k s
  | .twait c f => Sys2Proof.Machine.execTwait c f s
  | .twaitSatisfy c => Sys2Proof.Machine.execTwaitSatisfy c s
  | .ttest c f => Sys2Proof.Machine.execTtest c f s
  | .tset c f => Sys2Proof.Machine.execTset c f s
  | .barArrive c f => Sys2Proof.Machine.execBarArrive c f s
  | .barArriveSignal c => Sys2Proof.Machine.execBarArriveSignal c s
  | .barWait c f => Sys2Proof.Machine.execBarWait c f s
  | .barWaitRelease c => Sys2Proof.Machine.execBarWaitRelease c s
  | .epochAdvance c rsvd => Sys2Proof.Machine.execEpochAdvance c rsvd s
  | .waitTimeout c => Sys2Proof.Machine.execWaitTimeout c s
  | .dmaCopy c f => Sys2Proof.Machine.execDmaCopy c f s
  | .dmaGather c f => Sys2Proof.Machine.execDmaGather c f s
  | .dmaScatter c f => Sys2Proof.Machine.execDmaScatter c f s
  | .dmaFill c f => Sys2Proof.Machine.execDmaFill c f s
  | .dmaMark c f => Sys2Proof.Machine.execDmaMark c f s
  | .dmaOpComplete c => Sys2Proof.Machine.execDmaOpComplete c s
  | .csrr c f => Sys2Proof.Machine.execCsrr c f s
  | .csrw c f => Sys2Proof.Machine.execCsrw c f s
  | .csrs c f => Sys2Proof.Machine.execCsrs c f s
  | .csrc c f => Sys2Proof.Machine.execCsrc c f s
  | .fence c f => Sys2Proof.Machine.execFence c f s
  | .fenceComplete c => Sys2Proof.Machine.execFenceComplete c s
  | .trap c f => Sys2Proof.Machine.execTrap c f s
  | .rett c rsvd => Sys2Proof.Machine.execRett c rsvd s
  | .halt c rsvd => Sys2Proof.Machine.execHalt c rsvd s
  | .haltComplete c => Sys2Proof.Machine.execHaltComplete c s
  | .asyncTrapDelivery c => Sys2Proof.Machine.execAsyncTrapDelivery c s
  | .mma c f => Sys2Proof.Machine.execMma c f s
  | .mmaAr c f => Sys2Proof.Machine.execMmaAr c f s
  | .mmaBr c f => Sys2Proof.Machine.execMmaBr c f s
  | .mmaArbr c f => Sys2Proof.Machine.execMmaArbr c f s
  | .matrixPassStart c => Sys2Proof.Machine.execMatrixPassStart c s
  | .grpOpen c f => Sys2Proof.Machine.execGrpOpen c f s
  | .grpClose c f => Sys2Proof.Machine.execGrpClose c f s
  | .accSend c f => Sys2Proof.Machine.execAccSend c f s
  | .grpAbort c f => Sys2Proof.Machine.execGrpAbort c f s
  | .grpStatus c f => Sys2Proof.Machine.execGrpStatus c f s
  | .grpPrefetch c f => Sys2Proof.Machine.execGrpPrefetch c f s
  | .groupSpillDone c gid => Sys2Proof.Machine.execGroupSpillDone c gid s
  | .groupFillDone c gid => Sys2Proof.Machine.execGroupFillDone c gid s
  | .groupCloseDone c => Sys2Proof.Machine.execGroupCloseDone c s
  | .accSendAccepted c => Sys2Proof.Machine.execAccSendAccepted c s
  | .vadd c f => Sys2Proof.Machine.execVadd c f s
  | .vsub c f => Sys2Proof.Machine.execVsub c f s
  | .vmul c f => Sys2Proof.Machine.execVmul c f s
  | .vfma c f => Sys2Proof.Machine.execVfma c f s
  | .vmin c f => Sys2Proof.Machine.execVmin c f s
  | .vmax c f => Sys2Proof.Machine.execVmax c f s
  | .vcmp c f => Sys2Proof.Machine.execVcmp c f s
  | .vsel c f => Sys2Proof.Machine.execVsel c f s
  | .vlogic c f => Sys2Proof.Machine.execVlogic c f s
  | .vcvt c f => Sys2Proof.Machine.execVcvt c f s
  | .vsf c f => Sys2Proof.Machine.execVsf c f s
  | .vred c f => Sys2Proof.Machine.execVred c f s
  | .vscan c f => Sys2Proof.Machine.execVscan c f s
  | .vsort c f => Sys2Proof.Machine.execVsort c f s
  | .vbcast c f => Sys2Proof.Machine.execVbcast c f s
  | .vextr c f => Sys2Proof.Machine.execVextr c f s
  | .vld c f => Sys2Proof.Machine.execVld c f s
  | .vst c f => Sys2Proof.Machine.execVst c f s
  | .rngGen c f => Sys2Proof.Machine.execRngGen c f s
  | .vmxq c f => Sys2Proof.Machine.execVmxq c f s
  | .spStarvationGrant c r => Sys2Proof.Machine.execSpStarvationGrant c r s
  | .cmemScrubTick die cl => Sys2Proof.Machine.execCmemScrubTick die cl s
  | .rcLineFill die cl line epoch st => Sys2Proof.Machine.execRcLineFill die cl line epoch st s
  | .rcEpochClearDone die cl => Sys2Proof.Machine.execRcEpochClearDone die cl s
  | .rcEpochAdvanceWrite die cl val => Sys2Proof.Machine.execRcEpochAdvanceWrite die cl val s
  | .cdCmemPartWrite die cl val => Sys2Proof.Machine.execCdCmemPartWrite die cl val s
  | .hbmRefresh stack => Sys2Proof.Machine.execHbmRefresh stack s
  | .mpdRefreshModeWrite stack val => Sys2Proof.Machine.execMpdRefreshModeWrite stack val s
  | .hbmPatrolScrub stack => Sys2Proof.Machine.execHbmPatrolScrub stack s
  | .hbmEcsRead stack count => Sys2Proof.Machine.execHbmEcsRead stack count s
  | .hbmTempRead stack temp => Sys2Proof.Machine.execHbmTempRead stack temp s
  | .stackLost stack => Sys2Proof.Machine.execStackLost stack s
  | .tpeStart stack val src => Sys2Proof.Machine.execTpeStart stack val src s
  | .tpeRunDone stack pass lastElement rows repairLeft => Sys2Proof.Machine.execTpeRunDone stack pass lastElement rows repairLeft s
  | .hbmMapApply src val => Sys2Proof.Machine.execHbmMapApply src val s
  | .hbmMapLoadDone => Sys2Proof.Machine.execHbmMapLoadDone s
  | .routerPacketReceive node port flits => Sys2Proof.Machine.execRouterPacketReceive node port flits s
  | .pktRd p => Sys2Proof.Machine.execPktRd p s
  | .pktWr p => Sys2Proof.Machine.execPktWr p s
  | .pktTpost p => Sys2Proof.Machine.execPktTpost p s
  | .pktRdData p => Sys2Proof.Machine.execPktRdData p s
  | .pktWrAck p => Sys2Proof.Machine.execPktWrAck p s
  | .pktTpostAck p => Sys2Proof.Machine.execPktTpostAck p s
  | .pktNak p => Sys2Proof.Machine.execPktNak p s
  | .mrd p => Sys2Proof.Machine.execMrd p s
  | .mwr p => Sys2Proof.Machine.execMwr p s
  | .mrdData p => Sys2Proof.Machine.execMrdData p s
  | .mwrAck p => Sys2Proof.Machine.execMwrAck p s
  | .mnak p => Sys2Proof.Machine.execMnak p s
  | .networkOpTimeout node unit tag => Sys2Proof.Machine.execNetworkOpTimeout node unit tag s
  | .linkDown node port => Sys2Proof.Machine.execLinkDown node port s
  | .drainPause => Sys2Proof.Machine.execDrainPause s
  | .drainRoutersEmpty => Sys2Proof.Machine.execDrainRoutersEmpty s
  | .drainTimeout node => Sys2Proof.Machine.execDrainTimeout node s
  | .mcHoldExpire node k => Sys2Proof.Machine.execMcHoldExpire node k s
  | .mcGroupApply src val => Sys2Proof.Machine.execMcGroupApply src val s
  | .accContrib p => Sys2Proof.Machine.execAccContrib p s
  | .accordCombineDone node slot => Sys2Proof.Machine.execAccordCombineDone node slot s
  | .accordOutputAcked node slot => Sys2Proof.Machine.execAccordOutputAcked node slot s
  | .accordDeliveryEnd node slot e => Sys2Proof.Machine.execAccordDeliveryEnd node slot e s
  | .accordForwardAccepted node slot => Sys2Proof.Machine.execAccordForwardAccepted node slot s
  | .accordTimeout node slot => Sys2Proof.Machine.execAccordTimeout node slot s
  | .accDescWrite node slot w val => Sys2Proof.Machine.execAccDescWrite node slot w val s
  | .stepForm hub => Sys2Proof.Machine.execStepForm hub s
  | .coldMoveFinish hub ctx ok => Sys2Proof.Machine.execColdMoveFinish hub ctx ok s
  | .stepStart hub => Sys2Proof.Machine.execStepStart hub s
  | .donePoll hub => Sys2Proof.Machine.execDonePoll hub s
  | .stepTimeout hub => Sys2Proof.Machine.execStepTimeout hub s
  | .abortedWaitTimeout hub => Sys2Proof.Machine.execAbortedWaitTimeout hub s
  | .stepCommit hub => Sys2Proof.Machine.execStepCommit hub s
  | .journalRecord hub r => Sys2Proof.Machine.execJournalRecord hub r s
  | .journalAck hub => Sys2Proof.Machine.execJournalAck hub s
  | .heartbeat hub => Sys2Proof.Machine.execHeartbeat hub s
  | .heartbeatMiss => Sys2Proof.Machine.execHeartbeatMiss s
  | .rqeEnable hub src val => Sys2Proof.Machine.execRqeEnable hub src val s
  | .rqeDrain hub src val => Sys2Proof.Machine.execRqeDrain hub src val s
  | .rqeRetry hub src val => Sys2Proof.Machine.execRqeRetry hub src val s
  | .rqeTakeover hub src val => Sys2Proof.Machine.execRqeTakeover hub src val s
  | .rqeIlogStreamWrite hub src val => Sys2Proof.Machine.execRqeIlogStreamWrite hub src val s
  | .sqTailDoorbell hub q src val => Sys2Proof.Machine.execSqTailDoorbell hub q src val s
  | .submit host q e => Sys2Proof.Machine.execSubmit host q e s
  | .promptReadComplete host q ok tokens => Sys2Proof.Machine.execPromptReadComplete host q ok tokens s
  | .cancel host q e => Sys2Proof.Machine.execCancel host q e s
  | .cqHeadDoorbell hub q src val => Sys2Proof.Machine.execCqHeadDoorbell hub q src val s
  | .cqEnable hub q src val => Sys2Proof.Machine.execCqEnable hub q src val s
  | .leaseAcquire host => Sys2Proof.Machine.execLeaseAcquire host s
  | .leaseRenew host => Sys2Proof.Machine.execLeaseRenew host s
  | .leaseRelease host => Sys2Proof.Machine.execLeaseRelease host s
  | .leaseExpire => Sys2Proof.Machine.execLeaseExpire s
  | .pcieLinkReset host => Sys2Proof.Machine.execPcieLinkReset host s
  | .pcieLinkReturn host => Sys2Proof.Machine.execPcieLinkReturn host s
  | .hostLossTimeout host => Sys2Proof.Machine.execHostLossTimeout host s
  | .bar0ReadTlp host off len => Sys2Proof.Machine.execBar0ReadTlp host off len s
  | .bar0WriteTlp host off len val => Sys2Proof.Machine.execBar0WriteTlp host off len val s
  | .bar2ReadTlp host off len => Sys2Proof.Machine.execBar2ReadTlp host off len s
  | .bar2WriteTlp host off data poison => Sys2Proof.Machine.execBar2WriteTlp host off data poison s
  | .registerWrite src off val => Sys2Proof.Machine.execRegisterWrite src off val s
  | .coreAbortQueues c => Sys2Proof.Machine.execCoreAbortQueues c s
  | .coreHaltReq c => Sys2Proof.Machine.execCoreHaltReq c s
  | .coreAttention c => Sys2Proof.Machine.execCoreAttention c s
  | .coreStart c val => Sys2Proof.Machine.execCoreStart c val s
  | .coreTokenWrite c n val => Sys2Proof.Machine.execCoreTokenWrite c n val s
  | .barrierApply src val => Sys2Proof.Machine.execBarrierApply src val s
  | .barrierAbort src val => Sys2Proof.Machine.execBarrierAbort src val s
  | .fabricBarArrive ch coord => Sys2Proof.Machine.execFabricBarArrive ch coord s
  | .barRelease ch residency => Sys2Proof.Machine.execBarRelease ch residency s
  | .barReleaseDelayExpire ch => Sys2Proof.Machine.execBarReleaseDelayExpire ch s
  | .extBarrierTimeout ch => Sys2Proof.Machine.execExtBarrierTimeout ch s
  | .barAbort ch => Sys2Proof.Machine.execBarAbort ch s
  | .extBarrierSelfAbort ch => Sys2Proof.Machine.execExtBarrierSelfAbort ch s
  | .barJoin ch coord => Sys2Proof.Machine.execBarJoin ch coord s
  | .calProbe ch residency => Sys2Proof.Machine.execCalProbe ch residency s
  | .calEcho ch coord roundTrip rOut rBack => Sys2Proof.Machine.execCalEcho ch coord roundTrip rOut rBack s
  | .calDelay ch delay => Sys2Proof.Machine.execCalDelay ch delay s
  | .calibrationTimer ch => Sys2Proof.Machine.execCalibrationTimer ch s
  | .clkPointWrite node n val => Sys2Proof.Machine.execClkPointWrite node n val s
  | .pointChangeDone node n => Sys2Proof.Machine.execPointChangeDone node n s
  | .droopStretch node n k => Sys2Proof.Machine.execDroopStretch node n k s
  | .stretchRecover node n => Sys2Proof.Machine.execStretchRecover node n s
  | .marginSample node n codes warnDue stepDue => Sys2Proof.Machine.execMarginSample node n codes warnDue stepDue s
  | .marginAlarmRelease node n => Sys2Proof.Machine.execMarginAlarmRelease node n s
  | .zoneTempSample z readings dwellDown dwellUp => Sys2Proof.Machine.execZoneTempSample z readings dwellDown dwellUp s
  | .zoneShutdownTimeout z => Sys2Proof.Machine.execZoneShutdownTimeout z s
  | .throttleTokenGrant => Sys2Proof.Machine.execThrottleTokenGrant s
  | .ceilingChangeDone => Sys2Proof.Machine.execCeilingChangeDone s
  | .powerCapSample watts below100ms => Sys2Proof.Machine.execPowerCapSample watts below100ms s
  | .efuseOpen z => Sys2Proof.Machine.execEfuseOpen z s
  | .stage0 => Sys2Proof.Machine.execStage0 s
  | .stage1 a b selfOk => Sys2Proof.Machine.execStage1 a b selfOk s
  | .stage2 x => Sys2Proof.Machine.execStage2 x s
  | .stage3 x => Sys2Proof.Machine.execStage3 x s
  | .stage4 x => Sys2Proof.Machine.execStage4 x s
  | .stage5 x => Sys2Proof.Machine.execStage5 x s
  | .stage6 x => Sys2Proof.Machine.execStage6 x s
  | .stage7 x => Sys2Proof.Machine.execStage7 x s
  | .stage8 x => Sys2Proof.Machine.execStage8 x s
  | .stage9 x => Sys2Proof.Machine.execStage9 x s
  | .stageBoundExpire => Sys2Proof.Machine.execStageBoundExpire s
  | .bringupRetry src val => Sys2Proof.Machine.execBringupRetry src val s
  | .fflClear src val => Sys2Proof.Machine.execFflClear src val s
  | .errorReport hub r => Sys2Proof.Machine.execErrorReport hub r s
  | .errorHandlingStart hub => Sys2Proof.Machine.execErrorHandlingStart hub s
  | .spareCheckDone ok => Sys2Proof.Machine.execSpareCheckDone ok s
  | .clusterHaltTimeout => Sys2Proof.Machine.execClusterHaltTimeout s
  | .pmcWatchdogTrip hub within60s => Sys2Proof.Machine.execPmcWatchdogTrip hub within60s s
  | .pmcResume hub => Sys2Proof.Machine.execPmcResume hub s
  | .predictMarginCross p => Sys2Proof.Machine.execPredictMarginCross p s
  | .serviceDrydown src => Sys2Proof.Machine.execServiceDrydown src s
  | .serviceReturn src => Sys2Proof.Machine.execServiceReturn src s
  | .serviceRestart src val => Sys2Proof.Machine.execServiceRestart src val s
  | .pairingAttempt peer => Sys2Proof.Machine.execPairingAttempt peer s
  | .mirrorWr p region => Sys2Proof.Machine.execMirrorWr p region s
  | .mirrorDelta p step recs => Sys2Proof.Machine.execMirrorDelta p step recs s
  | .mirrorAck p step => Sys2Proof.Machine.execMirrorAck p step s
  | .mirrorCtrl m => Sys2Proof.Machine.execMirrorCtrl m s
  | .mirrorAckTimeout => Sys2Proof.Machine.execMirrorAckTimeout s
  | .mirrorSyncDone => Sys2Proof.Machine.execMirrorSyncDone s
  | .handoffAck count => Sys2Proof.Machine.execHandoffAck count s
  | .handoffAckTimeout => Sys2Proof.Machine.execHandoffAckTimeout s
  | .returnRetry => Sys2Proof.Machine.execReturnRetry s
  | .fabricPacketReceive hub port p fecOk transit corrected => Sys2Proof.Machine.execFabricPacketReceive hub port p fecOk transit corrected s
  | .fabricRd hub p => Sys2Proof.Machine.execFabricRd hub p s
  | .fabricWr hub p => Sys2Proof.Machine.execFabricWr hub p s
  | .fpost hub p => Sys2Proof.Machine.execFpost hub p s
  | .fabricRdData hub p => Sys2Proof.Machine.execFabricRdData hub p s
  | .fabricWrAck hub p => Sys2Proof.Machine.execFabricWrAck hub p s
  | .fabricNak hub p => Sys2Proof.Machine.execFabricNak hub p s
  | .fabricRequestTimeout hub tag => Sys2Proof.Machine.execFabricRequestTimeout hub tag s
  | .sillageRecover limiter coord => Sys2Proof.Machine.execSillageRecover limiter coord s
  | .fqProducerWrite hub q val => Sys2Proof.Machine.execFqProducerWrite hub q val s
  | .fqPoll hub q => Sys2Proof.Machine.execFqPoll hub q s
  | .fabricGet hub q cmd => Sys2Proof.Machine.execFabricGet hub q cmd s
  | .fabricPut hub q cmd => Sys2Proof.Machine.execFabricPut hub q cmd s
  | .fabricPutPost hub q cmd => Sys2Proof.Machine.execFabricPutPost hub q cmd s
  | .routeApply hub => Sys2Proof.Machine.execRouteApply hub s
  | .portQueueEmpty hub port => Sys2Proof.Machine.execPortQueueEmpty hub port s
  | .portDrainTimeout hub port => Sys2Proof.Machine.execPortDrainTimeout hub port s
  | .hjfDetach hub => Sys2Proof.Machine.execHjfDetach hub s
  | .detach hub port => Sys2Proof.Machine.execDetach hub port s
  | .detachAck hub port => Sys2Proof.Machine.execDetachAck hub port s
  | .detachTimeout hub => Sys2Proof.Machine.execDetachTimeout hub s
  | .fabricPortDown hub port => Sys2Proof.Machine.execFabricPortDown hub port s
  | .laneDegraded hub port lanesOk => Sys2Proof.Machine.execLaneDegraded hub port lanesOk s
  | .fabricPortUp hub port neighbour nport => Sys2Proof.Machine.execFabricPortUp hub port neighbour nport s
  | .ownerProgram hub v => Sys2Proof.Machine.execOwnerProgram hub v s
  | .ownerRevoke hub v => Sys2Proof.Machine.execOwnerRevoke hub v s
  | .flaconFloor hub v => Sys2Proof.Machine.execFlaconFloor hub v s
  | .fwFloor hub v => Sys2Proof.Machine.execFwFloor hub v s
  | .debugUnlock hub v => Sys2Proof.Machine.execDebugUnlock hub v s
  | .debugRelock hub => Sys2Proof.Machine.execDebugRelock hub s
  | .debugWindowExpire hub => Sys2Proof.Machine.execDebugWindowExpire hub s
  | .entropyFail hub => Sys2Proof.Machine.execEntropyFail hub s
  | .guestTransaction site p => Sys2Proof.Machine.execGuestTransaction site p s
  | .oeReading k kind value lo hi => Sys2Proof.Machine.execOeReading k kind value lo hi s
  | .getVersion hub t => Sys2Proof.Machine.execGetVersion hub t s
  | .getCapabilities hub t => Sys2Proof.Machine.execGetCapabilities hub t s
  | .negotiateAlgorithms hub t => Sys2Proof.Machine.execNegotiateAlgorithms hub t s
  | .getDigests hub t => Sys2Proof.Machine.execGetDigests hub t s
  | .getCertificate hub t slot => Sys2Proof.Machine.execGetCertificate hub t slot s
  | .challenge hub t slot nonce => Sys2Proof.Machine.execChallenge hub t slot nonce s
  | .getMeasurements hub t index nonce => Sys2Proof.Machine.execGetMeasurements hub t index nonce s
  | .setEndpointId hub t eid => Sys2Proof.Machine.execSetEndpointId hub t eid s
  | .getEndpointId hub t => Sys2Proof.Machine.execGetEndpointId hub t s
  | .getMctpVersionSupport hub t => Sys2Proof.Machine.execGetMctpVersionSupport hub t s
  | .getMessageTypeSupport hub t => Sys2Proof.Machine.execGetMessageTypeSupport hub t s
  | .getVendorDefinedMessageSupport hub t => Sys2Proof.Machine.execGetVendorDefinedMessageSupport hub t s
  | .entdaa hub addr => Sys2Proof.Machine.execEntdaa hub addr s
  | .setdasa hub static addr => Sys2Proof.Machine.execSetdasa hub static addr s
  | .rstdaa hub => Sys2Proof.Machine.execRstdaa hub s
  | .requestUpdate hub component => Sys2Proof.Machine.execRequestUpdate hub component s
  | .verifyComplete hub digestOk => Sys2Proof.Machine.execVerifyComplete hub digestOk s
  | .activateFirmware hub written => Sys2Proof.Machine.execActivateFirmware hub written s
  | .pldmSensorRefresh => Sys2Proof.Machine.execPldmSensorRefresh s
  | .powerApplied => Sys2Proof.Machine.execPowerApplied s
  | .brownOutSustained => Sys2Proof.Machine.execBrownOutSustained s
  | .brownOutRailsOff => Sys2Proof.Machine.execBrownOutRailsOff s
  | .inputUnderVoltage => Sys2Proof.Machine.execInputUnderVoltage s
  | .inputOverVoltage => Sys2Proof.Machine.execInputOverVoltage s
  | .powerRemoved => Sys2Proof.Machine.execPowerRemoved s
  | .panelResetAssert widthNs => Sys2Proof.Machine.execPanelResetAssert widthNs s
  | .panelResetDeassert => Sys2Proof.Machine.execPanelResetDeassert s
  | .matrixPassDone c => Sys2Proof.Machine.execMatrixPassDone c s
  | .vectorOpDone c => Sys2Proof.Machine.execVectorOpDone c s
  | .standbySnapshot ctxs used step => Sys2Proof.Machine.execStandbySnapshot ctxs used step s
  | .frefLoss hub => Sys2Proof.Machine.execFrefLoss hub s
  | .doeDiscovery hub index => Sys2Proof.Machine.execDoeDiscovery hub index s
  | .setEventReceiver hub eid => Sys2Proof.Machine.execSetEventReceiver hub eid s
  | .pldmType5Transfer hub off data => Sys2Proof.Machine.execPldmType5Transfer hub off data s
  | .configurationWrite host busMaster => Sys2Proof.Machine.execConfigurationWrite host busMaster s
  | .jtagInstruction hub x => Sys2Proof.Machine.execJtagInstruction hub x s

end Sys2Proof.Machine
end

