-- ==== Sys2Proof/Machine/Tick.lean ====
section
/-! DEFINITION. What time does while no command waits (log 2): cores run their programs, cycle counters advance (R84, R119), test
and repair engines go on (R197), fabric ports and the mirror engine send (chapters 13 and 14), and stored bits may go bad (R161, R175, R190, log 27). -/

namespace Sys2Proof.Machine

/-! ### Cores (R46, R47, R71, R84, R119) -/

/-- The core's clock runs: its island is not stopped and is not changing its point (R84, R318). -/
def Panel.clockRuns (p : Panel) (c : Nat) : Bool :=
  let die := c / 16
  let n := c % 16 / 8 * 9 + p.coreSite c
  !p.flag F.CLK_ISLAND_stopped die n && !smHas p.pwr.moving (islandKey die n)

/-- The instruction word at a core's pc. -/
def Panel.instrWord (p : Panel) (c : Nat) : W64 := smGetD p.st.imem (c * imemWords + (p.core c).q.pc) 0

/-- The command that the core issues next from its instruction memory; none at a reserved op (R46, R47). -/
def Panel.nextInstr (p : Panel) (c : Nat) : Option Instr := coreInstr c (p.instrWord c)

/-- A reserved op raises ILLEGAL_INSTRUCTION (R47). -/
def Panel.reservedWord (p : Panel) (c : Nat) : Panel := p.issue c .issues true fun _ _ => .stall

/-- A core that can issue issues the instruction at its pc (R71). -/
def Panel.runWord (p : Panel) (c : Nat) : Panel :=
  if !p.canIssue c .issues then p
  else
    match p.nextInstr c with
    | some i =>
      match exec i ⟨p, []⟩ with
      | .next s => s.p
      | _ => p
    | none => p.reservedWord c

/-- The array, with no earlier pass computing, waits for the group of the pass at the head of the queue to become resident (R103, R119).
A pass behind an unresolved branch waits for the branch if at all (R116). -/
def Core.headWaits (k : Core) : Bool :=
  match k.mxQ with
  | o :: _ =>
    match o.op with
    | .pass g .. => !o.spec && k.running.isEmpty && (k.group g).state != .resident
    | _ => false
  | [] => false

/-- The core's cycle counters advance by one local cycle (R84, R119). -/
def Panel.countCycle (p : Panel) (c : Nat) : Panel :=
  let k := p.core c
  let p := p.addWrap F.CORE_CYCLE_cycle 1 c
  let p := if k.running.isEmpty then p else p.addWrap F.CORE_MX_BUSY_cycles 1 c
  if k.headWaits then p.addWrap F.CORE_MX_STALL_cycles 1 c else p

/-- A DMA engine may read ahead: whether and which operation is free (R67). -/
def Panel.dmaTick (p : Panel) (c : Nat) : Panel :=
  if (p.core c).dmaQ.isEmpty then p else let (i, p) := p.draw 10; p.readAhead c i

/-- One local cycle of a core. -/
def Panel.coreTick (p : Panel) (c : Nat) : Panel := if p.clockRuns c then ((p.countCycle c).dmaTick c).runWord c else p

/-- One local cycle of every core of the shape. -/
def Panel.tick (p : Panel) : Panel := if p.shapeValid then (List.range p.nCores).foldl Panel.coreTick p else p

/-! ### Stored bits (R161, R175, R190, log 27) -/

/-- A bit of a list of bad bits changes. -/
def toggle (l : List Nat) (b : Nat) : List Nat := if l.contains b then l.filter (· != b) else insertAsc l b

/-- One bit of a stored 64 B block, or of its check bits, changes. -/
def Panel.flipBit (p : Panel) (home b : Nat) : Panel :=
  let blk := home / 64
  { p with st := { p.st with latent := smPut p.st.latent [] blk (toggle (smGetD p.st.latent blk []) b) } }

/-- A block of HBM holds what was stored for another stack-local block (R190). -/
def Panel.strayBlock (p : Panel) (home sl : Nat) : Panel :=
  { p with st := { p.st with astray := smSet p.st.astray (home / 64) sl } }

/-- A bit of a stored remote-cache line changes (R175). -/
def Panel.flipLine (p : Panel) (i b : Nat) : Panel :=
  match p.st.rc[i]? with
  | some e => { p with st := { p.st with rc := smSet p.st.rc e.1 { e.2 with err := toggle e.2.err b } } }
  | none => p

/-- Whether, where and how stored bits go bad is free: nothing, a bit of a memory, an HBM block read astray, or a bit of a
remote-cache line. -/
def Panel.upset (p : Panel) : Panel :=
  let (what, p) := p.draw 4
  let (x, p) := p.draw (2 ^ 48)
  let (b, p) := p.draw (2 ^ 30)
  match what with
  | 1 => match p.decode x with
    | some (.hbm _, home) => p.flipBit home (b % 528)
    | some (_, home) => p.flipBit home (b % 576)
    | none => p
  | 2 => match p.decode x with
    | some (.hbm _, home) => p.strayBlock home b
    | _ => p
  | 3 => p.flipLine x (b % 2304)
  | _ => p

/-! ### A step with no command -/

/-- What happens while no command waits (log 2). -/
def Panel.idleTick (p : Panel) : Panel :=
  let p := (p.tick).upset
  let p := (List.range 36).foldl Panel.tpeAdvance p
  let p := (List.range 4).foldl Panel.guestTick p
  (List.range 4).foldl Panel.checkDetach (p.fTick).mirTick

/-- With no command waiting the panel idles (log 2). -/
def idle (s : State) : State := s.upd Panel.idleTick

end Sys2Proof.Machine
end

