-- ==== Sys2Proof/Safety.lean ====
section
/-! DEFINITION. The terms claims are stated in: what it is for a command to act, for an instruction to complete, and for
the sparse state to be in canonical form. -/

namespace Sys2Proof.Machine

/-- The command's meaning at `s` is a next state: the panel q, with the queue kept. -/
def Acts (i : Instr) (s : State) (q : Panel) : Prop := exec i s = .next { s with p := q }

/-- The instruction at core c's index completes with the panel p' and no taken transfer, giving q: control stays inside
instruction memory (R53, R54). -/
def Completes (p : Panel) (c : Nat) (p' q : Panel) : Prop := p'.completeAt c (p.core c).q.pc = some q

/-- Core c issues an instruction of a class (R71, R73, R77). -/
def Issues (p : Panel) (c : Nat) (cls : SpecClass) : Prop := p.canIssue c cls = true

/-- The writer may write a control register: a host that holds the lease, or a unit of the panel (R439, R502). -/
def MayWrite (p : Panel) (src : Writer) : Prop := src ≠ .bmc ∧ ∀ h, writerHost src = some h → p.holdsLease h = true

/-- The writer may give a command that the board management controller gives without the lease (R364, R390, R439). -/
def MayManage (p : Panel) (src : Writer) : Prop := src = .bmc ∨ MayWrite p src

/-- Core c is in program mode with no unresolved branch, so that a trap condition is taken at once (R74, R76). -/
def TrapsNow (p : Panel) (c : Nat) : Prop := p.fwMode c = false ∧ (p.core c).spec = none

/-- The 64 B block at a home address holds sound contents: no bad bit, no poison, check bits of the class it lies in, and nothing lost
(R161, R164, R165). -/
def SoundBlock (p : Panel) (k : MemKind) (home : Nat) : Prop :=
  smGetD p.st.latent (home / 64) [] = [] ∧ p.misCoded k home = false ∧
    ∀ j, j < 8 → smHas p.st.poison (home / 64 * 8 + j) = false ∧ p.lostWord k (home / 64 * 8 + j) = false

/-- Canonical form of memory: addresses rise strictly, and no byte equal to zero is listed. -/
def Memory.wf (m : SMap Byte) : Bool := smWf m 0

/-- The sparse state is in canonical form: the register file and the cores are each listed once, in order, and memory is
canonical. -/
def Panel.wf (p : Panel) : Prop := smSorted p.regs = true ∧ smSorted p.cores = true ∧ Memory.wf p.st.mem = true

end Sys2Proof.Machine
end

