-- ==== Sys2Proof/Certificates/Slice0/Obligations.lean ====
section
/-! DEFINITION. The statements for the provers. -/

open Sys2Proof Sys2Proof.Machine

/-! ### The queue of commands -/

/-- A step takes the command at the front of the queue and does what `exec` says of it, with the rest of the queue kept;
the queue's rest waits on, first in, first out. -/
def Obligations.StepRunsTheFrontCommand : Prop :=
  (∀ (c : Instr) (rest : List Instr) (s : State), step { s with pending := c :: rest } = exec c { s with pending := rest }) ∧
  (∀ (c : Instr) (s : State), ∃ p, exec c s = .next { s with p := p })

/-! ### The scalar class -/

/-- The register forms of R49: each writes its function of ra and rb to rd and completes. With a reserved bit set they raise
ILLEGAL_INSTRUCTION (R47). -/
def Obligations.RegisterFormsWriteTheirResult : Prop :=
  ∀ (s : State) (c : Nat) (f : RegForm) (q : Panel) (i : Instr) (op : W64 → W64 → W64),
    (i, op) ∈ ([
      (.add c f, fun a b => a + b), (.sub c f, fun a b => a - b), (.and_ c f, fun a b => a &&& b),
      (.or_ c f, fun a b => a ||| b), (.xor c f, fun a b => a ^^^ b), (.sll c f, fun a b => a <<< (b.toNat % 64)),
      (.srl c f, fun a b => a >>> (b.toNat % 64)), (.sra c f, fun a b => a.sshiftRight (b.toNat % 64)),
      (.mul c f, fun a b => a * b), (.mulh c f, fun a b => BitVec.ofInt 64 ((a.toInt * b.toInt) / 2 ^ 64)),
      (.slt c f, fun a b => if a.toInt < b.toInt then 1 else 0), (.sltu c f, fun a b => if a.toNat < b.toNat then 1 else 0),
      (.min_ c f, fun a b => if b.toInt < a.toInt then b else a),
      (.max_ c f, fun a b => if a.toInt < b.toInt then b else a)] : List (Instr × (W64 → W64 → W64))) →
    Issues s.p c .issues →
    (f.rsvd = 0 → (∀ r ∈ [f.ra, f.rb, f.rd], (s.p.core c).unready r = false) →
      Completes s.p c (s.p.setS c f.rd (op ((s.p.core c).sreg f.ra) ((s.p.core c).sreg f.rb))) q → Acts i s q) ∧
    (f.rsvd ≠ 0 → Acts i s (s.p.foundTrap c ⟨0x01, none⟩))

/-- The immediate forms of R49: each writes its function of ra and the sign-extended immediate to rd and completes. A shift
uses imm[5:0], with imm[45:6] zero; LI and LIH have ra zero. -/
def Obligations.ImmediateFormsWriteTheirResult : Prop :=
  ∀ (s : State) (c : Nat) (f : ImmForm) (q : Panel),
    Issues s.p c .issues → (∀ r ∈ [f.ra, f.rd], (s.p.core c).unready r = false) →
    (∀ (i : Instr) (op : W64 → W64 → W64), (i, op) ∈ ([
        (.addi c f, fun a b => a + b), (.andi c f, fun a b => a &&& b), (.ori c f, fun a b => a ||| b),
        (.xori c f, fun a b => a ^^^ b)] : List (Instr × (W64 → W64 → W64))) →
      Completes s.p c (s.p.setS c f.rd (op ((s.p.core c).sreg f.ra) (f.imm.signExtend 64))) q → Acts i s q) ∧
    (∀ (i : Instr) (op : W64 → Nat → W64), (i, op) ∈ ([
        (.slli c f, fun a n => a <<< n), (.srli c f, fun a n => a >>> n), (.srai c f, fun a n => a.sshiftRight n)]
          : List (Instr × (W64 → Nat → W64))) →
      f.imm.toNat < 64 →
      Completes s.p c (s.p.setS c f.rd (op ((s.p.core c).sreg f.ra) f.imm.toNat)) q → Acts i s q) ∧
    (f.ra = 0 → Completes s.p c (s.p.setS c f.rd (f.imm.signExtend 64)) q → Acts (.li c f) s q) ∧
    (f.ra = 0 → f.imm.toNat < 2 ^ 32 →
      Completes s.p c
        (s.p.setS c f.rd (BitVec.ofNat 64 (f.imm.toNat * 2 ^ 32 + ((s.p.core c).sreg f.rd).toNat % 2 ^ 32))) q →
      Acts (.lih c f) s q)

/-- The loads and stores of R50: LD and LDW put 8 or 4 scratchpad bytes, zero-extended, in rd; DLD puts 32 in a descriptor
register; ST, STW and DST write the low 8, 4 or 32 bytes at the same offset. The offset is ra + imm, a multiple of the size
within 4 MiB. Bytes read with poison raise POISON_CONSUMED instead; bytes read from a block of sound contents are those stored,
with no poison. An offset past 4 MiB raises SCRATCHPAD_RANGE and another that is no multiple of the size MISALIGNED; that order, and
that the detail is the offset, are the model's choice (log 53). -/
def Obligations.LoadsAndStoresMoveBytes : Prop :=
  (∀ (s : State) (c : Nat) (q : Panel), Issues s.p c .issues →
    (∀ (f : ImmForm) (n : Nat) (ld st : Instr),
      (n, ld, st) ∈ ([(8, .ld c f, .st c f), (4, .ldw c f, .stw c f)] : List (Nat × Instr × Instr)) →
      (∀ r ∈ [f.ra, f.rd], (s.p.core c).unready r = false) →
      let o := ((s.p.core c).sreg f.ra + f.imm.signExtend 64).toNat
      let x := s.p.spLoad c o n
      (o ≤ 0x3FFFFF → o % n = 0 →
        (x.2.1 = false → Completes s.p c (x.2.2.setS c f.rd (BitVec.ofNat 64 (ofBytes x.1))) q → Acts ld s q) ∧
        (x.2.1 = true → Acts ld s (s.p.foundTrap c ⟨0x0B, some (BitVec.ofNat 64 o)⟩)) ∧
        (Completes s.p c (s.p.spStore c o (toBytes n ((s.p.core c).sreg f.rd).toNat)) q → Acts st s q)) ∧
      (∀ i ∈ [ld, st],
        (0x3FFFFF < o → Acts i s (s.p.foundTrap c ⟨0x03, some (BitVec.ofNat 64 o)⟩)) ∧
        (o ≤ 0x3FFFFF → o % n ≠ 0 → Acts i s (s.p.foundTrap c ⟨0x02, some (BitVec.ofNat 64 o)⟩)))) ∧
    (∀ (f : DMemForm), f.rsvd = 0 → (s.p.core c).unready f.ra = false →
      let o := ((s.p.core c).sreg f.ra + f.imm.signExtend 64).toNat
      let x := s.p.spLoad c o 32
      (o ≤ 0x3FFFFF → o % 32 = 0 →
        (x.2.1 = false →
          Completes s.p c (x.2.2.modCore c fun k => k.setD f.dn (BitVec.ofNat 256 (ofBytes x.1))) q → Acts (.dld c f) s q) ∧
        (x.2.1 = true → Acts (.dld c f) s (s.p.foundTrap c ⟨0x0B, some (BitVec.ofNat 64 o)⟩)) ∧
        (Completes s.p c (s.p.spStore c o (toBytes 32 ((s.p.core c).dreg f.dn).toNat)) q → Acts (.dst c f) s q)) ∧
      (∀ i ∈ ([.dld c f, .dst c f] : List Instr),
        (0x3FFFFF < o → Acts i s (s.p.foundTrap c ⟨0x03, some (BitVec.ofNat 64 o)⟩)) ∧
        (o ≤ 0x3FFFFF → o % 32 ≠ 0 → Acts i s (s.p.foundTrap c ⟨0x02, some (BitVec.ofNat 64 o)⟩))))) ∧
  (∀ (p : Panel) (c o n : Nat), n ∈ [4, 8, 32] → c < 1024 → p.hasCore c = true → (p.core c).spec = none → o ≤ 0x3FFFFF →
    o % n = 0 →
    (SoundBlock p (.scratch c) (scratchPa c o) →
      p.spLoad c o n = ((List.range n).map fun i => smGetD p.st.mem (scratchPa c o + i) 0, false, p)) ∧
    (∀ bs : List Byte, bs.length = n → p.wf → ∀ i, i < n →
      smGetD (p.spStore c o bs).st.mem (scratchPa c o + i) 0 = bs.getD i 0))

/-- DSET writes the low bits of the register to the descriptor field that sel names, and DGET reads the field, its three
strides sign-extended (R40, R49). A reserved bit that is set and a sel above 9 raise ILLEGAL_INSTRUCTION (R47). -/
def Obligations.DescriptorFieldsMove : Prop :=
  ∀ (s : State) (c : Nat) (f : DFldForm) (q : Panel) (lo w : Nat) (sx : Bool),
    (f.sel.toNat, lo, w, sx) ∈ [(0, 0, 56, false), (1, 56, 4, false), (2, 60, 2, false), (3, 64, 32, true),
      (4, 96, 32, true), (5, 128, 32, true), (6, 160, 20, false), (7, 192, 20, false), (8, 212, 20, false),
      (9, 232, 24, false)] →
    Issues s.p c .issues → f.rsvd = 0 → (s.p.core c).unready f.r = false →
    (∀ f' : DFldForm, f'.rsvd ≠ 0 ∨ 9 < f'.sel.toNat → ∀ i ∈ ([.dset c f', .dget c f'] : List Instr),
      Acts i s (s.p.foundTrap c ⟨0x01, none⟩)) ∧
    let d := (s.p.core c).dreg f.dn
    let v := d.toNat / 2 ^ lo % 2 ^ w
    (∀ d' : W256, d'.toNat % 2 ^ lo = d.toNat % 2 ^ lo → d'.toNat / 2 ^ (lo + w) = d.toNat / 2 ^ (lo + w) →
      d'.toNat / 2 ^ lo % 2 ^ w = ((s.p.core c).sreg f.r).toNat % 2 ^ w →
      Completes s.p c (s.p.modCore c fun k => k.setD f.dn d') q → Acts (.dset c f) s q) ∧
    (Completes s.p c (s.p.setS c f.r (if sx = true ∧ 2 ^ w ≤ 2 * v then BitVec.ofInt 64 ((v : Int) - 2 ^ w)
        else BitVec.ofNat 64 v)) q →
      Acts (.dget c f) s q)

/-! ### The control class -/

/-- The conditional branches of R52: the branch is taken where its comparison of ra and rb holds, towards pc + offset, and is
open until it is resolved (R72). -/
def Obligations.BranchesCompareAndOpen : Prop :=
  ∀ (s : State) (c : Nat) (f : BranchForm) (i : Instr) (cmp : W64 → W64 → Bool),
    (i, cmp) ∈ ([
      (.beq c f, fun a b => decide (a = b)), (.bne c f, fun a b => decide (a ≠ b)),
      (.blt c f, fun a b => decide (a.toInt < b.toInt)), (.bge c f, fun a b => decide (b.toInt ≤ a.toInt)),
      (.bltu c f, fun a b => decide (a.toNat < b.toNat)), (.bgeu c f, fun a b => decide (b.toNat ≤ a.toNat))]
        : List (Instr × (W64 → W64 → Bool))) →
    Issues s.p c .waits → f.rsvd = 0 → (∀ r ∈ [f.ra, f.rb], (s.p.core c).unready r = false) →
    let k := s.p.core c
    let t : Int := k.q.pc + f.off.toInt
    let taken := cmp (k.sreg f.ra) (k.sreg f.rb)
    (taken = true → 0 ≤ t ∧ t < 32768) → (taken = false → ∃ q, Completes s.p c s.p q) →
    Acts i s (s.p.openBranch c taken t)

/-- JMP, CALL, JR, CALLR and RET of R52 and R53: control goes to the target, a taken transfer; CALL and CALLR put pc + 1 in
s31; JMP and JR end the loop levels their target leaves, the calls and RET do not (R54). -/
def Obligations.JumpsGoToTheirTarget : Prop :=
  ∀ (s : State) (c : Nat),
    let k := s.p.core c
    let fw := s.p.fwMode c
    let linked := s.p.setS c 31 (BitVec.ofNat 64 (k.q.pc + 1))
    (∀ f : JumpForm, f.rsvd = 0 → Issues s.p c .issues → 0 ≤ k.q.pc + f.off.toInt → k.q.pc + f.off.toInt < 32768 →
      Acts (.jmp c f) s (s.p.setCore c (k.goTo fw (k.q.pc + f.off.toInt).toNat true)) ∧
      (k.unready 31 = false →
        Acts (.call c f) s (linked.setCore c ((linked.core c).goTo fw (k.q.pc + f.off.toInt).toNat false)))) ∧
    (∀ f : RJumpForm, f.rsvdHi = 0 → f.rsvdLo = 0 → Issues s.p c .waits → (k.sreg f.ra).toNat < 32768 →
      k.unready f.ra = false →
      Acts (.jr c f) s (s.p.setCore c (k.goTo fw (k.sreg f.ra).toNat true)) ∧
      (k.unready 31 = false →
        Acts (.callr c f) s (linked.setCore c ((linked.core c).goTo fw (k.sreg f.ra).toNat false)))) ∧
    (Issues s.p c .waits → (k.sreg 31).toNat < 32768 → k.unready 31 = false →
      Acts (.ret c 0) s (s.p.setCore c (k.goTo fw (k.sreg 31).toNat false)))

/-- LOOP of R54: a count of zero goes past the body; another count opens a level with the body's first and last index and the
iterations left, where fewer than four levels are open and the body lies inside the innermost. A fifth level and a body that ends
past the innermost active level's raise LOOP_NEST, a body that leaves instruction memory IMEM_RANGE; that the second is tested first and
has the end as its detail, and that the innermost level is compared wherever the LOOP lies, is the model's choice (log 53). -/
def Obligations.LoopOpensALevel : Prop :=
  ∀ (s : State) (c : Nat) (f : LoopForm), f.rsvd = 0 → f.body ≠ 0 → (f.ra = 0 ∨ f.count = 0) → Issues s.p c .waits →
    (s.p.core c).unready f.ra = false →
    let k := s.p.core c
    let fw := s.p.fwMode c
    let e := k.q.pc + f.body.toNat
    let n := if f.ra = 0 then f.count.toNat else (k.sreg f.ra).toNat % 2 ^ 32
    (32767 < e → Acts (.loop c f) s (s.p.foundTrap c ⟨0x06, some (BitVec.ofNat 64 e)⟩)) ∧
    (e ≤ 32767 → (∃ l, (k.q.loops fw).head? = some l ∧ l.last < e) → Acts (.loop c f) s (s.p.foundTrap c ⟨0x07, none⟩)) ∧
    (e ≤ 32767 → (∀ l, (k.q.loops fw).head? = some l → e ≤ l.last) →
      (n = 0 → ∀ q, s.p.completeAt c e = some q → Acts (.loop c f) s q) ∧
      (n ≠ 0 → (k.q.loops fw).length < 4 →
        Acts (.loop c f) s (s.p.setCore c
          (({ k with q := k.q.setLoops fw (⟨k.q.pc + 1, e, n⟩ :: k.q.loops fw) }).complete (k.q.pc + 1)))) ∧
      (n ≠ 0 → 4 ≤ (k.q.loops fw).length → Acts (.loop c f) s (s.p.foundTrap c ⟨0x07, none⟩)))

/-- BRANCH_RESOLVE trains the branch's counter (R72) and, where the prediction was right, lets everything held take effect; where it was
wrong, squashes it (R75). A right prediction: nothing is held any more, the queues and the running passes go on, and the stores that
were held are done in order. A misprediction: registers and descriptors are those of the branch, nothing held remains in a queue, and
the count of mispredictions rises by one. Of no unresolved branch nothing changes. -/
def Obligations.BranchResolveCommitsOrSquashes : Prop :=
  (∀ (s : State) (c : Nat) (sp : Spec), (s.p.core c).spec = some sp →
     let trained := s.p.modCore c fun k => { k with
       predictor := smPut k.predictor 0 (sp.brPc % 2048) (counterStep (smGetD k.predictor (sp.brPc % 2048) 0) sp.taken) }
     (sp.taken = sp.predTaken → Acts (.branchResolve c) s (((trained.commitSpec c sp).pruneDma c).mxAdvance c)) ∧
     (sp.taken ≠ sp.predTaken → Acts (.branchResolve c) s (((trained.squashSpec c sp).pruneDma c).mxAdvance c))) ∧
  (∀ (s : State) (c : Nat), (s.p.core c).spec = none → Acts (.branchResolve c) s s.p) ∧
  (∀ (p : Panel) (c : Nat) (sp : Spec), p.wf → sp.heldTrap = none → (∀ o ∈ (p.core c).dmaQ, o.failed = false) →
     let q := p.commitSpec c sp
     let k := q.core c
     k.spec = none ∧ k.q = (p.core c).q ∧ k.mxQ = (p.core c).mxQ.map (fun o => { o with spec := false }) ∧
     k.dmaQ = (p.core c).dmaQ.map (fun o => { o with spec := false }) ∧
     k.vecQ = (p.core c).vecQ.map (fun o => { o with spec := false }) ∧
     k.posts = (p.core c).posts.map (fun o => { o with spec := false }) ∧
     k.running = (p.core c).running.map (fun r => { r with op := { r.op with spec := false } }) ∧
     ∃ p' : Panel, p'.st = p.st ∧ p'.regs = p.regs ∧
       q.st = (sp.held.foldl (fun (p : Panel) e => p.writeTagged (scratchPa c e.1) (tagged e.2)) p').st) ∧
  (∀ (p : Panel) (c : Nat) (sp : Spec), p.wf → c < 1024 →
     let k := (p.squashSpec c sp).core c
     k.q.sregs = sp.saved.sregs ∧ k.q.dregs = sp.saved.dregs ∧ k.spec = none ∧
     (∀ o ∈ k.mxQ, o.spec = false) ∧ (∀ o ∈ k.dmaQ, o.spec = false) ∧ (∀ o ∈ k.vecQ, o.spec = false) ∧
     (∀ o ∈ k.posts, o.spec = false) ∧ (∀ r ∈ k.running, r.op.spec = false) ∧
     (p.squashSpec c sp).fget F.CORE_MISPREDICT_COUNT_count c = (p.fget F.CORE_MISPREDICT_COUNT_count c + 1) % 2 ^ 32)

/-- How a core runs its program (R46, R47, R53, R54, R71). Writing a core command as an instruction word and reading the word give
the command back, and reading a word and writing it give the word back: no bit is dropped, and no word names two commands. A core that
can issue runs the command that the word at its index names, and a reserved op raises ILLEGAL_INSTRUCTION. A completion with no taken
transfer leaves the next index, one more instruction issued, and the loop levels; registers, queues, memory, the register file and
every other core are as they were. -/
def Obligations.CompletionMovesPastTheInstruction : Prop :=
  (∀ (i : Instr) (c : Nat) (w : W64), coreWord i = some (c, w) ↔ coreInstr c w = some i) ∧
  (∀ (p : Panel) (c : Nat), Issues p c .issues →
    (∀ i, coreInstr c (smGetD p.st.imem (c * 32768 + (p.core c).q.pc) 0) = some i →
      exec i ⟨p, []⟩ = .next ⟨p.runWord c, []⟩) ∧
    (coreInstr c (smGetD p.st.imem (c * 32768 + (p.core c).q.pc) 0) = none → p.runWord c = p.foundTrap c ⟨0x01, none⟩)) ∧
  (∀ (p q : Panel) (c : Nat), p.wf → Completes p c p q →
    let k := p.core c
    let k' := q.core c
    k'.q.pc = (loopStep k.q.pc (k.q.loops (p.fwMode c))).2 ∧ k'.q.pc < 32768 ∧ k'.q.seq = k.q.seq + 1 ∧
    k'.q.loops (p.fwMode c) = (loopStep k.q.pc (k.q.loops (p.fwMode c))).1 ∧
    k'.q.loops (!p.fwMode c) = k.q.loops (!p.fwMode c) ∧
    k'.q.sregs = k.q.sregs ∧ k'.q.dregs = k.q.dregs ∧ k'.vregs = k.vregs ∧ k'.groups = k.groups ∧ k'.mxQ = k.mxQ ∧
    k'.dmaQ = k.dmaQ ∧ k'.vecQ = k.vecQ ∧ k'.posts = k.posts ∧
    (∀ c', c' ≠ c → q.core c' = p.core c') ∧ q.regs = p.regs ∧ q.st = p.st ∧ q.net = p.net ∧ q.reports = p.reports)

/-- s0 reads as zero and discards writes; a write of another register is read back there and nowhere else. CALL and CALLR put
the return address, the index after their own, in s31 (R37). -/
def Obligations.ScalarRegistersHoldWhatIsWritten : Prop :=
  (∀ (p : Panel) (c : Nat) (r t : BitVec 5) (v : W64), p.wf → smSorted (p.core c).q.sregs = true →
    (((p.setS c r v).core c).sreg t = if t = 0 then 0 else if t = r then v else (p.core c).sreg t) ∧
    (∀ c', c' ≠ c → (p.setS c r v).core c' = p.core c')) ∧
  (∀ (s : State) (c : Nat), s.p.wf → smSorted (s.p.core c).q.sregs = true → (s.p.core c).unready 31 = false →
    (∀ f : JumpForm, f.rsvd = 0 → Issues s.p c .issues → 0 ≤ (s.p.core c).q.pc + f.off.toInt →
      (s.p.core c).q.pc + f.off.toInt < 32768 →
      ∃ q, Acts (.call c f) s q ∧ (q.core c).sreg 31 = BitVec.ofNat 64 ((s.p.core c).q.pc + 1)) ∧
    (∀ f : RJumpForm, f.rsvdHi = 0 → f.rsvdLo = 0 → Issues s.p c .waits → ((s.p.core c).sreg f.ra).toNat < 32768 →
      (s.p.core c).unready f.ra = false →
      ∃ q, Acts (.callr c f) s q ∧ (q.core c).sreg 31 = BitVec.ofNat 64 ((s.p.core c).q.pc + 1)))

/-! ### The sync and system classes -/

/-- TPOST queues its post; TTEST reads a counter, TSET writes one and TWAIT subtracts its threshold from one that holds as
much, or blocks on it; FENCE and EPOCH.ADVANCE complete once their engine classes are complete, or block (R55 to R58, R63,
R69). -/
def Obligations.SyncInstructionsActOnTokens : Prop :=
  ∀ (s : State) (c : Nat) (q : Panel),
    let k := s.p.core c
    (∀ f : TpostForm, Issues s.p c .issues → f.rsvd = 0 → f.inc ≠ 0 → (f.remote = true ∨ f.target = 0) →
      (f.remote = true → k.remotePosts < 16) →
      Completes s.p c (s.p.setCore c { k with
        posts := k.posts ++ [⟨f.tn, f.remote, f.target, f.inc, f.mask, k.q.seq, k.spec.isSome⟩] }) q →
      Acts (.tpost c f) s q) ∧
    (Issues s.p c .waits →
      (∀ f : TwoForm, f.rsvd = 0 → k.unready f.a = false →
        Completes s.p c (s.p.setS c f.a (BitVec.ofNat 64 (s.p.fget F.CORE_TOKEN_value c f.b.toNat))) q →
        Acts (.ttest c f) s q) ∧
      (∀ f : TwoForm, f.rsvd = 0 → k.unready f.b = false →
        Completes s.p c (s.p.fput F.CORE_TOKEN_value (k.sreg f.b).toNat c f.a.toNat) q → Acts (.tset c f) s q) ∧
      (∀ f : TwaitForm, f.rsvd = 0 → (f.ra = 0 ∨ f.threshold = 0) → k.unready f.ra = false →
        let t := if f.ra = 0 then f.threshold.toNat else (k.sreg f.ra).toNat % 2 ^ 32
        let v := s.p.fget F.CORE_TOKEN_value c f.tn.toNat
        (t ≤ v → Completes s.p c (s.p.fput F.CORE_TOKEN_value (v - t) c f.tn.toNat) q → Acts (.twait c f) s q) ∧
        (v < t → Acts (.twait c f) s (s.p.setCore c { k with blocked := some (.twait f.tn t) }))) ∧
      (∀ f : FenceForm, f.rsvd = 0 →
        (k.classesDone f.mask k.q.seq = true → Completes s.p c s.p q → Acts (.fence c f) s q) ∧
        (k.classesDone f.mask k.q.seq = false →
          Acts (.fence c f) s (s.p.setCore c { k with blocked := some (.fence f.mask) }))) ∧
      (k.classesDone 0b0010 k.q.seq = true → Completes s.p c (s.p.coreEpoch c) q → Acts (.epochAdvance c 0) s q) ∧
      (k.classesDone 0b0010 k.q.seq = false →
        Acts (.epochAdvance c 0) s (s.p.setCore c { k with blocked := some .epochAdvance })))

/-- BAR.ARRIVE blocks until its classes are complete where no arrival of the channel is outstanding; BAR.WAIT, with one
outstanding, completes if the generation is released and blocks if not; without one it raises BARRIER_ORDER, and so does
BAR.ARRIVE with one (R62). -/
def Obligations.BarrierInstructionsPair : Prop :=
  ∀ (s : State) (c : Nat) (f : BarForm) (q : Panel), Issues s.p c .waits → f.rsvd = 0 →
    let k := s.p.core c
    let ch := f.channel.toNat
    (smHas k.arrivals ch = false →
      Acts (.barArrive c f) s (s.p.setCore c { k with blocked := some (.barArrive ch) }) ∧
      Acts (.barWait c f) s (s.p.foundTrap c ⟨8, none⟩)) ∧
    (smHas k.arrivals ch = true →
      Acts (.barArrive c f) s (s.p.foundTrap c ⟨8, none⟩) ∧
      (smHas k.released ch = false → Acts (.barWait c f) s (s.p.setCore c { k with blocked := some (.barWait ch) })) ∧
      (smHas k.released ch = true →
        Completes s.p c (s.p.setCore c { k with arrivals := smDel k.arrivals ch, released := smDel k.released ch }) q →
        Acts (.barWait c f) s q))

/-- The events that end a wait, where no asynchronous cause is to be delivered first (R77): TWAIT_SATISFY subtracts the threshold,
BAR_WAIT_RELEASE takes the release, FENCE_COMPLETE finds the classes complete, and the blocked instruction completes; WAIT_TIMEOUT
raises WAIT_TIMEOUT at the blocked index where the limit is not zero (R57, R61 to R63). While such a cause waits, none of them acts. -/
def Obligations.WaitsEnd : Prop :=
  ∀ (s : State) (c : Nat) (q : Panel),
    let k := s.p.core c
    let free (p : Panel) : Panel := p.modCore c fun k => { k with blocked := none }
    (s.p.asyncDue c = true → ∀ i ∈ ([.twaitSatisfy c, .barWaitRelease c, .fenceComplete c, .waitTimeout c] : List Instr),
      Acts i s s.p) ∧
    (s.p.asyncDue c = false →
      (∀ tn t, k.blocked = some (.twait tn t) → t ≤ s.p.fget F.CORE_TOKEN_value c tn.toNat →
        Completes s.p c (free (s.p.fput F.CORE_TOKEN_value (s.p.fget F.CORE_TOKEN_value c tn.toNat - t) c tn.toNat)) q →
        Acts (.twaitSatisfy c) s q) ∧
      (∀ ch, k.blocked = some (.barWait ch) → smHas k.released ch = true →
        Completes s.p c (free (s.p.modCore c fun k => { k with
          arrivals := smDel k.arrivals ch, released := smDel k.released ch })) q →
        Acts (.barWaitRelease c) s q) ∧
      (∀ m, k.blocked = some (.fence m) → k.classesDone m k.q.seq = true → Completes s.p c (free s.p) q →
        Acts (.fenceComplete c) s q) ∧
      (k.blocked = some .epochAdvance → k.classesDone 0b0010 k.q.seq = true → Completes s.p c (free (s.p.coreEpoch c)) q →
        Acts (.fenceComplete c) s q) ∧
      ((∃ tn t, k.blocked = some (.twait tn t)) ∨ (∃ ch, k.blocked = some (.barWait ch)) →
        s.p.fget F.CORE_WAIT_LIMIT_limit c ≠ 0 →
        Acts (.waitTimeout c) s ((s.p.setCore c { k with blocked := none }).syncTrap c k.q.pc 9 none)))

/-- TPOST_RELEASE (R56, R58, R59): a held post whose release mask is complete leaves the queue of posts; a local one adds its
increment to the counter, a remote one is sent. A post adds its increment; a sum above 0xFFFF_FFFF leaves the counter at
0xFFFF_FFFF, sets the counter's overflow bit and makes TOKEN_OVERFLOW pending (R57). -/
def Obligations.PostsAreReleasedAndCounted : Prop :=
  (∀ (s : State) (c n : Nat) (o : Post), (s.p.core c).posts[n]? = some o → o.spec = false →
     (s.p.core c).classesDone o.mask o.seq = true →
     let p' := s.p.setCore c { s.p.core c with posts := (s.p.core c).posts.eraseIdx n }
     (o.remote = false → Acts (.tpostRelease c n) s (p'.tokenAdd c o.tn.toNat o.inc.toNat)) ∧
     (o.remote = true → Acts (.tpostRelease c n) s (p'.sendPost c o))) ∧
  (∀ (p : Panel) (c n inc : Nat), p.wf → c < 1024 → n < 32 →
     let v := p.fget F.CORE_TOKEN_value c n + inc
     (p.tokenAdd c n inc).fget F.CORE_TOKEN_value c n = min v 0xFFFFFFFF ∧
     (0xFFFFFFFF < v →
       bit ((p.tokenAdd c n inc).fget F.CORE_TOKEN_STATUS_overflow c) n = true ∧
       bit ((p.tokenAdd c n inc).fget F.CORE_TRAP_PENDING_pending c) 0x13 = true) ∧
     (v ≤ 0xFFFFFFFF → (p.tokenAdd c n inc).cores = p.cores))

/-- CSRR puts the register's value in rd; CSRW, CSRS and CSRC write ra, the register with ra's bits set and with them cleared,
where program mode may write the register and no read-only bit would change (R39, R69); otherwise CSR_ACCESS is raised. -/
def Obligations.CsrInstructionsReachTheRegisters : Prop :=
  ∀ (s : State) (c : Nat) (f : CsrForm) (q : Panel), Issues s.p c .waits → f.rsvd = 0 →
    let k := s.p.core c
    (∀ r n v p', csrReg f.csr.toNat = some (r, n) → s.p.coreRead c r n = (v, p') →
      (f.b = 0 → k.unready f.a = false → Completes s.p c (p'.setS c f.a v) q → Acts (.csrr c f) s q) ∧
      (f.a = 0 → k.unready f.b = false →
        ∀ (i : Instr) (w : W64), (i, w) ∈ ([(.csrw c f, k.sreg f.b), (.csrs c f, v ||| k.sreg f.b),
            (.csrc c f, v &&& ~~~ k.sreg f.b)] : List (Instr × W64)) →
          (r.info.fwOnly = false ∨ p'.fwMode c = true → (v ^^^ w) &&& r.roMask = 0 →
            Completes s.p c (p'.coreWrite c r n w) q → Acts i s q) ∧
          ((r.info.fwOnly = true ∧ p'.fwMode c = false) ∨ (v ^^^ w) &&& r.roMask ≠ 0 →
            Acts i s (s.p.foundTrap c ⟨0x0A, none⟩)))) ∧
    (csrReg f.csr.toNat = none →
      (f.b = 0 → k.unready f.a = false → Acts (.csrr c f) s (s.p.foundTrap c ⟨0x0A, none⟩)) ∧
      (f.a = 0 → k.unready f.b = false → ∀ i ∈ ([.csrw c f, .csrs c f, .csrc c f] : List Instr),
        Acts i s (s.p.foundTrap c ⟨0x0A, none⟩)))

/-- TRAP raises SOFTWARE with its code; in firmware mode RETT goes back to the saved index in the saved mode and HALT stops
issue; in program mode both raise ILLEGAL_INSTRUCTION (R39, R69, R79). -/
def Obligations.TrapReturnAndHalt : Prop :=
  ∀ (s : State) (c : Nat), Issues s.p c .waits → (s.p.core c).spec = none →
    let k := s.p.core c
    (∀ f : TrapForm, f.rsvd = 0 → s.p.fwMode c = false →
      Acts (.trap c f) s (s.p.enterTrap c k.q.pc 0x0C false (f.code.setWidth 64))) ∧
    (s.p.fwMode c = true →
      Acts (.rett c 0) s ((s.p.fput F.CORE_STATUS_mode (s.p.fget F.CORE_TRAP_CAUSE_prev_mode c) c).setCore c
        (k.complete (s.p.fget F.CORE_TRAP_PC_pc c))) ∧
      Acts (.halt c 0) s (s.p.setCore c { k with blocked := some .halting })) ∧
    (s.p.fwMode c = false → ∀ i ∈ ([.rett c 0, .halt c 0] : List Instr),
      Acts i s (s.p.foundTrap c ⟨0x01, none⟩))

/-- Taking a trap (R76, R77): the index, the cause, whether it is asynchronous, the mode and the detail are saved, the mode
becomes firmware, and pc is the trap vector; scalar and descriptor registers, token counters and loops are unchanged. A
synchronous trap in firmware mode (R78): issue stops, CORE_STATUS.double_trap is set, and an uncorrected error at core level is
reported; a trap in program mode is taken. -/
def Obligations.TrapEntrySaves : Prop :=
  (∀ (p : Panel) (c pc cause : Nat) (async : Bool) (info : W64), p.wf → c < 1024 → pc < 32768 → cause < 256 →
     let q := p.enterTrap c pc cause async info
     q.fget F.CORE_TRAP_PC_pc c = pc ∧ q.fget F.CORE_TRAP_CAUSE_cause c = cause ∧
     q.fget F.CORE_TRAP_CAUSE_async c = (if async then 1 else 0) ∧
     q.fget F.CORE_TRAP_CAUSE_prev_mode c = p.fget F.CORE_STATUS_mode c ∧ q.get .CORE_TRAP_INFO c = info ∧
     q.fwMode c = true ∧ (q.core c).q.pc = p.fget F.CORE_TRAP_VECTOR_vector c ∧
     (q.core c).q.sregs = (p.core c).q.sregs ∧ (q.core c).q.dregs = (p.core c).q.dregs ∧
     (q.core c).q.loopsP = (p.core c).q.loopsP ∧ (∀ n, n < 32 → q.get .CORE_TOKEN c n = p.get .CORE_TOKEN c n) ∧
     q.st = p.st ∧ (∀ c', c' ≠ c → q.core c' = p.core c')) ∧
  (∀ (p : Panel) (c pc cause : Nat) (info : W64), p.wf → c < 1024 →
     let q := p.syncTrap c pc cause (some info)
     (p.fwMode c = true →
       q.fget F.CORE_STATUS_double_trap c = 1 ∧ q.running c = false ∧ q.halted c = true ∧
       (∃ h r, q.reports = p.reports ++ [(h, r)] ∧ r.cls = clsUC ∧ r.level = lvCore)) ∧
     (p.fwMode c = false → q = p.enterTrap c pc cause false info))

/-- ASYNC_TRAP_DELIVERY (R77): a cause sets its pending bit, and writing 1 to the bit discards it; in program mode, before the
next instruction issues, the lowest pending cause is taken at that instruction's index, its pending bit cleared and the others
left; in firmware mode none is. HALT_COMPLETE (R69, R85): a core that stops issue is halted once its engines have drained. -/
def Obligations.AsyncCausesAndHaltsComplete : Prop :=
  (∀ (s : State) (c : Nat), (s.p.core c).spec = none →
    let k := s.p.core c
    let pend := s.p.fget F.CORE_TRAP_PENDING_pending c
    (∀ n, n < 32 → bit pend n = true → (∀ m, m < n → bit pend m = false) → s.p.asyncDue c = true → s.p.running c = true →
      k.blocked ≠ some .halting →
      Acts (.asyncTrapDelivery c) s
        (((s.p.fput F.CORE_TRAP_PENDING_pending (pend - 2 ^ n) c).modCore c fun k => { k with
          asyncInfo := smDel k.asyncInfo n }).enterTrap c k.q.pc n true (s.p.asyncDetail c n))) ∧
    (k.blocked = some .halting → k.drained = true →
      ∃ q, Acts (.haltComplete c) s q ∧
        (s.p.wf → c < 1024 → q.running c = false ∧ q.halted c = true ∧ (q.core c).blocked = none))) ∧
  (∀ (s : State) (c : Nat) (cls : SpecClass),
    (s.p.fwMode c = true → Acts (.asyncTrapDelivery c) s s.p) ∧ (s.p.asyncDue c = true → s.p.canIssue c cls = false)) ∧
  (∀ (p : Panel) (c n m info : Nat) (v : W64), p.wf → c < 1024 → n < 32 → m < 32 →
    bit ((p.raiseAsync c n info).fget F.CORE_TRAP_PENDING_pending c) m =
      (decide (m = n) || bit (p.fget F.CORE_TRAP_PENDING_pending c) m) ∧
    bit ((p.coreWrite c .CORE_TRAP_PENDING 0 v).fget F.CORE_TRAP_PENDING_pending c) m =
      (bit (p.fget F.CORE_TRAP_PENDING_pending c) m && !bit v.toNat m)) ∧
  (∀ (p : Panel) (c pc n : Nat) (info : W64), p.wf → c < 1024 → pc < 32768 → n < 256 →
    (p.enterTrap c pc n true info).fget F.CORE_TRAP_PC_pc c = pc ∧
    (p.enterTrap c pc n true info).fget F.CORE_TRAP_CAUSE_async c = 1)

/-! ### Data movement -/

/-- The DMA instructions of R64, where the checks of R43, R44 and R65 pass and the queue of 16 has room: the operation joins the
queue with the descriptors it has at issue, and waits on the network unless it is a MARK. -/
def Obligations.DmaInstructionsQueue : Prop :=
  ∀ (s : State) (c : Nat) (q : Panel), Issues s.p c .issues → (s.p.core c).dmaQ.length < 16 →
    let p := s.p
    let k := p.core c
    let queued (op : DmaKind) (tn : BitVec 5) (inc : BitVec 16) (i : Instr) : Prop :=
      ∀ p', p.dmaPut c op tn inc = .done p' → Completes p c p' q → Acts i s q
    (∀ f : DmaCopyForm, f.rsvd = 0 →
      let ds := descOf (k.dreg f.ds)
      let dd := descOf (k.dreg f.dd)
      p.descOk ds = true → p.descOk dd = true → ds.fmt = dd.fmt → ds.count = dd.count → anyMeet ds dd = false →
      p.sliceClassOk ds = true → p.sliceClassOk dd = true →
      queued (.copy (k.dreg f.ds) (k.dreg f.dd)) f.tn f.inc (.dmaCopy c f)) ∧
    (∀ f : DmaListForm, f.rsvd = 0 →
      let ds := descOf (k.dreg f.ds)
      let dd := descOf (k.dreg f.dd)
      let di := descOf (k.dreg f.di)
      ds.fmt = dd.fmt → ds.count = dd.count → p.descOk di = true →
      (ds.fieldsOk = true → p.descOk ds.asTemplate = true → p.descOk dd = true → listOk di ds = true →
        anyMeet ds.asTemplate dd = false → anyMeet di dd = false → p.sliceClassOk dd = true →
        p.touchesOk di.pclass di.listRange = true →
        queued (.gather (k.dreg f.ds) (k.dreg f.dd) (k.dreg f.di)) f.tn f.inc (.dmaGather c f)) ∧
      (p.descOk ds = true → dd.fieldsOk = true → p.descOk dd.asTemplate = true → listOk di dd = true →
        anyMeet dd.asTemplate ds = false → anyMeet di dd.asTemplate = false → p.sliceClassOk ds = true →
        p.touchesOk di.pclass di.listRange = true →
        queued (.scatter (k.dreg f.ds) (k.dreg f.dd) (k.dreg f.di)) f.tn f.inc (.dmaScatter c f))) ∧
    (∀ f : DmaFillForm, f.rsvd = 0 → k.unready f.rs = false → p.descOk (descOf (k.dreg f.dd)) = true →
      p.touchesOk (descOf (k.dreg f.dd)).pclass (descOf (k.dreg f.dd)).elemRanges = true →
      queued (.fill (k.dreg f.dd) (k.sreg f.rs)) f.tn f.inc (.dmaFill c f)) ∧
    (∀ f : DmaMarkForm, f.rsvdHi = 0 → f.rsvdLo = 0 → queued .mark f.tn f.inc (.dmaMark c f)) ∧
    (∀ op tn inc p', p.wf → p.dmaPut c op tn inc = .done p' →
      (p'.core c).dmaQ = k.dmaQ ++ [⟨op, tn, inc, k.q.seq,
        BitVec.ofNat 16 (p.fget F.CD_RC_EPOCH_epoch (c / 16) (c / 8 % 2)), k.spec.isSome, false, none⟩] ∧ p'.st = p.st ∧
      p'.regs = p.regs)

/-- DMA_OP_COMPLETE (R66, R68): the operation at the head of the queue, held by no branch, leaves it once its accesses are done:
the bytes written are counted and its increment is posted; where an access fails DMA_FAULT is raised with its sequence number, the
operation and those after it are discarded, and nothing is posted. A MARK writes nothing and posts (R64). -/
def Obligations.DmaOperationsComplete : Prop :=
  (∀ (s : State) (c : Nat) (o : DmaOp) (rest : List DmaOp), (s.p.core c).dmaQ = o :: rest → o.spec = false →
    let x := s.p.dmaRun c o
    let p1 := ((x.2.2.modCore c fun k => { k with dmaQ := rest }).pruneDma c).addWrap F.CORE_DMA_BYTES_bytes x.2.1 c
    (x.1 = true → Acts (.dmaOpComplete c) s (if o.inc = 0 then p1 else p1.tokenAdd c o.tn.toNat o.inc.toNat)) ∧
    (x.1 = false → Acts (.dmaOpComplete c) s (x.2.2.dmaFault c o.seq)) ∧
    (o.op = .mark → o.staged = none → x = (true, 0, s.p))) ∧
  (∀ (p : Panel) (c n : Nat), p.wf → c < 1024 → smSorted (p.core c).asyncInfo = true →
    let q := p.dmaFault c n
    bit (q.fget F.CORE_TRAP_PENDING_pending c) 0x10 = true ∧ smGetD (q.core c).asyncInfo 0x10 0 = BitVec.ofNat 64 n ∧
    (q.core c).dmaQ = (p.core c).dmaQ.filter (fun o => decide (o.seq < n)) ∧ q.st = p.st)

/-! ### The vector engine -/

/-- The vector instructions of R142, where no field is illegal (R139 to R142), the scalar registers they name are ready and
the queue of 16 has room: each joins the queue with what it captured at issue (R71); a VLD or VST lies where R145 allows. -/
def Obligations.VectorInstructionsQueue : Prop :=
  ∀ (s : State) (c : Nat) (f : VecForm) (q : Panel) (i : Instr) (o : VOp),
    (i, o) ∈ ([(.vadd c f, .vadd), (.vsub c f, .vsub), (.vmul c f, .vmul), (.vfma c f, .vfma), (.vmin c f, .vmin),
      (.vmax c f, .vmax), (.vcmp c f, .vcmp), (.vsel c f, .vsel), (.vlogic c f, .vlogic), (.vcvt c f, .vcvt),
      (.vsf c f, .vsf), (.vred c f, .vred), (.vscan c f, .vscan), (.vsort c f, .vsort), (.vbcast c f, .vbcast),
      (.vextr c f, .vextr), (.vld c f, .vld), (.vst c f, .vst), (.rngGen c f, .rng), (.vmxq c f, .vmxq)]
        : List (Instr × VOp)) →
    Issues s.p c .issues → vecIllegal o f = false →
    let k := s.p.core c
    let d := k.dreg (BitVec.ofNat 4 (f.detail.toNat / 2 ^ 23 % 16))
    (∀ r ∈ vecScalars o f, k.unready r = false) → (o = .vextr → k.unready f.vd = false) → k.vecQ.length < 16 →
    (o = .vld ∨ o = .vst → ∃ x, s.p.vecPlace c f (descOf d) (k.sreg f.va).toNat (k.sreg f.vb).toNat = .inl x) →
    Completes s.p c (s.p.setCore c { k with
      vecQ := k.vecQ ++ [⟨o, f, k.sreg f.va, k.sreg f.vb, k.sreg f.vc, d, k.q.seq, k.spec.isSome⟩] }) q →
    Acts i s q

/-- VECTOR_OP_DONE (R152, R153): the operation at the head of the queue, held by no branch, takes effect and leaves it. One that
writes one vector register writes its result there, poisoned if a register it read is; VEXTR of a poisoned register raises
ENGINE_FAULT with reason VX_POISON and leaves the scalar register. -/
def Obligations.VectorOperationsTakeEffect : Prop :=
  ∀ (s : State) (c : Nat) (o : VecOp) (rest : List VecOp), (s.p.core c).vecQ = o :: rest → o.spec = false →
    Acts (.vectorOpDone c) s ((s.p.vecRun c o).modCore c fun k => { k with vecQ := rest }) ∧
    (o.op ∈ [VOp.vadd, .vsub, .vmul, .vfma, .vmin, .vmax, .vcmp, .vsel, .vlogic, .vcvt, .vsf, .vred, .vscan, .vbcast, .rng] →
      s.p.vecRun c o = s.p.setCore c
        ((s.p.core c).setV o.f.vd (o.result (s.p.core c)) (o.reads.any (s.p.core c).vpoisoned))) ∧
    (o.op = .vextr → o.reads.any (s.p.core c).vpoisoned = true →
      s.p.vecRun c o = s.p.raiseAsync c 0x14 (0x51 * 2 ^ 56 + o.seq % 2 ^ 48))

/-! ### The matrix engine -/

/-- The four matrix instructions (R93), where the reserved bits are zero, the matrix queue of 8 has room and the checks of R43,
R44, R89 to R94, R98 and R110 find nothing: the pass, into a group or direct to a region, joins the queue with the descriptors
it has at issue. -/
def Obligations.MatrixPassesQueue : Prop :=
  ∀ (s : State) (c : Nat) (f : MmaForm) (q : Panel) (i : Instr) (arA brB : Bool),
    (i, arA, brB) ∈ ([(.mma c f, false, false), (.mmaAr c f, true, false), (.mmaBr c f, false, true),
      (.mmaArbr c f, true, true)] : List (Instr × Bool × Bool)) →
    Issues s.p c .issues → f.rsvdHi = 0 → f.rsvdLo = 0 → (f.direct = false → f.accAdd = false) →
    let p := s.p
    let k := p.core c
    let a := descOf (k.dreg f.descA)
    let b := descOf (k.dreg f.descB)
    let d := descOf (k.dreg f.gid)
    let v := k.view f.gid.toNat
    let steps := if f.ksteps = 0 then 65536 else f.ksteps.toNat
    let fa := f.fmtA.toNat
    let fb := f.fmtB.toNat
    let kind := if f.direct = true then (if fmtInt fa = true then kindI32 else kindF32) else v.desc.kind
    let op : MxKind := if f.direct = true then
        .direct (k.dreg f.gid) (k.dreg f.descA) (k.dreg f.descB) arA brB f.fmtA f.fmtB steps f.accAdd
      else .pass f.gid.toNat (k.dreg f.descA) (k.dreg f.descB) arA brB f.fmtA f.fmtB steps
    k.mxQ.length < 8 → p.descOk a = true → p.descOk b = true →
    (f.direct = false → v.isOpen = true ∧ (kind = 0 → v.family = none ∨ v.family = some (fmtFamily fa))) →
    (f.direct = true → p.descOk d = true ∧ directOk c d = true ∧ p.sliceClassOk d = true) →
    operandPlaceOk c a = true → operandPlaceOk c b = true → fa = a.fmt → fb = b.fmt →
    pairOk fa fb = true → kindTakes kind fa fb = true → steps ≤ opCap a arA → steps ≤ opCap b brB →
    (fmtMx fa = true → arA = false) → (fmtMx fb = true → brB = false) → opRows a arA ≤ 128 → opRows b brB ≤ 128 →
    (∀ x ∈ (if f.direct = true then [a, b, d] else [a, b]), ∀ bx ∈ x.boxes,
      k.homeMeets none (boxOffset c bx).1 (boxOffset c bx).2 = false) →
    p.passClassOk a arA steps = true → p.passClassOk b brB steps = true →
    Completes p c (p.setCore c { k with mxQ := k.mxQ ++ [⟨op, k.q.seq, k.spec.isSome⟩] }) q →
    Acts i s (q.mxAdvance c)

/-- The group instructions (R95 to R101, R107 to R109), where the queue has room and their checks pass, join the matrix queue;
the engine then takes what it can. -/
def Obligations.GroupInstructionsQueue : Prop :=
  ∀ (s : State) (c : Nat) (q : Panel), Issues s.p c .issues → (s.p.core c).mxQ.length < 8 →
    let p := s.p
    let k := p.core c
    let queued (p : Panel) (op : MxKind) (i : Instr) : Prop :=
      Completes s.p c (p.setCore c { p.core c with
        mxQ := (p.core c).mxQ ++ [⟨op, (p.core c).q.seq, (p.core c).spec.isSome⟩] }) q → Acts i s (q.mxAdvance c)
    (∀ f : GrpRegForm, f.rsvd = 0 → k.unready f.r = false →
      (k.view f.gid.toNat).isOpen = false → (k.sreg f.r).toNat % 64 = 0 → (k.sreg f.r).toNat ≤ 0x3FFFC0 →
      let x := p.spLoad c (k.sreg f.r).toNat 64
      let w (n : Nat) : W64 := BitVec.ofNat 64 (ofBytes ((x.1.drop (8 * n)).take 8))
      let d : GDesc := ⟨w 0, w 1, w 2, w 3, w 4, w 5⟩
      x.2.1 = false → d.ok (w 6) (w 7) = true → k.homeMeets (some f.gid.toNat) d.home (homeBytes d.kind) = false →
      (x.2.2.core c).mxQ.length < 8 → queued x.2.2 (.grpOpen f.gid.toNat d) (.grpOpen c f)) ∧
    (∀ f : GrpCloseForm, f.rsvd = 0 →
      let v := k.view f.gid.toNat
      v.isOpen = true → (v.desc.kind = 0 → familyAllows v.family v.desc.outFmt = true) →
      (∀ e ∈ v.desc.outRanges, k.homeMeets (some f.gid.toNat) e.1 e.2 = false) →
      queued p (.grpClose f.gid.toNat f.tn f.inc) (.grpClose c f)) ∧
    (∀ f : AccSendForm, f.rsvd = 0 → k.unready f.ra = false → (k.view f.gid.toNat).isOpen = true →
      (k.view f.gid.toNat).desc.kind ≤ 1 → queued p (.accSend f.gid.toNat (k.sreg f.ra) f.tn f.inc) (.accSend c f)) ∧
    (∀ f : GrpForm, f.rsvd = 0 →
      queued p (.grpAbort f.gid.toNat) (.grpAbort c f) ∧
      ((k.view f.gid.toNat).isOpen = true → queued p (.grpPrefetch f.gid.toNat) (.grpPrefetch c f))) ∧
    (∀ f : GrpRegForm, f.rsvd = 0 → k.unready f.r = false → queued p (.grpStatus f.gid.toNat f.r) (.grpStatus c f))

/-- The events of the matrix engine (R102, R104, R107, R108, R111, R117): the pass at the head of the queue starts where its group is
resident, or, direct, where it holds a position; one that is done lands in its group, or writes its region; a spill writes the tile
to the group's home, an LA96 cell's top byte to the guard store, and a fill reads both back; a close writes its rows and ends; a send
hands its contributions to the die router and posts. Each then lets the queue advance. A pass that lands (R87, R101, R102, R114): its
group is resident with the tile the pass leaves, counts one more pass, is no longer fresh, and keeps poison once it has it. -/
def Obligations.MatrixEngineEvents : Prop :=
  (∀ (s : State) (c : Nat),
     let p := s.p
     let k := p.core c
     (∀ o rest g wa wb x y fa fb n pos, k.mxQ = o :: rest → o.op = .pass g wa wb x y fa fb n → k.passPosition o g = some pos →
       ∃ (q : Panel) (r : Running), Acts (.matrixPassStart c) s (q.mxAdvance c) ∧ r.op = o ∧ r.position = pos ∧
         (p.wf → q.core c = { k with mxQ := rest, running := k.running ++ [r], active := pos })) ∧
     (∀ o rest wd wa wb x y fa fb n add, k.mxQ = o :: rest → o.op = .direct wd wa wb x y fa fb n add → o.spec = false →
       k.directRuns = false → k.pos0 = some directHolder ∨ k.pos1 = some directHolder →
       let pos := if k.pos0 = some directHolder then 1 else 2
       ∃ (q : Panel) (r : Running), Acts (.matrixPassStart c) s (q.mxAdvance c) ∧ r.op = o ∧ r.position = pos ∧
         (p.wf → q.core c = { k with mxQ := rest, running := k.running ++ [r], active := pos })) ∧
     (∀ r rest, k.running = r :: rest → r.op.spec = false →
       (∀ g a b x y fa fb n, r.op.op = .pass g a b x y fa fb n →
         Acts (.matrixPassDone c) s ((p.setCore c (if (k.group g).state = .closed then { k with running := rest }
           else ({ k with running := rest }).landPass r g)).mxAdvance c)) ∧
       (∀ wd a b x y fa fb n add, r.op.op = .direct wd a b x y fa fb n add →
         Acts (.matrixPassDone c) s (((List.range 128).foldl (fun (p : Panel) m =>
           p.writeBlocks ((descOf wd).row m 0).toNat
             ((List.range 128).flatMap fun i => toBytes 4 (smGetD r.tile (m * 128 + i) 0).toNat) r.poison)
           (p.setCore c (({ k with running := rest }).freePos directHolder))).mxAdvance c))) ∧
     (∀ g, (k.group g).state = .spilling →
       let x := k.group g
       let p' := p.writeBlocks (scratchPa c x.desc.home)
         ((List.range 16384).flatMap fun i => toBytes (homeBytes x.desc.kind / 16384) (smGetD x.tile i 0).toNat) false
       ∃ gd, (x.desc.kind ≠ 0 → gd = []) ∧
         (x.desc.kind = 0 → smSorted x.tile = true → ∀ i, smGetD gd i 0 = BitVec.ofNat 8 ((smGetD x.tile i 0).toNat / 2 ^ 96)) ∧
         Acts (.groupSpillDone c g) s ((p'.modCore c fun k' => (k'.freePos g).setGroup g { x with
           state := .spilled, position := 0, tile := [], guard := gd }).mxAdvance c)) ∧
     (∀ g, (k.group g).state = .filling →
       let x := k.group g
       let cb := homeBytes x.desc.kind / 16384
       let y := p.readBlocks (scratchPa c x.desc.home) (homeBytes x.desc.kind)
       ∃ tile, (∀ i, i < 16384 → smGetD tile i 0 =
           BitVec.ofNat 104 (ofBytes y.1 / 2 ^ (8 * cb * i) % 2 ^ (8 * cb) + (smGetD x.guard i 0).toNat * 2 ^ 96)) ∧
         Acts (.groupFillDone c g) s ((y.2.2.modCore c fun k' => k'.setGroup g { x with
           state := .resident, tile := tile, poison := x.poison || y.2.1 }).mxAdvance c)) ∧
     (∀ o rest g tn inc, k.closing = o :: rest → o.op = .grpClose g tn inc →
       Acts (.groupCloseDone c) s (((p.setCore c { k with closing := rest }).closeDone c g tn inc o.seq).mxAdvance c)) ∧
     (∀ o rest g h tn inc, k.closing = o :: rest → o.op = .accSend g h tn inc →
       ∃ ps : List Packet,
         (∀ m ∈ ps, m.opcode = 0x10 ∧ m.dstNode.toNat = h.toNat % 128 ∧ m.payload.length = 512) ∧
         ps.length = 128 * (if (k.group g).desc.kind = 0 then 4 else 1) ∧
         let q := ((ps.foldl (fun p m => p.inject (c / 16) m) p).unawait fun w => w.kind == .send c o.seq).modCore c fun k =>
           ({ k with closing := k.closing.erase o }).closeGroup g
         Acts (.accSendAccepted c) s ((if inc = 0 then q else q.tokenAdd c tn.toNat inc.toNat).mxAdvance c))) ∧
  (∀ (k : Core) (r : Running) (g : Nat), smSorted k.groups = true →
     let x := k.group g
     let y := (k.landPass r g).group g
     y.state = .resident ∧ y.tile = r.tile ∧ y.passes = min 0xFFFF (x.passes + 1) ∧ y.fresh = false ∧
     y.poison = (x.poison || r.poison) ∧ y.overflow = (x.overflow || r.overflow) ∧ y.position = (if x.state = .resident then x.position else r.position) ∧
     y.desc = x.desc ∧ (∀ g', g' ≠ g → (k.landPass r g).group g' = k.group g') ∧ (k.landPass r g).q = k.q)

/-! ### Scratchpad and cluster memory -/

/-- The commands of scratchpad and cluster memory (R157, R167, R169, R171, R172, R175): a starved request is counted; an enabled
scrubber handles its next word; a fill of clean data is installed where its epoch is still the cluster's, a poisoned one is not, and
one that fails ends the reads that wait for it; a clear ends; the epoch advances; a partition write within its limits, with the
cluster's cores halted and no engine enabled, sets the sizes and leaves the contents undefined, and any other is refused. An advance
of a remote-cache epoch adds one, modulo 2^16; at the carry every line of the cluster's cache goes and the register shows the clear
(R172). -/
def Obligations.ClusterMemoryCommands : Prop :=
  (∀ (s : State),
     let p := s.p
     (∀ c r, p.hasCore c = true → Acts (.spStarvationGrant c r) s (p.addWrap F.CORE_SP_STATUS_starve_grants 1 c)) ∧
     (∀ die cl, p.hasDie die = true → cl < 2 →
       (p.flag F.CD_CMEM_SCRUB_enable die cl = true → Acts (.cmemScrubTick die cl) s (p.scrubCmem die cl)) ∧
       Acts (.rcEpochClearDone die cl) s (p.fput F.CD_RC_EPOCH_clearing 0 die cl) ∧
       (∀ v : W64, v.getLsbD F.CD_RC_EPOCH_advance.lo = true →
         Acts (.rcEpochAdvanceWrite die cl v) s (p.advanceEpoch die cl 1)) ∧
       (∀ line epoch, p.accessStatus (line * 256) 256 = 0 →
         let x := p.readTagged (line * 256) 256
         let q := x.2.rcInstall die cl line epoch.toNat (x.1.map (·.1))
         (x.1.any (·.2) = false → Acts (.rcLineFill die cl line epoch .ok) s
           (if x.2.rcTakes die cl epoch.toNat = true then q.fillMissed die cl line else q)) ∧
         (x.1.any (·.2) = true → Acts (.rcLineFill die cl line epoch .ok) s x.2) ∧
         Acts (.rcLineFill die cl line epoch .poisoned) s p) ∧
       (∀ line epoch, Acts (.rcLineFill die cl line epoch .failed) s (p.lineFails die cl line)) ∧
       (∀ v,
         let rc := F.CD_CMEM_PART_rc_mib.read v
         let kv := F.CD_CMEM_PART_kv_mib.read v
         let ok := rc + kv ≤ 128 ∧ rc ≤ 64 ∧ (∀ i, i < 8 → p.halted (die * 16 + cl * 8 + i) = true) ∧
           p.flag F.RQE_CONTROL_enable 0 = false ∧ p.flag F.RQE_CONTROL_enable 3 = false
         (ok → ∃ q, Acts (.cdCmemPartWrite die cl v) s q ∧
           (p.wf → die < 64 → q.fget F.CD_CMEM_PART_rc_mib die cl = rc ∧ q.fget F.CD_CMEM_PART_kv_mib die cl = kv ∧
             q.fget F.CD_CMEM_PART_refused die cl = 0 ∧ (∀ line l, line < 2 ^ 48 → smGet q.st.rc (rcKey die cl line) ≠ some l) ∧
             (smSorted p.st.undef = true → smGet q.st.undef (die * 2 + cl) = some []))) ∧
         (¬ ok → Acts (.cdCmemPartWrite die cl v) s (p.fput F.CD_CMEM_PART_refused 1 die cl))))) ∧
  (∀ (p : Panel) (die cl : Nat), p.wf → die < 64 → cl < 2 →
     let e := p.fget F.CD_RC_EPOCH_epoch die cl
     let q := p.advanceEpoch die cl 1
     q.fget F.CD_RC_EPOCH_epoch die cl = (e + 1) % 65536 ∧
     (e < 65535 → q.st = p.st ∧ q.fget F.CD_RC_EPOCH_clearing die cl = p.fget F.CD_RC_EPOCH_clearing die cl) ∧
     (e = 65535 → q.fget F.CD_RC_EPOCH_clearing die cl = 1 ∧
       ∀ line l, line < 2 ^ 48 → smGet q.st.rc (rcKey die cl line) ≠ some l)) ∧
  (∀ (p : Panel) (die cl line epoch : Nat) (d : List Byte),
     let ok := epoch = p.fget F.CD_RC_EPOCH_epoch die cl ∧ p.flag F.CD_RC_EPOCH_clearing die cl = false ∧ 0 < p.rcBytes die cl
     (ok → p.rcInstall die cl line epoch d =
       { p with st := { p.st with rc := smSet p.st.rc (rcKey die cl line) ⟨epoch, d, [], false⟩ } }) ∧
     (¬ ok → p.rcInstall die cl line epoch d = p))

/-! ### The panel network -/

/-- Routers (R209, R214, R215, R220, R222): a router takes a packet that is not held by a pause at its LOCAL port, that waits behind no
other of its channel, and for which the sender has credits. A packet with no flit that fails its check is routed, and a hub's unit that sent it waits for its answers; of one that fails
on a link the flits are discarded, the discard is counted at the port and its link reported. Otherwise the packet waits. -/
def Obligations.RoutersTakeOrDiscardPackets : Prop :=
  ∀ (s : State) (node port : Nat) (flits : List (List Byte × BitVec 16)), s.p.routers.contains node = true → flits ≠ [] →
    let k := packetOf (flits.map (·.1))
    let good := flits.all fun f => flitCrc f.1 == f.2
    let held := s.p.flag F.PNW_POOL_STATUS_paused node = true ∧ port = portLocal ∧ (k.tclass = 0 ∨ k.tclass = 2)
    let credits := s.p.creditsFor node port (chanOf k) flits.length
    (held ∨ s.p.behind node port k = true ∨ credits = none → Acts (.routerPacketReceive node port flits) s s.p) ∧
    (∀ room, ¬held → s.p.behind node port k = false → credits = some room →
      let f := s.p.arriving node port k good
      let born := (f.map (·.born)).getD s.p.net.nextBorn
      let p := { s.p with net := { s.p.net with
        flying := (f.map s.p.net.flying.erase).getD s.p.net.flying
        nextBorn := max s.p.net.nextBorn (born + 1) } }
      (good = true → Acts (.routerPacketReceive node port flits) s
        ((if port = portLocal then p.awaitHub node k else p).routePacket node port born room k)) ∧
      (good = false → port < 15 →
        ∃ q : Panel, Acts (.routerPacketReceive node port flits) s q ∧ q.net = p.net ∧ q.st = p.st ∧ q.cores = p.cores ∧
          (smSorted s.p.regs = true → node < 256 → q.fget F.PNW_PORT_STATUS_crc_discards node port =
            min F.PNW_PORT_STATUS_crc_discards.max (s.p.fget F.PNW_PORT_STATUS_crc_discards node port + 1)) ∧
          ∃ h r, q.reports = s.p.reports ++ [(h, r)] ∧ r.event = 0x0301))

/-- Requests at their home, a unit that is up and that the request has reached in its order (R57, R212, R213, R219, R225): a read
answers the bytes with their poison, a write stores them and is acknowledged, a post adds to the counter and is acknowledged; an
access that fails, a post to an absent core or to register space and one to a fenced core are refused with their status, and nothing
else changes there. A multicast write or post is delivered at every die it names (R226, R228). A request still on its way is not
served yet. -/
def Obligations.RequestsAreServedAtTheirHome : Prop :=
  ∀ (s : State) (k : Packet),
    let p := s.p.takePacket k
    (s.p.nodeUp k.dstNode.toNat = true → s.p.early k = false →
      (let st := p.accessStatus k.addr.toNat k.length.toNat
       let r := p.readRange k.addr.toNat k.length.toNat
       (st ≠ 0 → Acts (.pktRd k) s (p.answer k 0x0B st)) ∧
       (st = 0 → Acts (.pktRd k) s (r.2.2.answer k 0x08 0 r.1 r.2.1))) ∧
      (k.mc = false →
        (let st := p.accessStatus k.addr.toNat k.payload.length
         (st ≠ 0 → Acts (.pktWr k) s (p.answer k 0x0B st)) ∧
         (st = 0 → Acts (.pktWr k) s
            ((p.storePa k.addr.toNat (k.payload.map fun b => (b, k.poison))).answer k 0x09 0))) ∧
        (let c := k.w2.toNat % 1024
         (p.hasCore c = false ∨ inRegs k.addr.toNat = true → Acts (.pktTpost k) s (p.answer k 0x0B 1)) ∧
         (p.hasCore c = true → inRegs k.addr.toNat = false → p.isFenced c = true → Acts (.pktTpost k) s (p.answer k 0x0B 2)) ∧
         (p.hasCore c = true → inRegs k.addr.toNat = false → p.isFenced c = false → Acts (.pktTpost k) s
           ((p.tokenAdd c (k.w2.toNat / 2 ^ 10 % 32) (k.w2.toNat / 2 ^ 15 % 65536)).answer k 0x0A 0))))) ∧
    (k.mc = true → mcOk k = true → s.p.net.flying.any (fun f => f.p == k) = true →
      Acts (.pktWr k) s ((p.mcDies k).foldl (fun p d => p.deliverMc d k) p) ∧
      Acts (.pktTpost k) s ((p.mcDies k).foldl (fun p d => p.deliverMc d k) p)) ∧
    (s.p.early k = true → Acts (.pktRd k) s s.p ∧
      (k.mc = false → Acts (.pktWr k) s s.p ∧ Acts (.pktTpost k) s s.p))

/-- Responses at a requester that is up, which they have reached in their order (R59, R60, R68, R108, R219, R223, R225, R228, R238):
read data and write acknowledgements end a hub's access, a post's acknowledgement retires it, a row's acknowledgement or refusal is
noted in its accord slot, a multicast counts its answers down, a guest's answer goes to the guest as far
as its bucket holds, or waits for it (R469); a refusal of a post raises
POST_FAULT with the target, of a DMA operation DMA_FAULT or, of a speculative one, keeps it until it commits, of an accord send
SEND_FAULT. A response to a fenced core, or to nothing that waits, is discarded and counted. -/
def Obligations.ResponsesReachTheirRequester : Prop :=
  (∀ (s : State) (k : Packet), s.p.nodeUp k.dstNode.toNat = false ∨ s.p.early k = true →
    ∀ i ∈ ([.pktRdData k, .pktWrAck k, .pktTpostAck k, .pktNak k] : List Instr), Acts i s s.p) ∧
  (∀ (s : State) (k : Packet), s.p.nodeUp k.dstNode.toNat = true → s.p.early k = false →
    let p := s.p.takePacket k
    let all : List Instr := [.pktRdData k, .pktWrAck k, .pktTpostAck k, .pktNak k]
    let found := p.net.waiting.find? fun w => w.node == k.dstNode.toNat && w.unit == k.srcUnit.toNat && w.tag == k.tag
    (∀ w, found = some w → (∀ c, responseCore k = some c → p.isFenced c = false) →
      (w.kind = .hub → ∀ i ∈ ([.pktRdData k, .pktWrAck k, .pktNak k] : List Instr), Acts i s (p.endWait w)) ∧
      (∀ c t, w.kind = .post c t →
        let q := (p.endWait w).modCore c fun k => { k with postsOut := k.postsOut - 1 }
        Acts (.pktTpostAck k) s q ∧ Acts (.pktNak k) s (q.raiseAsync c 0x11 t)) ∧
      (∀ c n, w.kind = .dma c n →
        Acts (.pktRdData k) s p ∧ Acts (.pktWrAck k) s p ∧ Acts (.pktNak k) s (p.dmaFailed c n)) ∧
      (∀ c n o, w.kind = .send c n → ((p.core c).closing.find? fun o => o.seq == n) = some o →
        Acts (.pktNak k) s ((p.sendFailed c o).mxAdvance c)) ∧
      (∀ slot row, w.kind = .accordRow slot row →
        Acts (.pktWrAck k) s (p.rowAnswer w slot true) ∧ Acts (.pktNak k) s (p.rowAnswer w slot false)) ∧
      (∀ slot, w.kind = .accordPost slot →
        Acts (.pktTpostAck k) s (p.postAnswer w slot true) ∧ Acts (.pktNak k) s (p.postAnswer w slot false)) ∧
      (∀ site tag, w.kind = .guest site tag → ∀ i ∈ all, Acts i s ((p.endWait w).toGuest site { k with tag := tag })) ∧
      (∀ n, w.kind = .multicast n →
        ∀ i ∈ ([.pktWrAck k, .pktTpostAck k, .pktNak k] : List Instr), Acts i s (p.mcAnswer w n))) ∧
    (found = none ∨ (∃ c, responseCore k = some c ∧ p.isFenced c = true) → ∀ i ∈ all, Acts i s (p.lateResponse k))) ∧
  (∀ (p : Panel) (site : Nat) (k : Packet),
    let g := p.guestSite site
    let fits := g.back = [] ∧ k.payload.length ≤ g.bucket
    (fits → p.toGuest site k = (p.setGuest site { g with bucket := g.bucket - k.payload.length }).emit (.guest site k)) ∧
    (¬ fits → p.toGuest site k = p.setGuest site { g with back := g.back ++ [k] }))

/-- Outside a drain, an operation without its response in time fails: a post raises POST_TIMEOUT with its target, a DMA
operation fails as by a refusal, an accord row fails its delivery, a hub's access or multicast ends (R60, R68, R223, R238), and a multicast branch
held too long is abandoned (R229); during a drain neither timer runs (R221). A lost link is reported at both ends, what was crossing it
is discarded, and new routes go to the shadow banks for a swap that is then due (R242, R349). The drain of a route swap (R220, R221):
while a primary PMC exists injection pauses at every router, multicast branches held for want of credits are abandoned and the drain
shows in progress; a
router that does not empty discards what it holds, counted. -/
def Obligations.NetworkFailuresAndDrains : Prop :=
  ∀ (s : State),
    let p := s.p
    (p.flag F.PNW_DRAIN_STATUS_in_progress = false →
      (∀ node unit tag w, (p.net.waiting.find? fun w => w.node == node && w.unit == unit && w.tag == tag) = some w →
        (∀ c t, w.kind = .post c t → Acts (.networkOpTimeout node unit tag) s
          (((p.endWait w).modCore c fun k => { k with postsOut := k.postsOut - 1 }).raiseAsync c 0x12 t)) ∧
        (∀ c n, w.kind = .dma c n → Acts (.networkOpTimeout node unit tag) s (p.dmaFailed c n)) ∧
        (∀ slot row, w.kind = .accordRow slot row → Acts (.networkOpTimeout node unit tag) s (p.rowAnswer w slot false)) ∧
        (w.kind = .hub → Acts (.networkOpTimeout node unit tag) s (p.endWait w)) ∧
        (∀ n, w.kind = .multicast n → Acts (.networkOpTimeout node unit tag) s (p.endWait w))) ∧
      (∀ node n f, (p.net.flying.filter fun f => f.inPool node && f.p.mc)[n]? = some f →
        Acts (.mcHoldExpire node n) s (p.abandon node f)) ∧
      (p.swapHeld = false → ∃ q : Panel, Acts .drainPause s q ∧
        (smSorted p.regs = true → (∀ n ∈ p.routers, n < 256) → q.net.flying = p.net.flying.filter (fun f => !p.mcBlocked f) ∧
          q.flag F.PNW_DRAIN_STATUS_in_progress = true ∧ ∀ n ∈ p.routers, q.flag F.PNW_POOL_STATUS_paused n = true)) ∧
      (p.swapHeld = true → Acts .drainPause s p)) ∧
    (p.flag F.PNW_DRAIN_STATUS_in_progress = true →
      (∀ node unit tag, Acts (.networkOpTimeout node unit tag) s p) ∧
      (∀ node n, Acts (.mcHoldExpire node n) s p) ∧
      Acts .drainPause s p ∧
      (∀ node, p.poolEmpty node = false →
        ∃ q, Acts (.drainTimeout node) s q ∧ q.net.flying = p.net.flying.filter (fun f => !f.inPool node) ∧
          q.cores = p.cores ∧ q.st = p.st ∧
          (smSorted p.regs = true → q.fget F.PNW_DRAIN_STATUS_last_discards =
            min F.PNW_DRAIN_STATUS_last_discards.max
              (p.fget F.PNW_DRAIN_STATUS_last_discards + (p.pool node).length)))) ∧
    (∀ node port m, p.neighbour node port = some m → p.routers.contains node = true →
      ∃ (q p' : Panel) (h h' : Nat) (r r' : Report), Acts (.linkDown node port) s q ∧
        q = (p'.writePorts).writeRoutes true ∧ p'.net.swapDue = true ∧ p'.reports = p.reports ++ [(h, r), (h', r')] ∧
        r.event = 0x0305 ∧ r'.event = 0x0305 ∧
        p'.bring.linksFailed = p.bring.linksFailed ++ [(p.endOf node, port)] ∧
        (∀ f, f ∈ p'.net.flying ↔ f ∈ p.net.flying ∧
          ¬(f.next ≠ f.holder ∧ (f.holder = node ∧ f.next = m ∨ f.holder = m ∧ f.next = node))))

/-- A write of PNW_MC_CONTROL by a writer that may write it: apply of an enabled group whose defined dies the shape has fixes its members
and writes its tree and its size; of a disabled one, withdraws it; a group that names an absent die is refused and left as it was. A
write without apply selects the group and does no more (R230, R244). -/
def Obligations.MulticastGroupsApply : Prop :=
  ∀ (s : State) (src : Writer) (v : W64), MayWrite s.p src →
    let g := F.PNW_MC_CONTROL_group.read v
    let p := s.p.fput F.PNW_MC_CONTROL_group g
    (v.getLsbD F.PNW_MC_CONTROL_apply.lo = false → Acts (.mcGroupApply src v) s p) ∧
    (v.getLsbD F.PNW_MC_CONTROL_apply.lo = true →
      (p.flag F.PNW_MC_UNIT_enable 0 g = false →
        Acts (.mcGroupApply src v) s
          (((({ p with net := { p.net with groups := smDel p.net.groups g } } : Panel).clearGroup g).fput
            F.PNW_MC_UNIT_members 0 0 g).fput F.PNW_MC_CONTROL_error 0)) ∧
      (p.flag F.PNW_MC_UNIT_enable 0 g = true → (∀ d ∈ p.definedDies g, p.hasDie d = true) →
        let q : Panel := { p with net := { p.net with groups := smSet p.net.groups g (p.get .PNW_MC_DEF 0 g) } }
        Acts (.mcGroupApply src v) s
          (((q.writeGroup g).fput F.PNW_MC_UNIT_members (q.groupDies g).length 0 g).fput F.PNW_MC_CONTROL_error 0)) ∧
      (p.flag F.PNW_MC_UNIT_enable 0 g = true → (∃ d ∈ p.definedDies g, p.hasDie d = false) →
        Acts (.mcGroupApply src v) s (p.fput F.PNW_MC_CONTROL_error 1)))

/-! ### Accords -/

/-- The accord commands (R219, R221, R234 to R241, R245): a descriptor word of an idle slot is written, an enabling one only where
the descriptor is valid, and a write to a slot in use is refused, each refusal naming its slot; a contribution that has arrived in
its order opens or continues its slot; a fixative slot combines in the canonical tree and delivers; once every row is acknowledged the
completion post is sent, once; a delivery returns the slot to IDLE when its rows and its post are acknowledged, or where it posts
nothing its rows, and fails when one of them is refused or, outside a drain, comes too late; a forward hands its packets on; a slot
open too long is abandoned. -/
def Obligations.AccordsRun : Prop :=
  ∀ (s : State) (node slot : Nat), s.p.hasAcc node = true → slot < 64 →
    let p := s.p
    let d := p.accDesc node slot
    let x := p.accSlot node slot
    let drains := p.flag F.PNW_DRAIN_STATUS_in_progress
    let ended := p.accOvf node slot d (p.flag F.ACC_SLOT_STATUS_overflow node slot) (p.flag F.ACC_SLOT_STATUS_out_sat node slot)
    let refused (p : Panel) (f : RField) : Panel := (p.fput f 1 node).fput F.ACC_ERR_last_slot slot node
    (∀ w v, w < 4 →
      (p.accState node slot ≠ 0 → Acts (.accDescWrite node slot w v) s (refused p F.ACC_ERR_busy_write)) ∧
      (p.accState node slot = 0 → (w ≠ 0 ∨ bit v.toNat 63 = false ∨ p.accValid node slot { d with w0 := v.toNat } = true) →
        Acts (.accDescWrite node slot w v) s (p.put .ACC_DESC v node slot w)) ∧
      (p.accState node slot = 0 → w = 0 → bit v.toNat 63 = true → p.accValid node slot { d with w0 := v.toNat } = false →
        Acts (.accDescWrite node slot w v) s
          (refused (p.put .ACC_DESC (putBits v 63 63 0) node slot 0) F.ACC_ERR_desc_error))) ∧
    (∀ k, k.dstNode.toNat = node → p.early k = false → Acts (.accContrib k) s ((p.takePacket k).contribution k)) ∧
    (p.accState node slot = 2 →
      let sum (i : Nat) := treeSum (fun c => if c < d.count then some (smGetD x.cells (c * 16384 + i) 0).toNat else none)
        (log2Up d.count) 0
      ∃ cells ov,
        (ov = true ↔ ∃ i, i < 16384 ∧ (sum i).2 = true) ∧
        (∀ i, i < 16384 → smGetD cells i 0 = BitVec.ofNat 105 ((sum i).1.getD 0)) ∧
        Acts (.accordCombineDone node slot) s
          (((if ov then p.fput F.ACC_SLOT_STATUS_overflow 1 node slot else p).setAccSlot node slot
            { x with cells := cells }).accDeliver node slot)) ∧
    (p.accState node slot = 3 → d.forward = false →
      (x.rowsLeft = 0 → x.rowFailed = false → x.posted = false → d.increment ≠ 0 →
        let q := p.modAcc node slot fun x => { x with posted := true }
        (p.hasCore d.core = true → Acts (.accordOutputAcked node slot) s
          ((q.await node 19 (.accordPost slot)).2.inject node { plainPacket 0x02 0 node 19 (d.core / 16) p.net.nextTag with
            w2 := BitVec.ofNat 64 (d.increment * 2 ^ 15 + d.counter * 2 ^ 10 + d.core) })) ∧
        (p.hasCore d.core = false → Acts (.accordOutputAcked node slot) s
          (q.modAcc node slot fun x => { x with postOk := some false }))) ∧
      (x.posted = true → Acts (.accordOutputAcked node slot) s p) ∧
      (∀ e, x.rowFailed = true → Acts (.accordDeliveryEnd node slot e) s (ended.accFail node slot)) ∧
      (∀ e, x.rowFailed = false → x.rowsLeft = 0 → (d.increment = 0 ∨ x.postOk = some true) →
        Acts (.accordDeliveryEnd node slot e) s (ended.accToIdle node slot)) ∧
      (∀ e, x.rowFailed = false → x.rowsLeft = 0 → d.increment ≠ 0 → x.postOk = some false →
        Acts (.accordDeliveryEnd node slot e) s (ended.accFail node slot)) ∧
      (x.rowsLeft ≠ 0 → x.rowFailed = false →
        Acts (.accordDeliveryEnd node slot .rowFailed) s (if drains then p else ended.accFail node slot)) ∧
      (x.rowFailed = false → x.rowsLeft = 0 → d.increment ≠ 0 → x.posted = true → x.postOk = none →
        Acts (.accordDeliveryEnd node slot .postTimedOut) s (if drains then p else ended.accFail node slot))) ∧
    (p.accState node slot = 3 → d.forward = true →
      let la := d.kind == kindLA96
      let cell (m n : Nat) : BitVec 105 := smGetD x.cells (m * 128 + n) 0
      let q := (contribPackets node 19 0 (BitVec.ofNat 64 d.w1) d.kind (bits d.w0 37 28)
        (x.hasFamily && p.flag F.ACC_SLOT_STATUS_family node slot) (la && !x.hasFamily)
        (p.flag F.ACC_SLOT_STATUS_poison node slot) (fun m n => ((cell m n).setWidth 104).toNat)
        (fun m n => la && (cell m n).getLsbD 104)).foldl (fun p k => p.inject node k) p
      Acts (.accordForwardAccepted node slot) s
        ((if la then q else q.accOvf node slot d (p.flag F.ACC_SLOT_STATUS_overflow node slot) false).accToIdle node slot)) ∧
    (drains = false →
      (p.accState node slot = 4 → Acts (.accordTimeout node slot) s (p.accToIdle node slot)) ∧
      (p.accState node slot = 1 → Acts (.accordTimeout node slot) s
        ((p.accError node slot F.ACC_ERR_incompletes 0x0308
          (some (p.fget F.ACC_SLOT_STATUS_packets node slot))).accToIdle node slot))) ∧
    (drains = true → Acts (.accordTimeout node slot) s p)

/-- A binary32 sum that a slot makes is the same in whichever order its two operands come, and the canonical tree over one leaf
is that leaf (R236, R237). -/
def Obligations.AccordSumsAreReproducible : Prop :=
  (∀ a b : Nat, a < 2 ^ 32 → b < 2 ^ 32 → f32Add a b = f32Add b a) ∧
  (∀ leaf : Nat → Option Nat, treeSum leaf (log2Up 1) 0 = (leaf 0, false)) ∧
  (∀ (leaf leaf' : Nat → Option Nat) (n : Nat), (∀ i, i < 2 ^ n → leaf i = leaf' i) → treeSum leaf n 0 = treeSum leaf' n 0)

/-! ### Barriers -/

/-- The barrier channels (R62, R77, R302 to R304): an apply takes the members that the channel's registers name, where no arrival is
outstanding and every named die is present, and is refused with error set otherwise; an abort, which precedes an apply of the same
write, counts the generation as released to everyone with an outstanding arrival, clears the arrivals and shows aborted; an arrival
whose engine classes are complete is recorded and, of a member, counted, the last one completing the generation, while one of a core
that is not a member is logged and not counted. A release reaches every member with an outstanding arrival, the generation advances
by one modulo 2^16, and no arrival is counted in the next. -/
def Obligations.BarrierChannelsRun : Prop :=
  (∀ (s : State) (src : Writer) (v : W64), MayWrite s.p src →
    let write (v : W64) : Panel :=
      let ch := F.HUB_BAR_CONTROL_channel.read v
      let q := s.p.store .HUB_BAR_CONTROL false v
      let q := if bit v.toNat F.HUB_BAR_CONTROL_abort.lo then q.barAbortChannel ch else q
      if bit v.toNat F.HUB_BAR_CONTROL_apply.lo then q.barApply ch else q
    Acts (.barrierApply src v) s (write (v ||| 1)) ∧ Acts (.barrierAbort src v) s (write (v ||| 2))) ∧
  (∀ (p : Panel) (ch : Nat), smSorted p.regs = true → smSorted p.bars = true → ch < 16 →
    let dies := upTo 64 (bit (p.get .HUB_BAR_DIES 0 ch).toNat)
    ((p.bar ch).arrived = [] → (p.bar ch).outside = false → (∀ d ∈ dies, p.hasDie d = true) →
      ∃ q : Panel, p.barApply ch = q.calibrate ch ∧ (q.bar ch).members = p.barMembers ch ∧ q.cores = p.cores ∧
        q.flag F.HUB_BAR_STATUS_applied 0 ch = true ∧ q.flag F.HUB_BAR_CONTROL_error = false) ∧
    ((p.bar ch).arrived ≠ [] ∨ (p.bar ch).outside = true ∨ (∃ d ∈ dies, p.hasDie d = false) →
      p.barApply ch = p.fput F.HUB_BAR_CONTROL_error 1) ∧
    (∀ q, q = p.barAbortChannel ch ∨ q = p.barReleaseLocal ch →
      q.fget F.HUB_BAR_STATUS_generation 0 ch = (p.fget F.HUB_BAR_STATUS_generation 0 ch + 1) % 65536 ∧
      (q.bar ch).arrived = [] ∧ (q.bar ch).members = (p.bar ch).members) ∧
    (p.barAbortChannel ch).flag F.HUB_BAR_STATUS_aborted 0 ch = true ∧
    (∀ c, smHas (p.core c).arrivals ch = true →
      smHas ((p.barAbortChannel ch).core c).released ch = true ∧
      ((p.bar ch).members.contains c = true → smHas ((p.barReleaseLocal ch).core c).released ch = true)) ∧
    (∀ c, (p.bar ch).members.contains c = false → (p.barReleaseLocal ch).core c = p.core c)) ∧
  (∀ (s : State) (c ch : Nat), (s.p.core c).blocked = some (.barArrive ch) →
    let p := s.p
    (p.asyncDue c = true ∨ (p.core c).classesDone 0b1111 (p.core c).q.seq = false → Acts (.barArriveSignal c) s p) ∧
    (p.asyncDue c = false → (p.core c).classesDone 0b1111 (p.core c).q.seq = true → smSorted p.cores = true →
      ∀ q, Completes p c ((p.modCore c fun k => { k with
          arrivals := smSet k.arrivals ch (BitVec.ofNat 16 (p.fget F.HUB_BAR_STATUS_generation 0 ch))
          released := smDel k.released ch }).modCore c fun k => { k with blocked := none }) q →
        ((p.bar ch).members.contains c = true →
          let q' := (q.modBar ch fun b => { b with arrived := smSet b.arrived c () })
          let q'' := q'.fput F.HUB_BAR_STATUS_arrived (q'.bar ch).arrived.length 0 ch
          ((q'.bar ch).arrived.length = (q'.bar ch).members.length → Acts (.barArriveSignal c) s (q''.barComplete ch)) ∧
          ((q'.bar ch).arrived.length ≠ (q'.bar ch).members.length → Acts (.barArriveSignal c) s q'')) ∧
        ((p.bar ch).members.contains c = false →
          ∃ (q' : Panel) (h : Nat) (r : Report), Acts (.barArriveSignal c) s q' ∧ q'.reports = q.reports ++ [(h, r)] ∧
            r.event = 0x0506 ∧ q'.bars = q.bars ∧ q'.cores = q.cores))) ∧
  (∀ (s : State) (ch : Nat), (s.p.bar ch).releaseDue = true → Acts (.barReleaseDelayExpire ch) s (s.p.barReleaseLocal ch))

/-- Extended barriers and their calibration (R305, R306, R430, R431): on the root an arrival of a member panel counts, a timeout
with a member not counted aborts every member and a join is probed; on a member a release waits its delay less the residency, and one whose residency exceeds
the delay acts at once and is logged; an abort and a self-abort end the wait, a probe is answered and a delay stored; an echo gives
half the round trip less the residencies; the timer calibrates again. -/
def Obligations.ExtendedBarriersRun : Prop :=
  ∀ (s : State) (ch : Nat), s.p.extended ch = true → ch < 16 →
    let p := s.p
    let b := p.bar ch
    (p.isRoot ch = true →
      (∀ coord, Acts (.fabricBarArrive ch coord) s
        ((p.modBar ch fun b => { b with panels := smSet b.panels coord.toNat () }).rootCheck ch)) ∧
      (b.outside = true → p.uncounted ch = true → Acts (.extBarrierTimeout ch) s (p.extAbort ch)) ∧
      (∀ coord, Acts (.barJoin ch coord) s
        ((p.modBar ch fun b => { b with cal := { b.cal with joined := insertAsc b.cal.joined coord.toNat } }).sendControl
          coord 0x1C ch 0)) ∧
      (∀ coord rt (ro rb : BitVec 32), b.cal.joined.contains coord.toNat = true →
        Acts (.calEcho ch coord rt ro rb) s ((p.modBar ch fun b => { b with cal := { b.cal with
          echoes := smSet b.cal.echoes coord.toNat ((rt - ro.toNat - rb.toNat) / 2) } }).calFinish ch))) ∧
    (b.outside = true →
      (∀ r : BitVec 32, r.toNat ≤ p.fget F.HUB_BAR_EXT_delay_cycles 0 ch * 32 + p.fget F.HJF_BAR_CAL_delay_frac 0 ch →
        Acts (.barRelease ch r) s (p.modBar ch fun b => { b with releaseDue := true })) ∧
      (∀ r : BitVec 32, p.fget F.HUB_BAR_EXT_delay_cycles 0 ch * 32 + p.fget F.HJF_BAR_CAL_delay_frac 0 ch < r.toNat →
        Acts (.barRelease ch r) s (((p.barReleaseLocal ch).addHold F.HJF_BAR_CAL_late_releases 1 0 ch).reportPanel
          p.primaryHub 0x0708 clsInfo (some ch))) ∧
      (p.isRoot ch = false → b.releaseDue = false → Acts (.extBarrierSelfAbort ch) s (p.extAbortLocal ch))) ∧
    Acts (.barAbort ch) s (p.extAbortLocal ch) ∧
    (p.isRoot ch = false →
      (∀ r : BitVec 32, Acts (.calProbe ch r) s (p.sendControl (p.rootCoord ch) 0x1D ch r.toNat)) ∧
      (∀ d, Acts (.calDelay ch d) s (p.setDelay ch d))) ∧
    (p.flag F.HUB_BAR_STATUS_applied 0 ch = true → Acts (.calibrationTimer ch) s (p.calibrate ch))

/-! ### HBM -/

/-- HBM upkeep on a stack that is up (R193 to R195, R200): an interval boundary puts the written refresh mode in effect; a mode
write sets it, a reserved one is ignored, and one that would change the flacon's fields is logged; an enabled patrol scrubber reads
the blocks of its interval; an ECS reading adds the increase since the last; a temperature is shown with what it asks for, and one at
the shutdown limit shuts the zone down; a lost stack is LOST and reported. -/
def Obligations.HbmUpkeep : Prop :=
  ∀ (s : State) (stack : Nat), s.p.nodeUp (0x40 + stack) = true → stack < 36 →
    let p := s.p
    Acts (.hbmRefresh stack) s { p with st := { p.st with
      refreshMode := smPut p.st.refreshMode 0 stack (p.fget F.MPD_HBM_CONFIG_refresh_mode stack) } } ∧
    (∀ v,
      let q := if Reg.triesLocked .MPD_HBM_CONFIG (p.get .MPD_HBM_CONFIG stack) v then
        p.reportNode (0x40 + stack) 0x0107 clsInfo else p
      (F.MPD_HBM_CONFIG_refresh_mode.read v < 2 → Acts (.mpdRefreshModeWrite stack v) s
        (q.fput F.MPD_HBM_CONFIG_refresh_mode (F.MPD_HBM_CONFIG_refresh_mode.read v) stack)) ∧
      (2 ≤ F.MPD_HBM_CONFIG_refresh_mode.read v → Acts (.mpdRefreshModeWrite stack v) s q)) ∧
    (p.flag F.MPD_SCRUB_enable stack = true →
      Acts (.hbmPatrolScrub stack) s ((List.replicate (max 1 (p.fget F.MPD_SCRUB_words_per_refi stack)) stack).foldl
        Panel.patrolOne p)) ∧
    (p.flag F.MPD_SCRUB_enable stack = false → Acts (.hbmPatrolScrub stack) s p) ∧
    (∀ count, ∃ q : Panel, Acts (.hbmEcsRead stack count) s q ∧
      q.st = { p.st with ecsLast := smPut p.st.ecsLast 0 stack count } ∧
      (smSorted p.regs = true → q.fget F.MPD_ECS_ecs_total stack =
        min F.MPD_ECS_ecs_total.max (p.fget F.MPD_ECS_ecs_total stack + (count - smGetD p.st.ecsLast stack 0)))) ∧
    (∀ temp : BitVec 8, ∃ q : Panel,
      Acts (.hbmTempRead stack temp) s (if p.fget F.MPD_TEMP_LIMITS_shutdown_c stack ≤ temp.toNat then
        q.zoneShutdown (p.zoneOf (0x40 + stack)) else q) ∧
      (smSorted p.regs = true →
        q.fget F.MPD_HBM_STATUS_temp_c stack = temp.toNat ∧
        (p.fget F.MPD_TEMP_LIMITS_refresh_x2_c stack ≤ temp.toNat → q.flag F.MPD_HBM_STATUS_refresh_x2 stack = true) ∧
        (temp.toNat + 3 ≤ p.fget F.MPD_TEMP_LIMITS_refresh_x2_c stack → q.flag F.MPD_HBM_STATUS_refresh_x2 stack = false) ∧
        (p.fget F.MPD_TEMP_LIMITS_refresh_x2_c stack < temp.toNat + 3 → temp.toNat < p.fget F.MPD_TEMP_LIMITS_refresh_x2_c stack →
          q.flag F.MPD_HBM_STATUS_refresh_x2 stack = p.flag F.MPD_HBM_STATUS_refresh_x2 stack) ∧
        (q.flag F.MPD_HBM_STATUS_throttle_req stack = true ↔ p.fget F.MPD_TEMP_LIMITS_throttle_c stack ≤ temp.toNat) ∧
        (q.flag F.MPD_HBM_STATUS_over_temp stack = true ↔ p.fget F.MPD_TEMP_LIMITS_shutdown_c stack ≤ temp.toNat))) ∧
    (∃ q h r, Acts (.stackLost stack) s q ∧ q.reports = p.reports ++ [(h, r)] ∧ r.event = 0x0203 ∧ r.cls = clsUF ∧
      (smSorted p.regs = true → q.fget F.MPD_HBM_STATUS_state stack = 5))

/-- The test pattern engine and the region map (R185, R197, R198): the PMC starts a run during bring-up on a site that has power and
no run in progress, and a start by anyone else or outside bring-up starts nothing; a run that passes leaves every byte of its stack
zero and one that fails fails the stack; an apply names the first fault of the written table, or loads it where there is none, and
when the load is done the table is in force. -/
def Obligations.TestEngineAndRegionMap : Prop :=
  ∀ (s : State),
    let p := s.p
    (∀ stack site v, smSorted p.regs = true → stack < 36 → p.tpeSite stack = some site →
      let q := p.fput F.MPD_TPE_CONTROL_mode (F.MPD_TPE_CONTROL_mode.read v) stack
      (v.getLsbD 0 = true → q.inBringup = true → q.siteUp (72 + site) = true → q.railsUp (zoneOfEnd (72 + site)) = 4 →
        q.tpeRunning site = false →
        Acts (.tpeStart stack v .pmc) s (q.setRun stack site ⟨1, q.flag F.MPD_TPE_CONTROL_mode stack, 3, 0, 0, 1000⟩)) ∧
      (∀ src, MayWrite p src → src ≠ .pmc ∨ q.inBringup = false ∨ v.getLsbD 0 = false →
        Acts (.tpeStart stack v src) s q)) ∧
    (∀ stack site run pass (le : BitVec 8) (rows : BitVec 16) (rl : BitVec 8), p.tpeSite stack = some site →
      smGet p.bring.runs site = some run → run.result = 3 →
      ∃ q, Acts (.tpeRunDone stack pass le rows rl) s q ∧ q.cores = p.cores ∧
        (pass = true → (∀ a, a / 2 ^ 36 = stack → smGet q.st.mem a = none) ∧
          ((tpeElements run.quick).contains run.element = true →
            smGet q.bring.runs site = some ⟨7, run.quick, 1, rows.toNat, rl.toNat, 1000⟩)) ∧
        (pass = false → site ∈ q.bring.stackFailed ∧ q.st = p.st ∧
          smGet q.bring.runs site = some ⟨le.toNat, run.quick, 2, rows.toNat, rl.toNat, 1000⟩)) ∧
    (∀ (src : Writer) v, MayWrite p src → v.getLsbD F.HUB_HBM_MAP_CONTROL_apply.lo = true →
      p.flag F.HUB_HBM_MAP_CONTROL_busy = false →
      let e := if p.mapIdle then p.tableError p.writtenTable else 1
      let p1 := p.fput F.HUB_HBM_MAP_CONTROL_error e
      (e ≠ 0 → Acts (.hbmMapApply src v) s p1) ∧
      (e = 0 → Acts (.hbmMapApply src v) s
        (({ p1 with st := { p1.st with loading := some p.writtenTable } }).fput F.HUB_HBM_MAP_CONTROL_busy 1))) ∧
    (∀ ws, p.st.loading = some ws →
      ∃ q, Acts .hbmMapLoadDone s q ∧ q.st.regions = p.regionsOf ws ∧ q.st.heldTable = some ws ∧ q.st.loading = none ∧
        q.st.mem = p.st.mem ∧
        (smSorted p.regs = true → q.flag F.HUB_HBM_MAP_CONTROL_applied = true ∧ q.flag F.HUB_HBM_MAP_CONTROL_busy = false))

/-! ### Clocks, power and heat -/

/-- Islands (R315, R317, R318, R320, R323, R324): a point is requested where it is no reserved one, no refused stop and no
alarm holds the point it lowered, else the write does nothing (that alarm_hold shuts out every write is the model's choice, log 55); a change in progress ends at its point, and one requested meanwhile begins;
a droop lengthens periods and never shortens them, and not while the point changes; a recovery ends it; a margin sample shows the
least code and keeps the lowest, is logged at or below warn once a millisecond, and alarms at or below alarm; the release of an
alarm ends its stretch. -/
def Obligations.ClockIslandsRun : Prop :=
  ∀ (s : State) (node n : Nat), s.p.hasIsland node n = true →
    let p := s.p
    let i := islandKey node n
    (∀ v,
      let k := F.CLK_ISLAND_point.read v
      let barred := k = 5 ∨ k = 6 ∨ (k = pointStop ∧ p.stopRefused node n = true) ∨
        p.flag F.CLK_ISLAND_alarm_hold node n = true
      (barred → Acts (.clkPointWrite node n v) s p) ∧
      (¬barred → Acts (.clkPointWrite node n v) s ((p.fput F.CLK_ISLAND_point k node n).startMove node n))) ∧
    (∀ k, smGet p.pwr.moving i = some k → Acts (.pointChangeDone node n) s ((p.endMove node n k).startMove node n)) ∧
    (smGet p.pwr.moving i = none → Acts (.pointChangeDone node n) s p) ∧
    (∀ k, smSorted p.regs = true → (p.endMove node n k).fget F.CLK_ISLAND_current node n = k % 8 ∧
      ((p.endMove node n k).flag F.CLK_ISLAND_stopped node n = true ↔ k = pointStop)) ∧
    (∀ k, 1 ≤ k → k ≤ 4 → p.flag F.CLK_ISLAND_stopped node n = false → smHas p.pwr.moving i = false →
      ∃ q, Acts (.droopStretch node n k) s q ∧ smGet q.pwr.droop i = some (max k (smGetD p.pwr.droop i 0)) ∧
        q.cores = p.cores ∧ q.st = p.st) ∧
    (∀ k, p.flag F.CLK_ISLAND_stopped node n = true ∨ smHas p.pwr.moving i = true → Acts (.droopStretch node n k) s p) ∧
    (smHas p.pwr.droop i = true → smSorted p.pwr.droop = true →
      ∃ q, Acts (.stretchRecover node n) s q ∧ smGet q.pwr.droop i = none ∧ q.cores = p.cores ∧ q.st = p.st) ∧
    (∀ codes warnDue stepDue, codes ≠ [] → smSorted p.regs = true →
      let m := codes.foldl (fun (a : Nat) (c : BitVec 6) => min a c.toNat) 63
      ∃ q : Panel, Acts (.marginSample node n codes warnDue stepDue) s
          (if m ≤ (p.marginLimits node).2 then q.marginAlarm node n stepDue else q) ∧
        q.fget F.CLK_MARGIN_now node n = m ∧
        q.fget F.CLK_MARGIN_low node n = min m (p.fget F.CLK_MARGIN_low node n) ∧
        (if m ≤ (p.marginLimits node).1 ∧ warnDue = true then ∃ h r, q.reports = p.reports ++ [(h, r)] ∧ r.event = 0x0401
          else q.reports = p.reports)) ∧
    (smSorted p.pwr.alarmed = true →
      ∃ q, Acts (.marginAlarmRelease node n) s q ∧ smHas q.pwr.alarmed i = false ∧ q.pwr.droop = p.pwr.droop)

/-- Zones (R220, R327 to R336): an eFuse that opens latches, and a zone that was on is lost, in a panel held in reset with no register
or report of it; the thresholds are R331's defaults before a flacon is loaded; a shutdown that does not end in time loses
the zone; a temperature sample shows the highest of its readings and of those the panel holds: at the trip limit it trips the panel,
4 °C over the shutdown limit a zone is lost, at that limit it shuts down, else a compute zone's changes are decided and an edge zone's
crossing of throttle is logged; a drain whose routers are empty swaps the tables that wait, ends zones that drain, and lets injection
and held accesses go on; a panel trip is latched and reported, and every compute zone that was on is lost. -/
def Obligations.ZonesGoDown : Prop :=
  ∀ (s : State),
    let p := s.p
    (∀ z, z < 14 → p.pwr.in44 = true → p.pwr.efuse.contains z = false →
      let p' := { p with pwr := { p.pwr with efuse := insertAsc p.pwr.efuse z } }
      (p.pwr.resetHeld = true → ∃ q, Acts (.efuseOpen z) s q ∧ (smSorted p.pwr.rails = true → q.railsUp z = 0) ∧ q.regs = p.regs ∧ q.reports = p.reports ∧
        q.pwr.efuse.contains z = true) ∧
      (p.pwr.resetHeld = false →
        (p.zoneState z = 1 ∨ p.zoneState z = 2 → Acts (.efuseOpen z) s (p'.zoneLostNow z true)) ∧
        (p.zoneState z ≠ 1 → p.zoneState z ≠ 2 → Acts (.efuseOpen z) s (p'.setZoneState z 4)))) ∧
    (∀ z, z < 14 → p.zoneState z = 2 → Acts (.zoneShutdownTimeout z) s (p.zoneLostNow z false)) ∧
    (∀ z, p.zoneState z ≠ 2 → Acts (.zoneShutdownTimeout z) s p) ∧
    (∀ z (rs : List (BitVec 8)) a b, z < 14 → p.pwr.in44 = true → rs ≠ [] → smSorted p.regs = true →
      let st := p.zoneState z
      let t := (if st = 1 ∨ st = 2 then p.heldReadings z else []).foldl max (rs.foldl (fun (a : Nat) r => max a r.toNat) 0)
      let held : Panel := { p with pwr := { p.pwr with temps := smSet p.pwr.temps z t } }
      let q := if p.pwr.resetHeld then held else held.fput F.PWR_ZONE_STATUS_temp_c t 0 z
      let shut := p.shutdownC
      (p.tripC ≤ t → Acts (.zoneTempSample z rs a b) s q.panelTrip) ∧
      (t < p.tripC →
        (st = 1 → shut + 4 ≤ t → Acts (.zoneTempSample z rs a b) s ((q.reportZone z 0x0404 clsPF).zoneLostNow z false)) ∧
        (st = 2 → shut + 4 ≤ t → Acts (.zoneTempSample z rs a b) s (q.zoneLostNow z false)) ∧
        (st = 1 → shut ≤ t → t < shut + 4 → Acts (.zoneTempSample z rs a b) s (q.zoneShutdown z)) ∧
        (st = 1 → t < shut → z < 12 → Acts (.zoneTempSample z rs a b) s (q.heatPending z t a b)) ∧
        (st = 1 → t < shut → 12 ≤ z →
          let thr := p.throttleC
          Acts (.zoneTempSample z rs a b) s
            (if thr ≤ t ∧ p.fget F.PWR_ZONE_STATUS_temp_c 0 z < thr then q.reportZone z 0x0403 clsInfo else q)) ∧
        (st ≠ 1 → (st = 2 → t < shut + 4) → Acts (.zoneTempSample z rs a b) s q))) ∧
    (p.flag F.PNW_DRAIN_STATUS_in_progress = true → p.swapHeld = false → (∀ n ∈ p.routers, p.poolEmpty n = true) →
      let p1 := (p.swapTables).finishDraining
      let p2 := p1.routers.foldl (fun (p : Panel) n => p.fput F.PNW_POOL_STATUS_paused 0 n) p1
      let q := (((p2.draw 51).2.fput F.PNW_DRAIN_STATUS_last_pause_us (p2.draw 51).1).fput
        F.PNW_DRAIN_STATUS_in_progress 0).addWrap F.PNW_DRAIN_STATUS_drains 1
      Acts .drainRoutersEmpty s (q.net.held.foldl Panel.access { q with net := { q.net with held := [] } })) ∧
    (p.flag F.PNW_DRAIN_STATUS_in_progress = false ∨ p.swapHeld = true ∨ (∃ n ∈ p.routers, p.poolEmpty n = false) →
      Acts .drainRoutersEmpty s p) ∧
    (p.pwr.trip = false →
      p.panelTrip.pwr.trip = true ∧
      (p.pwr.resetHeld = false → (∃ h r, (h, r) ∈ p.panelTrip.reports ∧ r.event = 0x0406 ∧ r.cls = clsPF) ∧
        (∀ z, z < 12 → p.zoneState z = 1 ∨ p.zoneState z = 2 → z ∈ p.panelTrip.bring.zonesLost))) ∧
    (p.bring.flacon = none → p.get .PWR_THERM_LIMITS = 0 → p.throttleC = 95 ∧ p.shutdownC = 110 ∧ p.tripC = 118)

/-- The throttle token and the power cap (R319, R332, R333, R338): a grant names the next zone with a down change pending, or else the
next with an up change that still may rise, and one change of one point, and only one change runs at a time; a change done sets the zone's ceiling, its
rail's level and the points of its islands in use; a sample over the cap asks the zone of highest power for a down change, and one
that has stayed 5 % below for long enough ends the cap. -/
def Obligations.ThrottleAndCapRun : Prop :=
  ∀ (s : State),
    let p := s.p
    let downs := p.pwr.heatDown ++ p.pwr.capDown
    let ups := p.pwr.up.filter p.mayRise
    let ceiling (z : Nat) : Nat := p.fget F.PWR_ZONE_STATUS_ceiling 0 z
    (∀ z, p.pwr.change = none →
      ((p.nextZone downs = some z → ∃ q, Acts .throttleTokenGrant s q ∧ q.pwr.change = some (z, min 4 (ceiling z + 1)) ∧
        z ∉ q.pwr.heatDown ∧ z ∉ q.pwr.capDown ∧ z ∉ q.pwr.up) ∧
      (p.nextZone downs = none → p.nextZone ups = some z →
        ∃ q, Acts .throttleTokenGrant s q ∧ q.pwr.change = some (z, ceiling z - 1) ∧ z ∉ q.pwr.up))) ∧
    (p.pwr.change ≠ none ∨ (p.nextZone downs = none ∧ p.nextZone ups = none) → Acts .throttleTokenGrant s p) ∧
    (∀ z c, p.pwr.change = some (z, c) →
      let p1 := (p.fput F.PWR_ZONE_STATUS_ceiling c 0 z).fput F.PWR_TOKEN_STATUS_busy 0
      let p2 : Panel := { p1 with pwr := { p1.pwr with change := none, coreMv := smSet p1.pwr.coreMv z (railMv c) } }
      Acts .ceilingChangeDone s
        ((p2.zoneNodes z).foldl (fun p n => (p.usedIslands n).foldl (fun p i => p.takePoint n i) p) p2)) ∧
    (p.pwr.change = none → Acts .ceilingChangeDone s p) ∧
    (p.pwr.in44 = false ∨ p.pwr.resetHeld = true → ∀ ws below, Acts (.powerCapSample ws below) s p) ∧
    (∀ ws below, p.pwr.in44 = true → p.pwr.resetHeld = false → smSorted p.regs = true →
      let l := (sumL ((ws.take 14).map (·.toNat)) :: p.pwr.samples).take 10
      let mean := sumL l / l.length
      ∃ q : Panel, Acts (.powerCapSample ws below) s q ∧ q.pwr.samples = l ∧
        (p.capW < mean → q.flag F.PWR_PANEL_cap_active = true ∧ ∀ z, q.hungriest = some z → z ∈ q.pwr.capDown) ∧
        (mean ≤ p.capW → q.pwr.capDown = p.pwr.capDown ∧
          (below = true ∧ mean * 100 ≤ p.capW * 95 → q.flag F.PWR_PANEL_cap_active = false) ∧
          (¬(below = true ∧ mean * 100 ≤ p.capW * 95) → q.flag F.PWR_PANEL_cap_active = p.flag F.PWR_PANEL_cap_active)))

/-- Power at the panel's boundary (R13, R485 to R489): 44 V starts bring-up at stage 0, unless converters are latched off or the panel
is held in reset; under-voltage loses every rail; over-voltage latches the converters off; removal clears the latches; a sustained
brown-out is logged and starts a dry-down, and its end leaves the safe talkative state, failing a dry-down still running; PANEL_RESET_N of 0.5 µs or more
holds the panel in reset, a shorter one, or one under a panel trip, is ignored, and its release starts bring-up. With every rail lost
each register reads its reset value and each memory and core is cleared, and so in a reset; what is
fused or in NVM stays. The status pins show the stage, the serving state, SAFE and the trip, and hold their levels while undriven
(R352, R395, R480, R481). -/
def Obligations.PowerBoundary : Prop :=
  ∀ (s : State),
    let p := s.p
    (p.pwr.in44 = false →
      let on : Panel := { p with pwr := { p.pwr with in44 := true, convStopped := p.pwr.overVolt } }
      (p.pwr.overVolt = false → p.pwr.resetHeld = false → Acts .powerApplied s (on.beginBringup 0)) ∧
      (p.pwr.overVolt = true ∨ p.pwr.resetHeld = true → Acts .powerApplied s on)) ∧
    (p.pwr.in44 = true →
      Acts .powerApplied s p ∧
      Acts .inputUnderVoltage s p.railsLost ∧
      Acts .inputOverVoltage s { p.railsLost with pwr := { p.railsLost.pwr with
        in44 := true, convStopped := true, overVolt := true } }) ∧
    (p.pwr.in44 = false → Acts .inputUnderVoltage s p ∧ Acts .inputOverVoltage s p) ∧
    Acts .powerRemoved s { p.railsLost with pwr := { p.railsLost.pwr with efuse := [], overVolt := false, trip := false } } ∧
    (p.pwr.in44 = true → p.pwr.convStopped = false → p.pwr.brownOut = false →
      let p' := { p with pwr := { p.pwr with brownOut := true } }
      Acts .brownOutSustained s ((p'.logPanel 0x0407 clsPF).startDry .safe)) ∧
    (p.pwr.brownOut = true →
      let p' := if p.serving = servDrying ∧ p.hasPrimary = true then p.dryFail else p
      Acts .brownOutRailsOff s (({ p' with pwr := { p'.pwr with brownOut := false } } : Panel).goSafe 3)) ∧
    (∀ w, (w < 500 ∨ p.pwr.trip = true → Acts (.panelResetAssert w) s p) ∧
      (500 ≤ w → p.pwr.trip = false → Acts (.panelResetAssert w) s p.hubsReset)) ∧
    (p.pwr.resetHeld = true →
      let out : Panel := { p with pwr := { p.pwr with resetHeld := false } }
      Acts .panelResetDeassert s (if p.pwr.in44 = true ∧ p.pwr.convStopped = false then out.beginBringup 0 else out)) ∧
    (let q := p.railsLost
     q.fab = p.fab ∧ q.nvmA = p.nvmA ∧ q.nvmB = p.nvmB ∧ (∀ r u i j, q.get r u i j = r.info.reset) ∧ q.st = Store.empty ∧
     (∀ c, q.core c = Core.zero) ∧ q.pwr.in44 = false ∧ q.pwr.efuse = p.pwr.efuse) ∧
    (let q := p.hubsReset
     q.fab = p.fab ∧ q.nvmA = p.nvmA ∧ q.nvmB = p.nvmB ∧ q.pwr.resetHeld = true ∧ q.st.mem = [] ∧ (∀ c, q.core c = Core.zero) ∧
     (∀ r u i j, q.get r u i j = r.info.reset)) ∧
    (∀ j2, let rail := if j2 = true then p.pwr.railE else p.pwr.railW
      let x := p.pins j2
      x.pwrGood = rail ∧ x.tripLow = p.pwr.trip ∧
      (rail = true → p.pwr.resetHeld = false → x.stage = p.fget F.PMC_STAGE_stage ∧ x.state = p.fget F.PMC_STAGE_state ∧
        (x.faultLow = true ↔ p.fget F.PMC_STAGE_stage = stageSafe)) ∧
      (rail = false ∨ p.pwr.resetHeld = true → x.stage = 0 ∧ x.state = servDown ∧ x.faultLow = false))

/-! ### Bring-up -/

/-- The ten stages (R26, R347, R350 to R366): each stage in progress ends with its record and the next begins, or fails into the safe
talkative state where the rule names it; stage 0 waits for an edge rail and stage 1 for a detach. A stage that overruns its bound
fails; a retry from SAFE starts at its stage, and an entry of the field fault list is removed, by a writer that may (R350, R365). -/
def Obligations.BringupStagesRun : Prop :=
  ∀ (s : State),
    let p := s.p
    (p.inStage 0 = true →
      let q := p.edgeRailsUp
      (q.pwr.railW = true ∨ q.pwr.railE = true →
        Acts .stage0 s (q.passStage 0 (!(q.pwr.railW && q.pwr.railE)) [])) ∧
      (q.pwr.railW = false → q.pwr.railE = false → Acts .stage0 s q)) ∧
    (∀ a b selfOk, p.inStage 1 = true →
      ((∃ h, h < 4 ∧ p.detachWaits h = true) → Acts (.stage1 a b selfOk) s p) ∧
      ((∀ h, h < 4 → p.detachWaits h = false) →
        let okA := p.hubUp 0 && selfOk.contains 0 && p.candidate 0 (p.readCopy 0 a)
        let okB := p.hubUp 3 && selfOk.contains 3 && p.candidate 3 (p.readCopy 3 b)
        ∃ (q : Panel) (ws : List Nat),
          q.bring.flacon = (if okA then some (p.readCopy 0 a) else if okB then some (p.readCopy 3 b) else none) ∧
          (0 ∈ q.bring.running ↔ okA = true) ∧ (3 ∈ q.bring.running ↔ okB = true) ∧
          (okA = true ∨ okB = true → Acts (.stage1 a b selfOk) s (q.passStage 1 false ws)) ∧
          (okA = false → okB = false → Acts (.stage1 a b selfOk) s (q.failStage 1 detNoFlacon ws)))) ∧
    (∀ i : Stage2In, p.inStage 2 = true →
      let passed := upTo 4 fun h => p.hubUp h && i.hubsPassed.contains h
      let failed := upTo 4 fun h => p.hubUp h && !i.hubsPassed.contains h
      let ws := [siteMask passed + siteMask failed * 16]
      ∃ q : Panel, q.bring = { p.bring with hubsPassed := passed } ∧
        ((∃ h, (h = 0 ∨ h = 3) ∧ h ∈ passed ∧ h ∈ p.bring.running) →
          Acts (.stage2 i) s (q.passStage 2 (!failed.isEmpty) ws)) ∧
        ((∀ h, h = 0 ∨ h = 3 → h ∈ passed → h ∉ p.bring.running) → Acts (.stage2 i) s (q.failStage 2 detHubSelftest ws))) ∧
    (∀ i : Stage3In, p.inStage 3 = true → ∃ (q : Panel) (d : Bool) (ws : List Nat),
      q.bring.rowPairs = [] ∧ (∀ l ∈ i.linksFailed, linkName l.1 l.2 ∈ q.bring.linksFailed) ∧
      ((∀ e, e < 72 → q.siteUp e = false) → Acts (.stage3 i) s (q.failStage 3 detNoMesh ws)) ∧
      ((∃ e, e < 72 ∧ q.siteUp e = true) → Acts (.stage3 i) s (q.passStage 3 d ws))) ∧
    (∀ x, p.bring.flacon = some x →
      (∀ i : Stage4In, p.inStage 4 = true →
        let q := { p with bring := { p.bring with failed4 := p.findings4 i, rowPairs := [], unused := [] } }
        (q.offenders x ≠ [] → Acts (.stage4 i) s (q.failStage 4 detLevel (q.words4 (q.offenders x)))) ∧
        (q.offenders x = [] →
          (q.selectShape x = none → Acts (.stage4 i) s (q.failStage 4 detNoShape (q.words4 []))) ∧
          (∀ k, q.selectShape x = some k → ∃ (d : Bool) (ws : List Nat),
            Acts (.stage4 i) s (((q.setPick k).closePairs x).passStage 4 d ws)))) ∧
      (∀ i : Stage5In, p.inStage 5 = true → ∃ (t : List Nat) (f : FailSet) (r : Nat) (ws : List Nat),
        let q : Panel := { p with bring := { p.bring with sitesTested := t, failed5 := f } }
        (∀ e ∈ i.computeFailed, e ∈ p.sramSites x → e ∉ p.bring.sitesTested → e ∈ f.compute) ∧
        (∀ e ∈ p.bring.failed5.compute, e ∈ f.compute) ∧ (∀ e ∈ p.sramSites x, e ∈ t) ∧
        let pick := if q.shapeKey x = p.shapeKey x then some q.heldPick else q.selectShape x
        (pick = none → Acts (.stage5 i) s (q.failStage 5 detNoShape ws)) ∧
        (∀ k, pick = some k → ∃ ws', Acts (.stage5 i) s
          ((((((q.setPick k).applyShape x).dropZones).installRoutes).endStage 5 r ws').startRuns x))) ∧
      (∀ i : Stage6In, p.inStage 6 = true → ∃ (q : Panel) (r : Nat) (ws : List Nat),
        let good := p.stackSites.filter fun k => !q.bring.stackFailed.contains k
        (∀ z, z < 12 → p.bring.rowPairs.contains (z / 3) = true → p.railsUp z = 3 → smSorted p.pwr.rails = true → q.railsUp z = 4) ∧
        (∀ k ∈ p.stackSites, k ∉ p.bring.stacksTested → smGet p.bring.runs k = none → k ∈ i.stackFailed →
          k ∈ q.bring.stackFailed) ∧
        (good = [] → Acts (.stage6 i) s (q.failStage 6 detNoStack ws)) ∧
        (good ≠ [] → Acts (.stage6 i) s (((q.applyStacks x good).installRoutes).endStage 6 r ws))) ∧
      (∀ i : Stage7In, p.inStage 7 = true →
        let p1 := p.loadCores x
        let bad := upTo p1.nCores fun c => i.mismatched.contains c || !p1.checkOk x c
        let r := bad.foldl (fun (acc : Panel × List Nat × Nat) c => acc.1.mendCore x i c acc.2.1 acc.2.2) (p1, [], 0)
        let ws := [p1.nCores + bad.length * 2 ^ 16 + r.2.2 * 2 ^ 32]
        (r.2.1 = [] → Acts (.stage7 i) s (r.1.passStage 7 (!bad.isEmpty) ws)) ∧
        (r.2.1 ≠ [] → Acts (.stage7 i) s (((r.1.addFailed r.2.1 []).stageRecord 7 resDegraded 0 ws).restart4))) ∧
      (∀ i : Stage9In, p.inStage 9 = true → ∃ (q : Panel) (pairs : Bool) (ws : List Nat),
        let open' := (q.stageRecord 9 resPass 0 ws).openService
        Acts (.stage9 i) s (if pairs then open'.tryPair i.peer else open'))) ∧
    (∀ i : Stage8In, p.inStage 8 = true →
      (i.cannotHold = true → Acts (.stage8 i) s (p.failStage 8 detCalibration (p.words8 p.islandsInUse))) ∧
      (i.cannotHold = false →
        let l := i.margins.filter fun m => p.calibrated.hasIsland m.1 m.2.1
        let q := l.foldl (fun (p : Panel) m => p.baseline m.1 m.2.1 m.2.2) p.calibrated
        ∃ ws : List Nat, Acts (.stage8 i) s (q.passStage 8 false ws))) ∧
    p.calibrated.pmc.armed = true ∧
    (p.stage ≤ 9 → p.inStage p.stage = true → Acts .stageBoundExpire s (p.failStage p.stage detBound (p.wordsNow p.stage))) ∧
    (∀ (src : Writer) (v : W64), MayManage p src →
      let write (v : W64) : Panel :=
        let q := p.store .PMC_BRINGUP_CONTROL false v
        let q := if bit v.toNat F.PMC_BRINGUP_CONTROL_ffl_clear.lo then
          q.fflRemove (F.PMC_BRINGUP_CONTROL_ffl_entry.read v) else q
        let n := F.PMC_BRINGUP_CONTROL_retry_from.read v
        if bit v.toNat F.PMC_BRINGUP_CONTROL_retry.lo then
          if q.mayRetry n then q.retryFrom n else q.fput F.PMC_BRINGUP_CONTROL_refused 1
        else q
      Acts (.bringupRetry src v) s (write (v ||| 0x10000)) ∧ Acts (.fflClear src v) s (write (v ||| 0x20000)))

/-! ### Faults -/

/-- The error managers and the PMC (R366, R372 to R377, R381, R382, R398): a report joins its hub's queue, is lost and counted in a
storm, or escalates the handling it is related to; with nothing in handling the entries that start none are logged, up to the first
that starts one, which is taken up; a spare that passed its check takes the number and one that failed is escalated; a cluster that
does not halt in time becomes a DIE handling; a PMC that trips is reported, its alternate takes over, and a stage in progress is tried
once more; a PMC that resumes lets a dry-down go on; a margin that crosses, where what the panel holds lets it, is shown. A PMC that
restarts or is halted takes nothing up. -/
def Obligations.ErrorManagersRun : Prop :=
  ∀ (s : State),
    let p := s.p
    let logged (p : Panel) (e : QEntry) : Panel := p.logError e.src e.r e.r.level false false 0 e.count
    (∀ hub r, hub < 4 → p.hubUp hub = true →
      (p.pmc.armed = true → (p.mgr hub).handling = none → 2 ≤ r.cls.toNat →
        (p.flag F.PMC_ERR_STATUS_storm = false → (p.mgr hub).queue.length < 256 →
          ∃ q, Acts (.errorReport hub r) s q ∧ (q.mgr hub).queue = (p.mgr hub).queue ++ [⟨r, 1, hub, none⟩] ∧
            q.reports = p.reports.erase (hub, r) ∧ q.cores = p.cores ∧ q.st = p.st) ∧
        (p.flag F.PMC_ERR_STATUS_storm = true →
          ∃ q : Panel, Acts (.errorReport hub r) s (q.addHold F.PMC_ERR_STATUS_lost 1) ∧ q.errs = p.errs ∧ q.regs = p.regs)) ∧
      (∀ h, p.pmc.armed = true → (p.mgr hub).handling = some h → (∀ n, h.phase ≠ .retry n) → h.phase ≠ .reshape →
        reportStarts r = true → p.flag F.PMC_ERR_STATUS_storm = false → p.pmc.dry = none →
        p.pmc.restarting.contains hub = false → p.related h r = true → ∃ q : Panel, Acts (.errorReport hub r) s (q.escalate hub h r) ∧ q.reports = p.reports.erase (hub, r)) ∧
      (p.pmc.armed = false → Acts (.errorReport hub r) s
        (({ p with reports := p.reports.erase (hub, r) }).unarmedReport hub r))) ∧
    (∀ hub, hub < 4 → p.hubUp hub = true → p.pmc.restarting.contains hub = false → p.pmc.halted.contains hub = false →
      p.pmc.armed = true → (p.mgr hub).handling = none →
      (∀ pre e rest, (p.mgr hub).queue = pre ++ e :: rest → (∀ x ∈ pre, reportStarts x.r = false) → reportStarts e.r = true →
        Acts (.errorHandlingStart hub) s
          (((pre.foldl logged p).modMgr hub fun m => { m with queue := rest }).startHandling hub e)) ∧
      ((∀ x ∈ (p.mgr hub).queue, reportStarts x.r = false) →
        Acts (.errorHandlingStart hub) s (((p.mgr hub).queue.foldl logged p).modMgr hub fun m => { m with queue := [] }))) ∧
    (∀ hub, p.pmc.restarting.contains hub = true ∨ p.pmc.halted.contains hub = true → Acts (.errorHandlingStart hub) s p) ∧
    (∀ hub h die cl c, hub < 4 → (p.mgr hub).handling = some h → h.phase = .spareCheck die cl c →
      (∀ m x a b d, m < hub → (p.mgr m).handling = some x → x.phase ≠ .spareCheck a b d) →
      Acts (.spareCheckDone true) s ((p.spareStarts c).endAction hub h) ∧
      (∃ r : Report, r.event = 0x0106 ∧ r.cls = clsUC ∧ r.level = lvCore ∧ r.site = BitVec.ofNat 8 (p.dieSite die) ∧
        r.sub = BitVec.ofNat 8 (cl * 9 + 8) ∧
        Acts (.spareCheckDone false) s ((p.addFfl 2 r.site r.sub 3).escalate hub { h with r := r } r))) ∧
    (let late (p : Panel) (hub : Nat) : Panel :=
       match (p.mgr hub).handling with
       | some h => (match h.phase with | .halting _ _ => p.replaceByDie hub h | _ => p)
       | none => p
     Acts .clusterHaltTimeout s (late (late (late (late p 0) 1) 2) 3)) ∧
    (∀ hub again, hub < 4 → p.hubUp hub = true → smSorted p.regs = true →
      let p1 := p.addHold F.PMC_WATCHDOG_trips 1
      let p2 : Panel := { p1 with pmc := { p1.pmc with restarting := insertAsc p1.pmc.restarting hub } }
      let p3 : Panel := if p.primaryHub = hub ∧ p.hubUp (3 - hub) = true ∧ p2.pmc.restarting.contains (3 - hub) = false then
        { p2 with pmc := { p2.pmc with primaryHd3 := !p.pmc.primaryHd3, tookOver := true } } else p2
      let p4 := p3.reportHubEdge hub 0x0601 clsUC
      let p5 := if again then p4.reportHubEdge hub 0x0602 clsUF else p4
      (p.primaryHub ≠ hub ∨ p.stage = 0 ∨ 9 < p.stage → Acts (.pmcWatchdogTrip hub again) s p5) ∧
      (p.primaryHub = hub → 1 ≤ p.stage → p.stage ≤ 9 →
        (p.bring.pmcRetried = true →
          Acts (.pmcWatchdogTrip hub again) s (p5.failStage p.stage detPmcRestart (p5.wordsNow p.stage))) ∧
        (p.bring.pmcRetried = false → ∃ q : Panel, q.bring.pmcRetried = true ∧
          Acts (.pmcWatchdogTrip hub again) s (q.enterStage p.stage)))) ∧
    (∀ hub,
      let r := p.pmc.restarting.filter (· != hub)
      let q : Panel := { p with pmc := { p.pmc with restarting := r, tookOver := p.pmc.tookOver && !r.isEmpty } }
      Acts (.pmcResume hub) s (if p.pmc.dry.isSome then q.dryBegin else q.handoffOut)) ∧
    (∀ a : PredictAt, p.hasPrimary = true → a.margin.toNat ≤ 8 → p.mayCross a = true →
      ∃ q, Acts (.predictMarginCross a) s q ∧
        (smSorted p.regs = true → bit (q.fget F.PMC_HEALTH_margins) a.margin.toNat = true)) ∧
    (∀ a : PredictAt, p.hasPrimary = false ∨ 8 < a.margin.toNat ∨ p.mayCross a = false → Acts (.predictMarginCross a) s p)

/-! ### The request engine -/

/-- The commands of a step (R256 to R276, R301): with no step in progress and nothing that holds it back the active engine forms the
next; a formed step starts, a later attempt once no answer of the partner to a repair is awaited (R383); a poll reads the done record and acts on one that is of its attempt; a step that runs too long is aborted,
and an abort that no core answers stops the engine; a step with every acknowledgement commits, its digest recorded first where that
is asked for, and a dry-down or a return that waited goes on; a cold move ends, its pages copied where it ends well. -/
def Obligations.EngineStepsRun : Prop :=
  (∀ (s : State) (hub : Nat), s.p.role hub = roleActive → s.p.hubUp hub = true →
    let p := s.p
    let e := p.eng hub
    let barred := e.step.isSome = true ∨ e.draining = true ∨ e.frozen = true ∨ p.flag F.PCI_CSTORE_cq_wait 0 = true ∨
      p.flag F.PCI_CSTORE_cq_wait 3 = true
    (¬barred →
      let n := p.fget F.RQE_STEP_committed hub + 1
      (p.replaying hub = false → Acts (.stepForm hub) s ((p.serveForm hub n).showEngine hub)) ∧
      (p.replaying hub = true → Acts (.stepForm hub) s ((p.replayForm hub n).showEngine hub))) ∧
    (barred → Acts (.stepForm hub) s p) ∧
    (∀ r, e.step = some r →
      (r.phase = .formed → r.attempt.toNat % 128 = 0 →
        Acts (.stepStart hub) s (({ p with pmc := { p.pmc with des := [] } }).startStep hub r)) ∧
      (r.phase = .formed → r.attempt.toNat % 128 ≠ 0 → Acts (.stepStart hub) s
        (let q := p.askRepairs; if q.mir.repairs.isEmpty then q.startStep hub r else q)) ∧
      (r.phase ≠ .formed → Acts (.stepStart hub) s p) ∧
      (let d := p.doneRecord r
       (d.1 = none → Acts (.donePoll hub) s d.2) ∧
       (∀ att st pz, d.1 = some (att, st, pz) →
         (r.phase = .running →
           (att ≠ r.attempt.toNat → Acts (.donePoll hub) s d.2) ∧
           (att = r.attempt.toNat → pz = true →
             Acts (.donePoll hub) s ((d.2.reportPanel hub 0x0502 clsInfo (some 0)).abortAttempt hub)) ∧
           (att = r.attempt.toNat → pz = false → st = 0 → Acts (.donePoll hub) s (d.2.readResults hub r)) ∧
           (att = r.attempt.toNat → pz = false → st ≠ 0 → Acts (.donePoll hub) s (d.2.nextAttempt hub))) ∧
         (r.phase = .aborting → st = 2 → pz = false →
           (r.takeover = true → Acts (.donePoll hub) s
             (d.2.modStep hub fun x => { x with phase := .formed, takeover := false })) ∧
           (r.takeover = false → att = r.attempt.toNat → Acts (.donePoll hub) s (d.2.nextAttempt hub)) ∧
           (r.takeover = false → att ≠ r.attempt.toNat → Acts (.donePoll hub) s d.2)) ∧
         (r.phase = .aborting → st ≠ 2 ∨ pz = true → Acts (.donePoll hub) s d.2))) ∧
      (r.phase = .running →
        Acts (.stepTimeout hub) s ((p.reportPanel hub 0x0501 clsInfo (some r.n)).abortAttempt hub)) ∧
      (r.phase ≠ .running → Acts (.stepTimeout hub) s p) ∧
      (r.phase = .aborting → Acts (.abortedWaitTimeout hub) s (p.rqeStopped hub)) ∧
      (r.phase ≠ .aborting → Acts (.abortedWaitTimeout hub) s p) ∧
      (p.mayCommit r = true →
        (p.flag F.RQE_ILOG_CONFIG_commit_digest = false ∨ p.replaying hub = true →
          Acts (.stepCommit hub) s (((p.applyCommit hub r).dryAdvance).returnAdvance)) ∧
        (p.flag F.RQE_ILOG_CONFIG_commit_digest = true → p.replaying hub = false →
          let t := p.tryRecord recCommitDigest r.n (toBytes 8 (r.entries.length % 2 ^ 13) ++ digestBE r.digest)
          Acts (.stepCommit hub) s (((if t.2 then t.1.applyCommit hub r else t.1).dryAdvance).returnAdvance))) ∧
      (p.mayCommit r = false → Acts (.stepCommit hub) s ((p.dryAdvance).returnAdvance)))) ∧
  (∀ (s : State) (hub ctx : Nat) (m : ColdMove), hasEngine hub = true →
    ((s.p.eng hub).cold.find? fun m => m.ctx == ctx && m.result.isNone) = some m →
    let p := s.p
    let q (ok : Bool) : Panel := p.modEng hub fun e =>
      { e with cold := e.cold.map fun x => if x = m then { x with result := some ok } else x }
    (p.markedFailed hub m = false →
      Acts (.coldMoveFinish hub ctx false) s (q false) ∧
      (p.coldReachable m = true → Acts (.coldMoveFinish hub ctx true) s ((q true).coldCopy m)) ∧
      (p.coldReachable m = false → Acts (.coldMoveFinish hub ctx true) s (q false))) ∧
    (p.markedFailed hub m = true → ∀ ok, Acts (.coldMoveFinish hub ctx ok) s p))

/-- The standby and its journal (R247, R274, R275): the standby applies the next record of the journal, and the last one that followed
its snapshot brings it in sync; an acknowledged record leaves the journal and what waited for it goes on; an engine with nothing to
send sends a heartbeat; ten missed in a row are counted and a UF; a snapshot that agrees with the active engine gives the standby its
contexts and pages, and with no results outstanding brings it in sync. Writes of RQE_CONTROL by a writer that may write it (R272,
R275, R277): enable, drain, retry and takeover each act on the engine of the hub, in that order; an enable that fails its checks
shows the error. The host that holds the stream region needs no lease for RQE_ILOG_STREAM (R298, R439). -/
def Obligations.StandbyAndControlsAct : Prop :=
  (∀ (s : State),
     let p := s.p
     (∀ hub r, p.role hub = roleStandby → p.hubUp hub = true → hasEngine hub = true →
       let a := 3 - hub
       let q := (((p.modEng a fun e => { e with received := e.received + 1 }).bothEngines
         F.RQE_STBY_STATUS_missed_heartbeats 0).modEng hub fun e => { e with seen := some (jrecLast r) })
       ((p.eng a).journal[(p.eng a).received]? ≠ some r → Acts (.journalRecord hub r) s p) ∧
       ((p.eng a).journal[(p.eng a).received]? = some r →
         (∀ l d, r = .heartbeat l d → Acts (.journalRecord hub r) s (q.caughtUp a)) ∧
         (∀ n i l d, r = .input n i l d → Acts (.journalRecord hub r) s ((q.standbyInput hub i).caughtUp a)) ∧
         (∀ n rs l d, r = .commit n rs l d → Acts (.journalRecord hub r) s ((q.standbyCommit hub n rs).caughtUp a)))) ∧
     (∀ hub r rest k, hasEngine hub = true → (p.eng hub).journal = r :: rest → (p.eng hub).received = k + 1 →
       let q := p.setEng hub { p.eng hub with journal := rest, received := k, unwaited := (p.eng hub).unwaited - 1 }
       (0 < (p.eng hub).unwaited → Acts (.journalAck hub) s q) ∧
       ((p.eng hub).unwaited = 0 →
         (∀ l d, r = .heartbeat l d → Acts (.journalAck hub) s q) ∧
         (∀ n i l d h x, r = .input n i l d → inputQueue i = some (h, x) → Acts (.journalAck hub) s (q.headReady hub h x true)) ∧
         (∀ n i l d, r = .input n i l d → inputQueue i = none → Acts (.journalAck hub) s q) ∧
         (∀ n rs l d, r = .commit n rs l d → Acts (.journalAck hub) s
           ((q.modStep hub fun x => if x.n = n then { x with journalAcked := true } else x).fput
             F.RQE_STATUS_journal_wait 0 hub)))) ∧
     (∀ hub, p.role hub = roleActive → p.role (3 - hub) = roleStandby → (p.eng hub).journal = [] →
       Acts (.heartbeat hub) s (p.modEng hub fun e => { e with journal := [.heartbeat p.lastSeq p.ing.lastDigest] })) ∧
     (∀ hub, hub = 0 ∨ hub = 3 → p.hubUp hub = true → p.role hub = roleStandby → p.role (3 - hub) ≠ roleStandby →
       ∃ q h r, Acts .heartbeatMiss s q ∧ q.reports = p.reports ++ [(h, r)] ∧ r.event = 0x0505 ∧ r.cls = clsUF ∧
         r.site = BitVec.ofNat 8 (3 - hub) ∧
         (smSorted p.regs = true → q.fget F.RQE_STBY_STATUS_missed_heartbeats hub =
           min F.RQE_STBY_STATUS_missed_heartbeats.max (p.fget F.RQE_STBY_STATUS_missed_heartbeats hub + 10))) ∧
     (∀ a, p.activeHub = some a → p.role (3 - a) = roleStandby → p.inSync = false → (p.eng a).snapshotDone = false →
       let n := p.fget F.RQE_STEP_committed a
       let hub := 3 - a
       let q := ((p.setEng hub { p.eng a with inputs := [], taking := [], headsDue := [], journal := [], received := 0
                                              unwaited := 0, snapshotDone := false
                                              seen := some (p.lastSeq, p.ing.lastDigest) }).fput
         F.RQE_STEP_committed n hub).bothEngines F.RQE_STBY_STATUS_journaled_step n
       Acts (.standbySnapshot ((p.eng a).ctxs.map (·.2)) (p.eng a).used n) s ((q.journalFrom a).showEngine hub) ∧
       ((p.eng a).step = none → smSorted p.regs = true → (q.journalFrom a).inSync = true) ∧
       (∀ cs us m, cs ≠ (p.eng a).ctxs.map (·.2) ∨ us ≠ (p.eng a).used ∨ m ≠ n → Acts (.standbySnapshot cs us m) s p))) ∧
  (∀ (s : State) (hub : Nat) (src : Writer) (v : W64), MayWrite s.p src → hasEngine hub = true → s.p.hubUp hub = true →
     let p := s.p
     let write (v : W64) : Panel :=
       let q := if bit v.toNat F.RQE_CONTROL_enable.lo then (if p.role hub = roleFailed then p else p.tryEnable hub)
         else if p.role hub = roleActive ∨ p.flag F.RQE_CONTROL_enable hub = false then p else p.rqeOff hub
       let q := if bit v.toNat F.RQE_CONTROL_drain.lo then q.rqeDrain hub else q
       let q := if bit v.toNat F.RQE_CONTROL_retry.lo then q.retryStep hub else q
       if bit v.toNat F.RQE_CONTROL_takeover.lo then q.rqeTakeover hub else q
     Acts (.rqeEnable hub src v) s (write v) ∧
     Acts (.rqeDrain hub src v) s (write (p.keepEnable hub (v ||| 64))) ∧
     Acts (.rqeRetry hub src v) s (write (p.keepEnable hub (v ||| 32))) ∧
     Acts (.rqeTakeover hub src v) s (write (p.keepEnable hub (v ||| 128))) ∧
     Acts (.rqeIlogStreamWrite hub src v) s ((p.ilogStream v).handoffOut) ∧
     (p.enableError ≠ 0 → p.flag F.RQE_CONTROL_enable hub = false → p.role (3 - hub) ≠ roleActive →
       (p.bring.servingHd3 = decide (hub = 3) ∨ p.hubUp (3 - hub) = false) →
       p.tryEnable hub = p.fput F.RQE_STATUS_config_error p.enableError hub)) ∧
  (∀ (s : State) (hub : Nat) (src : Writer) (v : W64) (h : Bool), writerHost src = some h → s.p.holdsStream h = true →
     hasEngine hub = true → s.p.hubUp hub = true → Acts (.rqeIlogStreamWrite hub src v) s ((s.p.ilogStream v).handoffOut))

/-! ### The host interface -/

/-- The queues of a port (R440, R442, R443, R445, R447, R449): a doorbell or a queue's base is taken from a writer of the port, a size out
of range not enabling the queue; in a queue's turn, with nothing that holds submissions back, its next entry is read, is rejected, is
left where no context is free, or is a cancellation; the prompt that was read makes the submission an input of the next formation,
and one that could not be read is rejected, its time-out or poison counted. A write through the port of the other host takes no effect,
and is counted where its host does not hold the lease (R439). -/
def Obligations.QueuesAreServed : Prop :=
  ∀ (s : State) (host : Bool) (q : Nat),
    let p := s.p
    let h := portHub host
    (∀ (src : Writer) (v : W64),
      (64 ≤ q ∨ p.hubUp h = false → Acts (.sqTailDoorbell h q src v) s p ∧ Acts (.cqHeadDoorbell h q src v) s p ∧
        Acts (.cqEnable h q src v) s p) ∧
      (∀ i ∈ ([.sqTailDoorbell h q src v, .cqHeadDoorbell h q src v, .cqEnable h q src v] : List Instr),
        (ownPort src h = false → MayWrite p src ∨ src = .bmc → Acts i s p) ∧
        (∀ o, writerHost src = some o → ownPort src h = false → p.holdsLease o = false → q < 64 → p.hubUp h = true →
          Acts i s (p.addHold F.PCI_PORT_STATUS_lease_denied 1 (portHub o)))) ∧
      (ownPort src h = true → q < 64 → p.hubUp h = true →
        Acts (.sqTailDoorbell h q src v) s (p.store .PCI_SQ_TAIL false v h q) ∧
        Acts (.cqHeadDoorbell h q src v) s ((p.store .PCI_CQ_HEAD false v h q).drainStore host) ∧
        (let size := F.PCI_CQ_BASE_size_log2.read v
         let v' := if size < 4 ∨ 15 < size then putBits v 63 63 0 else v
         (p.flag F.PCI_CQ_BASE_enable h q = true ∨ bit v'.toNat 63 = false →
           Acts (.cqEnable h q src v) s ((p.store .PCI_CQ_BASE false v' h q).queuesChanged host)) ∧
         (p.flag F.PCI_CQ_BASE_enable h q = false → bit v'.toNat 63 = true →
           Acts (.cqEnable h q src v) s
             ((((p.store .PCI_CQ_BASE false v' h q).modPort host fun x => { x with cqFresh := insertAsc x.cqFresh q }).fput
               F.PCI_CSTORE_host_lost 0 h).queuesChanged host))))) ∧
    (∀ hub e, p.activeHub = some hub →
      let w (i : Nat) : Nat := (List.getD e i (0 : W64)).toNat
      let barred := (p.eng hub).frozen = true ∨ (p.eng hub).draining = true ∨ p.replaying hub = true ∨
        p.flag F.RQE_ILOG_STATUS_stream_wait hub = true ∨ 64 ≤ q ∨ p.isTurn hub host q = false
      let t := p.modEng hub fun x => { x with turn := (turnOf host q + 1) % 128 }
      ∀ i ∈ ([.submit host q e, .cancel host q e] : List Instr),
        (barred → Acts i s p) ∧
        (¬barred →
          (w 0 / 2 ^ 56 = 1 →
            (t.badSubmit hub host e = false →
              ((p.eng hub).ctxs.length + (p.eng hub).inputs.length + (p.eng hub).taking.length < 65536 →
                Acts i s (t.modEng hub fun x => { x with taking := x.taking ++ [⟨host, q, e⟩] })) ∧
              (65536 ≤ (p.eng hub).ctxs.length + (p.eng hub).inputs.length + (p.eng hub).taking.length → Acts i s t)) ∧
            (t.badSubmit hub host e = true → Acts i s (t.answerEntry hub host q e rsnRejected))) ∧
          (w 0 / 2 ^ 56 ≠ 1 → w 0 / 2 ^ 56 ≠ 2 → Acts i s (t.answerEntry hub host q e rsnRejected)) ∧
          (w 0 / 2 ^ 56 = 2 →
            (w 0 % 2 ^ 50 ≠ 0 ∨ (∃ i, 2 ≤ i ∧ i < 8 ∧ w i ≠ 0) ∨ (p.port host).cqOn.contains (w 0 / 2 ^ 50 % 64) = false →
              Acts i s (t.answerEntry hub host q e rsnRejected)) ∧
            (w 0 % 2 ^ 50 = 0 → (∀ i, 2 ≤ i → i < 8 → w i = 0) → (p.port host).cqOn.contains (w 0 / 2 ^ 50 % 64) = true →
              ((t.eng hub).tagLive host (List.getD e 1 0) = false → Acts i s (t.answerEntry hub host q e rsnNotFound)) ∧
              ((t.eng hub).tagLive host (List.getD e 1 0) = true → Acts i s (t.modEng hub fun x =>
                { x with
                  inputs := x.inputs ++ [.cancel host (BitVec.ofNat 6 q) (w 0 / 2 ^ 50 % 64) (List.getD e 1 0)]
                  headsDue := x.headsDue ++ [⟨host, q, false, false⟩] })))))) ∧
    (p.activeHub = none → ∀ e ok ts, ∀ i ∈ ([.submit host q e, .cancel host q e, .promptReadComplete host q ok ts] :
      List Instr), Acts i s p) ∧
    (∀ hub ok ts, p.activeHub = some hub →
      ((p.eng hub).taking.find? fun t => t.host == host && t.queue == q) = none →
      Acts (.promptReadComplete host q ok ts) s p) ∧
    (∀ hub t ts, p.activeHub = some hub →
      ((p.eng hub).taking.find? fun t => t.host == host && t.queue == q) = some t →
      let p1 := p.modEng hub fun x => { x with taking := x.taking.filter (· != t) }
      let counted (e : ReadEnd) : Panel := p1.modPort host fun x =>
        { x with aerTimeout := x.aerTimeout + (if e = .timedOut then 1 else 0), aerPoison := x.aerPoison + (if e = .poisoned then 1 else 0) }
      (∀ e, e ≠ .done → Acts (.promptReadComplete host q e ts) s ((counted e).answerEntry hub host q t.entry rsnRejected)) ∧
      (ts.length ≠ (List.getD t.entry 0 (0 : W64)).toNat % 2 ^ 32 → Acts (.promptReadComplete host q .done ts) s p) ∧
      (ts.length = (List.getD t.entry 0 (0 : W64)).toNat % 2 ^ 32 →
        Acts (.promptReadComplete host q .done ts) s (p1.modEng hub fun x =>
          { x with
            inputs := x.inputs ++ [.intake host (BitVec.ofNat 6 q) 0 t.entry ts]
            headsDue := x.headsDue ++ [⟨host, q, false, false⟩] })))

/-- The lease, the links and the BAR2 window (R220, R436 to R439, R445, R447): a free lease is acquired, its holder renews or releases
it, and it expires; a port's link is reset, returns, and its bus mastering is switched; in D3hot the port is reset and its link stays
trained; a host whose link stays down, or whose function stays in D3hot, is lost; a TLP longer than the port takes is a fatal error; a
BAR2 read answers the bytes with their poison, Unsupported Request or Completer Abort, and a write stores its bytes, poisoned where
the TLP is, or is counted where nothing takes it; a TLP behind one that the hub holds waits with it. -/
def Obligations.HostPortsRun : Prop :=
  ∀ (s : State) (host : Bool),
    let p := s.p
    let h := portHub host
    let serves (p : Panel) : Panel := (p.modPort host fun y => { y with d3hot := false }).portServes host
    let fatal := (p.modPort host fun x => { x with aerFatal := x.aerFatal + 1 }).linkReset host
    (p.leaseUp = true →
      (p.fget F.PCI_LEASE_holder = 0 →
        Acts (.leaseAcquire host) s (p.setHolder (if host then 2 else 1)) ∧ Acts .leaseExpire s p) ∧
      (p.fget F.PCI_LEASE_holder ≠ 0 → Acts (.leaseAcquire host) s p ∧ Acts .leaseExpire s (p.setHolder 0)) ∧
      (p.holdsLease host = true →
        Acts (.leaseRenew host) s (p.fput F.PCI_LEASE_remaining_ms 1000) ∧ Acts (.leaseRelease host) s (p.setHolder 0)) ∧
      (p.holdsLease host = false → Acts (.leaseRenew host) s p ∧ Acts (.leaseRelease host) s p)) ∧
    (p.leaseUp = false →
      ∀ i ∈ ([.leaseAcquire host, .leaseRenew host, .leaseRelease host, .leaseExpire] : List Instr), Acts i s p) ∧
    (p.hubUp h = false →
      ∀ c, ∀ i ∈ ([.pcieLinkReset host, .pcieLinkReturn host, .configurationWrite host c] : List Instr), Acts i s p) ∧
    (p.hubUp h = true →
      Acts (.pcieLinkReset host) s (p.linkReset host) ∧
      (let w := p.draw 5
       let x := w.2.draw 6
       Acts (.pcieLinkReturn host) s
          (serves ((((x.2.fput F.PCI_PORT_STATUS_width w.1 h).fput F.PCI_PORT_STATUS_speed x.1 h).fput F.PCI_PORT_STATUS_link_up 1 h).fput
            F.PCI_PORT_STATUS_bus_master 1 h))) ∧
      (∀ c : PciCommand,
        (p.flag F.PCI_PORT_STATUS_link_up h = true →
          (c.d3hot = false → Acts (.configurationWrite host c) s
            (serves (p.fput F.PCI_PORT_STATUS_bus_master (if c.busMaster then 1 else 0) h))) ∧
          (c.d3hot = true → (p.port host).d3hot = true → Acts (.configurationWrite host c) s p) ∧
          (c.d3hot = true → (p.port host).d3hot = false → Acts (.configurationWrite host c) s (p.portReset host true) ∧
            (smSorted p.regs = true → (p.portReset host true).flag F.PCI_PORT_STATUS_link_up h = true ∧
              (p.portReset host true).flag F.PCI_PORT_STATUS_bus_master h = false))) ∧
        (p.flag F.PCI_PORT_STATUS_link_up h = false → Acts (.configurationWrite host c) s p))) ∧
    ((p.port host).lossTimer = true → p.flag F.PCI_PORT_STATUS_link_up h = false ∨ (p.port host).d3hot = true →
      Acts (.hostLossTimeout host) s (p.loseHost host)) ∧
    ((p.port host).lossTimer = false ∨ (p.flag F.PCI_PORT_STATUS_link_up h = true ∧ (p.port host).d3hot = false) →
      Acts (.hostLossTimeout host) s p) ∧
    ((p.net.held.any fun x => heldHost x == host) = true →
      (∀ off len, Acts (.bar2ReadTlp host off len) s
        { p with net := { p.net with held := p.net.held ++ [.bar2Read host off len] } }) ∧
      (∀ off data pz, Acts (.bar2WriteTlp host off data pz) s
        { p with net := { p.net with held := p.net.held ++ [.bar2Write host off data pz] } })) ∧
    ((p.net.held.any fun x => heldHost x == host) = false →
      (∀ off len, p.barLive host off len (2 ^ 36) = false → Acts (.bar2ReadTlp host off len) s p) ∧
      (∀ off (data : List Byte) pz, p.barLive host off data.length (2 ^ 36) = false →
        Acts (.bar2WriteTlp host off data pz) s p) ∧
      (∀ off len, p.barLive host off len (2 ^ 36) = true → 4096 < len → Acts (.bar2ReadTlp host off len) s fatal) ∧
      (∀ off (data : List Byte) pz, p.barLive host off data.length (2 ^ 36) = true → 512 < data.length →
        Acts (.bar2WriteTlp host off data pz) s fatal) ∧
      (∀ off len, p.barLive host off len (2 ^ 36) = true → len ≤ 4096 →
        let pa := p.fget F.PCI_BAR2_BASE_base h * 2 ^ 36 + off
        let st := p.accessStatus pa len
        (inRegs pa = true ∨ st = 1 → Acts (.bar2ReadTlp host off len) s
          ((p.modPort host fun x => { x with aerUr := x.aerUr + 1 }).emit (.unsupported host))) ∧
        (inRegs pa = false → st ≠ 1 → st ≠ 0 → Acts (.bar2ReadTlp host off len) s
          ((p.modPort host fun x => { x with aerCa := x.aerCa + 1 }).emit (.completerAbort host))) ∧
        (inRegs pa = false → st = 0 →
          let r := p.readRange pa len
          Acts (.bar2ReadTlp host off len) s (r.2.2.emit (.readData host r.1 r.2.1)))) ∧
      (∀ off (data : List Byte) pz, p.barLive host off data.length (2 ^ 36) = true → data.length ≤ 512 →
        let q := if pz then p.modPort host fun x => { x with aerPoison := x.aerPoison + 1 } else p
        let pa := q.fget F.PCI_BAR2_BASE_base h * 2 ^ 36 + off
        let st := q.accessStatus pa data.length
        (inRegs pa = true ∨ st = 1 → Acts (.bar2WriteTlp host off data pz) s (q.modPort host fun x => { x with aerUr := x.aerUr + 1 })) ∧
        (inRegs pa = false → st ≠ 1 → st ≠ 0 → Acts (.bar2WriteTlp host off data pz) s q) ∧
        (inRegs pa = false → st = 0 →
          Acts (.bar2WriteTlp host off data pz) s (q.storePa pa (data.map fun b => (b, pz))))))

/-! ### The register map -/

/-- Register accesses (R11, R85, R212, R219, R220, R437, R439, R500 to R502): a management read answers 8 bytes and a write is
acknowledged, and one that names no register, or comes from no unit that may send it, is refused; BAR0 reads and writes reach the
registers, wait while a route swap drains, are refused where R501 does not serve them, and are a fatal error where the port takes none
so long; a read elsewhere than in the port's own hub may end in a time-out (the model leaves it free, log 10); a write is judged by its writer; a host that
needs the lease and does not hold it is counted and changes nothing else, and the board management controller writes only the registers
of its own commands. A core's control register acts on the core, in the order of R85, and a start sets the values of R36. -/
def Obligations.RegisterAccessesAct : Prop :=
  ∀ (s : State),
    let p := s.p
    let fatal (host : Bool) : Panel := (p.modPort host fun x => { x with aerFatal := x.aerFatal + 1 }).linkReset host
    (∀ (k : Packet), p.nodeUp k.dstNode.toNat = false ∨ p.early k = true →
      ∀ i ∈ ([.mrd k, .mwr k, .mrdData k, .mwrAck k, .mnak k] : List Instr), Acts i s p) ∧
    (∀ (k : Packet), p.nodeUp k.dstNode.toNat = true → p.early k = false →
      let p1 := p.takePacket k
      let v : W64 := BitVec.ofNat 64 (ofBytes (k.payload.take 8))
      (∀ (src : Writer) (off : Nat), unitWriter k.srcUnit.toNat = some src → regOffset k.addr.toNat = some off →
        (∀ x p2, p1.readTarget (p1.locate off) = some (x, p2) → Acts (.mrd k) s (p2.answer k 0x1A 0 (toBytes 8 x.toNat))) ∧
        (p1.readTarget (p1.locate off) = none → Acts (.mrd k) s (p1.answer k 0x1C 1)) ∧
        (∀ p2, p1.writeTarget src (p1.locate off) v = some p2 → Acts (.mwr k) s (p2.answer k 0x1B 0)) ∧
        (p1.writeTarget src (p1.locate off) v = none → Acts (.mwr k) s (p1.answer k 0x1C 1))) ∧
      (unitWriter k.srcUnit.toNat = none ∨ regOffset k.addr.toNat = none →
        Acts (.mrd k) s (p1.answer k 0x1C 1) ∧ Acts (.mwr k) s (p1.answer k 0x1C 1)) ∧
      (let found := p1.net.waiting.find? fun w => w.node == k.dstNode.toNat && w.unit == k.srcUnit.toNat && w.tag == k.tag
       ∀ i ∈ ([.mrdData k, .mwrAck k, .mnak k] : List Instr),
         (∀ w, found = some w → (∀ c, responseCore k = some c → p1.isFenced c = false) → w.kind = .hub → Acts i s (p1.endWait w)) ∧
         (found = none ∨ (∃ c, responseCore k = some c ∧ p1.isFenced c = true) → Acts i s (p1.lateResponse k)))) ∧
    (∀ (host : Bool) (off len : Nat) (v : W64),
      (p.flag F.PNW_DRAIN_STATUS_in_progress = true ∨ (p.net.held.any fun x => heldHost x == host) = true →
        Acts (.bar0ReadTlp host off len) s { p with net := { p.net with held := p.net.held ++ [.bar0Read host off len] } } ∧
        Acts (.bar0WriteTlp host off len v) s { p with net := { p.net with held := p.net.held ++ [.bar0Write host off len v] } }) ∧
      (p.flag F.PNW_DRAIN_STATUS_in_progress = false → (p.net.held.any fun x => heldHost x == host) = false →
        p.barLive host off len (2 ^ 28) = false →
        Acts (.bar0ReadTlp host off len) s p ∧ Acts (.bar0WriteTlp host off len v) s p) ∧
      (p.flag F.PNW_DRAIN_STATUS_in_progress = false → (p.net.held.any fun x => heldHost x == host) = false →
        p.barLive host off len (2 ^ 28) = true →
        (bar0ReadOk off len = true →
          let d := p.readLost host off
          (off / 0x200000 = portHub host → d = (false, p)) ∧
          (∀ bs p1, d.1 = false → d.2.readRegs (off / 8 * 8) ((len + 7) / 8) = some (bs, p1) →
            Acts (.bar0ReadTlp host off len) s (p1.emit (.readData host ((bs.drop (off % 8)).take len) false))) ∧
          (d.1 = true ∨ d.2.readRegs (off / 8 * 8) ((len + 7) / 8) = none →
            Acts (.bar0ReadTlp host off len) s
              ((d.2.modPort host fun x => { x with aerCa := x.aerCa + 1 }).emit (.completerAbort host)))) ∧
        (bar0ReadOk off len = false → Acts (.bar0ReadTlp host off len) s
          (if 4096 < len then fatal host else
            (p.modPort host fun x => { x with aerUr := x.aerUr + 1 }).emit (.unsupported host))) ∧
        (len = 8 → off % 8 = 0 →
          Acts (.bar0WriteTlp host off len v) s ((p.writeTarget (if host then .hostB else .hostA) (p.locate off) v).getD p)) ∧
        (len ≠ 8 ∨ off % 8 ≠ 0 →
          Acts (.bar0WriteTlp host off len v) s
            (if 512 < len then fatal host else p.modPort host fun x => { x with aerUr := x.aerUr + 1 })))) ∧
    (∀ (src : Writer) (off : Nat) (v : W64), off % 8 ≠ 0 ∨ p.locate off = .absent ∨ p.locate off = .zero →
      Acts (.registerWrite src off v) s p) ∧
    (∀ (src : Writer) (off : Nat) (v : W64) (w : Win) (r : Reg) (i j : Nat), off % 8 = 0 → p.locate off = .reg w r i j →
      (p.mayWrite src w r = .take → Acts (.registerWrite src off v) s (p.regWrite src w r i j v)) ∧
      (p.mayWrite src w r = .ignore → Acts (.registerWrite src off v) s p) ∧
      (∀ h, writerHost src = some h → p.mayWrite src w r = .deny →
        Acts (.registerWrite src off v) s (p.addHold F.PCI_PORT_STATUS_lease_denied 1 (portHub h)))) ∧
    (∀ (src : Writer) (v : W64),
      let managed : List Instr := [.bringupRetry src v, .fflClear src v, .serviceDrydown src]
      let leased : List Instr := [.mcGroupApply src v, .barrierApply src v, .barrierAbort src v, .hbmMapApply src v,
        .rqeEnable 0 src v, .rqeDrain 0 src v, .rqeRetry 0 src v, .rqeTakeover 0 src v, .serviceReturn src, .serviceRestart src v]
      (∀ h, writerHost src = some h → p.holdsLease h = false →
        ∀ i ∈ managed ++ leased, Acts i s (p.addHold F.PCI_PORT_STATUS_lease_denied 1 (portHub h))) ∧
      (src = .bmc → ∀ i ∈ leased, Acts i s p)) ∧
    (∀ c, p.coreUp c = false → ∀ n v, ∀ i ∈ ([.coreAbortQueues c, .coreHaltReq c, .coreAttention c, .coreStart c v,
      .coreTokenWrite c n v] : List Instr), Acts i s p) ∧
    (∀ c n v, 32 ≤ n → Acts (.coreTokenWrite c n v) s p) ∧
    (∀ c, p.coreUp c = true →
      Acts (.coreAbortQueues c) s ((p.abortQueues c).mxAdvance c) ∧
      Acts (.coreHaltReq c) s (p.haltReq c) ∧
      Acts (.coreAttention c) s (p.attention c) ∧
      (∀ v : W64,
        let v := v ||| 0x10000
        let q := p.store .CORE_CONTROL false v c
        let q := if bit v.toNat F.CORE_CONTROL_abort_queues.lo then q.abortQueues c else q
        let q := if bit v.toNat F.CORE_CONTROL_halt_req.lo then q.haltReq c else q
        let q := if bit v.toNat F.CORE_CONTROL_attention.lo then q.attention c else q
        Acts (.coreStart c v) s
          (if p.halted c then q.startCore c (F.CORE_CONTROL_start_pc.read v) (bit v.toNat F.CORE_CONTROL_clear_state.lo) else q)) ∧
      (∀ n (v : W64), n < 32 → Acts (.coreTokenWrite c n v) s (p.fput F.CORE_TOKEN_value v.toNat c n))) ∧
    (∀ c pc clear, c < 1024 → p.halted c = true → smSorted p.regs = true → smSorted p.cores = true →
      let q := p.startCore c pc clear
      q.running c = true ∧ q.halted c = false ∧ q.fwMode c = true ∧ (q.core c).q.pc = pc ∧ (q.core c).blocked = none ∧
      (clear = true → (q.core c).q.sregs = [] ∧ (q.core c).q.dregs = [] ∧ (q.core c).q.loopsP = [] ∧ (q.core c).q.loopsF = [] ∧
        (q.core c).vregs = [] ∧ (q.core c).pos0 = none ∧ (q.core c).pos1 = none ∧
        ∀ n, n < 32 → q.fget F.CORE_TOKEN_value c n = 0)) ∧
    (∀ c, p.running c = true → smSorted p.regs = true → smSorted p.cores = true →
      (p.haltReq c).running c = false ∧ ((p.haltReq c).core c).blocked = some .halting)

/-! ### Mirroring and service -/

/-- Mirroring, hand-off and service control (R384 to R394, R401): an unpaired panel tries to pair, and is refused with a reason; a
copy lands in the guest range or its window and is acknowledged; the next step's deltas are applied and acknowledged, those already
held acknowledged, others dropped; an acknowledgement lets deltas go out or the step commit; a loss unpairs; a hand-off is taken,
acknowledged, or given up once a primary PMC exists; a snapshot replaces the guest store; what the panels tell each other at an attempt to
pair is answered; a repair's 64 B are read for the partner, and the partner's answer is written whole, or leaves the poison; a controller's dry-down, return and restart act, or are refused. -/
def Obligations.MirroringRuns : Prop :=
  ∀ (s : State),
    let p := s.p
    (∀ x, let due := p.flag F.MIR_CONFIG_enable = true ∧ p.mirSt = mirUnpaired ∧ p.inService = true
      (due → Acts (.pairingAttempt x) s (p.tryPair x)) ∧ (¬ due → Acts (.pairingAttempt x) s p)) ∧
    (∀ x,
      let said := p.mirPush (.msg (.pairing p.ownInfo))
      let q := said.fput F.MIR_STATUS_refuse_reason (said.pairError x)
      (said.pairError x ≠ 0 → p.tryPair x = (q.setMirSt mirUnpaired).logPanel 0x0605 clsInfo (said.pairError x)) ∧
      (said.pairError x = 0 →
        let q := ((q.fput F.MIR_STATUS_commits_wait 0).partnerDone).setMirSt mirSyncing
        p.tryPair x = ({ q with mir := { q.mir with peer := some x, guest := .empty } } : Panel).sendSnapshot)) ∧
    (∀ k region,
      let p1 := p.dropArrived k
      let off := k.addr.toNat
      let w := p1.get .MIR_GUEST_WIN 0 region
      let inWin := region ≤ 3 ∧ F.MIR_GUEST_WIN_enable.read w = 1 ∧
        off + k.payload.length ≤ F.MIR_GUEST_WIN_size_mib.read w * 2 ^ 20
      let pa := if region = 0 then p1.kvBase + p1.adoptPage (off / 0x40000) * 0x40000 + off % 0x40000
        else F.MIR_GUEST_WIN_base.read w * 2 ^ 20 + off
      (p1.mirrorOn = true → (region = 0 ∨ inWin) → p1.accessStatus pa k.payload.length = 0 →
        Acts (.mirrorWr k region) s ((p1.writeTagged pa (k.payload.map fun b => (b, k.poison))).mirrorAnswer k 0)) ∧
      (p1.mirrorOn = false ∨ p1.accessStatus pa k.payload.length ≠ 0 → Acts (.mirrorWr k region) s p1) ∧
      (region ≠ 0 → k.payload ≠ [] → ¬ inWin → Acts (.mirrorWr k region) s p1)) ∧
    (∀ k n recs,
      let p1 := p.dropArrived k
      (p1.mirrorOn = false → Acts (.mirrorDelta k n recs) s p1) ∧
      (p1.mirrorOn = true →
        (n ≤ p1.mir.guest.step → Acts (.mirrorDelta k n recs) s (p1.mirrorAnswer k n)) ∧
        (n = p1.mir.guest.step + 1 → (deltaCommit recs).isSome = true →
          Acts (.mirrorDelta k n recs) s ((p1.applyDelta n recs).mirrorAnswer k n)) ∧
        (p1.mir.guest.step + 1 < n ∨ (p1.mir.guest.step < n ∧ deltaCommit recs = none) →
          Acts (.mirrorDelta k n recs) s p1))) ∧
    (∀ k,
      let p1 := (p.dropArrived k).echoed p.mirHub true k
      (p1.mirrorOn = false → ∀ n, Acts (.mirrorAck k n) s p1) ∧
      (p1.mirrorOn = true → (p1.mir.awaits.any fun a => a.tag == k.tag) = false → ∀ n, Acts (.mirrorAck k n) s (p1.countLate p1.mirHub)) ∧
      (p1.mirrorOn = true → (p1.mir.awaits.any fun a => a.tag == k.tag) = true →
        let awaits := p1.mir.awaits.filter fun a => a.tag != k.tag
        let p2 : Panel := { p1 with mir := { p1.mir with
          awaits := awaits, copies := p1.mir.copies - 1, unsent := p1.mir.unsent.map fun u => { u with before := u.before - 1 } } }
        Acts (.mirrorAck k none) s p2.sendDeltas ∧
        (∀ n, p1.mir.deltas.contains n = false →
          Acts (.mirrorAck k (some n)) s { p1 with mir := { p1.mir with awaits := awaits } }) ∧
        (∀ n, p1.mir.deltas.contains n = true →
          let p3 := ({ p1 with mir := { p1.mir with awaits := awaits, deltas := p1.mir.deltas.filter (· != n) } }).fput
            F.MIR_STATUS_acked_step n
          (∀ x, (p3.eng p3.mirHub).step = some x → x.n = n →
            Acts (.mirrorAck k (some n)) s
              ((p3.modStep p3.mirHub fun x => { x with partnerAcked := true }).fput F.RQE_STATUS_partner_wait 0 p3.mirHub)) ∧
          ((∀ x, (p3.eng p3.mirHub).step = some x → x.n ≠ n) → Acts (.mirrorAck k (some n)) s p3)))) ∧
    (let waits := p.mirrorOn = true ∧ (p.mir.copies ≠ 0 ∨ p.mir.deltas ≠ [])
     let p1 := (p.logPanel 0x0604 clsInfo).setMirSt mirUnpaired
     (¬ waits → Acts .mirrorAckTimeout s p) ∧
     (waits → p1.flag F.MIR_CONFIG_on_loss = false → Acts .mirrorAckTimeout s (p1.partnerDone).dryAdvance) ∧
     (waits → p1.flag F.MIR_CONFIG_on_loss = true →
        let p2 := ({ p1 with mir := { p1.mir with
          queue := p1.mir.queue.filter (·.isMsg), awaits := [], copies := 0, unsent := [], deltas := [], repairs := [] } }).fput
            F.MIR_STATUS_commits_wait 1
        (p2.activeHub = none → Acts .mirrorAckTimeout s p2.dryAdvance) ∧
        (∀ h, p2.activeHub = some h → Acts .mirrorAckTimeout s (p2.fput F.RQE_STATUS_partner_wait 1 h).dryAdvance))) ∧
    (∀ n, let answers : List Instr := [.handoffAck n, .mirrorCtrl (.handoffAck n)]
      (∀ ret cs, p.mir.handoff = .sent ret cs →
        ∀ i ∈ answers, Acts i s ({ p with mir := { p.mir with handoff := .acked ret cs } }).handoffOut) ∧
      ((∀ ret cs, p.mir.handoff ≠ .sent ret cs) → ∀ i ∈ answers, Acts i s p)) ∧
    (∀ cs, p.mir.handoff = .sent false cs →
      let q : Panel := { p with mir := { p.mir with handoff := .lost } }
      (q.serving = servDrying → q.hasPrimary = true → Acts .handoffAckTimeout s q.dryFail) ∧
      (q.serving ≠ servDrying ∨ q.hasPrimary = false → Acts .handoffAckTimeout s q)) ∧
    (∀ cs, p.mir.handoff = .sent true cs →
      let q : Panel := { p with mir := { p.mir with handoff := .none, returnDue := true } }
      (∀ h, q.activeHub = some h → Acts .handoffAckTimeout s (q.modEng h fun e => { e with frozen := false })) ∧
      (q.activeHub = none → Acts .handoffAckTimeout s q)) ∧
    ((∀ ret cs, p.mir.handoff ≠ .sent ret cs) → Acts .handoffAckTimeout s p) ∧
    Acts .returnRetry s p.returnAdvance ∧
    (∀ src step seq d ret cs, Acts (.mirrorCtrl (.handoff src step seq d ret cs)) s (p.takeHandoff src step seq d ret cs)) ∧
    (∀ c, (p.mirSt = mirPaired → c = p.partner → Acts (.mirrorCtrl (.askReturn c)) s
        ({ p with mir := { p.mir with returnDue := true } }).returnAdvance) ∧
      (p.mirSt ≠ mirPaired ∨ c ≠ p.partner → Acts (.mirrorCtrl (.askReturn c)) s p)) ∧
    (∀ x, (p.mirrorOn = true → ∃ q : Panel, Acts (.mirrorCtrl (.snapshot x)) s q ∧ q.mir.guest.step = x.step ∧
        q.mir.guest.seq = x.seq ∧ q.mir.guest.digest = x.digest ∧ q.mir.guest.eng.used = x.used ∧
        q.mir.guest.eng.policy = x.policy ∧ q.mir.guest.eng.cold = x.cold ∧ q.mir.guest.waiting = x.waiting ∧ q.mir.guest.eng.ctxs = x.ctxs.foldl (fun m y => smSet m y.ctx y) [] ∧
        q.regs = p.regs ∧ q.st = p.st) ∧
      (p.mirrorOn = false → Acts (.mirrorCtrl (.snapshot x)) s p)) ∧
    (∀ x : PeerInfo, Acts (.mirrorCtrl (.pairing x)) s
      (if p.flag F.MIR_CONFIG_enable = true ∧ x.coord = p.partner then p.mirPush (.msg (.pairing p.ownInfo)) else p)) ∧
    (∀ r off, let d := p.repairBytes r off
      (p.mirrorOn = true → Acts (.mirrorCtrl (.repairRead r off)) s (d.2.mirPush (.msg (.repairData r off d.1)))) ∧
      (p.mirrorOn = false → Acts (.mirrorCtrl (.repairRead r off)) s p)) ∧
    (∀ r off a, ((p.st.mirRanges.find? fun x => x.1 == r).map fun x => x.2.1 + off) = some a →
      let q : Panel := { p with mir := { p.mir with
        repairs := p.mir.repairs.filter (· != a), awaits := p.mir.awaits.filter (·.repair != some a) } }
      (p.mir.repairs.contains a = true →
        (∀ l, l.length = 64 → Acts (.mirrorCtrl (.repairData r off (some l))) s
          ((q.writeTagged a l).addHold F.MIR_COUNTS_poison_repairs 1)) ∧
        (∀ l, l.length ≠ 64 → Acts (.mirrorCtrl (.repairData r off (some l))) s q) ∧
        Acts (.mirrorCtrl (.repairData r off none)) s q) ∧
      (p.mir.repairs.contains a = false → ∀ d, Acts (.mirrorCtrl (.repairData r off d)) s p)) ∧
    (∀ r off d, (p.st.mirRanges.find? fun x => x.1 == r) = none → Acts (.mirrorCtrl (.repairData r off d)) s p) ∧
    (p.mirSt ≠ mirSyncing → Acts .mirrorSyncDone s p) ∧
    (p.mirSt = mirSyncing →
      let p1 := p.setMirSt mirPaired
      ((p1.flag F.MIR_CONFIG_auto_return && p1.hosting) = false → Acts .mirrorSyncDone s p1) ∧
      ((p1.flag F.MIR_CONFIG_auto_return && p1.hosting) = true → Acts .mirrorSyncDone s
        ({ p1 with mir := { p1.mir with returnDue := true } }).returnAdvance)) ∧
    (∀ src : Writer, MayManage p src →
      (p.serving = servServing →
        Acts (.serviceDrydown src) s ((p.fput F.PMC_SERVICE_CONTROL_refused 0).startDry .hold)) ∧
      (p.serving ≠ servServing → Acts (.serviceDrydown src) s (p.fput F.PMC_SERVICE_CONTROL_refused 1))) ∧
    (∀ src : Writer, MayWrite p src →
      (p.mirSt = mirPaired →
        let p1 := p.fput F.PMC_SERVICE_CONTROL_refused 0
        Acts (.serviceReturn src) s (p1.mirPush (.msg (.askReturn p1.coord)))) ∧
      (p.mirSt ≠ mirPaired → Acts (.serviceReturn src) s (p.fput F.PMC_SERVICE_CONTROL_refused 1)) ∧
      (∀ v : W64,
        let p1 := p.store .PMC_SERVICE_CONTROL false v
        let n := p1.fget F.PMC_SERVICE_CONTROL_restart_stage
        (p1.serving = servDried → n = 3 → Acts (.serviceRestart src v) s
          ((p1.fput F.PMC_SERVICE_CONTROL_refused 0).beginBringup 3)) ∧
        (p1.serving = servDried → n = 1 → Acts (.serviceRestart src v) s
          (((p1.fput F.PMC_SERVICE_CONTROL_refused 0).restartHubs).beginBringup 1)) ∧
        (p1.serving ≠ servDried ∨ (n ≠ 1 ∧ n ≠ 3) →
          Acts (.serviceRestart src v) s (p1.fput F.PMC_SERVICE_CONTROL_refused 1))))

/-! ### The Hudja fabric -/

/-- Packets at the switch and at the network interface (R404, R412, R413, R415, R420, R422, R424, R425): the codewords of a packet that the
port corrected are counted, and a mark on a response or a control packet; a packet that fails its error check, names no opcode (counted as malformed) or is too old is discarded; one for another panel is sent on, or discarded where no port is usable, and one for this panel
delivered; a read, a write and a post are served in SERVICE, refused where no window or no setting allows them, and answered with
ADDRESS_ERROR outside SERVICE; a rate recovers by its step and leaves the limiter at 256. -/
def Obligations.FabricPacketsAreServed : Prop :=
  ∀ (s : State) (hub : Nat),
    let p := s.p
    (∀ port k fecOk (tr : BitVec 32) (corrected : Nat),
      let i := Instr.fabricPacketReceive hub port k fecOk tr corrected
      let taken := p.fPort hub port = true ∧ (p.portState hub port = 1 ∨ p.portState hub port = 2) ∧
        (k.tclass = 3 ∨ p.fRoom hub port k ≠ none)
      let r := min 0xFFFFFFFF (k.residency.toNat + tr.toNat)
      let aged : FPacket := { k with residency := BitVec.ofNat 32 r }
      let p1 := p.countCorrected hub port corrected
      let sent := p1.fSend hub ((p1.fRoom hub port aged).getD ⟨aged, port, fChan aged, 0⟩)
      (smSorted p.fabric = true → smSorted (p.fab4 hub).corrected = true →
        smGetD (p1.fab4 hub).corrected port 0 = smGetD (p.fab4 hub).corrected port 0 + corrected) ∧
      (¬ taken → Acts i s p) ∧
      (taken → fecOk = false → Acts i s
        ((p1.addHold F.HJF_PORT_STATUS_fec_uncorrected 1 hub port).reportHubEdge hub 0x0703 clsInfo)) ∧
      (taken → fecOk = true → fOpcodeOk k.opcode.toNat = false → Acts i s
        ((p1.modFab hub fun f => { f with malformed := f.malformed + 1 }).reportHubEdge hub 0x0703 clsInfo)) ∧
      (taken → fecOk = true → fOpcodeOk k.opcode.toNat = true →
        (p.maxAge < r → Acts i s ((p1.addHold F.HJF_POOL_STATUS_age_discards 1 hub).fDiscard hub (some port) 0x0704)) ∧
        (r ≤ p.maxAge → k.dstCoord = p.coord → Acts i s (p1.fDeliver hub (some port) aged)) ∧
        (r ≤ p.maxAge → k.dstCoord ≠ p.coord →
          (sent.2 = true → Acts i s sent.1) ∧ (sent.2 = false → Acts i s (p1.fDiscard hub (some port) 0x0703))))) ∧
    (∀ port k,
      (k.mark = false ∨ (k.tclass ≠ 1 ∧ k.tclass ≠ 3) → p.countMark hub k = p) ∧
      (k.mark = true → k.tclass = 1 ∨ k.tclass = 3 → smSorted p.fabric = true →
        ((p.countMark hub k).fab4 hub).oddMarks = (p.fab4 hub).oddMarks + 1) ∧
      (fCheck k ≠ k.check → p.fDeliver hub port k = (p.countMark hub k).fDiscard hub port 0x0703) ∧
      (fCheck k = k.check → k.tclass = 3 → p.fDeliver hub port k = p.countMark hub k) ∧
      (fCheck k = k.check → k.tclass ≠ 3 → smSorted p.fabric = true →
        ((p.fDeliver hub port k).fab4 hub).arrived = (p.fab4 hub).arrived ++ [k])) ∧
    (p.fPort hub 0 = false → ∀ k, ∀ i ∈ ([.fabricRd hub k, .fabricWr hub k, .fpost hub k] : List Instr), Acts i s p) ∧
    (p.fPort hub 0 = true → ∀ k,
      let p1 := p.takeArrived hub k
      let pa := k.addr.toNat
      let n := k.length.toNat
      let m := k.payload.length
      let refused := (p1.niAnswer hub k 0x0A 3 [] false).reportHubEdge hub 0x0706 clsInfo
      (p1.inService = false → ∀ i ∈ ([.fabricRd hub k, .fabricWr hub k, .fpost hub k] : List Instr),
        Acts i s (p1.niAnswer hub k 0x0A 1 [] false)) ∧
      (p1.inService = true →
        (p.exported pa n false = false → Acts (.fabricRd hub k) s refused) ∧
        (p.exported pa n false = true →
          (p1.accessStatus pa n = 0 → let r := p1.readRange pa n
            Acts (.fabricRd hub k) s (r.2.2.niAnswer hub k 0x08 0 r.1 r.2.1)) ∧
          (p1.accessStatus pa n = 3 → Acts (.fabricRd hub k) s p1) ∧
          (∀ e, p1.accessStatus pa n = e → e ≠ 0 → e ≠ 3 → Acts (.fabricRd hub k) s (p1.niAnswer hub k 0x0A e [] false))) ∧
        (p.exported pa m true = false → Acts (.fabricWr hub k) s refused) ∧
        (p.exported pa m true = true →
          (p1.accessStatus pa m = 0 → Acts (.fabricWr hub k) s
            ((p1.storePa pa (k.payload.map fun b => (b, k.poison))).niAnswer hub k 0x09 0 [] false)) ∧
          (p1.accessStatus pa m = 3 → Acts (.fabricWr hub k) s p1) ∧
          (∀ e, p1.accessStatus pa m = e → e ≠ 0 → e ≠ 3 → Acts (.fabricWr hub k) s (p1.niAnswer hub k 0x0A e [] false))) ∧
        (p.flag F.HJF_CONFIG_accept_post = false → Acts (.fpost hub k) s refused) ∧
        (p.flag F.HJF_CONFIG_accept_post = true →
          Acts (.fpost hub k) s ((p1.pmcPost k.post.toNat).niAnswer hub k 0x09 0 [] false)))) ∧
    (∀ (coord : BitVec 12) (mirror : Bool),
      let m := p.rates hub mirror
      (smGet m coord.toNat = none → Acts (.sillageRecover ⟨hub, mirror⟩ coord) s p) ∧
      (∀ r, smGet m coord.toNat = some r →
        let r' := r + p.fget F.HJF_SILLAGE_add_step
        (256 ≤ r' → Acts (.sillageRecover ⟨hub, mirror⟩ coord) s (p.setRates hub mirror (smDel m coord.toNat))) ∧
        (r' < 256 → Acts (.sillageRecover ⟨hub, mirror⟩ coord) s (p.setRates hub mirror (smSet m coord.toNat r')))))

/-- Command queues (R418 to R424): the producer index is written or polled; a command whose slot holds what the interface takes
ends at once with its status where it cannot start, or its packets are sent; an answer moves its data, counts against its command and
ends it, or is late; a request with no answer is sent once more, then ends in TIMEOUT, and a packet of the mirror engine's is given up
with its repair. -/
def Obligations.FabricCommandsRun : Prop :=
  ∀ (s : State) (hub : Nat),
    let p := s.p
    (∀ q (v : W64),
      (p.fPort hub 0 = true → q < 8 → Acts (.fqProducerWrite hub q v) s (p.store .HJF_FQ_INDEX false v hub q)) ∧
      (p.fPort hub 0 = false ∨ 8 ≤ q → Acts (.fqProducerWrite hub q v) s p)) ∧
    (∀ q,
      let a := p.fget F.HJF_FQ_CONFIG_base hub q * 64
      let polls := p.fPort hub 0 = true ∧ q < 8 ∧ p.flag F.HJF_FQ_CONFIG_enable hub q = true ∧
        p.flag F.HJF_FQ_CONFIG_poll hub q = true ∧ p.accessStatus a 8 = 0
      let r := p.readRange a 8
      (polls → Acts (.fqPoll hub q) s
        (r.2.2.modFab hub fun f => { f with started := smSet f.started (q + 8) (ofBytes r.1 % 65536) })) ∧
      (¬ polls → Acts (.fqPoll hub q) s p)) ∧
    (∀ q (cmd : List W64),
      let w (n : Nat) : Nat := (List.getD cmd n (0 : W64)).toNat
      let op := bits (w 0) 63 56
      let i : Instr := if op = 2 then .fabricPut hub q cmd else if op = 3 then .fabricPutPost hub q cmd else .fabricGet hub q cmd
      let n := p.fqNext hub q
      let due := p.fPort hub 0 = true ∧ q < 8 ∧ p.flag F.HJF_FQ_CONFIG_enable hub q = true ∧ n ≠ p.fqProducer hub q ∧
        p.mayInject hub = true ∧ (p.fab4 hub).cmds.length < 64 ∧
        ((p.fab4 hub).waiting.any fun x => x.q == q && x.reissued) = false ∧ p.accessStatus (p.fqSlot hub q n) 64 = 0
      let slot := p.readRange (p.fqSlot hub q n) 64
      let holds := ∀ n, n < 8 → ofBytes ((slot.1.drop (8 * n)).take 8) = w n
      let p1 := slot.2.2
      let p2 := p1.modFab hub fun f => { f with started := smSet f.started q ((n + 1) % 65536) }
      let r := bits (w 1) 51 40
      let byRank := (w 0).testBit 55 = true
      let rank : Option (BitVec 12 × BitVec 7) := if p2.flag F.HJF_RANK_valid 0 r = true then
        some (BitVec.ofNat 12 (p2.fget F.HJF_RANK_coord 0 r), BitVec.ofNat 7 (p2.fget F.HJF_RANK_node 0 r)) else none
      let post := if (w 0).testBit 54 = true then some (bits (w 5) 30 0) else none
      let ra := bits (w 3) 55 0
      let ps := fPieces (bits (w 0) 24 0 / 4096 + 2) 0 ra (bits (w 0) 24 0)
      (¬ due → Acts i s p) ∧
      (due → ¬ holds → Acts i s p1) ∧
      (due → holds → p2.fqCheck w rank ≠ 0 → Acts i s (p2.fqEnd hub q n (p2.fqCheck w rank) post)) ∧
      (due → holds → p2.fqCheck w rank = 0 →
        ∀ dst : BitVec 12 × BitVec 7, (byRank → rank = some dst) →
          (¬ byRank → dst = (BitVec.ofNat 12 (bits (w 1) 63 52), BitVec.ofNat 7 (w 1))) →
        let c : FCmd := ⟨q, n, BitVec.ofNat 8 op, dst.1, dst.2, bits (w 2) 55 0, ra, BitVec.ofNat 31 (w 4), BitVec.ofNat 31 (w 5),
          (w 0).testBit 54, ps.length, 0⟩
        let sent := (p2.modFab hub fun f => { f with cmds := f.cmds ++ [c] }).fqSend hub c ps
        (sent.2 = true → Acts i s sent.1) ∧
        (sent.2 = false → Acts i s (sent.1.fqEnd hub q n 5 c.localPostOf)))) ∧
    (∀ k,
      let p1 := (p.takeArrived hub k).echoed hub false k
      (p1.fqMatch hub k.tag (fun _ => true) = none → Acts (.fabricNak hub k) s (p1.countLate hub)) ∧
      (p1.fqMatch hub k.tag (fun o => o == 0) = none → Acts (.fabricRdData hub k) s (p1.countLate hub)) ∧
      (p1.fqMatch hub k.tag (fun o => o == 1 || o == 2) = none → Acts (.fabricWrAck hub k) s (p1.countLate hub)) ∧
      (∀ w c, p1.fqMatch hub k.tag (fun o => o == 0) = some (w, c) →
        let pa := c.localPa + (w.p.addr.toNat - c.remotePa)
        (p1.accessStatus pa w.p.length.toNat = 0 →
          Acts (.fabricRdData hub k) s
            ((p1.storePa pa ((k.payload.take w.p.length.toNat).map fun b => (b, k.poison))).fqDone hub w c)) ∧
        (p1.accessStatus pa w.p.length.toNat ≠ 0 →
          Acts (.fabricRdData hub k) s (p1.fqEnd hub c.q c.index 1 c.localPostOf))) ∧
      (∀ w c, p1.fqMatch hub k.tag (fun o => o == 1 || o == 2) = some (w, c) →
        Acts (.fabricWrAck hub k) s (p1.fqDone hub w c)) ∧
      (∀ w c, p1.fqMatch hub k.tag (fun _ => true) = some (w, c) →
        Acts (.fabricNak hub k) s (p1.fqEnd hub c.q c.index (if k.status = 3 then 2 else 1) c.localPostOf))) ∧
    (∀ tag,
      (p.fqMatch hub tag (fun _ => true) = none →
        ((p.mir.awaits.find? fun x => x.hub == hub && x.tag == tag) = none → Acts (.fabricRequestTimeout hub tag) s p) ∧
        (∀ x, (p.mir.awaits.find? fun x => x.hub == hub && x.tag == tag) = some x →
          let q : Panel := { p with mir := { p.mir with
            awaits := p.mir.awaits.filter (· != x), repairs := p.mir.repairs.filter fun a => x.repair != some a } }
          Acts (.fabricRequestTimeout hub tag) s (q.reportHubEdge x.hub 0x0705 clsInfo))) ∧
      (∀ w c, p.fqMatch hub tag (fun _ => true) = some (w, c) →
        (w.reissued = true ∨ w.p.opcode = 0x02 ∨ p.flag F.HJF_CONFIG_reissue_enable = false →
          Acts (.fabricRequestTimeout hub tag) s
            ((p.fqEnd hub c.q c.index 3 c.localPostOf).reportHubEdge hub 0x0705 clsInfo)) ∧
        (w.reissued = false → w.p.opcode ≠ 0x02 → p.flag F.HJF_CONFIG_reissue_enable = true →
          let k := sealCheck { w.p with reissue := true }
          Acts (.fabricRequestTimeout hub tag) s
            (((p.modFab hub fun f => { f with
              waiting := f.waiting.map fun x => if x = w then { x with p := k, reissued := true } else x }).niSend hub k).1))))

/-- The ports of a hub (R405, R417, R427 to R429, R433, R482): a route apply swaps the changed entries port by port, and a port that
drains swaps once it is empty or late; a hub detaches, after an apply in progress, its neighbour answers, an acknowledgement or a
timeout ends it; a port goes down, retrains on the lanes that work where its neighbour
comes to the same width, or comes up so; without its reference clock every port of the hub
goes down. -/
def Obligations.FabricPortsRun : Prop :=
  ∀ (s : State) (hub : Nat),
    let p := s.p
    (p.fPort hub 0 = false → ∀ i, ∀ x ∈ ([.routeApply hub, .hjfDetach hub, .detachTimeout hub, .frefLoss hub,
        .portQueueEmpty hub i, .portDrainTimeout hub i] : List Instr), Acts x s p) ∧
    (p.fPort hub 0 = true →
      (p.flag F.HJF_CONTROL_route_busy hub = true → Acts (.routeApply hub) s p) ∧
      (p.flag F.HJF_CONTROL_route_busy hub = false → ∃ (q : Panel) (ports : List Nat),
        Acts (.routeApply hub) s (nextSwap (zoneHub hub) ports q) ∧
        (∀ k, k ∈ ports ↔ k < 8 ∧ ∃ e ∈ allEntries, q.entryChanged (zoneHub hub) e = true ∧
          let a := (q.fget F.HJF_ROUTE_ports (zoneHub hub) e.1 e.2).testBit k
          let b := (q.fget F.HJF_ROUTE_shadow_ports (zoneHub hub) e.1 e.2).testBit k
          (a ≠ b ∨ (a = true ∧
            q.fget F.HJF_ROUTE_vc_up (zoneHub hub) e.1 e.2 ≠ q.fget F.HJF_ROUTE_shadow_vc_up (zoneHub hub) e.1 e.2))) ∧
        q.st = p.st ∧ q.cores = p.cores ∧
        (smSorted p.regs = true → q.flag F.HJF_CONTROL_route_busy hub = true ∧ q.flag F.HJF_CONTROL_route_error hub = false ∧
          ∀ d v, d < 3 → v < 16 → q.fget F.HJF_ROUTE_ports (zoneHub hub) d v = p.fget F.HJF_ROUTE_ports (zoneHub hub) d v)) ∧
      (p.domain hub = 1 → p.flag F.HJF_CONTROL_route_busy hub = false →
        Acts (.hjfDetach hub) s ((p.startDetach hub).checkDetach hub)) ∧
      (p.domain hub = 1 → p.flag F.HJF_CONTROL_route_busy hub = true →
        Acts (.hjfDetach hub) s (p.modFab hub fun f => { f with detachDue := true })) ∧
      (p.domain hub ≠ 1 → Acts (.hjfDetach hub) s p) ∧
      (p.domain hub ≠ 2 → Acts (.detachTimeout hub) s p) ∧
      (p.domain hub = 2 →
        let d0 := p.dropQueue hub 0
        let d1 := d0.1.dropQueue hub 1
        let d2 := d1.1.dropQueue hub 2
        let d3 := d2.1.dropQueue hub 3
        let n := d0.2 + d1.2 + d2.2 + d3.2 + (smGetD (d3.1.fab4 hub).queues 4 []).length +
          (smGetD (d3.1.fab4 hub).queues 5 []).length
        let q := (d3.1.clearQueue hub 4).clearQueue hub 5
        (n = 0 → Acts (.detachTimeout hub) s (q.endDetach hub)) ∧
        (n ≠ 0 → Acts (.detachTimeout hub) s ((q.reportHubEdge hub 0x0707 clsInfo (some n)).endDetach hub))) ∧
      Acts (.frefLoss hub) s ((((p.portLost hub 0).portLost hub 1).portLost hub 2).portLost hub 3)) ∧
    (∀ i,
      (p.isSwapping hub i = false → Acts (.portQueueEmpty hub i) s p ∧ Acts (.portDrainTimeout hub i) s p) ∧
      (p.isSwapping hub i = true →
        let d := p.dropQueue hub i
        Acts (.portQueueEmpty hub i) s ((p.fFlush hub i).portSwapped hub i) ∧
        (d.2 = 0 → Acts (.portDrainTimeout hub i) s (d.1.portSwapped hub i)) ∧
        (d.2 ≠ 0 → Acts (.portDrainTimeout hub i) s
          (((d.1.routeError hub).reportHubEdge hub 0x0709 clsInfo (some d.2)).portSwapped hub i)) ∧
        (smSorted p.regs = true → ∀ h, h = zoneHub hub ∨ h = zoneHub hub + 1 →
          (p.routeError hub).flag F.HJF_CONTROL_route_error h = true))) ∧
    (∀ i (lanes : Lanes) nb np,
      (p.fPort hub i = false → ∀ x ∈ ([.detach hub i, .detachAck hub i, .fabricPortDown hub i, .laneDegraded hub i lanes,
        .fabricPortUp hub i nb np] : List Instr), Acts x s p) ∧
      (p.fPort hub i = true →
        (p.portState hub i = 1 ∨ p.portState hub i = 2 →
          let p1 := (p.removePort hub (zoneIndex hub i)).fFlush hub i
          Acts (.detach hub i) s (p1.emit (.fabric (hub * 4 + i)
            (p1.control (BitVec.ofNat 12 (p1.fget F.HJF_PORT_STATUS_neighbour hub i)) 0x21 0 0)))) ∧
        (p.portState hub i ≠ 1 → p.portState hub i ≠ 2 → Acts (.detach hub i) s p) ∧
        (p.domain hub = 2 → Acts (.detachAck hub i) s
          ((p.modFab hub fun f => { f with detaching := f.detaching.filter (· != i) }).checkDetach hub)) ∧
        (p.domain hub ≠ 2 → Acts (.detachAck hub i) s p) ∧
        Acts (.fabricPortDown hub i) s (p.portLost hub i) ∧
        (p.portState hub i = 0 → p.portLost hub i = p ∧ Acts (.laneDegraded hub i lanes) s p) ∧
        (p.portState hub i ≠ 0 →
          let q := (p.portLost hub i).reportHubEdge hub 0x0702 clsInfo (some (hub * 4 + i))
          let raised (w : Nat) := q.portRaised hub i w (BitVec.ofNat 12 (p.fget F.HJF_PORT_STATUS_neighbour hub i))
            (BitVec.ofNat 4 (p.fget F.HJF_PORT_STATUS_neighbour_port hub i))
          (lanes.ok = 0xFF → lanes.peer = 3 → Acts (.laneDegraded hub i lanes) s (raised 3)) ∧
          (lanes.ok ≠ 0xFF → lanes.ok.toNat % 16 = 15 → lanes.peer = 1 ∨ lanes.peer = 2 →
            Acts (.laneDegraded hub i lanes) s (raised 1)) ∧
          (lanes.ok.toNat % 16 ≠ 15 → lanes.ok.toNat / 16 = 15 → lanes.peer = 1 ∨ lanes.peer = 2 →
            Acts (.laneDegraded hub i lanes) s (raised 2)) ∧
          (trainWidth lanes = 0 → Acts (.laneDegraded hub i lanes) s q)) ∧
        (let trains := p.flag F.HJF_COORD_valid = true ∧ p.domain hub = 1 ∧ (p.portState hub i = 0 ∨ p.portState hub i = 3)
         let q := if np.lanes.ok = 0xFF then p else p.reportHubEdge hub 0x0702 clsInfo (some (hub * 4 + i))
         (trains → trainWidth np.lanes ≠ 0 →
           Acts (.fabricPortUp hub i nb np) s (q.portRaised hub i (trainWidth np.lanes) nb np.port)) ∧
         (trains → trainWidth np.lanes = 0 → Acts (.fabricPortUp hub i nb np) s q) ∧
         (¬ trains → Acts (.fabricPortUp hub i nb np) s p)))) ∧
    (∀ x : Lanes, trainWidth x = 0 ↔ x.peer = 0 ∨ (x.ok = 0xFF ∧ x.peer ≠ 3) ∨ (x.ok ≠ 0xFF ∧ x.peer = 3) ∨
      (x.ok.toNat % 16 ≠ 15 ∧ x.ok.toNat / 16 ≠ 15))

/-! ### Security and management -/

/-- Signed commands, debug scopes, the entropy source, guests and optical engines (R458, R461 to R464, R468 to R470): each command
of R462, found good, has its effect on the fuse sets or the debug scopes, a new nonce is drawn and OK shows; one found bad
changes no fuse and shows why; a block comes through a port, where a host needs the lease, or over MCTP; a relock or the window's end
closes the scopes, and no JTAG port keeps an instruction that is closed; a guest's transaction passes, waits for its bucket, or is
denied; a reading in its engine's range is kept. -/
def Obligations.SecurityCommandsAct : Prop :=
  ∀ (s : State) (hub : Nat),
    let p := s.p
    let good (q : Panel) (a c : Nat) (i : Instr) : Prop :=
      let p1 := q.fput F.SEC_CMD_CONTROL_last_command c a
      let n := p1.secArg a
      let shown (x : Panel) (r : Nat) := ((x.romTest a).drawNonce a).fput F.SEC_CMD_CONTROL_result r a
      (q.secResult a = 0 →
        (c = 1 → Acts i s (shown (p1.blow a fun f => f.setSlot n (p1.secHash a, (f.slot n).2)) 0)) ∧
        (c = 2 → Acts i s (shown (p1.blow a fun f => f.setSlot n ((f.slot n).1, true)) 0)) ∧
        (c = 3 → Acts i s (shown (p1.blow a fun f => { f with floorC := n }) 0)) ∧
        (c = 4 → Acts i s (shown (p1.blow a fun f => { f with floorF := n }) 0)) ∧
        (c = 5 → Acts i s (shown (p1.openDebug a (p1.secScopes a) (p1.secWindow a)) 0))) ∧
      (q.secResult a ≠ 0 →
        let x := shown (p1.reportPanel a 0x0803 clsInfo) (q.secResult a)
        Acts i s x ∧ x.fab = q.fab)
    (∀ (src : Writer) (c : Nat) (i : Instr), (c, i) ∈ ([(1, .ownerProgram hub (.submit src)), (2, .ownerRevoke hub (.submit src)),
        (3, .flaconFloor hub (.submit src)), (4, .fwFloor hub (.submit src)), (5, .debugUnlock hub (.submit src))] :
          List (Nat × Instr)) →
      (p.secUp hub = false ∨ p.secCommand hub ≠ c ∨ p.secOwnWay hub src = false → Acts i s p) ∧
      (p.secUp hub = true → p.secCommand hub = c → p.secOwnWay hub src = true →
        (MayManage p src → smSorted p.regs = true → good p hub c i) ∧
        (∀ h, writerHost src = some h → p.holdsLease h = false →
          Acts i s (p.addHold F.PCI_PORT_STATUS_lease_denied 1 (portHub h))))) ∧
    (∀ (t : Transport) (block : List W64) (c : Nat) (i : Instr), (c, i) ∈ ([(1, .ownerProgram hub (.mctp t block)),
        (2, .ownerRevoke hub (.mctp t block)), (3, .flaconFloor hub (.mctp t block)), (4, .fwFloor hub (.mctp t block)),
        (5, .debugUnlock hub (.mctp t block))] : List (Nat × Instr)) →
      (p.secServer hub t = none → Acts i s p) ∧
      (∀ a, p.secServer hub t = some a →
        ((p.putBlock a block).secCommand a ≠ c → Acts i s p) ∧
        ((p.putBlock a block).secCommand a = c → smSorted p.regs = true → good (p.putBlock a block) a c i))) ∧
    (p.flag F.SEC_CMD_CONTROL_busy hub = false →
      (p.secClosed hub = true → p.secResult hub = 6) ∧
      (p.secClosed hub = false → p.secLayout hub = true → p.secSigned hub = false → p.secResult hub = 1)) ∧
    (∀ i ∈ ([.debugRelock hub, .debugWindowExpire hub] : List Instr),
      (p.secUp hub = true → Acts i s (p.closeDebug hub) ∧
        (smSorted p.regs = true → (p.closeDebug hub).fget F.SEC_STATUS_debug_open hub = 0 ∧
          (p.closeDebug hub).fget F.SEC_DEBUG_remaining_ms hub = 0) ∧
        (∀ e ∈ (p.closeDebug hub).mgmt, (p.closeDebug hub).jtagOpen = false →
          e.2.jtag = .bypass ∨ e.2.jtag = .idcode ∨ e.2.jtag = .samplePreload)) ∧
      (p.secUp hub = false → Acts i s p)) ∧
    (p.secUp hub = true → Acts (.entropyFail hub) s
      (((p.modSec hub fun x => { x with entropyFailed := true }).fput F.SEC_STATUS_entropy_ok 0 hub).reportHubEdge
        hub 0x0805 clsUF)) ∧
    (p.secUp hub = false → Acts (.entropyFail hub) s p) ∧
    (∀ site k,
      let taken := site < 4 ∧ p.hubUp (guestHub site) = true ∧
        p.fget F.SEC_GUEST_STATUS_state (guestHub site) (site % 2) = gsAdmitted
      (¬ taken → Acts (.guestTransaction site k) s p) ∧
      (taken → p.guestPasses site k = true →
        let g := p.guestSite site
        let fits := g.into = [] ∧ k.payload.length ≤ g.bucket
        (fits → Acts (.guestTransaction site k) s
          ((p.setGuest site { g with bucket := g.bucket - k.payload.length }).guestForward site k)) ∧
        (¬ fits → Acts (.guestTransaction site k) s (p.setGuest site { g with into := g.into ++ [k] }))) ∧
      (taken → p.guestPasses site k = false → Acts (.guestTransaction site k) s (p.guestDenied site k))) ∧
    (∀ k kind (v lo hi : BitVec 16),
      let taken := k < 8 ∧ kind < 4 ∧ p.hubUp (k / 2) = true
      (¬ taken → Acts (.oeReading k kind v lo hi) s p) ∧
      (taken → lo.toNat ≤ v.toNat → v.toNat ≤ hi.toNat →
        Acts (.oeReading k kind v lo hi) s { p with oe := smSet p.oe (k * 4 + kind) v }) ∧
      (taken → v.toNat < lo.toNat ∨ hi.toNat < v.toNat → Acts (.oeReading k kind v lo hi) s
        (p.sendReport (k / 2) 0x0809 clsInfo lvEdge 7 (BitVec.ofNat 8 k) 0 none none)))

/-- SPDM (R459, R460, R475): where a hub answers, each request is answered over its transport, on the I3C bus behind an in-band
interrupt; a challenge and measurements are signed
by the alias key, and are not answered once the keys are erased; where none does, no request is answered. DOE discovery is answered
by any hub with a link. -/
def Obligations.SpdmRequestsAreAnswered : Prop :=
  ∀ (s : State) (hub : Nat) (t : Option Transport),
    let p := s.p
    (∀ a, p.spdmHub hub t = some a →
      let say (x : Answer) : Panel := p.reply hub t x
      Acts (.getVersion hub t) s (say (.spdmVersion 1 2)) ∧
      Acts (.getCapabilities hub t) s (say (.spdmCapabilities [.certificates, .challenge, .signedMeasurements])) ∧
      Acts (.negotiateAlgorithms hub t) s (say (.spdmAlgorithms [.ecdsaP384, .sha384])) ∧
      Acts (.getDigests hub t) s (say (.spdmDigests (Config.sha384 (p.certChain a).flatten))) ∧
      Acts (.getCertificate hub t 0) s (say (.spdmCertificate (p.certChain a))) ∧
      (∀ slot, slot ≠ 0 → Acts (.getCertificate hub t slot) s (say .spdmError)) ∧
      (p.keysErased a = false → ∀ nonce : BitVec 256,
        Acts (.challenge hub t 0 nonce) s (say (.spdmChallenge nonce (p.aliasSign a (bytesBE 32 nonce.toNat)))) ∧
        (∀ slot, slot ≠ 0 → Acts (.challenge hub t slot nonce) s (say .spdmError)) ∧
        (∀ index bs,
          bs = (if index = 0 then [(0, [BitVec.ofNat 8 (p.measurements a).length])]
            else if index = 0xFF then p.measurements a else (p.measurements a).filter fun m => m.1 == index) →
          (bs = [] → Acts (.getMeasurements hub t index nonce) s (say .spdmError)) ∧
          (bs ≠ [] → Acts (.getMeasurements hub t index nonce) s
            (say (.spdmMeasurements bs (p.aliasSign a (bytesBE 32 nonce.toNat ++ bs.flatMap (·.2)))))))) ∧
      (p.keysErased a = true → ∀ slot index nonce,
        Acts (.challenge hub t slot nonce) s p ∧ Acts (.getMeasurements hub t index nonce) s p)) ∧
    (∀ x : Answer, (t = some .i3c → p.reply hub t x = (p.emit (.inBand hub)).emit (.answer hub x)) ∧
      (t ≠ some .i3c → p.reply hub t x = p.emit (.answer hub x))) ∧
    (p.spdmHub hub t = none → ∀ slot index nonce, ∀ i ∈ ([.getVersion hub t, .getCapabilities hub t,
      .negotiateAlgorithms hub t, .getDigests hub t, .getCertificate hub t slot, .challenge hub t slot nonce,
      .getMeasurements hub t index nonce] : List Instr), Acts i s p) ∧
    (p.secUp hub = false ∨ p.flag F.PCI_PORT_STATUS_link_up hub = false → ∀ index, Acts (.doeDiscovery hub index) s p) ∧
    (p.secUp hub = true → p.flag F.PCI_PORT_STATUS_link_up hub = true →
      Acts (.doeDiscovery hub 0) s (p.emit (.answer hub (.doeDiscovery [0]))) ∧
      (p.bring.running.contains hub = true →
        Acts (.doeDiscovery hub 1) s (p.emit (.answer hub (.doeDiscovery [1])))) ∧
      (p.bring.running.contains hub = false →
        Acts (.doeDiscovery hub 1) s (p.emit (.answer hub (.doeDiscovery [])))) ∧
      (∀ index : BitVec 8, 2 ≤ index.toNat → Acts (.doeDiscovery hub index) s (p.emit (.answer hub (.doeDiscovery [])))))

/-- Management (R364, R456, R464, R465, R475 to R479): MCTP control is answered on a transport that works; a dynamic address is taken
and given back; a firmware update is asked for, transferred, verified and activated, or refused; a hub with no path to the primary
PMC is not ready; sensors are refreshed; a receiver of events is set; a JTAG instruction that is closed acts as BYPASS, and one that PMC_DEBUG or
SECURE_SRAM opens halts the PMC, lets it run, or reads out what the spec does not give (a free value, log 56). -/
def Obligations.ManagementAnswers : Prop :=
  ∀ (s : State) (hub : Nat),
    let p := s.p
    (∀ t,
      (p.transportUp hub t = false → ∀ eid, ∀ i ∈ ([.setEndpointId hub t eid, .getEndpointId hub t,
        .getMctpVersionSupport hub t, .getMessageTypeSupport hub t, .getVendorDefinedMessageSupport hub t] : List Instr),
        Acts i s p) ∧
      (p.transportUp hub t = true →
        (∀ eid : BitVec 8, smSorted p.mgmt = true → ∃ q : Panel, Acts (.setEndpointId hub t eid) s q ∧
          (q.mgmtOf hub).i3cAddr = (p.mgmtOf hub).i3cAddr ∧ (eid ≠ 0 → eid ≠ 0xFF → q.eid hub t = eid) ∧
          (eid = 0 ∨ eid = 0xFF → q.eid hub t = p.eid hub t) ∧
          q.out = .answer hub (.mctpEid (q.eid hub t)) :: (if t = .i3c then .inBand hub :: p.out else p.out)) ∧
        (let say (x : Answer) : Panel := p.reply hub (some t) x
         Acts (.getEndpointId hub t) s (say (.mctpEid (p.eid hub t))) ∧
         Acts (.getMctpVersionSupport hub t) s (say (.mctpVersion 0x13)) ∧
         Acts (.getMessageTypeSupport hub t) s (say (.mctpTypes [0x00, 0x01, 0x05, 0x7F])) ∧
         Acts (.getVendorDefinedMessageSupport hub t) s (say .mctpVendor)))) ∧
    (p.secUp hub = true →
      (∀ addr : BitVec 7,
        ((p.mgmtOf hub).i3cAddr = none →
          Acts (.entdaa hub addr) s (p.modMgmt hub fun m => { m with i3cAddr := some addr }) ∧
          Acts (.setdasa hub 0x3A addr) s (p.modMgmt hub fun m => { m with i3cAddr := some addr })) ∧
        ((p.mgmtOf hub).i3cAddr ≠ none → Acts (.entdaa hub addr) s p ∧ Acts (.setdasa hub 0x3A addr) s p) ∧
        (∀ static, static ≠ 0x3A → Acts (.setdasa hub static addr) s p)) ∧
      Acts (.rstdaa hub) s (p.modMgmt hub fun m => { m with i3cAddr := none })) ∧
    (∀ (t : Transport) (eid : BitVec 8) c off (data : List Byte) ok,
      let e : Endpoint := ⟨hub, t⟩
      let inRom := p.bring.inRom.contains hub = true ∧ p.stage = stageSafe
      let joined := p.hasPrimary = true ∧ p.bring.running.contains hub = true
      let o := if inRom then hub else p.primaryHub
      let say (p : Panel) (x : Answer) : Panel := p.reply hub (some t) x
      let updates : List Instr := [.requestUpdate e c, .pldmType5Transfer e off data, .verifyComplete e ok, .activateFirmware hub t]
      (p.transportUp hub t = false → ∀ i ∈ .setEventReceiver e eid :: updates, Acts i s p) ∧
      (p.transportUp hub t = true → ¬ joined → Acts (.setEventReceiver e eid) s (say p .notReady) ∧
        (¬ inRom → ∀ i ∈ updates, Acts i s (say p .notReady))) ∧
      (p.transportUp hub t = true → joined → Acts (.setEventReceiver e eid) s
        (say (p.modMgmt hub fun m => { m with receiver := some eid }) .pldmOk)) ∧
      (p.transportUp hub t = true → inRom ∨ joined →
        (p.nvmClosed = true → Acts (.requestUpdate e c) s (say p .pldmRetry)) ∧
        (p.nvmClosed = false →
          (p.ownComponent o c = false → Acts (.requestUpdate e c) s (say p .pldmFail)) ∧
          (p.ownComponent o c = true → p.nvmProtected c = true → Acts (.requestUpdate e c) s (say p .pldmNotUpdateable)) ∧
          (p.ownComponent o c = true → p.nvmProtected c = false → Acts (.requestUpdate e c) s
            (say (p.setUpdate o (some ⟨c, [], false⟩)) .pldmOk))) ∧
        ((p.mgmtOf o).update = none → ∀ i ∈ updates.drop 1, Acts i s (say p .pldmFail)) ∧
        (∀ u : Update, (p.mgmtOf o).update = some u →
          let fits := data.length ≤ 4096 ∧ off + data.length ≤ 120 * 2 ^ 20
          (p.nvmClosed = true → Acts (.pldmType5Transfer e off data) s (say p .pldmRetry)) ∧
          (p.nvmClosed = false → p.nvmProtected u.component = true →
            Acts (.pldmType5Transfer e off data) s (say p .pldmNotUpdateable)) ∧
          (p.nvmClosed = false → p.nvmProtected u.component = false → ¬ fits →
            Acts (.pldmType5Transfer e off data) s (say p .pldmFail)) ∧
          (p.nvmClosed = false → p.nvmProtected u.component = false → fits →
            ∃ d, Acts (.pldmType5Transfer e off data) s
              (say ((p.writeImage u.component off data).setUpdate o (some { u with data := d, verified := false })) .pldmOk) ∧
              (smSorted u.data = true → ∀ a, smGet d a = if off ≤ a ∧ a < off + data.length then data[a - off]? else smGet u.data a)) ∧
          (ok = true → Acts (.verifyComplete e ok) s (say (p.setUpdate o (some { u with verified := true })) .pldmOk)) ∧
          (ok = false → Acts (.verifyComplete e ok) s (say p .pldmFail)) ∧
          (u.verified = false → Acts (.activateFirmware hub t) s (say p .pldmFail)) ∧
          (u.verified = true →
            let q := p.setUpdate o none
            let restarts := q.serving = servDown ∨ q.serving = servDried ∨ q.stage = stageSafe
            (restarts → Acts (.activateFirmware hub t) s (say ((q.restartHubs).beginBringup 1) .pldmOk)) ∧
            (¬ restarts → Acts (.activateFirmware hub t) s (say q .pldmPending)))))) ∧
    (∀ component off (data : List Byte),
      let h := if component = 1 then 0 else 3
      let q := p.writeImage component off data
      smSorted (p.nvmOf h).image = true → ∀ a, smGet (q.nvmOf h).image a =
        if off ≤ a ∧ a < off + data.length then data[a - off]? else smGet (p.nvmOf h).image a) ∧
    (p.hasPrimary = false → Acts .pldmSensorRefresh s p) ∧
    (p.hasPrimary = true → ∃ q : Panel, Acts .pldmSensorRefresh s q ∧ q.cores = p.cores ∧ q.st = p.st ∧ q.regs = p.regs) ∧
    (∀ i : JtagInstr,
      let a := p.jtagActs i
      let p1 := (p.modMgmt hub fun m => { m with jtag := a }).emit (.jtag hub a)
      (4 ≤ hub ∨ p.hubUp hub = false → Acts (.jtagInstruction hub i) s p) ∧
      (hub < 4 → p.hubUp hub = true →
        (a = .idcode → Acts (.jtagInstruction hub i) s (p1.emit (.idcode hub (p1.idcode hub)))) ∧
        (a = .pmcHalt → Acts (.jtagInstruction hub i) s
          { p1 with pmc := { p1.pmc with halted := insertAsc p1.pmc.halted hub } }) ∧
        (a = .pmcResume → Acts (.jtagInstruction hub i) s
          { p1 with pmc := { p1.pmc with halted := p1.pmc.halted.filter (· != hub) } }) ∧
        (a = .pmcRegs ∨ a = .sramRead → let d := p1.drawBits 64
          Acts (.jtagInstruction hub i) s (d.2.emit (.jtagData hub d.1))) ∧
        (a ≠ .idcode → a ≠ .pmcHalt → a ≠ .pmcResume → a ≠ .pmcRegs → a ≠ .sramRead → Acts (.jtagInstruction hub i) s p1)) ∧
      (p.jtagOpen = false → i ≠ .samplePreload → i ≠ .idcode → a = .bypass) ∧
      (i = .bypass ∨ i = .samplePreload ∨ i = .idcode → a = i) ∧
      (p.jtagOpen = true → i = .extest ∨ (∃ n, i = .other n) → a = i) ∧
      (i = .pmcHalt ∨ i = .pmcStep ∨ i = .pmcResume ∨ i = .pmcRegs →
        a = if p.jtagOpen = true ∧ p.scopeOpen 1 = true then i else .bypass) ∧
      (i = .sramRead → a = if p.jtagOpen = true ∧ p.scopeOpen 2 = true then i else .bypass))

/-! ### Frames and the invariant -/

/-- What the scalar and control instructions leave alone, whatever they end in (R37, R49, R52 to R54, R71, R76): memory, the
network, every other core, the vector registers, groups and engine queues; every scalar and descriptor register but the
destinations; and every register of the map but the core's status and its three trap registers, which a trap writes. The vector
instructions leave the same but their queue (R71, R142). -/
def Obligations.RegisterInstructionsLeaveTheRest : Prop :=
  ∀ (s t : State) (c : Nat), s.p.wf → c < 1024 → smSorted (s.p.core c).q.sregs = true →
    smSorted (s.p.core c).q.dregs = true →
    let k := s.p.core c
    let k' := t.p.core c
    let kept (dst : List (BitVec 5)) (ddst : List (BitVec 4)) : Prop :=
      t.pending = s.pending ∧ t.p.st = s.p.st ∧ t.p.net = s.p.net ∧ (∀ c', c' ≠ c → t.p.core c' = s.p.core c') ∧
      k'.vregs = k.vregs ∧ k'.vpoison = k.vpoison ∧ k'.groups = k.groups ∧ k'.mxQ = k.mxQ ∧ k'.running = k.running ∧
      k'.dmaQ = k.dmaQ ∧ k'.posts = k.posts ∧ (∀ r, r ∉ dst → k'.sreg r = k.sreg r) ∧
      (∀ d, d ∉ ddst → k'.dreg d = k.dreg d) ∧
      (∀ r u i j, u < 2048 → i < 8192 → j < 128 →
        ¬ (u = c ∧ r ∈ [Reg.CORE_STATUS, .CORE_TRAP_PC, .CORE_TRAP_CAUSE, .CORE_TRAP_INFO]) →
        t.p.get r u i j = s.p.get r u i j)
    (∀ (f : RegForm) (i : Instr), i ∈ ([.add c f, .sub c f, .and_ c f, .or_ c f, .xor c f, .sll c f, .srl c f, .sra c f,
      .mul c f, .mulh c f, .slt c f, .sltu c f, .min_ c f, .max_ c f] : List Instr) →
      exec i s = .next t → kept [f.rd] [] ∧ k'.vecQ = k.vecQ) ∧
    (∀ (f : ImmForm) (i : Instr), i ∈ ([.addi c f, .andi c f, .ori c f, .xori c f, .slli c f, .srli c f, .srai c f, .li c f,
      .lih c f] : List Instr) → exec i s = .next t → kept [f.rd] [] ∧ k'.vecQ = k.vecQ) ∧
    (∀ f : DFldForm, (exec (.dset c f) s = .next t → kept [] [f.dn] ∧ k'.vecQ = k.vecQ) ∧
      (exec (.dget c f) s = .next t → kept [f.r] [] ∧ k'.vecQ = k.vecQ)) ∧
    (∀ (f : BranchForm) (i : Instr), i ∈ ([.beq c f, .bne c f, .blt c f, .bge c f, .bltu c f, .bgeu c f] : List Instr) →
      exec i s = .next t → kept [] [] ∧ k'.vecQ = k.vecQ) ∧
    (∀ f : JumpForm, (exec (.jmp c f) s = .next t → kept [] [] ∧ k'.vecQ = k.vecQ) ∧
      (exec (.call c f) s = .next t → kept [31] [] ∧ k'.vecQ = k.vecQ)) ∧
    (∀ f : RJumpForm, (exec (.jr c f) s = .next t → kept [] [] ∧ k'.vecQ = k.vecQ) ∧
      (exec (.callr c f) s = .next t → kept [31] [] ∧ k'.vecQ = k.vecQ)) ∧
    (∀ n, exec (.ret c n) s = .next t → kept [] [] ∧ k'.vecQ = k.vecQ) ∧
    (∀ f : LoopForm, exec (.loop c f) s = .next t → kept [] [] ∧ k'.vecQ = k.vecQ) ∧
    (∀ (f : VecForm) (i : Instr), i ∈ ([.vadd c f, .vsub c f, .vmul c f, .vfma c f, .vmin c f, .vmax c f, .vcmp c f,
      .vsel c f, .vlogic c f, .vcvt c f, .vsf c f, .vred c f, .vscan c f, .vsort c f, .vbcast c f, .vextr c f, .vld c f,
      .vst c f, .rngGen c f, .vmxq c f] : List Instr) → exec i s = .next t → kept [] [])

/-- What the loads and stores of the sequencer leave alone (R50, R51, R163, R165): a load changes no byte of memory and no
scalar or descriptor register but its destination; a store changes no byte outside the 64 B block it stores to and, where that
block's contents are defined and hold no bad bit, none but the bytes stored; neither changes another core, a vector register, a group, or a register of the map but
the core's status, its trap registers and its scratchpad counters. -/
def Obligations.MemoryInstructionsLeaveTheRest : Prop :=
  ∀ (s t : State) (c : Nat), s.p.wf → c < 1024 → smSorted (s.p.core c).q.sregs = true →
    smSorted (s.p.core c).q.dregs = true →
    let k := s.p.core c
    let k' := t.p.core c
    let kept (dst : List (BitVec 5)) (ddst : List (BitVec 4)) : Prop :=
      t.pending = s.pending ∧ t.p.net = s.p.net ∧ (∀ c', c' ≠ c → t.p.core c' = s.p.core c') ∧
      k'.vregs = k.vregs ∧ k'.groups = k.groups ∧ k'.mxQ = k.mxQ ∧ k'.dmaQ = k.dmaQ ∧ k'.vecQ = k.vecQ ∧
      k'.posts = k.posts ∧ (∀ r, r ∉ dst → k'.sreg r = k.sreg r) ∧ (∀ d, d ∉ ddst → k'.dreg d = k.dreg d) ∧
      (∀ r u i j, u < 2048 → i < 8192 → j < 128 →
        ¬ (u = c ∧ r ∈ [Reg.CORE_STATUS, .CORE_TRAP_PC, .CORE_TRAP_CAUSE, .CORE_TRAP_INFO, .CORE_SP_ERR,
          .CORE_SP_STATUS]) → t.p.get r u i j = s.p.get r u i j)
    let outside (o n : Nat) : Prop :=
      (∀ a, a / 64 ≠ scratchPa c o / 64 → smGetD t.p.st.mem a 0 = smGetD s.p.st.mem a 0) ∧
      (s.p.misCoded (.scratch c) (scratchPa c o) = false → smGetD s.p.st.latent (scratchPa c o / 64) [] = [] →
        (∀ w, w / 8 = scratchPa c o / 64 → s.p.lostWord (.scratch c) w = false) →
        ∀ a, a < scratchPa c o ∨ scratchPa c o + n ≤ a → smGetD t.p.st.mem a 0 = smGetD s.p.st.mem a 0)
    (∀ (f : ImmForm) (n : Nat) (ld st : Instr),
      (n, ld, st) ∈ ([(8, .ld c f, .st c f), (4, .ldw c f, .stw c f)] : List (Nat × Instr × Instr)) →
      (exec ld s = .next t → kept [f.rd] [] ∧ t.p.st.mem = s.p.st.mem) ∧
      (exec st s = .next t → kept [] [] ∧ outside (k.sreg f.ra + f.imm.signExtend 64).toNat n)) ∧
    (∀ f : DMemForm,
      (exec (.dld c f) s = .next t → kept [] [f.dn] ∧ t.p.st.mem = s.p.st.mem) ∧
      (exec (.dst c f) s = .next t → kept [] [] ∧ outside (k.sreg f.ra + f.imm.signExtend 64).toNat 32))

/-- The sparse state stays canonical: from every state whose registers, cores and memory are in canonical form, a step gives
such a state. -/
def Obligations.StepsKeepTheCanonicalForm : Prop :=
  ∀ s t : State, s.p.wf → step s = .next t → t.p.wf

/-- What reset leaves: no command waits, the sparse state is canonical, every register reads its reset value (R13), no core has
state, memory lists nothing, nothing is powered and no report is queued. -/
def Obligations.ResetIsAsGiven : Prop :=
  State.reset.pending = [] ∧ State.reset.p.wf ∧ (∀ r u i j, State.reset.p.get r u i j = r.info.reset) ∧
    (∀ c, State.reset.p.core c = Core.zero) ∧ State.reset.p.st.mem = [] ∧ State.reset.p.pwr.in44 = false ∧
    (∀ h, State.reset.p.hubUp h = false) ∧ State.reset.p.reports = []
end

