-- ==== Sys2Proof/Laws/Maps.lean ====
section
/-! SUPPORT. The sorted maps: what a write leaves at its key and at every other key, and that every operation keeps the keys
rising and lists no default. -/

namespace Sys2Proof.Machine

variable {V : Type}

/-! ### Keys that rise -/

/-- Every key of the map is above i. -/
def smAbove (i : Nat) (m : SMap V) : Prop := ∀ e ∈ m, i < e.1

theorem smSorted_cons (i : Nat) (x : V) (m : SMap V) :
    smSorted ((i, x) :: m) = true ↔ smAbove i m ∧ smSorted m = true := by
  induction m generalizing i x with
  | nil => simp [smSorted, smAbove]
  | cons e m ih =>
    obtain ⟨j, y⟩ := e
    simp only [smSorted, Bool.and_eq_true, decide_eq_true_eq]
    constructor
    · rintro ⟨h, hs⟩
      refine ⟨?_, hs⟩
      intro e he
      rcases List.mem_cons.1 he with rfl | he
      · exact h
      · exact Nat.lt_trans h (((ih j y).1 hs).1 e he)
    · rintro ⟨h, hs⟩
      exact ⟨h (j, y) (by simp), hs⟩

@[simp] theorem smSorted_nil : smSorted ([] : SMap V) = true := rfl

theorem smAbove_mono {i j : Nat} {m : SMap V} (h : i ≤ j) (ha : smAbove j m) : smAbove i m :=
  fun e he => Nat.lt_of_le_of_lt h (ha e he)

theorem smGet_above {i j : Nat} {m : SMap V} (h : smAbove i m) (hj : j ≤ i) : smGet m j = none := by
  cases m with
  | nil => rfl
  | cons e m =>
    obtain ⟨k, v⟩ := e
    have := h (k, v) (by simp)
    have hk : ¬ k = j := by simp at this; omega
    have hl : j < k := by simp at this; omega
    simp [smGet, hk, hl]

/-! ### Reading what was written -/

@[simp] theorem smGet_smSet_same (m : SMap V) (i : Nat) (x : V) : smGet (smSet m i x) i = some x := by
  induction m with
  | nil => simp [smSet, smGet]
  | cons e m ih =>
    obtain ⟨k, v⟩ := e
    simp only [smSet]
    split
    · simp [smGet]
    · split
      · simp [smGet]
      · rename_i h1 h2
        simp [smGet, h1, h2, ih]

theorem smGet_smSet_other (m : SMap V) {i j : Nat} (x : V) (h : j ≠ i) : smGet (smSet m i x) j = smGet m j := by
  induction m with
  | nil => simp [smSet, smGet]; intro hh; exact absurd hh.symm h
  | cons e m ih =>
    obtain ⟨k, v⟩ := e
    simp only [smSet]
    split
    · rename_i h1
      subst h1
      simp [smGet, Ne.symm h]
    · split
      · rename_i h1 h2
        simp only [smGet, Ne.symm h, if_false]
        split
        · rename_i h3
          simp [show ¬ k = j by omega, show j < k by omega]
        · rfl
      · simp only [smGet, ih]

theorem smGet_smDel_same {m : SMap V} (hs : smSorted m = true) (i : Nat) : smGet (smDel m i) i = none := by
  induction m with
  | nil => rfl
  | cons e m ih =>
    obtain ⟨k, v⟩ := e
    have hs' := (smSorted_cons k v m).1 hs
    simp only [smDel]
    split
    · rename_i h; subst h; exact smGet_above hs'.1 (Nat.le_refl _)
    · split
      · rename_i h1 h2; simp [smGet, h1, h2]
      · rename_i h1 h2; simp [smGet, h1, h2, ih hs'.2]

theorem smGet_smDel_other {m : SMap V} (hs : smSorted m = true) {i j : Nat} (h : j ≠ i) :
    smGet (smDel m i) j = smGet m j := by
  induction m with
  | nil => rfl
  | cons e m ih =>
    obtain ⟨k, v⟩ := e
    have hs' := (smSorted_cons k v m).1 hs
    simp only [smDel]
    split
    · rename_i h1
      subst h1
      by_cases hj : j < k
      · simp [smGet, Ne.symm h, hj, smGet_above hs'.1 (Nat.le_of_lt hj)]
      · simp [smGet, Ne.symm h, hj]
    · split
      · rfl
      · simp only [smGet, ih hs'.2]

theorem smGetD_smPut_same [DecidableEq V] {m : SMap V} (hs : smSorted m = true) (d : V) (i : Nat) (x : V) :
    smGetD (smPut m d i x) i d = x := by
  unfold smPut smGetD
  split
  · rename_i h; simp [smGet_smDel_same hs, h]
  · simp

theorem smGetD_smPut_other [DecidableEq V] {m : SMap V} (hs : smSorted m = true) (d d' : V) {i j : Nat} (x : V)
    (h : j ≠ i) : smGetD (smPut m d i x) j d' = smGetD m j d' := by
  unfold smPut smGetD
  split
  · rw [smGet_smDel_other hs h]
  · rw [smGet_smSet_other m x h]

/-! ### Canonical form is kept -/

theorem smAbove_smSet {a i : Nat} {x : V} {m : SMap V} (h : smAbove a m) (hi : a < i) : smAbove a (smSet m i x) := by
  induction m with
  | nil => simpa [smSet, smAbove] using hi
  | cons e m ih =>
    obtain ⟨k, v⟩ := e
    have hk : a < k := h (k, v) (by simp)
    have hm : smAbove a m := fun e he => h e (List.mem_cons_of_mem _ he)
    simp only [smSet]
    split
    · intro e he
      rcases List.mem_cons.1 he with rfl | he
      · exact hi
      · exact hm e he
    · split
      · intro e he
        rcases List.mem_cons.1 he with rfl | he
        · exact hi
        · exact h e he
      · intro e he
        rcases List.mem_cons.1 he with rfl | he
        · exact hk
        · exact ih hm e he

theorem smSorted_smSet {m : SMap V} (hs : smSorted m = true) (i : Nat) (x : V) : smSorted (smSet m i x) = true := by
  induction m with
  | nil => rfl
  | cons e m ih =>
    obtain ⟨k, v⟩ := e
    have hs' := (smSorted_cons k v m).1 hs
    simp only [smSet]
    split
    · rename_i h; subst h; exact (smSorted_cons _ _ _).2 hs'
    · split
      · rename_i h1 h2
        refine (smSorted_cons _ _ _).2 ⟨?_, hs⟩
        intro e he
        rcases List.mem_cons.1 he with rfl | he
        · exact h2
        · exact Nat.lt_trans h2 (hs'.1 e he)
      · rename_i h1 h2
        exact (smSorted_cons _ _ _).2 ⟨smAbove_smSet hs'.1 (by omega), ih hs'.2⟩

theorem mem_smDel {m : SMap V} {i : Nat} {e : Nat × V} (h : e ∈ smDel m i) : e ∈ m := by
  induction m with
  | nil => exact h
  | cons e' m ih =>
    obtain ⟨k, v⟩ := e'
    simp only [smDel] at h
    split at h
    · exact List.mem_cons_of_mem _ h
    · split at h
      · exact h
      · rcases List.mem_cons.1 h with rfl | h
        · simp
        · exact List.mem_cons_of_mem _ (ih h)

theorem smSorted_smDel {m : SMap V} (hs : smSorted m = true) (i : Nat) : smSorted (smDel m i) = true := by
  induction m with
  | nil => rfl
  | cons e m ih =>
    obtain ⟨k, v⟩ := e
    have hs' := (smSorted_cons k v m).1 hs
    simp only [smDel]
    split
    · exact hs'.2
    · split
      · exact hs
      · exact (smSorted_cons _ _ _).2 ⟨fun e he => hs'.1 e (mem_smDel he), ih hs'.2⟩

theorem smSorted_smPut [DecidableEq V] {m : SMap V} (hs : smSorted m = true) (d : V) (i : Nat) (x : V) :
    smSorted (smPut m d i x) = true := by
  unfold smPut
  split
  · exact smSorted_smDel hs i
  · exact smSorted_smSet hs i x

theorem smSorted_filter {m : SMap V} (hs : smSorted m = true) (f : Nat × V → Bool) : smSorted (m.filter f) = true := by
  induction m with
  | nil => rfl
  | cons e m ih =>
    obtain ⟨k, v⟩ := e
    have hs' := (smSorted_cons k v m).1 hs
    simp only [List.filter_cons]
    split
    · exact (smSorted_cons _ _ _).2 ⟨fun e he => hs'.1 e (List.mem_filter.1 he).1, ih hs'.2⟩
    · exact ih hs'.2

theorem smSorted_smFilter {m : SMap V} (hs : smSorted m = true) (f : Nat → Bool) : smSorted (smFilter m f) = true :=
  smSorted_filter hs _

theorem mem_smSet {m : SMap V} {i : Nat} {x : V} {e : Nat × V} (h : e ∈ smSet m i x) : e = (i, x) ∨ e ∈ m := by
  induction m with
  | nil => simpa [smSet] using h
  | cons e' m ih =>
    obtain ⟨k, v⟩ := e'
    simp only [smSet] at h
    split at h
    · rcases List.mem_cons.1 h with h | h
      · exact .inl h
      · exact .inr (List.mem_cons_of_mem _ h)
    · split at h
      · rcases List.mem_cons.1 h with h | h
        · exact .inl h
        · exact .inr h
      · rcases List.mem_cons.1 h with rfl | h
        · exact .inr (by simp)
        · rcases ih h with h | h
          · exact .inl h
          · exact .inr (List.mem_cons_of_mem _ h)

theorem smWf_smPut [DecidableEq V] {m : SMap V} {d : V} (h : smWf m d = true) (i : Nat) (x : V) :
    smWf (smPut m d i x) d = true := by
  unfold smWf at h ⊢
  rw [Bool.and_eq_true] at h ⊢
  refine ⟨smSorted_smPut h.1 d i x, ?_⟩
  rw [List.all_eq_true] at h ⊢
  intro e he
  unfold smPut at he
  split at he
  · exact h.2 e (mem_smDel he)
  · rename_i hx
    rcases mem_smSet he with rfl | he
    · simpa using hx
    · exact h.2 e he

theorem smWf_nil [DecidableEq V] (d : V) : smWf ([] : SMap V) d = true := rfl

theorem smWf_sorted [DecidableEq V] {m : SMap V} {d : V} (h : smWf m d = true) : smSorted m = true := by
  unfold smWf at h
  exact (Bool.and_eq_true _ _ ▸ h).1

end Sys2Proof.Machine
end

