-- ==== Sys2Proof/Laws/State.lean ====
section
/-! SUPPORT. What an update of the state leaves alone: one lemma for each field and update, and the reading back of cores and
registers. -/

namespace Sys2Proof.Machine

/-! ### setCore -/

@[simp] theorem Panel.setCore_regs (p : Panel) (c : Nat) (k : Core) : (p.setCore c k).regs = p.regs := rfl
@[simp] theorem Panel.setCore_st (p : Panel) (c : Nat) (k : Core) : (p.setCore c k).st = p.st := rfl
@[simp] theorem Panel.setCore_net (p : Panel) (c : Nat) (k : Core) : (p.setCore c k).net = p.net := rfl
@[simp] theorem Panel.setCore_accords (p : Panel) (c : Nat) (k : Core) : (p.setCore c k).accords = p.accords := rfl
@[simp] theorem Panel.setCore_bars (p : Panel) (c : Nat) (k : Core) : (p.setCore c k).bars = p.bars := rfl
@[simp] theorem Panel.setCore_eng0 (p : Panel) (c : Nat) (k : Core) : (p.setCore c k).eng0 = p.eng0 := rfl
@[simp] theorem Panel.setCore_eng3 (p : Panel) (c : Nat) (k : Core) : (p.setCore c k).eng3 = p.eng3 := rfl
@[simp] theorem Panel.setCore_ing (p : Panel) (c : Nat) (k : Core) : (p.setCore c k).ing = p.ing := rfl
@[simp] theorem Panel.setCore_image (p : Panel) (c : Nat) (k : Core) : (p.setCore c k).image = p.image := rfl
@[simp] theorem Panel.setCore_portA (p : Panel) (c : Nat) (k : Core) : (p.setCore c k).portA = p.portA := rfl
@[simp] theorem Panel.setCore_portB (p : Panel) (c : Nat) (k : Core) : (p.setCore c k).portB = p.portB := rfl
@[simp] theorem Panel.setCore_mir (p : Panel) (c : Nat) (k : Core) : (p.setCore c k).mir = p.mir := rfl
@[simp] theorem Panel.setCore_pwr (p : Panel) (c : Nat) (k : Core) : (p.setCore c k).pwr = p.pwr := rfl
@[simp] theorem Panel.setCore_bring (p : Panel) (c : Nat) (k : Core) : (p.setCore c k).bring = p.bring := rfl
@[simp] theorem Panel.setCore_fab (p : Panel) (c : Nat) (k : Core) : (p.setCore c k).fab = p.fab := rfl
@[simp] theorem Panel.setCore_nvmA (p : Panel) (c : Nat) (k : Core) : (p.setCore c k).nvmA = p.nvmA := rfl
@[simp] theorem Panel.setCore_nvmB (p : Panel) (c : Nat) (k : Core) : (p.setCore c k).nvmB = p.nvmB := rfl
@[simp] theorem Panel.setCore_errs (p : Panel) (c : Nat) (k : Core) : (p.setCore c k).errs = p.errs := rfl
@[simp] theorem Panel.setCore_pmc (p : Panel) (c : Nat) (k : Core) : (p.setCore c k).pmc = p.pmc := rfl
@[simp] theorem Panel.setCore_fabric (p : Panel) (c : Nat) (k : Core) : (p.setCore c k).fabric = p.fabric := rfl
@[simp] theorem Panel.setCore_sec (p : Panel) (c : Nat) (k : Core) : (p.setCore c k).sec = p.sec := rfl
@[simp] theorem Panel.setCore_guests (p : Panel) (c : Nat) (k : Core) : (p.setCore c k).guests = p.guests := rfl
@[simp] theorem Panel.setCore_oe (p : Panel) (c : Nat) (k : Core) : (p.setCore c k).oe = p.oe := rfl
@[simp] theorem Panel.setCore_mgmt (p : Panel) (c : Nat) (k : Core) : (p.setCore c k).mgmt = p.mgmt := rfl
@[simp] theorem Panel.setCore_reports (p : Panel) (c : Nat) (k : Core) : (p.setCore c k).reports = p.reports := rfl
@[simp] theorem Panel.setCore_out (p : Panel) (c : Nat) (k : Core) : (p.setCore c k).out = p.out := rfl
@[simp] theorem Panel.setCore_freeCtr (p : Panel) (c : Nat) (k : Core) : (p.setCore c k).freeCtr = p.freeCtr := rfl

/-! ### modCore -/

@[simp] theorem Panel.modCore_regs (p : Panel) (c : Nat) (f : Core → Core) : (p.modCore c f).regs = p.regs := rfl
@[simp] theorem Panel.modCore_st (p : Panel) (c : Nat) (f : Core → Core) : (p.modCore c f).st = p.st := rfl
@[simp] theorem Panel.modCore_net (p : Panel) (c : Nat) (f : Core → Core) : (p.modCore c f).net = p.net := rfl
@[simp] theorem Panel.modCore_accords (p : Panel) (c : Nat) (f : Core → Core) : (p.modCore c f).accords = p.accords := rfl
@[simp] theorem Panel.modCore_bars (p : Panel) (c : Nat) (f : Core → Core) : (p.modCore c f).bars = p.bars := rfl
@[simp] theorem Panel.modCore_eng0 (p : Panel) (c : Nat) (f : Core → Core) : (p.modCore c f).eng0 = p.eng0 := rfl
@[simp] theorem Panel.modCore_eng3 (p : Panel) (c : Nat) (f : Core → Core) : (p.modCore c f).eng3 = p.eng3 := rfl
@[simp] theorem Panel.modCore_ing (p : Panel) (c : Nat) (f : Core → Core) : (p.modCore c f).ing = p.ing := rfl
@[simp] theorem Panel.modCore_image (p : Panel) (c : Nat) (f : Core → Core) : (p.modCore c f).image = p.image := rfl
@[simp] theorem Panel.modCore_portA (p : Panel) (c : Nat) (f : Core → Core) : (p.modCore c f).portA = p.portA := rfl
@[simp] theorem Panel.modCore_portB (p : Panel) (c : Nat) (f : Core → Core) : (p.modCore c f).portB = p.portB := rfl
@[simp] theorem Panel.modCore_mir (p : Panel) (c : Nat) (f : Core → Core) : (p.modCore c f).mir = p.mir := rfl
@[simp] theorem Panel.modCore_pwr (p : Panel) (c : Nat) (f : Core → Core) : (p.modCore c f).pwr = p.pwr := rfl
@[simp] theorem Panel.modCore_bring (p : Panel) (c : Nat) (f : Core → Core) : (p.modCore c f).bring = p.bring := rfl
@[simp] theorem Panel.modCore_fab (p : Panel) (c : Nat) (f : Core → Core) : (p.modCore c f).fab = p.fab := rfl
@[simp] theorem Panel.modCore_nvmA (p : Panel) (c : Nat) (f : Core → Core) : (p.modCore c f).nvmA = p.nvmA := rfl
@[simp] theorem Panel.modCore_nvmB (p : Panel) (c : Nat) (f : Core → Core) : (p.modCore c f).nvmB = p.nvmB := rfl
@[simp] theorem Panel.modCore_errs (p : Panel) (c : Nat) (f : Core → Core) : (p.modCore c f).errs = p.errs := rfl
@[simp] theorem Panel.modCore_pmc (p : Panel) (c : Nat) (f : Core → Core) : (p.modCore c f).pmc = p.pmc := rfl
@[simp] theorem Panel.modCore_fabric (p : Panel) (c : Nat) (f : Core → Core) : (p.modCore c f).fabric = p.fabric := rfl
@[simp] theorem Panel.modCore_sec (p : Panel) (c : Nat) (f : Core → Core) : (p.modCore c f).sec = p.sec := rfl
@[simp] theorem Panel.modCore_guests (p : Panel) (c : Nat) (f : Core → Core) : (p.modCore c f).guests = p.guests := rfl
@[simp] theorem Panel.modCore_oe (p : Panel) (c : Nat) (f : Core → Core) : (p.modCore c f).oe = p.oe := rfl
@[simp] theorem Panel.modCore_mgmt (p : Panel) (c : Nat) (f : Core → Core) : (p.modCore c f).mgmt = p.mgmt := rfl
@[simp] theorem Panel.modCore_reports (p : Panel) (c : Nat) (f : Core → Core) : (p.modCore c f).reports = p.reports := rfl
@[simp] theorem Panel.modCore_out (p : Panel) (c : Nat) (f : Core → Core) : (p.modCore c f).out = p.out := rfl
@[simp] theorem Panel.modCore_freeCtr (p : Panel) (c : Nat) (f : Core → Core) : (p.modCore c f).freeCtr = p.freeCtr := rfl

/-! ### put -/

@[simp] theorem Panel.put_st (p : Panel) (r : Reg) (v : W64) (u i j : Nat) : (p.put r v u i j).st = p.st := rfl
@[simp] theorem Panel.put_cores (p : Panel) (r : Reg) (v : W64) (u i j : Nat) : (p.put r v u i j).cores = p.cores := rfl
@[simp] theorem Panel.put_net (p : Panel) (r : Reg) (v : W64) (u i j : Nat) : (p.put r v u i j).net = p.net := rfl
@[simp] theorem Panel.put_accords (p : Panel) (r : Reg) (v : W64) (u i j : Nat) : (p.put r v u i j).accords = p.accords := rfl
@[simp] theorem Panel.put_bars (p : Panel) (r : Reg) (v : W64) (u i j : Nat) : (p.put r v u i j).bars = p.bars := rfl
@[simp] theorem Panel.put_eng0 (p : Panel) (r : Reg) (v : W64) (u i j : Nat) : (p.put r v u i j).eng0 = p.eng0 := rfl
@[simp] theorem Panel.put_eng3 (p : Panel) (r : Reg) (v : W64) (u i j : Nat) : (p.put r v u i j).eng3 = p.eng3 := rfl
@[simp] theorem Panel.put_ing (p : Panel) (r : Reg) (v : W64) (u i j : Nat) : (p.put r v u i j).ing = p.ing := rfl
@[simp] theorem Panel.put_image (p : Panel) (r : Reg) (v : W64) (u i j : Nat) : (p.put r v u i j).image = p.image := rfl
@[simp] theorem Panel.put_portA (p : Panel) (r : Reg) (v : W64) (u i j : Nat) : (p.put r v u i j).portA = p.portA := rfl
@[simp] theorem Panel.put_portB (p : Panel) (r : Reg) (v : W64) (u i j : Nat) : (p.put r v u i j).portB = p.portB := rfl
@[simp] theorem Panel.put_mir (p : Panel) (r : Reg) (v : W64) (u i j : Nat) : (p.put r v u i j).mir = p.mir := rfl
@[simp] theorem Panel.put_pwr (p : Panel) (r : Reg) (v : W64) (u i j : Nat) : (p.put r v u i j).pwr = p.pwr := rfl
@[simp] theorem Panel.put_bring (p : Panel) (r : Reg) (v : W64) (u i j : Nat) : (p.put r v u i j).bring = p.bring := rfl
@[simp] theorem Panel.put_fab (p : Panel) (r : Reg) (v : W64) (u i j : Nat) : (p.put r v u i j).fab = p.fab := rfl
@[simp] theorem Panel.put_nvmA (p : Panel) (r : Reg) (v : W64) (u i j : Nat) : (p.put r v u i j).nvmA = p.nvmA := rfl
@[simp] theorem Panel.put_nvmB (p : Panel) (r : Reg) (v : W64) (u i j : Nat) : (p.put r v u i j).nvmB = p.nvmB := rfl
@[simp] theorem Panel.put_errs (p : Panel) (r : Reg) (v : W64) (u i j : Nat) : (p.put r v u i j).errs = p.errs := rfl
@[simp] theorem Panel.put_pmc (p : Panel) (r : Reg) (v : W64) (u i j : Nat) : (p.put r v u i j).pmc = p.pmc := rfl
@[simp] theorem Panel.put_fabric (p : Panel) (r : Reg) (v : W64) (u i j : Nat) : (p.put r v u i j).fabric = p.fabric := rfl
@[simp] theorem Panel.put_sec (p : Panel) (r : Reg) (v : W64) (u i j : Nat) : (p.put r v u i j).sec = p.sec := rfl
@[simp] theorem Panel.put_guests (p : Panel) (r : Reg) (v : W64) (u i j : Nat) : (p.put r v u i j).guests = p.guests := rfl
@[simp] theorem Panel.put_oe (p : Panel) (r : Reg) (v : W64) (u i j : Nat) : (p.put r v u i j).oe = p.oe := rfl
@[simp] theorem Panel.put_mgmt (p : Panel) (r : Reg) (v : W64) (u i j : Nat) : (p.put r v u i j).mgmt = p.mgmt := rfl
@[simp] theorem Panel.put_reports (p : Panel) (r : Reg) (v : W64) (u i j : Nat) : (p.put r v u i j).reports = p.reports := rfl
@[simp] theorem Panel.put_out (p : Panel) (r : Reg) (v : W64) (u i j : Nat) : (p.put r v u i j).out = p.out := rfl
@[simp] theorem Panel.put_freeCtr (p : Panel) (r : Reg) (v : W64) (u i j : Nat) : (p.put r v u i j).freeCtr = p.freeCtr := rfl

/-! ### fput -/

@[simp] theorem Panel.fput_st (p : Panel) (f : RField) (v u i j : Nat) : (p.fput f v u i j).st = p.st := rfl
@[simp] theorem Panel.fput_cores (p : Panel) (f : RField) (v u i j : Nat) : (p.fput f v u i j).cores = p.cores := rfl
@[simp] theorem Panel.fput_net (p : Panel) (f : RField) (v u i j : Nat) : (p.fput f v u i j).net = p.net := rfl
@[simp] theorem Panel.fput_accords (p : Panel) (f : RField) (v u i j : Nat) : (p.fput f v u i j).accords = p.accords := rfl
@[simp] theorem Panel.fput_bars (p : Panel) (f : RField) (v u i j : Nat) : (p.fput f v u i j).bars = p.bars := rfl
@[simp] theorem Panel.fput_eng0 (p : Panel) (f : RField) (v u i j : Nat) : (p.fput f v u i j).eng0 = p.eng0 := rfl
@[simp] theorem Panel.fput_eng3 (p : Panel) (f : RField) (v u i j : Nat) : (p.fput f v u i j).eng3 = p.eng3 := rfl
@[simp] theorem Panel.fput_ing (p : Panel) (f : RField) (v u i j : Nat) : (p.fput f v u i j).ing = p.ing := rfl
@[simp] theorem Panel.fput_image (p : Panel) (f : RField) (v u i j : Nat) : (p.fput f v u i j).image = p.image := rfl
@[simp] theorem Panel.fput_portA (p : Panel) (f : RField) (v u i j : Nat) : (p.fput f v u i j).portA = p.portA := rfl
@[simp] theorem Panel.fput_portB (p : Panel) (f : RField) (v u i j : Nat) : (p.fput f v u i j).portB = p.portB := rfl
@[simp] theorem Panel.fput_mir (p : Panel) (f : RField) (v u i j : Nat) : (p.fput f v u i j).mir = p.mir := rfl
@[simp] theorem Panel.fput_pwr (p : Panel) (f : RField) (v u i j : Nat) : (p.fput f v u i j).pwr = p.pwr := rfl
@[simp] theorem Panel.fput_bring (p : Panel) (f : RField) (v u i j : Nat) : (p.fput f v u i j).bring = p.bring := rfl
@[simp] theorem Panel.fput_fab (p : Panel) (f : RField) (v u i j : Nat) : (p.fput f v u i j).fab = p.fab := rfl
@[simp] theorem Panel.fput_nvmA (p : Panel) (f : RField) (v u i j : Nat) : (p.fput f v u i j).nvmA = p.nvmA := rfl
@[simp] theorem Panel.fput_nvmB (p : Panel) (f : RField) (v u i j : Nat) : (p.fput f v u i j).nvmB = p.nvmB := rfl
@[simp] theorem Panel.fput_errs (p : Panel) (f : RField) (v u i j : Nat) : (p.fput f v u i j).errs = p.errs := rfl
@[simp] theorem Panel.fput_pmc (p : Panel) (f : RField) (v u i j : Nat) : (p.fput f v u i j).pmc = p.pmc := rfl
@[simp] theorem Panel.fput_fabric (p : Panel) (f : RField) (v u i j : Nat) : (p.fput f v u i j).fabric = p.fabric := rfl
@[simp] theorem Panel.fput_sec (p : Panel) (f : RField) (v u i j : Nat) : (p.fput f v u i j).sec = p.sec := rfl
@[simp] theorem Panel.fput_guests (p : Panel) (f : RField) (v u i j : Nat) : (p.fput f v u i j).guests = p.guests := rfl
@[simp] theorem Panel.fput_oe (p : Panel) (f : RField) (v u i j : Nat) : (p.fput f v u i j).oe = p.oe := rfl
@[simp] theorem Panel.fput_mgmt (p : Panel) (f : RField) (v u i j : Nat) : (p.fput f v u i j).mgmt = p.mgmt := rfl
@[simp] theorem Panel.fput_reports (p : Panel) (f : RField) (v u i j : Nat) : (p.fput f v u i j).reports = p.reports := rfl
@[simp] theorem Panel.fput_out (p : Panel) (f : RField) (v u i j : Nat) : (p.fput f v u i j).out = p.out := rfl
@[simp] theorem Panel.fput_freeCtr (p : Panel) (f : RField) (v u i j : Nat) : (p.fput f v u i j).freeCtr = p.freeCtr := rfl

/-! ### resetReg -/

@[simp] theorem Panel.resetReg_st (p : Panel) (r : Reg) (u i j : Nat) : (p.resetReg r u i j).st = p.st := rfl
@[simp] theorem Panel.resetReg_cores (p : Panel) (r : Reg) (u i j : Nat) : (p.resetReg r u i j).cores = p.cores := rfl
@[simp] theorem Panel.resetReg_net (p : Panel) (r : Reg) (u i j : Nat) : (p.resetReg r u i j).net = p.net := rfl
@[simp] theorem Panel.resetReg_accords (p : Panel) (r : Reg) (u i j : Nat) : (p.resetReg r u i j).accords = p.accords := rfl
@[simp] theorem Panel.resetReg_bars (p : Panel) (r : Reg) (u i j : Nat) : (p.resetReg r u i j).bars = p.bars := rfl
@[simp] theorem Panel.resetReg_eng0 (p : Panel) (r : Reg) (u i j : Nat) : (p.resetReg r u i j).eng0 = p.eng0 := rfl
@[simp] theorem Panel.resetReg_eng3 (p : Panel) (r : Reg) (u i j : Nat) : (p.resetReg r u i j).eng3 = p.eng3 := rfl
@[simp] theorem Panel.resetReg_ing (p : Panel) (r : Reg) (u i j : Nat) : (p.resetReg r u i j).ing = p.ing := rfl
@[simp] theorem Panel.resetReg_image (p : Panel) (r : Reg) (u i j : Nat) : (p.resetReg r u i j).image = p.image := rfl
@[simp] theorem Panel.resetReg_portA (p : Panel) (r : Reg) (u i j : Nat) : (p.resetReg r u i j).portA = p.portA := rfl
@[simp] theorem Panel.resetReg_portB (p : Panel) (r : Reg) (u i j : Nat) : (p.resetReg r u i j).portB = p.portB := rfl
@[simp] theorem Panel.resetReg_mir (p : Panel) (r : Reg) (u i j : Nat) : (p.resetReg r u i j).mir = p.mir := rfl
@[simp] theorem Panel.resetReg_pwr (p : Panel) (r : Reg) (u i j : Nat) : (p.resetReg r u i j).pwr = p.pwr := rfl
@[simp] theorem Panel.resetReg_bring (p : Panel) (r : Reg) (u i j : Nat) : (p.resetReg r u i j).bring = p.bring := rfl
@[simp] theorem Panel.resetReg_fab (p : Panel) (r : Reg) (u i j : Nat) : (p.resetReg r u i j).fab = p.fab := rfl
@[simp] theorem Panel.resetReg_nvmA (p : Panel) (r : Reg) (u i j : Nat) : (p.resetReg r u i j).nvmA = p.nvmA := rfl
@[simp] theorem Panel.resetReg_nvmB (p : Panel) (r : Reg) (u i j : Nat) : (p.resetReg r u i j).nvmB = p.nvmB := rfl
@[simp] theorem Panel.resetReg_errs (p : Panel) (r : Reg) (u i j : Nat) : (p.resetReg r u i j).errs = p.errs := rfl
@[simp] theorem Panel.resetReg_pmc (p : Panel) (r : Reg) (u i j : Nat) : (p.resetReg r u i j).pmc = p.pmc := rfl
@[simp] theorem Panel.resetReg_fabric (p : Panel) (r : Reg) (u i j : Nat) : (p.resetReg r u i j).fabric = p.fabric := rfl
@[simp] theorem Panel.resetReg_sec (p : Panel) (r : Reg) (u i j : Nat) : (p.resetReg r u i j).sec = p.sec := rfl
@[simp] theorem Panel.resetReg_guests (p : Panel) (r : Reg) (u i j : Nat) : (p.resetReg r u i j).guests = p.guests := rfl
@[simp] theorem Panel.resetReg_oe (p : Panel) (r : Reg) (u i j : Nat) : (p.resetReg r u i j).oe = p.oe := rfl
@[simp] theorem Panel.resetReg_mgmt (p : Panel) (r : Reg) (u i j : Nat) : (p.resetReg r u i j).mgmt = p.mgmt := rfl
@[simp] theorem Panel.resetReg_reports (p : Panel) (r : Reg) (u i j : Nat) : (p.resetReg r u i j).reports = p.reports := rfl
@[simp] theorem Panel.resetReg_out (p : Panel) (r : Reg) (u i j : Nat) : (p.resetReg r u i j).out = p.out := rfl
@[simp] theorem Panel.resetReg_freeCtr (p : Panel) (r : Reg) (u i j : Nat) : (p.resetReg r u i j).freeCtr = p.freeCtr := rfl

/-! ### addHold -/

@[simp] theorem Panel.addHold_st (p : Panel) (f : RField) (n u i j : Nat) : (p.addHold f n u i j).st = p.st := rfl
@[simp] theorem Panel.addHold_cores (p : Panel) (f : RField) (n u i j : Nat) : (p.addHold f n u i j).cores = p.cores := rfl
@[simp] theorem Panel.addHold_net (p : Panel) (f : RField) (n u i j : Nat) : (p.addHold f n u i j).net = p.net := rfl
@[simp] theorem Panel.addHold_accords (p : Panel) (f : RField) (n u i j : Nat) : (p.addHold f n u i j).accords = p.accords := rfl
@[simp] theorem Panel.addHold_bars (p : Panel) (f : RField) (n u i j : Nat) : (p.addHold f n u i j).bars = p.bars := rfl
@[simp] theorem Panel.addHold_eng0 (p : Panel) (f : RField) (n u i j : Nat) : (p.addHold f n u i j).eng0 = p.eng0 := rfl
@[simp] theorem Panel.addHold_eng3 (p : Panel) (f : RField) (n u i j : Nat) : (p.addHold f n u i j).eng3 = p.eng3 := rfl
@[simp] theorem Panel.addHold_ing (p : Panel) (f : RField) (n u i j : Nat) : (p.addHold f n u i j).ing = p.ing := rfl
@[simp] theorem Panel.addHold_image (p : Panel) (f : RField) (n u i j : Nat) : (p.addHold f n u i j).image = p.image := rfl
@[simp] theorem Panel.addHold_portA (p : Panel) (f : RField) (n u i j : Nat) : (p.addHold f n u i j).portA = p.portA := rfl
@[simp] theorem Panel.addHold_portB (p : Panel) (f : RField) (n u i j : Nat) : (p.addHold f n u i j).portB = p.portB := rfl
@[simp] theorem Panel.addHold_mir (p : Panel) (f : RField) (n u i j : Nat) : (p.addHold f n u i j).mir = p.mir := rfl
@[simp] theorem Panel.addHold_pwr (p : Panel) (f : RField) (n u i j : Nat) : (p.addHold f n u i j).pwr = p.pwr := rfl
@[simp] theorem Panel.addHold_bring (p : Panel) (f : RField) (n u i j : Nat) : (p.addHold f n u i j).bring = p.bring := rfl
@[simp] theorem Panel.addHold_fab (p : Panel) (f : RField) (n u i j : Nat) : (p.addHold f n u i j).fab = p.fab := rfl
@[simp] theorem Panel.addHold_nvmA (p : Panel) (f : RField) (n u i j : Nat) : (p.addHold f n u i j).nvmA = p.nvmA := rfl
@[simp] theorem Panel.addHold_nvmB (p : Panel) (f : RField) (n u i j : Nat) : (p.addHold f n u i j).nvmB = p.nvmB := rfl
@[simp] theorem Panel.addHold_errs (p : Panel) (f : RField) (n u i j : Nat) : (p.addHold f n u i j).errs = p.errs := rfl
@[simp] theorem Panel.addHold_pmc (p : Panel) (f : RField) (n u i j : Nat) : (p.addHold f n u i j).pmc = p.pmc := rfl
@[simp] theorem Panel.addHold_fabric (p : Panel) (f : RField) (n u i j : Nat) : (p.addHold f n u i j).fabric = p.fabric := rfl
@[simp] theorem Panel.addHold_sec (p : Panel) (f : RField) (n u i j : Nat) : (p.addHold f n u i j).sec = p.sec := rfl
@[simp] theorem Panel.addHold_guests (p : Panel) (f : RField) (n u i j : Nat) : (p.addHold f n u i j).guests = p.guests := rfl
@[simp] theorem Panel.addHold_oe (p : Panel) (f : RField) (n u i j : Nat) : (p.addHold f n u i j).oe = p.oe := rfl
@[simp] theorem Panel.addHold_mgmt (p : Panel) (f : RField) (n u i j : Nat) : (p.addHold f n u i j).mgmt = p.mgmt := rfl
@[simp] theorem Panel.addHold_reports (p : Panel) (f : RField) (n u i j : Nat) : (p.addHold f n u i j).reports = p.reports := rfl
@[simp] theorem Panel.addHold_out (p : Panel) (f : RField) (n u i j : Nat) : (p.addHold f n u i j).out = p.out := rfl
@[simp] theorem Panel.addHold_freeCtr (p : Panel) (f : RField) (n u i j : Nat) : (p.addHold f n u i j).freeCtr = p.freeCtr := rfl

/-! ### addWrap -/

@[simp] theorem Panel.addWrap_st (p : Panel) (f : RField) (n u i j : Nat) : (p.addWrap f n u i j).st = p.st := rfl
@[simp] theorem Panel.addWrap_cores (p : Panel) (f : RField) (n u i j : Nat) : (p.addWrap f n u i j).cores = p.cores := rfl
@[simp] theorem Panel.addWrap_net (p : Panel) (f : RField) (n u i j : Nat) : (p.addWrap f n u i j).net = p.net := rfl
@[simp] theorem Panel.addWrap_accords (p : Panel) (f : RField) (n u i j : Nat) : (p.addWrap f n u i j).accords = p.accords := rfl
@[simp] theorem Panel.addWrap_bars (p : Panel) (f : RField) (n u i j : Nat) : (p.addWrap f n u i j).bars = p.bars := rfl
@[simp] theorem Panel.addWrap_eng0 (p : Panel) (f : RField) (n u i j : Nat) : (p.addWrap f n u i j).eng0 = p.eng0 := rfl
@[simp] theorem Panel.addWrap_eng3 (p : Panel) (f : RField) (n u i j : Nat) : (p.addWrap f n u i j).eng3 = p.eng3 := rfl
@[simp] theorem Panel.addWrap_ing (p : Panel) (f : RField) (n u i j : Nat) : (p.addWrap f n u i j).ing = p.ing := rfl
@[simp] theorem Panel.addWrap_image (p : Panel) (f : RField) (n u i j : Nat) : (p.addWrap f n u i j).image = p.image := rfl
@[simp] theorem Panel.addWrap_portA (p : Panel) (f : RField) (n u i j : Nat) : (p.addWrap f n u i j).portA = p.portA := rfl
@[simp] theorem Panel.addWrap_portB (p : Panel) (f : RField) (n u i j : Nat) : (p.addWrap f n u i j).portB = p.portB := rfl
@[simp] theorem Panel.addWrap_mir (p : Panel) (f : RField) (n u i j : Nat) : (p.addWrap f n u i j).mir = p.mir := rfl
@[simp] theorem Panel.addWrap_pwr (p : Panel) (f : RField) (n u i j : Nat) : (p.addWrap f n u i j).pwr = p.pwr := rfl
@[simp] theorem Panel.addWrap_bring (p : Panel) (f : RField) (n u i j : Nat) : (p.addWrap f n u i j).bring = p.bring := rfl
@[simp] theorem Panel.addWrap_fab (p : Panel) (f : RField) (n u i j : Nat) : (p.addWrap f n u i j).fab = p.fab := rfl
@[simp] theorem Panel.addWrap_nvmA (p : Panel) (f : RField) (n u i j : Nat) : (p.addWrap f n u i j).nvmA = p.nvmA := rfl
@[simp] theorem Panel.addWrap_nvmB (p : Panel) (f : RField) (n u i j : Nat) : (p.addWrap f n u i j).nvmB = p.nvmB := rfl
@[simp] theorem Panel.addWrap_errs (p : Panel) (f : RField) (n u i j : Nat) : (p.addWrap f n u i j).errs = p.errs := rfl
@[simp] theorem Panel.addWrap_pmc (p : Panel) (f : RField) (n u i j : Nat) : (p.addWrap f n u i j).pmc = p.pmc := rfl
@[simp] theorem Panel.addWrap_fabric (p : Panel) (f : RField) (n u i j : Nat) : (p.addWrap f n u i j).fabric = p.fabric := rfl
@[simp] theorem Panel.addWrap_sec (p : Panel) (f : RField) (n u i j : Nat) : (p.addWrap f n u i j).sec = p.sec := rfl
@[simp] theorem Panel.addWrap_guests (p : Panel) (f : RField) (n u i j : Nat) : (p.addWrap f n u i j).guests = p.guests := rfl
@[simp] theorem Panel.addWrap_oe (p : Panel) (f : RField) (n u i j : Nat) : (p.addWrap f n u i j).oe = p.oe := rfl
@[simp] theorem Panel.addWrap_mgmt (p : Panel) (f : RField) (n u i j : Nat) : (p.addWrap f n u i j).mgmt = p.mgmt := rfl
@[simp] theorem Panel.addWrap_reports (p : Panel) (f : RField) (n u i j : Nat) : (p.addWrap f n u i j).reports = p.reports := rfl
@[simp] theorem Panel.addWrap_out (p : Panel) (f : RField) (n u i j : Nat) : (p.addWrap f n u i j).out = p.out := rfl
@[simp] theorem Panel.addWrap_freeCtr (p : Panel) (f : RField) (n u i j : Nat) : (p.addWrap f n u i j).freeCtr = p.freeCtr := rfl

/-! ### emit -/

@[simp] theorem Panel.emit_regs (p : Panel) (o : Out) : (p.emit o).regs = p.regs := rfl
@[simp] theorem Panel.emit_st (p : Panel) (o : Out) : (p.emit o).st = p.st := rfl
@[simp] theorem Panel.emit_cores (p : Panel) (o : Out) : (p.emit o).cores = p.cores := rfl
@[simp] theorem Panel.emit_net (p : Panel) (o : Out) : (p.emit o).net = p.net := rfl
@[simp] theorem Panel.emit_accords (p : Panel) (o : Out) : (p.emit o).accords = p.accords := rfl
@[simp] theorem Panel.emit_bars (p : Panel) (o : Out) : (p.emit o).bars = p.bars := rfl
@[simp] theorem Panel.emit_eng0 (p : Panel) (o : Out) : (p.emit o).eng0 = p.eng0 := rfl
@[simp] theorem Panel.emit_eng3 (p : Panel) (o : Out) : (p.emit o).eng3 = p.eng3 := rfl
@[simp] theorem Panel.emit_ing (p : Panel) (o : Out) : (p.emit o).ing = p.ing := rfl
@[simp] theorem Panel.emit_image (p : Panel) (o : Out) : (p.emit o).image = p.image := rfl
@[simp] theorem Panel.emit_portA (p : Panel) (o : Out) : (p.emit o).portA = p.portA := rfl
@[simp] theorem Panel.emit_portB (p : Panel) (o : Out) : (p.emit o).portB = p.portB := rfl
@[simp] theorem Panel.emit_mir (p : Panel) (o : Out) : (p.emit o).mir = p.mir := rfl
@[simp] theorem Panel.emit_pwr (p : Panel) (o : Out) : (p.emit o).pwr = p.pwr := rfl
@[simp] theorem Panel.emit_bring (p : Panel) (o : Out) : (p.emit o).bring = p.bring := rfl
@[simp] theorem Panel.emit_fab (p : Panel) (o : Out) : (p.emit o).fab = p.fab := rfl
@[simp] theorem Panel.emit_nvmA (p : Panel) (o : Out) : (p.emit o).nvmA = p.nvmA := rfl
@[simp] theorem Panel.emit_nvmB (p : Panel) (o : Out) : (p.emit o).nvmB = p.nvmB := rfl
@[simp] theorem Panel.emit_errs (p : Panel) (o : Out) : (p.emit o).errs = p.errs := rfl
@[simp] theorem Panel.emit_pmc (p : Panel) (o : Out) : (p.emit o).pmc = p.pmc := rfl
@[simp] theorem Panel.emit_fabric (p : Panel) (o : Out) : (p.emit o).fabric = p.fabric := rfl
@[simp] theorem Panel.emit_sec (p : Panel) (o : Out) : (p.emit o).sec = p.sec := rfl
@[simp] theorem Panel.emit_guests (p : Panel) (o : Out) : (p.emit o).guests = p.guests := rfl
@[simp] theorem Panel.emit_oe (p : Panel) (o : Out) : (p.emit o).oe = p.oe := rfl
@[simp] theorem Panel.emit_mgmt (p : Panel) (o : Out) : (p.emit o).mgmt = p.mgmt := rfl
@[simp] theorem Panel.emit_reports (p : Panel) (o : Out) : (p.emit o).reports = p.reports := rfl
@[simp] theorem Panel.emit_freeCtr (p : Panel) (o : Out) : (p.emit o).freeCtr = p.freeCtr := rfl

/-! ### The queue -/

@[simp] theorem State.upd_p (s : State) (f : Panel → Panel) : (s.upd f).p = f s.p := rfl
@[simp] theorem State.upd_pending (s : State) (f : Panel → Panel) : (s.upd f).pending = s.pending := rfl

/-! ### Cores -/

theorem Panel.core_setCore {p : Panel} (h : smSorted p.cores = true) (c : Nat) (k : Core) : (p.setCore c k).core c = k :=
  smGetD_smPut_same h _ _ _

theorem Panel.core_setCore_ne {p : Panel} (h : smSorted p.cores = true) {c c' : Nat} (k : Core) (hc : c' ≠ c) :
    (p.setCore c k).core c' = p.core c' :=
  smGetD_smPut_other h _ _ _ hc

theorem Panel.sorted_setCore {p : Panel} (h : smSorted p.cores = true) (c : Nat) (k : Core) :
    smSorted (p.setCore c k).cores = true :=
  smSorted_smPut h _ _ _

theorem Panel.core_modCore {p : Panel} (h : smSorted p.cores = true) (c : Nat) (f : Core → Core) :
    (p.modCore c f).core c = f (p.core c) :=
  p.core_setCore h _ _

/-- A change that keeps the cores keeps each of them. -/
theorem Panel.core_congr {p q : Panel} (h : p.cores = q.cores) (c : Nat) : p.core c = q.core c := by
  unfold Panel.core; rw [h]

/-! ### Registers -/

theorem Panel.get_put {p : Panel} (h : smSorted p.regs = true) (r : Reg) (v : W64) (u i j : Nat) :
    (p.put r v u i j).get r u i j = v :=
  smGetD_smPut_same h _ _ _

theorem Panel.get_put_ne {p : Panel} (h : smSorted p.regs = true) {r r' : Reg} (v : W64) {u i j u' i' j' : Nat}
    (hk : rkey r' (homeUnit r' u') i' j' ≠ rkey r (homeUnit r u) i j) : (p.put r v u i j).get r' u' i' j' = p.get r' u' i' j' :=
  smGetD_smPut_other h _ _ _ hk

theorem Panel.sorted_put {p : Panel} (h : smSorted p.regs = true) (r : Reg) (v : W64) (u i j : Nat) :
    smSorted (p.put r v u i j).regs = true :=
  smSorted_smPut h _ _ _

theorem Panel.sorted_fput {p : Panel} (h : smSorted p.regs = true) (f : RField) (v u i j : Nat) :
    smSorted (p.fput f v u i j).regs = true :=
  Panel.sorted_put h _ _ _ _ _

/-- A change that keeps the register file keeps what every register reads. -/
theorem Panel.get_congr {p q : Panel} (h : p.regs = q.regs) (r : Reg) (u i j : Nat) : p.get r u i j = q.get r u i j := by
  unfold Panel.get; rw [h]

theorem Panel.fget_congr {p q : Panel} (h : p.regs = q.regs) (f : RField) (u i j : Nat) : p.fget f u i j = q.fget f u i j := by
  unfold Panel.fget; rw [Panel.get_congr h]

/-- Registers in range whose indices differ have different keys. -/
theorem rkey_inj {r r' : Reg} {u i j u' i' j' : Nat} (hu : u < 2048) (hi : i < 8192) (hj : j < 128) (hu' : u' < 2048)
    (hi' : i' < 8192) (hj' : j' < 128) (h : rkey r u i j = rkey r' u' i' j') :
    r.ctorIdx = r'.ctorIdx ∧ u = u' ∧ i = i' ∧ j = j' := by
  unfold rkey at h
  omega

/-- The state after reset is canonical. -/
theorem Panel.reset_sorted : smSorted Panel.reset.regs = true ∧ smSorted Panel.reset.cores = true ∧
    smWf Panel.reset.st.mem 0 = true := ⟨rfl, rfl, rfl⟩

/-! ### Bit fields -/

theorem putBits_bit (w : W64) (hi lo v k : Nat) (hk : k < 64) :
    (putBits w hi lo v).getLsbD k = if lo ≤ k ∧ k < hi + 1 - lo + lo then v.testBit (k - lo) else w.getLsbD k := by
  unfold putBits maskOf
  simp only [BitVec.getLsbD_or, BitVec.getLsbD_and, BitVec.getLsbD_not, BitVec.getLsbD_ofNat, hk, decide_true,
    Bool.true_and, Nat.testBit_shiftLeft, Nat.testBit_two_pow_sub_one, Nat.testBit_mod_two_pow]
  by_cases h : lo ≤ k
  · by_cases h2 : k - lo < hi + 1 - lo
    · simp [h, h2, show k < hi + 1 - lo + lo by omega]
    · simp [h, h2, show ¬ k < hi + 1 - lo + lo by omega]
  · simp [h]

theorem bits_testBit (n hi lo k : Nat) : (bits n hi lo).testBit k = (decide (k < hi + 1 - lo) && n.testBit (lo + k)) := by
  simp [bits, Nat.testBit_mod_two_pow, Nat.testBit_shiftRight]

/-- A field reads what was written to it, at its width. -/
theorem RField.read_write (f : RField) (w : W64) (v : Nat) (h : f.hi < 64) :
    f.read (f.write w v) = v % 2 ^ (f.hi + 1 - f.lo) := by
  apply Nat.eq_of_testBit_eq
  intro k
  unfold RField.read RField.write
  rw [bits_testBit, Nat.testBit_mod_two_pow]
  by_cases hk : k < f.hi + 1 - f.lo
  · have := putBits_bit w f.hi f.lo v (f.lo + k) (by omega)
    rw [BitVec.getLsbD] at this
    rw [this]
    simp [hk, show f.lo + k < f.hi + 1 - f.lo + f.lo by omega]
  · simp [hk]

/-- A write of one field leaves the fields above and below it. -/
theorem RField.read_write_ne (f g : RField) (w : W64) (v : Nat) (h : g.hi < 64) (hd : g.hi < f.lo ∨ f.hi < g.lo)
    (hf : f.lo ≤ f.hi) : g.read (f.write w v) = g.read w := by
  apply Nat.eq_of_testBit_eq
  intro k
  unfold RField.read RField.write
  rw [bits_testBit, bits_testBit]
  by_cases hk : k < g.hi + 1 - g.lo
  · have := putBits_bit w f.hi f.lo v (g.lo + k) (by omega)
    rw [BitVec.getLsbD] at this
    rw [this, if_neg (by omega)]
    rfl
  · simp [hk]

theorem Panel.fget_fput {p : Panel} (h : smSorted p.regs = true) (f : RField) (v u i j : Nat) (hf : f.hi < 64) :
    (p.fput f v u i j).fget f u i j = v % 2 ^ (f.hi + 1 - f.lo) := by
  unfold Panel.fput Panel.fget
  rw [Panel.get_put h, RField.read_write f _ v hf]

theorem Panel.fget_fput_ne {p : Panel} (h : smSorted p.regs = true) (f g : RField) (v : Nat) {u i j u' i' j' : Nat}
    (hk : rkey g.reg (homeUnit g.reg u') i' j' ≠ rkey f.reg (homeUnit f.reg u) i j) :
    (p.fput f v u i j).fget g u' i' j' = p.fget g u' i' j' := by
  unfold Panel.fput Panel.fget
  rw [Panel.get_put_ne h _ hk]

theorem Panel.fget_fput_field {p : Panel} (h : smSorted p.regs = true) (f g : RField) (v u i j : Nat) (hr : g.reg = f.reg)
    (hg : g.hi < 64) (hd : g.hi < f.lo ∨ f.hi < g.lo) (hf : f.lo ≤ f.hi) :
    (p.fput f v u i j).fget g u i j = p.fget g u i j := by
  unfold Panel.fput Panel.fget
  rw [hr, Panel.get_put h, RField.read_write_ne f g _ v hg hd hf]

end Sys2Proof.Machine
end

