-- ==== Sys2Proof/Laws/Memory.lean ====
section
/-! SUPPORT. Every operation over registers, cores and memory keeps the sparse state canonical, and a write of bytes changes
the bytes it covers and no other. -/

namespace Sys2Proof.Machine

/-! ### Folds -/

/-- What each step of a fold keeps, the fold keeps. -/
theorem foldl_keeps {α β : Type} (P : α → Prop) (f : α → β → α) (h : ∀ a b, P a → P (f a b)) (l : List β) (a : α)
    (ha : P a) : P (l.foldl f a) := by
  induction l generalizing a with
  | nil => exact ha
  | cons b l ih => exact ih _ (h a b ha)

theorem smSorted_map_val {V : Type} (f : Nat × V → Nat × V) (hf : ∀ e, (f e).1 = e.1) (m : SMap V) :
    smSorted (m.map f) = smSorted m := by
  induction m with
  | nil => rfl
  | cons a m ih =>
    cases m with
    | nil => rfl
    | cons b m =>
      simp only [List.map_cons] at ih ⊢
      obtain ⟨k, x⟩ := a
      obtain ⟨k', y⟩ := b
      have h1 := hf (k, x)
      have h2 := hf (k', y)
      rcases hx : f (k, x) with ⟨i, x'⟩
      rcases hy : f (k', y) with ⟨j, y'⟩
      rw [hx] at h1
      rw [hy] at h2
      rw [hy] at ih
      simp only at h1 h2
      subst h1 h2
      simp only [smSorted, ih]

theorem smWf_filter {V : Type} [DecidableEq V] {m : SMap V} {d : V} (h : smWf m d = true) (f : Nat → Bool) :
    smWf (smFilter m f) d = true := by
  unfold smWf at h ⊢
  rw [Bool.and_eq_true] at h ⊢
  refine ⟨smSorted_smFilter h.1 f, ?_⟩
  rw [List.all_eq_true] at h ⊢
  exact fun e he => h.2 e (List.mem_filter.1 he).1

/-! ### Canonical form: what rests on unchanged parts -/

theorem Panel.wf_congr {p q : Panel} (hr : q.regs = p.regs) (hc : q.cores = p.cores) (hm : q.st.mem = p.st.mem)
    (h : p.wf) : q.wf := by
  unfold Panel.wf at *
  rw [hr, hc, hm]
  exact h

theorem State.reset_wf : State.reset.p.wf := Panel.reset_sorted

/-! ### Registers -/

theorem Panel.wf_put {p : Panel} (h : p.wf) (r : Reg) (v : W64) (u i j : Nat) : (p.put r v u i j).wf :=
  ⟨Panel.sorted_put h.1 r v u i j, h.2.1, h.2.2⟩

theorem Panel.wf_fput {p : Panel} (h : p.wf) (f : RField) (v u i j : Nat) : (p.fput f v u i j).wf := wf_put h _ _ _ _ _

theorem Panel.wf_addHold {p : Panel} (h : p.wf) (f : RField) (n u i j : Nat) : (p.addHold f n u i j).wf := wf_fput h _ _ _ _ _

theorem Panel.wf_addWrap {p : Panel} (h : p.wf) (f : RField) (n u i j : Nat) : (p.addWrap f n u i j).wf := wf_fput h _ _ _ _ _

theorem Panel.wf_resetReg {p : Panel} (h : p.wf) (r : Reg) (u i j : Nat) : (p.resetReg r u i j).wf := wf_put h _ _ _ _ _

theorem Panel.wf_store {p : Panel} (h : p.wf) (r : Reg) (l : Bool) (v : W64) (u i j : Nat) : (p.store r l v u i j).wf :=
  wf_put h _ _ _ _ _

theorem Panel.wf_dropRegs {p : Panel} (h : p.wf) (f : Reg → Nat → Bool) (all : List Reg) (us : List Nat) :
    (p.dropRegs f all us).wf := ⟨smSorted_filter h.1 _, h.2.1, h.2.2⟩

/-! ### Free values, reports and outputs -/

theorem Panel.wf_draw {p : Panel} (h : p.wf) (n : Nat) : (p.draw n).2.wf := h

theorem Panel.wf_drawBytes {p : Panel} (h : p.wf) (n : Nat) : (p.drawBytes n).2.wf := h

theorem Panel.wf_drawBits {p : Panel} (h : p.wf) (n : Nat) : (p.drawBits n).2.wf := h

theorem Panel.wf_detail {p : Panel} (h : p.wf) (o : Option Nat) : (p.detail o).2.wf := by
  cases o <;> exact h

theorem Panel.wf_sendReport {p : Panel} (hp : p.wf) (h : Nat) (ev : BitVec 16) (cls lv : BitVec 3) (kind site sub : BitVec 8)
    (d0 d1 : Option Nat) : (p.sendReport h ev cls lv kind site sub d0 d1).wf :=
  wf_congr (p := ((p.detail d0).2.detail d1).2) rfl rfl rfl (wf_detail (wf_detail hp _) _)

theorem Panel.wf_reportCore {p : Panel} (h : p.wf) (c : Nat) (ev : BitVec 16) (cls : BitVec 3) (d0 d1 : Option Nat) :
    (p.reportCore c ev cls d0 d1).wf := wf_sendReport h _ _ _ _ _ _ _ _ _

theorem Panel.wf_reportCluster {p : Panel} (h : p.wf) (d c : Nat) (ev : BitVec 16) (cls : BitVec 3) (d0 : Option Nat) :
    (p.reportCluster d c ev cls d0).wf := wf_sendReport h _ _ _ _ _ _ _ _ _

theorem Panel.wf_reportNode {p : Panel} (h : p.wf) (n : Nat) (ev : BitVec 16) (cls : BitVec 3) (d0 d1 : Option Nat) :
    (p.reportNode n ev cls d0 d1).wf := wf_sendReport h _ _ _ _ _ _ _ _ _

theorem Panel.wf_emit {p : Panel} (h : p.wf) (o : Out) : (p.emit o).wf := h

/-! ### Cores -/

theorem Panel.wf_setCore {p : Panel} (h : p.wf) (c : Nat) (k : Core) : (p.setCore c k).wf :=
  ⟨h.1, Panel.sorted_setCore h.2.1 c k, h.2.2⟩

theorem Panel.wf_modCore {p : Panel} (h : p.wf) (c : Nat) (f : Core → Core) : (p.modCore c f).wf := wf_setCore h _ _

theorem Panel.wf_raiseAsync {p : Panel} (h : p.wf) (c cause info : Nat) : (p.raiseAsync c cause info).wf :=
  wf_modCore (wf_fput h _ _ _ _ _) _ _

theorem Panel.wf_enterTrap {p : Panel} (h : p.wf) (c pc cause : Nat) (a : Bool) (info : W64) :
    (p.enterTrap c pc cause a info).wf :=
  wf_modCore (wf_fput (wf_put (wf_fput (wf_fput (wf_fput (wf_fput h _ _ _ _ _) _ _ _ _ _) _ _ _ _ _) _ _ _ _ _) _ _ _ _ _)
    _ _ _ _ _) _ _

theorem Panel.wf_doubleTrap {p : Panel} (h : p.wf) (c : Nat) : (p.doubleTrap c).wf :=
  wf_reportCore (wf_modCore (wf_fput (wf_fput (wf_fput h _ _ _ _ _) _ _ _ _ _) _ _ _ _ _) _ _) _ _ _ _ _

theorem Panel.wf_syncTrap {p : Panel} (h : p.wf) (c pc cause : Nat) (info : Option W64) : (p.syncTrap c pc cause info).wf := by
  unfold Panel.syncTrap
  split
  · exact wf_doubleTrap h c
  · cases info
    · exact wf_enterTrap (wf_drawBits h 64) _ _ _ _ _
    · exact wf_enterTrap h _ _ _ _ _

theorem Panel.wf_foundTrap {p : Panel} (h : p.wf) (c : Nat) (t : TrapInfo) : (p.foundTrap c t).wf := by
  unfold Panel.foundTrap
  dsimp only
  split
  · exact wf_setCore h _ _
  · exact wf_syncTrap h _ _ _ _

theorem Panel.wf_tokenAdd {p : Panel} (h : p.wf) (c n inc : Nat) : (p.tokenAdd c n inc).wf := by
  unfold Panel.tokenAdd
  dsimp only
  split
  · exact wf_fput h _ _ _ _ _
  · exact wf_raiseAsync (wf_fput (wf_fput h _ _ _ _ _) _ _ _ _ _) _ _ _

theorem Panel.wf_setS {p : Panel} (h : p.wf) (c : Nat) (r : BitVec 5) (v : W64) : (p.setS c r v).wf := wf_modCore h _ _

theorem Panel.wf_completeAt {p q : Panel} (h : p.wf) {c i : Nat} (hq : p.completeAt c i = some q) : q.wf := by
  unfold Panel.completeAt at hq
  dsimp only at hq
  split at hq
  · exact Option.some.inj hq ▸ wf_setCore h _ _
  · cases hq

/-! ### Memory -/

theorem Panel.wf_setPoison {p : Panel} (h : p.wf) (ks : List Nat) (on : Bool) : (p.setPoison ks on).wf := h

theorem Panel.wf_clearLatent {p : Panel} (h : p.wf) (ks : List Nat) : (p.clearLatent ks).wf := h

theorem Panel.wf_encode {p : Panel} (h : p.wf) (k : MemKind) (w : Bool) (ws : List Nat) : (p.encode k w ws).wf := by
  unfold Panel.encode
  split
  · exact h
  · exact h

/-- Both branches canonical, the choice is. -/
theorem Panel.wf_ite {c : Prop} [Decidable c] {p q : Panel} (hp : p.wf) (hq : q.wf) : (if c then p else q).wf := by
  split <;> assumption

theorem Panel.wf_countUnit {p : Panel} (h : p.wf) (k : MemKind) (blk : Nat) (uc : Bool) : (p.countUnit k blk uc).wf := by
  unfold Panel.countUnit
  exact wf_ite h h

theorem Panel.wf_countErr {p : Panel} (h : p.wf) (k : MemKind) (home : Nat) (uc : Bool) : (p.countErr k home uc).wf := by
  unfold Panel.countErr
  cases k <;> dsimp only
  all_goals
    repeat' with_reducible first
      | assumption
      | apply wf_reportCore
      | apply wf_reportCluster
      | apply wf_reportNode
      | apply wf_fput
      | apply wf_addHold
      | apply wf_countUnit
      | apply wf_ite

theorem putAll_wf (l : List (Byte × Nat)) (m : SMap Byte) (h : smWf m 0 = true) :
    smWf (l.foldl (fun m e => smPut m 0 e.2 e.1) m) 0 = true :=
  foldl_keeps (fun m => smWf m 0 = true) _ (fun _ e hm => smWf_smPut hm e.2 e.1) l m h

theorem Panel.wf_putBytes {p : Panel} (h : p.wf) (home : Nat) (bs : List Byte) : (p.putBytes home bs).wf :=
  ⟨h.1, h.2.1, putAll_wf _ _ h.2.2⟩

theorem Panel.wf_activate64 {p : Panel} (h : p.wf) (k : MemKind) (home : Nat) : (p.activate64 k home).wf := by
  unfold Panel.activate64
  cases k <;> dsimp only
  · repeat' split
    all_goals exact h
  · exact h
  · exact h

theorem Panel.wf_findWord {p : Panel} (h : p.wf) (k : MemKind) (w : Bool) (ks : List Nat) : (p.findWord k w ks).2.wf := by
  unfold Panel.findWord
  dsimp only
  cases k <;> dsimp only <;> split <;> exact h

theorem Panel.wf_decodeBlock {p : Panel} (h : p.wf) (k : MemKind) (home : Nat) : (p.decodeBlock k home).2.2.2.wf := by
  unfold Panel.decodeBlock
  refine foldl_keeps (fun a : List Byte × Bool × List Nat × Panel => a.2.2.2.wf) _ (fun a ks ha => ?_) _ _ h
  obtain ⟨d, ce, ue, q⟩ := a
  dsimp only
  split
  · exact ha
  · have hf := wf_findWord ha k (p.isWeight k home) ks
    split <;> simp_all [wf_drawBytes]

theorem Panel.wf_readBlock {p : Panel} (h : p.wf) (k : MemKind) (home n : Nat) : (p.readBlock k home n).2.2.wf := by
  unfold Panel.readBlock
  dsimp only
  split
  · repeat' with_reducible first
      | assumption
      | apply wf_countErr
      | apply wf_drawBytes
      | apply wf_draw
      | apply wf_decodeBlock
      | apply wf_activate64
      | apply wf_ite
  · cases k <;> dsimp only <;> repeat' split
    all_goals
      repeat' with_reducible first
        | assumption
        | apply wf_decodeBlock
        | apply wf_activate64
        | apply wf_ite
        | apply wf_countErr
        | apply wf_clearLatent
        | apply wf_setPoison
        | apply wf_putBytes

theorem Panel.wf_asFound {p : Panel} (h : p.wf) (k : MemKind) (w : Nat) (raw : List Byte) (found : Found) :
    (p.asFound k w raw found).wf := by
  cases found with
  | clean => exact h
  | ce => exact wf_countErr h _ _ _
  | ue => exact wf_putBytes (wf_countErr h _ _ _) _ _
  | other corrected => exact wf_putBytes (wf_drawBytes (wf_ite (wf_countErr h _ _ _) h) _) _ _

theorem Panel.wf_orFind {p : Panel} (h : p.wf) (b : Bool) (k : MemKind) (w : Bool) (ks : List Nat) :
    (if b then (Found.clean, p) else p.findWord k w ks).2.wf := by
  cases b
  · exact wf_findWord h k w ks
  · exact h

theorem Panel.wf_writeWord {p : Panel} (h : p.wf) (k : MemKind) (weight : Bool) (w home : Nat) (bs : List (Byte × Bool)) :
    (p.writeWord k weight w home bs).wf := by
  unfold Panel.writeWord
  cases k <;> dsimp only
  all_goals
    repeat' with_reducible first
      | assumption
      | apply wf_encode
      | apply wf_clearLatent
      | apply wf_setPoison
      | apply wf_putBytes
      | apply wf_countErr
      | apply wf_drawBytes
      | apply wf_draw
      | apply wf_addWrap
      | apply wf_asFound
      | apply wf_orFind
      | apply wf_activate64
      | apply wf_ite

theorem Panel.wf_writeBlock {p : Panel} (h : p.wf) (k : MemKind) (home : Nat) (bs : List (Byte × Bool)) :
    (p.writeBlock k home bs).wf := by
  unfold Panel.writeBlock
  refine foldl_keeps Panel.wf _ (fun q i hq => ?_) _ _ h
  dsimp only
  split
  · exact hq
  · exact wf_writeWord hq _ _ _ _ _

theorem Panel.wf_readTagged {p : Panel} (h : p.wf) (pa n : Nat) : (p.readTagged pa n).2.wf := by
  unfold Panel.readTagged
  refine foldl_keeps (fun a : List (Byte × Bool) × Panel => a.2.wf) _ (fun a e ha => ?_) _ _ h
  dsimp only
  split
  · exact ha
  · exact wf_readBlock ha _ _ _

theorem Panel.wf_readRange {p : Panel} (h : p.wf) (pa n : Nat) : (p.readRange pa n).2.2.wf := wf_readTagged h pa n

theorem Panel.wf_readBlocks {p : Panel} (h : p.wf) (pa n : Nat) : (p.readBlocks pa n).2.2.wf := wf_readRange h _ _

theorem Panel.wf_writeTagged {p : Panel} (h : p.wf) (pa : Nat) (bs : List (Byte × Bool)) : (p.writeTagged pa bs).wf := by
  unfold Panel.writeTagged
  refine foldl_keeps (fun a : Panel × List (Byte × Bool) => a.1.wf) _ (fun a e ha => ?_) _ _ h
  split
  · exact ha
  · exact wf_writeBlock ha _ _ _

theorem Panel.wf_writeBlocks {p : Panel} (h : p.wf) (pa : Nat) (bs : List Byte) (z : Bool) : (p.writeBlocks pa bs z).wf := by
  unfold Panel.writeBlocks
  split
  · exact wf_setPoison (wf_writeTagged h _ _) _ _
  · exact wf_writeTagged h _ _

theorem Panel.wf_mirCopy {p : Panel} (h : p.wf) (r off : Nat) (bs : List (Byte × Bool)) : (p.mirCopy r off bs).wf :=
  wf_congr (p := p.addWrap F.MIR_COUNTS_mirrored_mib ((p.mir.bytesSent + bs.length) / 2 ^ 20) 0 0 0) rfl rfl rfl
    (wf_addWrap h _ _ _ _ _)

theorem Panel.wf_mirrorCopy {p : Panel} (h : p.wf) (pa : Nat) (bs : List (Byte × Bool)) : (p.mirrorCopy pa bs).wf :=
  foldl_keeps (fun q : Panel => q.wf) _ (fun _ _ h => wf_ite (wf_mirCopy h _ _ _) h) _ _ h

theorem Panel.wf_storePa {p : Panel} (h : p.wf) (pa : Nat) (bs : List (Byte × Bool)) : (p.storePa pa bs).wf :=
  wf_mirrorCopy (wf_writeTagged h _ _) _ _

theorem Panel.wf_markUndef {p : Panel} (h : p.wf) (us : List Nat) : (p.markUndef us).wf := h

theorem Panel.wf_zeroStack {p : Panel} (h : p.wf) (s : Nat) : (p.zeroStack s).wf :=
  ⟨h.1, h.2.1, smWf_filter h.2.2 _⟩

/-! ### The remote cache -/

theorem Panel.wf_advanceEpoch {p : Panel} (h : p.wf) (d c n : Nat) : (p.advanceEpoch d c n).wf := by
  unfold Panel.advanceEpoch
  dsimp only
  split
  · exact wf_fput h _ _ _ _ _
  · exact wf_congr (p := (p.fput F.CD_RC_EPOCH_epoch _ d c 0).fput F.CD_RC_EPOCH_clearing 1 d c 0) rfl rfl rfl
      (wf_fput (wf_fput h _ _ _ _ _) _ _ _ _ _)

theorem Panel.wf_rcInstall {p : Panel} (h : p.wf) (d c l e : Nat) (bs : List Byte) : (p.rcInstall d c l e bs).wf := by
  unfold Panel.rcInstall
  split <;> exact h

theorem Panel.wf_rcInvalidate {p : Panel} (h : p.wf) (d c pa n : Nat) : (p.rcInvalidate d c pa n).wf := by
  unfold Panel.rcInvalidate
  split <;> exact h

/-! ### What a write of bytes leaves -/

/-- A byte that no pair of the list names is unchanged. -/
theorem putAll_other (l : List (Byte × Nat)) (m : SMap Byte) (hs : smSorted m = true) (a : Nat) (h : ∀ e ∈ l, e.2 ≠ a) :
    smGetD (l.foldl (fun m e => smPut m 0 e.2 e.1) m) a 0 = smGetD m a 0 := by
  induction l generalizing m with
  | nil => rfl
  | cons e l ih =>
    simp only [List.foldl_cons]
    rw [ih _ (smSorted_smPut hs _ _ _) (fun e' he => h e' (List.mem_cons_of_mem _ he)),
      smGetD_smPut_other hs 0 0 e.1 (Ne.symm (h e (by simp)))]

/-- Bytes outside a write are unchanged. -/
theorem Panel.putBytes_other {p : Panel} (h : p.wf) (home : Nat) (bs : List Byte) (a : Nat)
    (ha : a < home ∨ home + bs.length ≤ a) : smGetD (p.putBytes home bs).st.mem a 0 = smGetD p.st.mem a 0 := by
  refine putAll_other _ _ (smWf_sorted h.2.2) a (fun e he => ?_)
  have := List.mem_zipIdx (x := e.1) (i := e.2) he
  omega

end Sys2Proof.Machine
end

