-- ==== Sys2Proof/Laws/Issue.lean ====
section
/-! SUPPORT. What the issue of an instruction can do, said once for each way an instruction ends (R47, R53, R54, R71 to
R76). -/

namespace Sys2Proof.Machine

section Issue

variable {p p' q : Panel} {c : Nat} {cls : SpecClass} {body : Panel → Core → Issued}

/-- A core that cannot issue is left as it is. -/
theorem issue_not (bad : Bool) (h : p.canIssue c cls = false) : p.issue c cls bad body = p := by
  simp [Panel.issue, h]

/-- A reserved field that is not zero raises ILLEGAL_INSTRUCTION (R47). -/
theorem issue_bad (h : p.canIssue c cls = true) : p.issue c cls true body = p.foundTrap c ⟨trapIllegal, none⟩ := by
  simp [Panel.issue, h, illegal, trapFree]

theorem issue_stall (h : p.canIssue c cls = true) (hb : body p (p.core c) = .stall) : p.issue c cls false body = p := by
  simp [Panel.issue, h, hb]

theorem issue_trap (h : p.canIssue c cls = true) {t : TrapInfo} (hb : body p (p.core c) = .trap t) :
    p.issue c cls false body = p.foundTrap c t := by
  simp [Panel.issue, h, hb]

/-- An instruction that completes, where the next index lies inside instruction memory (R53). -/
theorem issue_done (h : p.canIssue c cls = true) (hb : body p (p.core c) = .done p')
    (hq : p'.completeAt c (p.core c).q.pc = some q) : p.issue c cls false body = q := by
  simp [Panel.issue, h, hb, hq]

/-- One that would pass the end of instruction memory has no effect and raises IMEM_RANGE (R53). -/
theorem issue_done_end (h : p.canIssue c cls = true) (hb : body p (p.core c) = .done p')
    (hq : p'.completeAt c (p.core c).q.pc = none) :
    p.issue c cls false body = p.foundTrap c ⟨trapImem, some (wrap64 imemWords)⟩ := by
  simp [Panel.issue, h, hb, hq]

theorem issue_jump (h : p.canIssue c cls = true) {t : Int} {ends : Bool} (hb : body p (p.core c) = .jump p' t ends)
    (ht : targetOk t = true) :
    p.issue c cls false body = p'.setCore c ((p'.core c).goTo (p.fwMode c) t.toNat ends) := by
  simp [Panel.issue, h, hb, ht]

theorem issue_jump_range (h : p.canIssue c cls = true) {t : Int} {ends : Bool} (hb : body p (p.core c) = .jump p' t ends)
    (ht : targetOk t = false) : p.issue c cls false body = p.foundTrap c ⟨trapImem, some (wrap64 t)⟩ := by
  simp [Panel.issue, h, hb, ht]

theorem issue_block (h : p.canIssue c cls = true) {b : Blocked} (hb : body p (p.core c) = .block b) :
    p.issue c cls false body = p.setCore c { p.core c with blocked := some b } := by
  simp [Panel.issue, h, hb]

theorem issue_branch (h : p.canIssue c cls = true) {taken : Bool} {t : Int} (hb : body p (p.core c) = .branch taken t)
    (ht : taken = true → targetOk t = true) (hn : taken = false → (p.completeAt c (p.core c).q.pc).isSome = true) :
    p.issue c cls false body = p.openBranch c taken t := by
  cases taken
  · have := hn rfl
    rw [Option.isSome_iff_ne_none] at this
    simp [Panel.issue, h, hb, this]
  · simp [Panel.issue, h, hb, ht rfl]

/-- A trap condition with no branch unresolved is raised at the instruction's index (R76). -/
theorem foundTrap_now (h : (p.core c).spec = none) (t : TrapInfo) :
    p.foundTrap c t = p.syncTrap c (p.core c).q.pc t.cause t.info := by
  simp [Panel.foundTrap, h]

/-- A synchronous trap in program mode, its detail stated (R76). -/
theorem syncTrap_program (h : p.fwMode c = false) (pc cause : Nat) (i : W64) :
    p.syncTrap c pc cause (some i) = p.enterTrap c pc cause false i := by
  simp [Panel.syncTrap, h]

/-- A synchronous trap in firmware mode (R78). -/
theorem syncTrap_firmware (h : p.fwMode c = true) (pc cause : Nat) (i : Option W64) :
    p.syncTrap c pc cause i = p.doubleTrap c := by
  simp [Panel.syncTrap, h]

/-- What a completion is: the loop levels and the index of R54, inside instruction memory, and one more instruction issued. -/
theorem completeAt_some {i : Nat} (h : p.completeAt c i = some q) :
    (loopStep i ((p.core c).q.loops (p.fwMode c))).2 < imemWords ∧
      q = p.setCore c (({ p.core c with
        q := (p.core c).q.setLoops (p.fwMode c) (loopStep i ((p.core c).q.loops (p.fwMode c))).1 }).complete
          (loopStep i ((p.core c).q.loops (p.fwMode c))).2) := by
  simp only [Panel.completeAt] at h
  split at h
  · rename_i hlt
    exact ⟨hlt, (Option.some.inj h).symm⟩
  · cases h

/-- Every way an issue ends keeps the canonical form, where the body's panels have it. -/
theorem issue_wf (bad : Bool) (h : p.wf)
    (hb : ∀ p', (body p (p.core c) = .done p' ∨ (∃ t e, body p (p.core c) = .jump p' t e) ∨
      (∃ i, body p (p.core c) = .skip p' i) ∨ (∃ l, body p (p.core c) = .enter p' l)) → p'.wf) :
    (p.issue c cls bad body).wf := by
  have ob : ∀ tk t, (p.openBranch c tk t).wf := by
    intro tk t
    unfold Panel.openBranch
    dsimp only
    split
    · exact Panel.wf_setCore h _ _
    · split
      · rename_i hq
        exact Panel.wf_modCore (Panel.wf_completeAt h hq) _ _
      · exact Panel.wf_setCore h _ _
  unfold Panel.issue
  split
  · exact h
  dsimp only
  cases bad
  · simp only [Bool.false_eq_true, if_false]
    split
    · exact h
    · exact Panel.wf_foundTrap h _ _
    · rename_i p1 h1
      split
      · rename_i hq
        exact Panel.wf_completeAt (hb p1 (.inl h1)) hq
      · exact Panel.wf_foundTrap h _ _
    · rename_i p1 t e h1
      exact Panel.wf_ite (Panel.wf_setCore (hb p1 (.inr (.inl ⟨t, e, h1⟩))) _ _) (Panel.wf_foundTrap h _ _)
    · rename_i p1 i h1
      split
      · rename_i hq
        exact Panel.wf_completeAt (hb p1 (.inr (.inr (.inl ⟨i, h1⟩)))) hq
      · exact Panel.wf_foundTrap h _ _
    · rename_i p1 l h1
      exact Panel.wf_setCore (hb p1 (.inr (.inr (.inr ⟨l, h1⟩)))) _ _
    · exact Panel.wf_setCore h _ _
    · exact Panel.wf_ite (Panel.wf_foundTrap h _ _) (Panel.wf_ite (Panel.wf_foundTrap h _ _) (ob _ _))
    · exact Panel.wf_setCore (Panel.wf_fput h _ _ _ _ _) _ _
  · exact Panel.wf_foundTrap h _ _

end Issue

/-! ### The queue of commands -/

/-- On an empty queue the block idles (log 2). -/
theorem step_idle (s : State) (h : s.pending = []) : step s = .next (idle s) := by
  simp [step, h]

/-- A step runs the command at the front. -/
theorem step_front (s : State) (c : Instr) (rest : List Instr) : step { s with pending := c :: rest } = exec c { s with pending := rest } := rfl

end Sys2Proof.Machine
end

