-- ==== Sys2Proof/WellFormed.lean ====
section
/-! DEFINITION. Well-formed commands: every unit, queue, channel, slot or port a command names lies in the range the spec
gives it (R3, R4, R20, R23, R95, R204, R208, R231, R302, R324, R418, R440). A command that names a unit outside these
ranges has no sender; one that names a unit the shape in force does not have is well formed and changes nothing. -/

namespace Sys2Proof

/-- A unit number below its bound. -/
def inRange (n b : Nat) : Bool := decide (n < b)

def Instr.wellFormed : Instr → Bool
  | .add c _ => inRange c 1024
  | .sub c _ => inRange c 1024
  | .and_ c _ => inRange c 1024
  | .or_ c _ => inRange c 1024
  | .xor c _ => inRange c 1024
  | .sll c _ => inRange c 1024
  | .srl c _ => inRange c 1024
  | .sra c _ => inRange c 1024
  | .mul c _ => inRange c 1024
  | .mulh c _ => inRange c 1024
  | .slt c _ => inRange c 1024
  | .sltu c _ => inRange c 1024
  | .min_ c _ => inRange c 1024
  | .max_ c _ => inRange c 1024
  | .addi c _ => inRange c 1024
  | .andi c _ => inRange c 1024
  | .ori c _ => inRange c 1024
  | .xori c _ => inRange c 1024
  | .slli c _ => inRange c 1024
  | .srli c _ => inRange c 1024
  | .srai c _ => inRange c 1024
  | .li c _ => inRange c 1024
  | .lih c _ => inRange c 1024
  | .ld c _ => inRange c 1024
  | .ldw c _ => inRange c 1024
  | .st c _ => inRange c 1024
  | .stw c _ => inRange c 1024
  | .dld c _ => inRange c 1024
  | .dst c _ => inRange c 1024
  | .dset c _ => inRange c 1024
  | .dget c _ => inRange c 1024
  | .beq c _ => inRange c 1024
  | .bne c _ => inRange c 1024
  | .blt c _ => inRange c 1024
  | .bge c _ => inRange c 1024
  | .bltu c _ => inRange c 1024
  | .bgeu c _ => inRange c 1024
  | .jmp c _ => inRange c 1024
  | .call c _ => inRange c 1024
  | .jr c _ => inRange c 1024
  | .callr c _ => inRange c 1024
  | .ret c _ => inRange c 1024
  | .loop c _ => inRange c 1024
  | .branchResolve c => inRange c 1024
  | .tpost c _ => inRange c 1024
  | .tpostRelease c _ => inRange c 1024
  | .twait c _ => inRange c 1024
  | .twaitSatisfy c => inRange c 1024
  | .ttest c _ => inRange c 1024
  | .tset c _ => inRange c 1024
  | .barArrive c _ => inRange c 1024
  | .barArriveSignal c => inRange c 1024
  | .barWait c _ => inRange c 1024
  | .barWaitRelease c => inRange c 1024
  | .epochAdvance c _ => inRange c 1024
  | .waitTimeout c => inRange c 1024
  | .dmaCopy c _ => inRange c 1024
  | .dmaGather c _ => inRange c 1024
  | .dmaScatter c _ => inRange c 1024
  | .dmaFill c _ => inRange c 1024
  | .dmaMark c _ => inRange c 1024
  | .dmaOpComplete c => inRange c 1024
  | .csrr c _ => inRange c 1024
  | .csrw c _ => inRange c 1024
  | .csrs c _ => inRange c 1024
  | .csrc c _ => inRange c 1024
  | .fence c _ => inRange c 1024
  | .fenceComplete c => inRange c 1024
  | .trap c _ => inRange c 1024
  | .rett c _ => inRange c 1024
  | .halt c _ => inRange c 1024
  | .haltComplete c => inRange c 1024
  | .asyncTrapDelivery c => inRange c 1024
  | .mma c _ => inRange c 1024
  | .mmaAr c _ => inRange c 1024
  | .mmaBr c _ => inRange c 1024
  | .mmaArbr c _ => inRange c 1024
  | .matrixPassStart c => inRange c 1024
  | .grpOpen c _ => inRange c 1024
  | .grpClose c _ => inRange c 1024
  | .accSend c _ => inRange c 1024
  | .grpAbort c _ => inRange c 1024
  | .grpStatus c _ => inRange c 1024
  | .grpPrefetch c _ => inRange c 1024
  | .groupSpillDone c gid => inRange c 1024 && inRange gid 16
  | .groupFillDone c gid => inRange c 1024 && inRange gid 16
  | .groupCloseDone c => inRange c 1024
  | .accSendAccepted c => inRange c 1024
  | .vadd c _ => inRange c 1024
  | .vsub c _ => inRange c 1024
  | .vmul c _ => inRange c 1024
  | .vfma c _ => inRange c 1024
  | .vmin c _ => inRange c 1024
  | .vmax c _ => inRange c 1024
  | .vcmp c _ => inRange c 1024
  | .vsel c _ => inRange c 1024
  | .vlogic c _ => inRange c 1024
  | .vcvt c _ => inRange c 1024
  | .vsf c _ => inRange c 1024
  | .vred c _ => inRange c 1024
  | .vscan c _ => inRange c 1024
  | .vsort c _ => inRange c 1024
  | .vbcast c _ => inRange c 1024
  | .vextr c _ => inRange c 1024
  | .vld c _ => inRange c 1024
  | .vst c _ => inRange c 1024
  | .rngGen c _ => inRange c 1024
  | .vmxq c _ => inRange c 1024
  | .spStarvationGrant c _ => inRange c 1024
  | .cmemScrubTick die cl => inRange die 64 && inRange cl 2
  | .rcLineFill die cl line _ _ => inRange die 64 && inRange cl 2 && inRange line 281474976710656
  | .rcEpochClearDone die cl => inRange die 64 && inRange cl 2
  | .rcEpochAdvanceWrite die cl _ => inRange die 64 && inRange cl 2
  | .cdCmemPartWrite die cl _ => inRange die 64 && inRange cl 2
  | .hbmRefresh stack => inRange stack 36
  | .mpdRefreshModeWrite stack _ => inRange stack 36
  | .hbmPatrolScrub stack => inRange stack 36
  | .hbmEcsRead stack _ => inRange stack 36
  | .hbmTempRead stack _ => inRange stack 36
  | .stackLost stack => inRange stack 36
  | .tpeStart stack _ _ => inRange stack 36
  | .tpeRunDone stack _ _ _ _ => inRange stack 36
  | .hbmMapApply _ _ => true
  | .hbmMapLoadDone => true
  | .routerPacketReceive node port _ => inRange node 164 && inRange port 15
  | .pktRd _ => true
  | .pktWr _ => true
  | .pktTpost _ => true
  | .pktRdData _ => true
  | .pktWrAck _ => true
  | .pktTpostAck _ => true
  | .pktNak _ => true
  | .mrd _ => true
  | .mwr _ => true
  | .mrdData _ => true
  | .mwrAck _ => true
  | .mnak _ => true
  | .networkOpTimeout node unit _ => inRange node 128 && inRange unit 32
  | .linkDown node port => inRange node 164 && inRange port 15
  | .drainPause => true
  | .drainRoutersEmpty => true
  | .drainTimeout node => inRange node 164
  | .mcHoldExpire node _ => inRange node 164
  | .mcGroupApply _ _ => true
  | .accContrib _ => true
  | .accordCombineDone node slot => inRange node 128 && inRange slot 64
  | .accordOutputAcked node slot => inRange node 128 && inRange slot 64
  | .accordDeliveryEnd node slot _ => inRange node 128 && inRange slot 64
  | .accordForwardAccepted node slot => inRange node 128 && inRange slot 64
  | .accordTimeout node slot => inRange node 128 && inRange slot 64
  | .accDescWrite node slot w _ => inRange node 128 && inRange slot 64 && inRange w 4
  | .stepForm hub => inRange hub 4
  | .coldMoveFinish hub _ _ => inRange hub 4
  | .stepStart hub => inRange hub 4
  | .donePoll hub => inRange hub 4
  | .stepTimeout hub => inRange hub 4
  | .abortedWaitTimeout hub => inRange hub 4
  | .stepCommit hub => inRange hub 4
  | .journalRecord hub _ => inRange hub 4
  | .journalAck hub => inRange hub 4
  | .heartbeat hub => inRange hub 4
  | .heartbeatMiss => true
  | .rqeEnable hub _ _ => inRange hub 4
  | .rqeDrain hub _ _ => inRange hub 4
  | .rqeRetry hub _ _ => inRange hub 4
  | .rqeTakeover hub _ _ => inRange hub 4
  | .rqeIlogStreamWrite hub _ _ => inRange hub 4
  | .sqTailDoorbell hub q _ _ => inRange hub 4 && inRange q 64
  | .submit _ q _ => inRange q 64
  | .promptReadComplete _ q _ _ => inRange q 64
  | .cancel _ q _ => inRange q 64
  | .cqHeadDoorbell hub q _ _ => inRange hub 4 && inRange q 64
  | .cqEnable hub q _ _ => inRange hub 4 && inRange q 64
  | .leaseAcquire _ => true
  | .leaseRenew _ => true
  | .leaseRelease _ => true
  | .leaseExpire => true
  | .pcieLinkReset _ => true
  | .pcieLinkReturn _ => true
  | .hostLossTimeout _ => true
  | .bar0ReadTlp _ _ _ => true
  | .bar0WriteTlp _ _ _ _ => true
  | .bar2ReadTlp _ _ _ => true
  | .bar2WriteTlp _ _ _ _ => true
  | .registerWrite _ _ _ => true
  | .coreAbortQueues c => inRange c 1024
  | .coreHaltReq c => inRange c 1024
  | .coreAttention c => inRange c 1024
  | .coreStart c _ => inRange c 1024
  | .coreTokenWrite c n _ => inRange c 1024 && inRange n 32
  | .barrierApply _ _ => true
  | .barrierAbort _ _ => true
  | .fabricBarArrive ch _ => inRange ch 16
  | .barRelease ch _ => inRange ch 16
  | .barReleaseDelayExpire ch => inRange ch 16
  | .extBarrierTimeout ch => inRange ch 16
  | .barAbort ch => inRange ch 16
  | .extBarrierSelfAbort ch => inRange ch 16
  | .barJoin ch _ => inRange ch 16
  | .calProbe ch _ => inRange ch 16
  | .calEcho ch _ _ _ _ => inRange ch 16
  | .calDelay ch _ => inRange ch 16
  | .calibrationTimer ch => inRange ch 16
  | .clkPointWrite node n _ => inRange node 128 && inRange n 21
  | .pointChangeDone node n => inRange node 128 && inRange n 21
  | .droopStretch node n k => inRange node 128 && inRange n 21 && inRange k 5
  | .stretchRecover node n => inRange node 128 && inRange n 21
  | .marginSample node n _ _ _ => inRange node 128 && inRange n 21
  | .marginAlarmRelease node n => inRange node 128 && inRange n 21
  | .zoneTempSample z _ _ _ => inRange z 14
  | .zoneShutdownTimeout z => inRange z 14
  | .throttleTokenGrant => true
  | .ceilingChangeDone => true
  | .powerCapSample _ _ => true
  | .efuseOpen z => inRange z 14
  | .stage0 => true
  | .stage1 _ _ _ => true
  | .stage2 _ => true
  | .stage3 _ => true
  | .stage4 _ => true
  | .stage5 _ => true
  | .stage6 _ => true
  | .stage7 _ => true
  | .stage8 _ => true
  | .stage9 _ => true
  | .stageBoundExpire => true
  | .bringupRetry _ _ => true
  | .fflClear _ _ => true
  | .errorReport hub _ => inRange hub 4
  | .errorHandlingStart hub => inRange hub 4
  | .spareCheckDone _ => true
  | .clusterHaltTimeout => true
  | .pmcWatchdogTrip hub _ => inRange hub 4
  | .pmcResume hub => inRange hub 4
  | .predictMarginCross _ => true
  | .serviceDrydown _ => true
  | .serviceReturn _ => true
  | .serviceRestart _ _ => true
  | .pairingAttempt _ => true
  | .mirrorWr _ _ => true
  | .mirrorDelta _ _ _ => true
  | .mirrorAck _ _ => true
  | .mirrorCtrl _ => true
  | .mirrorAckTimeout => true
  | .mirrorSyncDone => true
  | .handoffAck _ => true
  | .handoffAckTimeout => true
  | .returnRetry => true
  | .fabricPacketReceive hub port _ _ _ _ => inRange hub 4 && inRange port 4
  | .fabricRd hub _ => inRange hub 4
  | .fabricWr hub _ => inRange hub 4
  | .fpost hub _ => inRange hub 4
  | .fabricRdData hub _ => inRange hub 4
  | .fabricWrAck hub _ => inRange hub 4
  | .fabricNak hub _ => inRange hub 4
  | .fabricRequestTimeout hub _ => inRange hub 4
  | .sillageRecover limiter _ => inRange limiter.hub 4
  | .fqProducerWrite hub q _ => inRange hub 4 && inRange q 8
  | .fqPoll hub q => inRange hub 4 && inRange q 8
  | .fabricGet hub q _ => inRange hub 4 && inRange q 8
  | .fabricPut hub q _ => inRange hub 4 && inRange q 8
  | .fabricPutPost hub q _ => inRange hub 4 && inRange q 8
  | .routeApply hub => inRange hub 4
  | .portQueueEmpty hub port => inRange hub 4 && inRange port 4
  | .portDrainTimeout hub port => inRange hub 4 && inRange port 4
  | .hjfDetach hub => inRange hub 4
  | .detach hub port => inRange hub 4 && inRange port 4
  | .detachAck hub port => inRange hub 4 && inRange port 4
  | .detachTimeout hub => inRange hub 4
  | .fabricPortDown hub port => inRange hub 4 && inRange port 4
  | .laneDegraded hub port _ => inRange hub 4 && inRange port 4
  | .fabricPortUp hub port _ _ => inRange hub 4 && inRange port 4
  | .ownerProgram hub _ => inRange hub 4
  | .ownerRevoke hub _ => inRange hub 4
  | .flaconFloor hub _ => inRange hub 4
  | .fwFloor hub _ => inRange hub 4
  | .debugUnlock hub _ => inRange hub 4
  | .debugRelock hub => inRange hub 4
  | .debugWindowExpire hub => inRange hub 4
  | .entropyFail hub => inRange hub 4
  | .guestTransaction site _ => inRange site 4
  | .oeReading _ _ _ _ _ => true
  | .getVersion hub _ => inRange hub 4
  | .getCapabilities hub _ => inRange hub 4
  | .negotiateAlgorithms hub _ => inRange hub 4
  | .getDigests hub _ => inRange hub 4
  | .getCertificate hub _ _ => inRange hub 4
  | .challenge hub _ _ _ => inRange hub 4
  | .getMeasurements hub _ _ _ => inRange hub 4
  | .setEndpointId hub _ _ => inRange hub 4
  | .getEndpointId hub _ => inRange hub 4
  | .getMctpVersionSupport hub _ => inRange hub 4
  | .getMessageTypeSupport hub _ => inRange hub 4
  | .getVendorDefinedMessageSupport hub _ => inRange hub 4
  | .entdaa hub _ => inRange hub 4
  | .setdasa hub _ _ => inRange hub 4
  | .rstdaa hub => inRange hub 4
  | .requestUpdate e _ => inRange e.hub 4
  | .verifyComplete e _ => inRange e.hub 4
  | .activateFirmware hub _ => inRange hub 4
  | .pldmSensorRefresh => true
  | .powerApplied => true
  | .brownOutSustained => true
  | .brownOutRailsOff => true
  | .inputUnderVoltage => true
  | .inputOverVoltage => true
  | .powerRemoved => true
  | .panelResetAssert _ => true
  | .panelResetDeassert => true
  | .matrixPassDone c => inRange c 1024
  | .vectorOpDone c => inRange c 1024
  | .standbySnapshot _ _ _ => true
  | .frefLoss hub => inRange hub 4
  | .doeDiscovery hub _ => inRange hub 4
  | .setEventReceiver e _ => inRange e.hub 4
  | .pldmType5Transfer e _ _ => inRange e.hub 4
  | .configurationWrite _ _ => true
  | .jtagInstruction hub _ => inRange hub 4

end Sys2Proof
end

