-- ==== Sys2Proof/Tests/Slice0.lean ====
section
/-! SUPPORT. Tests: well-formedness refuses what is out of range, single commands give what the spec says, and the hypotheses
of every statement can be met. -/

open Sys2Proof Sys2Proof.Machine

namespace Sys2Proof.Tests

/-! The tests evaluate much, so they run one after another. -/

set_option Elab.async false

/-! ### Well-formedness: one ill-formed term for each check -/

theorem test_wf_core : (Instr.ret 1024 0).wellFormed = false ∧ (Instr.ret 1023 0).wellFormed = true := by decide
theorem test_wf_hub : (Instr.stepForm 4).wellFormed = false ∧ (Instr.stepForm 3).wellFormed = true := by decide
theorem test_wf_channel : (Instr.barReleaseDelayExpire 16).wellFormed = false ∧
    (Instr.barReleaseDelayExpire 15).wellFormed = true := by decide
theorem test_wf_stack : (Instr.hbmRefresh 36).wellFormed = false ∧ (Instr.hbmRefresh 35).wellFormed = true := by decide
theorem test_wf_cluster : (Instr.cmemScrubTick 64 0).wellFormed = false ∧ (Instr.cmemScrubTick 63 2).wellFormed = false ∧
    (Instr.cmemScrubTick 63 1).wellFormed = true := by decide
theorem test_wf_line : (Instr.rcLineFill 0 0 (2 ^ 48) 0 .ok).wellFormed = false ∧
    (Instr.rcLineFill 0 0 (2 ^ 48 - 1) 0 .ok).wellFormed = true := by decide
theorem test_wf_group : (Instr.groupSpillDone 0 16).wellFormed = false ∧ (Instr.groupSpillDone 0 15).wellFormed = true := by
  decide
theorem test_wf_token : (Instr.coreTokenWrite 0 32 0).wellFormed = false ∧ (Instr.coreTokenWrite 0 31 0).wellFormed = true := by
  decide
theorem test_wf_router : (Instr.drainTimeout 164).wellFormed = false ∧ (Instr.drainTimeout 163).wellFormed = true := by decide
theorem test_wf_router_port : (Instr.routerPacketReceive 163 15 []).wellFormed = false ∧
    (Instr.routerPacketReceive 163 14 []).wellFormed = true := by decide
theorem test_wf_unit : (Instr.networkOpTimeout 128 0 0).wellFormed = false ∧ (Instr.networkOpTimeout 127 32 0).wellFormed = false ∧
    (Instr.networkOpTimeout 127 31 0).wellFormed = true := by decide
theorem test_wf_slot : (Instr.accordTimeout 127 64).wellFormed = false ∧ (Instr.accordTimeout 127 63).wellFormed = true := by
  decide
theorem test_wf_slot_word : (Instr.accDescWrite 0 0 4 0).wellFormed = false ∧ (Instr.accDescWrite 0 0 3 0).wellFormed = true := by
  decide
theorem test_wf_island : (Instr.clkPointWrite 127 21 0).wellFormed = false ∧ (Instr.clkPointWrite 127 20 0).wellFormed = true := by
  decide
theorem test_wf_droop : (Instr.droopStretch 0 0 5).wellFormed = false ∧ (Instr.droopStretch 0 0 4).wellFormed = true := by decide
theorem test_wf_zone : (Instr.efuseOpen 14).wellFormed = false ∧ (Instr.efuseOpen 13).wellFormed = true := by decide
theorem test_wf_queue : (Instr.submit false 64 []).wellFormed = false ∧ (Instr.submit false 63 []).wellFormed = true := by decide
theorem test_wf_doorbell : (Instr.sqTailDoorbell 3 64 .hostB 0).wellFormed = false ∧
    (Instr.sqTailDoorbell 3 63 .hostB 0).wellFormed = true := by decide
theorem test_wf_fabric_port : (Instr.portQueueEmpty 3 4).wellFormed = false ∧ (Instr.portQueueEmpty 3 3).wellFormed = true := by
  decide
theorem test_wf_fabric_queue : (Instr.fqPoll 3 8).wellFormed = false ∧ (Instr.fqPoll 3 7).wellFormed = true := by decide
theorem test_wf_guest (k : Packet) : (Instr.guestTransaction 4 k).wellFormed = false ∧
    (Instr.guestTransaction 3 k).wellFormed = true := ⟨rfl, rfl⟩

/-! ### States for the tests -/

/-- The whole shape with both edge rails up; core 0 runs in program mode with speculation on. -/
def tP : Panel :=
  let p := Panel.reset
  let p := p.fput F.HUB_SHAPE_valid 1
  let p := p.fput F.HUB_SHAPE_logical_rows 8
  let p := p.fput F.HUB_SHAPE_logical_cores 1024
  let p := p.fput F.HUB_SHAPE_working_stacks 36
  let p := p.fput F.CORE_STATUS_running 1 0
  let p := p.fput F.CORE_STATUS_halted 0 0
  let p := p.fput F.CORE_STATUS_mode 0 0
  { p with pwr := { p.pwr with in44 := true, railW := true, railE := true }, bring := { p.bring with zonesLost := [] } }

def st (p : Panel) : State := ⟨p, []⟩

/-- tP with core 0 changed. -/
def tC (f : Core → Core) : State := st (tP.modCore 0 f)

/-- Core 0 in firmware mode. -/
def tFw : Panel := tP.fput F.CORE_STATUS_mode 1 0

/-- Core 0 with a branch unresolved. -/
def tBr (taken pred : Bool) : Core → Core := fun k => { k with spec := some ⟨k.q, 3, taken, pred, 9, 2, [], none⟩ }

/-- A descriptor of an 8-bit slice of 64 × n bytes at offset o of core 0's scratchpad. -/
def tD (o n : Nat) : W256 :=
  BitVec.ofNat 256 (scratchPa 0 o + 7 * 2 ^ 56 + 64 * 2 ^ 96 + 64 * 2 ^ 160 + n * 2 ^ 192 + 2 ^ 212)

/-- An open group that is resident, of kind k. -/
def tG (k : Nat) : Group :=
  { Group.zero with state := .resident, position := 1, desc := ⟨BitVec.ofNat 64 k, 0, 0, 0, 0, 0⟩ }

theorem completes_some {p p' : Panel} {c : Nat} (h : (p'.completeAt c (p.core c).q.pc).isSome = true) :
    ∃ q, Completes p c p' q := Option.isSome_iff_exists.1 h

theorem test_wf_reset : State.reset.p.wf ∧ tP.wf ∧ tFw.wf := by
  refine ⟨?_, ?_, ?_⟩ <;> (unfold Panel.wf; decide)

/-! ### The hypotheses of the statements can be met: the core -/

theorem witness_RegisterFormsWriteTheirResult :
    Issues tP 0 .issues ∧ (∀ r ∈ [(31 : BitVec 5), 0, 1], (tP.core 0).unready r = false) ∧
    (∃ q, Completes tP 0 (tP.setS 0 31 5) q) ∧ (∃ f : RegForm, f.rsvd = 1) :=
  ⟨by unfold Issues; decide, by decide, ⟨_, rfl⟩, ⟨⟨0, 0, 0, 1⟩, rfl⟩⟩

theorem witness_ImmediateFormsWriteTheirResult :
    Issues tP 0 .issues ∧ (∀ r ∈ [(1 : BitVec 5), 2], (tP.core 0).unready r = false) ∧
    (∃ f : ImmForm, f.imm.toNat = 63 ∧ f.ra = 0) ∧ (∃ q, Completes tP 0 (tP.setS 0 1 63) q) ∧
    (∃ f : ImmForm, f.ra = 0 ∧ f.imm.toNat = 2 ^ 32 - 1) :=
  ⟨by unfold Issues; decide, by decide, ⟨⟨1, 0, 63⟩, by decide⟩, ⟨_, rfl⟩, ⟨⟨1, 0, 0xFFFFFFFF⟩, by decide⟩⟩

theorem witness_LoadsAndStoresMoveBytes_offsets :
    (let o (i : BitVec 46) : Nat := ((tP.core 0).sreg 0 + i.signExtend 64).toNat
     (o 0x3FFFF8 ≤ 0x3FFFFF ∧ o 0x3FFFF8 % 8 = 0) ∧ (o 0x3FFFFC ≤ 0x3FFFFF ∧ o 0x3FFFFC % 4 = 0) ∧
     (o 0x3FFFE0 ≤ 0x3FFFFF ∧ o 0x3FFFE0 % 32 = 0) ∧ 0x3FFFFF < o 0x400000 ∧
     (o 0x3FFFFF ≤ 0x3FFFFF ∧ o 0x3FFFFF % 8 ≠ 0 ∧ o 0x3FFFFF % 4 ≠ 0)) := by decide

theorem witness_LoadsAndStoresMoveBytes_load : (tP.spLoad 0 0x3FFFF8 8).2.1 = false ∧
    ∃ q, Completes tP 0 ((tP.spLoad 0 0x3FFFF8 8).2.2.setS 0 1 0) q := ⟨by decide, completes_some (by decide)⟩

/-- The first word of core 0's scratchpad is poisoned. -/
def tPz : Panel := { tP with st := { tP.st with poison := [(scratchPa 0 0 / 8, ())] } }

theorem witness_LoadsAndStoresMoveBytes_poison : Issues tPz 0 .issues ∧ (tPz.spLoad 0 0 8).2.1 = true ∧
    (tPz.spLoad 0 0 4).2.1 = true ∧ (tPz.spLoad 0 0 32).2.1 = true := by unfold Issues; decide +kernel

theorem witness_LoadsAndStoresMoveBytes_sound : tP.wf ∧ tP.hasCore 1023 = true ∧ (tP.core 1023).spec = none ∧
    SoundBlock tP (.scratch 1023) (scratchPa 1023 0x3FFFE0) :=
  ⟨test_wf_reset.2.1, by decide, by decide, by unfold SoundBlock; decide +kernel⟩

theorem witness_LoadsAndStoresMoveBytes_store : ∃ q, Completes tP 0 (tP.spStore 0 0x3FFFF8 (toBytes 8 0)) q :=
  completes_some (by decide)

theorem witness_LoadsAndStoresMoveBytes_descriptor : (tP.spLoad 0 0x3FFFE0 32).2.1 = false ∧
    ∃ q, Completes tP 0 (tP.spStore 0 0x3FFFE0 (toBytes 32 0)) q := ⟨by decide, completes_some (by decide)⟩

theorem witness_DescriptorFieldsMove :
    Issues tP 0 .issues ∧ (tP.core 0).unready 1 = false ∧ (∃ d' : W256, d'.toNat % 2 ^ 232 = 0 ∧ d'.toNat / 2 ^ 256 = 0 ∧
      d'.toNat / 2 ^ 232 % 2 ^ 24 = 5) ∧ (∃ q, Completes tP 0 (tP.modCore 0 fun k => k.setD 15 (BitVec.ofNat 256 (5 * 2 ^ 232))) q) :=
  ⟨by unfold Issues; decide, by decide, ⟨BitVec.ofNat 256 (5 * 2 ^ 232), by decide⟩, completes_some (by decide)⟩

theorem witness_BranchesCompareAndOpen :
    Issues tP 0 .waits ∧ (∀ r ∈ [(1 : BitVec 5), 2], (tP.core 0).unready r = false) ∧
    (let t (off : BitVec 32) : Int := (tP.core 0).q.pc + off.toInt; (0 ≤ t 32767 ∧ t 32767 < 32768)) ∧
    (∃ q, Completes tP 0 tP q) :=
  ⟨by unfold Issues; decide, by decide, by decide, ⟨_, rfl⟩⟩

theorem witness_JumpsGoToTheirTarget :
    Issues tP 0 .issues ∧ Issues tP 0 .waits ∧ (tP.core 0).unready 31 = false ∧ ((tP.core 0).sreg 31).toNat < 32768 ∧
    (let t (off : BitVec 32) : Int := (tP.core 0).q.pc + off.toInt; (0 ≤ t 0 ∧ 0 ≤ t 32767 ∧ t 32767 < 32768)) ∧
    (((tC fun k => k.setS 1 32767).p.core 0).sreg 1).toNat = 32767 :=
  ⟨by unfold Issues; decide, by unfold Issues; decide, by decide, by decide, by decide, by decide⟩

/-- Core 0 inside four loop levels. -/
def tLoops : Panel := (tC fun k => { k with q := k.q.setLoops false (List.replicate 4 ⟨1, 9, 5⟩) }).p

theorem witness_LoopOpensALevel_traps :
    Issues tLoops 0 .waits ∧ 4 ≤ ((tLoops.core 0).q.loops (tLoops.fwMode 0)).length ∧
    (∃ l, ((tLoops.core 0).q.loops (tLoops.fwMode 0)).head? = some l ∧ l.last < (tLoops.core 0).q.pc + (10 : BitVec 16).toNat ∧
      (tLoops.core 0).q.pc + (9 : BitVec 16).toNat ≤ l.last) ∧
    32767 < (tLoops.core 0).q.pc + (32768 : BitVec 16).toNat :=
  ⟨by unfold Issues; decide, by decide, ⟨_, rfl, by decide, by decide⟩, by decide⟩

theorem witness_LoopOpensALevel :
    Issues tP 0 .waits ∧ (tP.core 0).unready 0 = false ∧
    (let e (body : BitVec 16) : Nat := (tP.core 0).q.pc + body.toNat; e 32767 ≤ 32767) ∧
    ((tP.core 0).q.loops (tP.fwMode 0)).length < 4 ∧
    (∀ l, ((tP.core 0).q.loops (tP.fwMode 0)).head? = some l → 5 ≤ l.last) ∧ (∃ q, tP.completeAt 0 5 = some q) :=
  ⟨by unfold Issues; decide, by decide, by decide, by decide, by decide, ⟨_, rfl⟩⟩

theorem witness_BranchResolveCommitsOrSquashes :
    (∃ sp, ((tC (tBr true true)).p.core 0).spec = some sp ∧ sp.taken = sp.predTaken) ∧
    (∃ sp, ((tC (tBr true false)).p.core 0).spec = some sp ∧ sp.taken ≠ sp.predTaken ∧ sp.heldTrap = none) ∧
    (tP.core 0).spec = none ∧ (∀ o ∈ ((tC (tBr true true)).p.core 0).dmaQ, o.failed = false) ∧ tP.wf ∧ 1023 < 1024 :=
  ⟨⟨_, rfl, rfl⟩, ⟨_, rfl, by decide, rfl⟩, by decide, by decide, test_wf_reset.2.1, by decide⟩

/-- An instruction word from the values of its fields, each with its lowest bit. -/
def wordOfFields (l : List (Nat × Nat)) : W64 := BitVec.ofNat 64 (sumL (l.map fun e => e.2 * 2 ^ e.1))

/-- R46: one word of each class, its fields placed as R48, R52, R55, R64, R69, R93, R99 and R141 say; the fourth is R64's example. -/
theorem test_words :
    (∀ e ∈ ([([(56, 0x0E), (51, 3), (46, 1), (0, 5)], .addi 0 ⟨3, 1, 5⟩),
      ([(61, 1), (56, 0x03), (51, 3), (46, 1), (0, 0xFFFFFFFE)], .bge 0 ⟨3, 1, 0, -2⟩),
      ([(61, 2), (51, 31), (50, 1), (40, 1023), (24, 65535), (20, 5)], .tpost 0 ⟨31, true, 1023, 65535, 5, 0⟩),
      ([(0, 0x6025180008000000)], .dmaCopy 0 ⟨2, 5, 3, 1, 0⟩),
      ([(61, 4), (56, 2), (52, 15), (48, 1), (44, 2), (40, 7), (36, 7), (35, 1), (34, 1), (16, 9)],
        .mmaBr 0 ⟨15, 1, 2, 7, 7, true, true, 0, 9, 0⟩),
      ([(61, 5), (56, 1), (51, 31), (46, 1), (41, 2), (36, 3), (33, 4), (28, 5), (27, 1), (0, 6)],
        .vsub 0 ⟨31, 1, 2, 3, 4, 5, true, 6⟩),
      ([(61, 6), (56, 2), (52, 15), (47, 1), (42, 31), (26, 65535)], .accSend 0 ⟨15, 1, 31, 65535, 0⟩),
      ([(61, 7), (51, 3), (34, 0x22)], .csrr 0 ⟨3, 0, 0x22, 0⟩)] : List (List (Nat × Nat) × Instr)),
      coreInstr 0 (wordOfFields e.1) = some e.2) ∧ coreInstr 0 (wordOfFields [(56, 0x1F)]) = none := by decide

/-- Core 0's instruction 0 is ADD s3, s1, s2: class 0, op 0 (R46, R49). -/
def tImem : Panel := { tP with st := { tP.st with imem := [(0, wordOfFields [(51, 3), (46, 1), (41, 2)])] } }

theorem witness_CompletionMovesPastTheInstruction :
    tP.wf ∧ Issues tP 0 .issues ∧ (∃ i, coreInstr 0 (smGetD tImem.st.imem (0 * 32768 + (tImem.core 0).q.pc) 0) = some i) ∧
    Issues tImem 0 .issues ∧
    (let p : Panel := { tP with st := { tP.st with imem := [(0, wordOfFields [(61, 7), (56, 8)])] } }
     Issues p 0 .issues ∧ coreInstr 0 (smGetD p.st.imem (0 * 32768 + (p.core 0).q.pc) 0) = none) ∧
    (∃ q, Completes tP 0 tP q) ∧ (∃ q, Completes (tC fun k => { k with q := { k.q with pc := 32766 } }).p 0
      (tC fun k => { k with q := { k.q with pc := 32766 } }).p q) :=
  ⟨test_wf_reset.2.1, by unfold Issues; decide, ⟨_, rfl⟩, by unfold Issues; decide, ⟨by unfold Issues; decide, by decide⟩, ⟨_, rfl⟩,
    ⟨_, rfl⟩⟩

theorem witness_ScalarRegistersHoldWhatIsWritten :
    tP.wf ∧ smSorted (tP.core 0).q.sregs = true ∧ Issues tP 0 .issues ∧ Issues tP 0 .waits ∧
    (tP.core 0).unready 31 = false ∧ ((tP.core 0).q.pc : Int) + (32767 : BitVec 32).toInt < 32768 ∧
    ((tP.core 0).sreg 1).toNat < 32768 :=
  ⟨test_wf_reset.2.1, by decide, by unfold Issues; decide, by unfold Issues; decide, by decide, by decide, by decide⟩

theorem witness_SyncInstructionsActOnTokens :
    Issues tP 0 .issues ∧ Issues tP 0 .waits ∧
    (∃ f : TpostForm, f.rsvd = 0 ∧ f.inc ≠ 0 ∧ (f.remote = true ∨ f.target = 0) ∧ f.remote = true ∧
      (tP.core 0).remotePosts < 16) ∧
    (∃ q, Completes tP 0 (tP.setCore 0 { tP.core 0 with posts := [⟨31, true, 1023, 65535, 15, 0, false⟩] }) q) ∧
    (tP.core 0).unready 1 = false ∧ (∃ q, Completes tP 0 (tP.setS 0 1 0) q) ∧
    (∃ q, Completes tP 0 (tP.fput F.CORE_TOKEN_value 0 0 31) q) ∧ tP.fget F.CORE_TOKEN_value 0 31 < 1 ∧
    (tP.core 0).classesDone 15 0 = true ∧ (∃ q, Completes tP 0 tP q) ∧ (∃ q, Completes tP 0 (tP.coreEpoch 0) q) ∧
    ((tC fun k => { k with dmaQ := [⟨.mark, 0, 0, 0, 0, false, false, none⟩], q := { k.q with seq := 1 } }).p.core 0).classesDone 2 1 = false :=
  ⟨by unfold Issues; decide, by unfold Issues; decide, ⟨⟨31, true, 1023, 65535, 15, 0⟩, by decide⟩, ⟨_, rfl⟩, by decide, ⟨_, rfl⟩,
    ⟨_, rfl⟩, by decide, by decide, ⟨_, rfl⟩, ⟨_, rfl⟩, by decide⟩

theorem witness_BarrierInstructionsPair :
    Issues tP 0 .waits ∧ smHas (tP.core 0).arrivals 15 = false ∧
    (let s := tC fun k => { k with arrivals := [(15, 0)] }
     Issues s.p 0 .waits ∧ smHas (s.p.core 0).arrivals 15 = true ∧ smHas (s.p.core 0).released 15 = false) ∧
    (let s := tC fun k => { k with arrivals := [(15, 0)], released := [(15, ())] }
     smHas (s.p.core 0).released 15 = true) :=
  ⟨by unfold Issues; decide, by decide, ⟨by unfold Issues; decide, by decide⟩, by decide⟩

theorem witness_WaitsEnd :
    (let s := tC fun k => { k with blocked := some (.twait 31 0) }
     (s.p.core 0).blocked = some (.twait 31 0) ∧ 0 ≤ s.p.fget F.CORE_TOKEN_value 0 31) ∧
    (let s := tC fun k => { k with blocked := some (.barWait 15), arrivals := [(15, 0)], released := [(15, ())] }
     (s.p.core 0).blocked = some (.barWait 15) ∧ smHas (s.p.core 0).released 15 = true) ∧
    (let s := tC fun k => { k with blocked := some (.fence 15) }
     (s.p.core 0).blocked = some (.fence 15) ∧ (s.p.core 0).classesDone 15 (s.p.core 0).q.seq = true) ∧
    ((tC fun k => { k with blocked := some .epochAdvance }).p.core 0).blocked = some .epochAdvance ∧
    ((tP.fput F.CORE_WAIT_LIMIT_limit 1 0).fget F.CORE_WAIT_LIMIT_limit 0 ≠ 0) ∧ tP.asyncDue 0 = false ∧
    (tP.raiseAsync 0 0x1F 0).asyncDue 0 = true := by decide

theorem witness_PostsAreReleasedAndCounted :
    (let s := tC fun k => { k with posts := [⟨0, false, 0, 1, 15, 0, false⟩, ⟨0, true, 1023, 1, 15, 0, false⟩] }
     (∃ o, (s.p.core 0).posts[0]? = some o ∧ o.spec = false ∧ o.remote = false ∧
       (s.p.core 0).classesDone o.mask o.seq = true) ∧
     (∃ o, (s.p.core 0).posts[1]? = some o ∧ o.remote = true)) ∧
    tP.wf ∧ (let p := tP.fput F.CORE_TOKEN_value 0xFFFFFFFF 1023 31
      p.fget F.CORE_TOKEN_value 1023 31 + 0 ≤ 0xFFFFFFFF ∧ 0xFFFFFFFF < p.fget F.CORE_TOKEN_value 1023 31 + 1) :=
  ⟨⟨⟨_, rfl, by decide⟩, ⟨_, rfl, rfl⟩⟩, test_wf_reset.2.1, by decide⟩

theorem witness_CsrInstructionsReachTheRegisters :
    Issues tP 0 .waits ∧ (∃ r n v p' q, csrReg 0 = some (r, n) ∧ tP.coreRead 0 r n = (v, p') ∧ Completes tP 0 (p'.setS 0 1 v) q) ∧
    (∃ r n, csrReg 0x20 = some (r, n) ∧ r.info.fwOnly = false ∧ (tP.get r 0 n ^^^ 1) &&& r.roMask = 0) ∧
    (∃ r n, csrReg 3 = some (r, n) ∧ r.info.fwOnly = true ∧ tP.fwMode 0 = false) ∧ csrReg 0xFFF = none ∧
    (∃ q, Completes tP 0 (tP.coreWrite 0 .CORE_TOKEN 0 1) q) :=
  ⟨by unfold Issues; decide, ⟨_, _, _, _, _, rfl, rfl, rfl⟩, ⟨_, _, rfl, by decide⟩, ⟨_, _, rfl, by decide⟩, by decide, ⟨_, rfl⟩⟩

theorem witness_TrapReturnAndHalt :
    Issues tP 0 .waits ∧ (tP.core 0).spec = none ∧ tP.fwMode 0 = false ∧ Issues tFw 0 .waits ∧ tFw.fwMode 0 = true ∧
    (tFw.core 0).spec = none :=
  ⟨by unfold Issues; decide, by decide, by decide, by unfold Issues; decide, by decide, by decide⟩

theorem witness_TrapEntrySaves : tP.wf ∧ tFw.wf ∧ tFw.fwMode 0 = true ∧ tP.fwMode 0 = false :=
  ⟨test_wf_reset.2.1, test_wf_reset.2.2, by decide⟩

/-- tP with the asynchronous causes 0x10 and 0x1F pending. -/
def tAsync : Panel := (tP.raiseAsync 0 0x10 7).raiseAsync 0 0x1F 0

theorem witness_AsyncCausesAndHaltsComplete :
    ((tAsync.core 0).spec = none ∧ bit (tAsync.fget F.CORE_TRAP_PENDING_pending 0) 0x10 = true ∧
      (∀ m < 0x10, bit (tAsync.fget F.CORE_TRAP_PENDING_pending 0) m = false) ∧ tAsync.asyncDue 0 = true ∧
      tAsync.running 0 = true ∧ (tAsync.core 0).blocked ≠ some .halting) ∧
    (let s := tC fun k => { k with blocked := some .halting }
     (s.p.core 0).blocked = some .halting ∧ (s.p.core 0).drained = true) ∧ tFw.fwMode 0 = true := by decide

/-! ### Data movement and the engines -/

/-- Core 0 with two slices that do not meet in d0 and d1, and a list in d2. -/
def tDma : State := tC fun k => { k with q := { k.q with dregs := [(0, tD 0 2), (1, tD 0x1000 2), (2,
  BitVec.ofNat 256 (scratchPa 0 0x2000 + 7 * 2 ^ 56 + 8 * 2 ^ 160 + 2 ^ 192 + 2 ^ 212))] } }

theorem witness_DmaInstructionsQueue_checks :
    (let p := tDma.p
     let ds := descOf ((p.core 0).dreg 0)
     let dd := descOf ((p.core 0).dreg 1)
     let di := descOf ((p.core 0).dreg 2)
     (p.core 0).dmaQ.length < 16 ∧ p.descOk ds = true ∧ p.descOk dd = true ∧ ds.fmt = dd.fmt ∧ ds.count = dd.count ∧
       anyMeet ds dd = false ∧ p.sliceClassOk ds = true ∧ p.sliceClassOk dd = true ∧ p.descOk di = true ∧ ds.fieldsOk = true ∧
       p.descOk ds.asTemplate = true ∧ dd.fieldsOk = true ∧ p.descOk dd.asTemplate = true ∧ listOk di ds = true ∧
       listOk di dd = true ∧ anyMeet ds.asTemplate dd = false ∧ anyMeet dd.asTemplate ds = false ∧ anyMeet di dd = false ∧
       anyMeet di dd.asTemplate = false ∧ p.touchesOk di.pclass di.listRange = true ∧
       p.touchesOk dd.pclass dd.elemRanges = true ∧ (p.core 0).unready 1 = false) := by decide

theorem witness_DmaInstructionsQueue : Issues tDma.p 0 .issues ∧ tDma.p.wf ∧
    (∃ p' q, tDma.p.dmaPut 0 .mark 31 65535 = .done p' ∧ Completes tDma.p 0 p' q) ∧
    (∃ p' q, tDma.p.dmaPut 0 (.fill (tD 0 2) 0) 31 65535 = .done p' ∧ Completes tDma.p 0 p' q) :=
  ⟨by unfold Issues; decide, by unfold Panel.wf; decide, ⟨_, _, rfl, rfl⟩, ⟨_, _, rfl, rfl⟩⟩

theorem witness_DmaOperationsComplete :
    (let s := tC fun k => { k with dmaQ := [⟨.mark, 31, 1, 0, 0, false, false, none⟩] }
     ∃ o rest n p', (s.p.core 0).dmaQ = o :: rest ∧ o.spec = false ∧ s.p.dmaRun 0 o = (true, n, p')) ∧
    (let s := tC fun k => { k with dmaQ := [⟨.copy (BitVec.ofNat 256 (2 ^ 55 + 7 * 2 ^ 56 + 8 * 2 ^ 160 + 2 ^ 192 + 2 ^ 212))
       (tD 0 1), 31, 1, 0, 0, false, false, none⟩] }
     ∃ o rest, (s.p.core 0).dmaQ = o :: rest ∧ o.spec = false ∧ (s.p.dmaRun 0 o).1 = false) :=
  ⟨⟨_, _, _, _, rfl, rfl, rfl⟩, ⟨_, _, rfl, rfl, by decide⟩⟩

/-- Core 0 with a vector operation at the head of its queue; v1 is poisoned. -/
def tVec (o : VOp) (f : VecForm) : State := tC fun k => { k with
  vpoison := [(1, ())], vecQ := [⟨o, f, 0, 0, 0, 0, 7, false⟩] }

theorem witness_VectorInstructionsQueue :
    Issues tP 0 .issues ∧ vecIllegal .vadd ⟨31, 1, 2, 0, 4, 0, false, 0⟩ = false ∧ vecIllegal .vextr ⟨31, 1, 0, 0, 4, 0, false, 127⟩ = false ∧
    vecIllegal .vld ⟨31, 0, 0, 0, 0, 0, false, 0⟩ = false ∧
    (let d : Desc := descOf ((tDma.p.core 0).dreg 0)
     ∃ x, tDma.p.vecPlace 0 ⟨31, 0, 0, 0, 4, 0, false, 63 * 2 ^ 16⟩ d 0 0 = .inl x) ∧
    (tP.core 0).vecQ.length < 16 ∧ (tP.core 0).unready 31 = false :=
  ⟨by unfold Issues; decide, by decide, by decide, by decide, ⟨_, rfl⟩, by decide, by decide⟩

theorem witness_VectorOperationsTakeEffect :
    (∃ o rest, ((tVec .vadd ⟨31, 1, 2, 0, 0, 0, false, 0⟩).p.core 0).vecQ = o :: rest ∧ o.spec = false) ∧
    (let k := (tVec .vextr ⟨31, 1, 0, 0, 0, 0, false, 127⟩).p.core 0
     ∃ o rest, k.vecQ = o :: rest ∧ o.spec = false ∧ o.op = .vextr ∧ o.reads.any k.vpoisoned = true) :=
  ⟨⟨_, _, rfl, rfl⟩, ⟨_, _, rfl, rfl, rfl, by decide⟩⟩

/-- Core 0 with 128 × 64 elements in d0 and d1, a region in d2, and group 15 resident. -/
def tMx (kind : Nat) : State := tC fun k => { k with
  groups := [(15, tG kind)],
  q := { k.q with dregs := [(0, tD 0x100000 128), (1, tD 0x110000 128), (2,
    BitVec.ofNat 256 (scratchPa 0 0x120000 + 7 * 2 ^ 56 + 512 * 2 ^ 96 + 512 * 2 ^ 160 + 128 * 2 ^ 192 + 2 ^ 212))] } }

theorem witness_MatrixPassesQueue :
    (let p := (tMx 3).p
     let k := p.core 0
     let a := descOf (k.dreg 0)
     let b := descOf (k.dreg 1)
     let d := descOf (k.dreg 2)
     k.mxQ.length < 8 ∧ p.descOk a = true ∧ p.descOk b = true ∧ (k.view 15).isOpen = true ∧
       p.descOk d = true ∧ directOk 0 d = true ∧ p.sliceClassOk d = true ∧ operandPlaceOk 0 a = true ∧
       operandPlaceOk 0 b = true ∧ a.fmt = 7 ∧ b.fmt = 7 ∧ pairOk 7 7 = true ∧ kindTakes (k.view 15).desc.kind 7 7 = true ∧
       kindTakes kindI32 7 7 = true ∧ 64 ≤ opCap a false ∧ 128 ≤ opCap b true ∧ opRows a false ≤ 128 ∧ opRows b true ≤ 128 ∧
       p.passClassOk a false 64 = true ∧ p.passClassOk b true 128 = true ∧
       (∀ x ∈ [a, b, d], ∀ bx ∈ x.boxes, k.homeMeets none (boxOffset 0 bx).1 (boxOffset 0 bx).2 = false)) ∧
    Issues (tMx 3).p 0 .issues := ⟨by decide, by unfold Issues; decide⟩

/-- Core 0's scratchpad begins with a group descriptor: INT32, one row of one element, home at 0x40000. -/
def tOpen : Panel :=
  tP.putBytes (scratchPa 0 0) (toBytes 8 (3 + 4 * 2 ^ 8) ++ toBytes 8 0x40000 ++ toBytes 8 (128 + 2 ^ 16 + 2 ^ 24))

theorem witness_GroupInstructionsQueue_open :
    (let k := tOpen.core 0
     k.unready 1 = false ∧ (k.view 15).isOpen = false ∧ (k.sreg 1).toNat % 64 = 0 ∧ (k.sreg 1).toNat ≤ 0x3FFFC0 ∧
       k.mxQ.length < 8 ∧ (tOpen.spLoad 0 (k.sreg 1).toNat 64).2.1 = false ∧
       (let bs := (tOpen.spLoad 0 (k.sreg 1).toNat 64).1
        let w (n : Nat) : W64 := BitVec.ofNat 64 (ofBytes ((bs.drop (8 * n)).take 8))
        let d : GDesc := ⟨w 0, w 1, w 2, w 3, w 4, w 5⟩
        d.ok (w 6) (w 7) = true ∧ k.homeMeets (some 15) d.home (homeBytes d.kind) = false) ∧
       (((tOpen.spLoad 0 (k.sreg 1).toNat 64).2.2).core 0).mxQ.length < 8) := by decide

/-- A group that may close: FP8 output of one element at offset 0, home past it. -/
def tGrp (kind : Nat) : State := tC fun k => { k with groups := [(15, { tG kind with
  desc := ⟨BitVec.ofNat 64 (kind + 4 * 2 ^ 8), 0x40000, BitVec.ofNat 64 (128 + 2 ^ 16 + 2 ^ 24), 0, 0, 0⟩ })] }

theorem witness_GroupInstructionsQueue :
    (let s := tGrp 0
     let k := s.p.core 0
     let v := k.view 15
     k.mxQ.length < 8 ∧ v.isOpen = true ∧ familyAllows v.family v.desc.outFmt = true ∧
       (∀ e ∈ v.desc.outRanges, k.homeMeets (some 15) e.1 e.2 = false) ∧ v.desc.kind ≤ 1 ∧ k.unready 1 = false) ∧
    Issues (tGrp 0).p 0 .issues ∧
    (∃ q, Completes (tGrp 0).p 0 ((tGrp 0).p.setCore 0 { (tGrp 0).p.core 0 with
      mxQ := [⟨.grpClose 15 31 65535, 0, false⟩] }) q) := ⟨by decide, by unfold Issues; decide, completes_some (by decide)⟩

theorem witness_MatrixEngineEvents :
    (let k := (tC fun k => { k with groups := [(15, tG 3)], mxQ := [⟨.pass 15 0 0 false false 7 7 64, 0, false⟩] }).p.core 0
     ∃ o rest pos, k.mxQ = o :: rest ∧ o.op = .pass 15 0 0 false false 7 7 64 ∧ k.passPosition o 15 = some pos) ∧
    (let o : MxOp := ⟨.direct 0 0 0 false false 7 7 64 false, 0, false⟩
     let k := (tC fun k => { k with pos1 := some directHolder, mxQ := [o] }).p.core 0
     ∃ o rest, k.mxQ = o :: rest ∧ o.op = .direct 0 0 0 false false 7 7 64 false ∧ o.spec = false ∧ k.directRuns = false ∧
       k.pos1 = some directHolder) ∧
    (∃ r rest, ((tC fun k => { k with running := [⟨⟨.direct 0 0 0 false false 7 7 64 false, 0, false⟩, [], false, false, 0, 0,
       1, 0⟩] }).p.core 0).running = r :: rest ∧ r.op.spec = false ∧ r.op.op = .direct 0 0 0 false false 7 7 64 false) ∧
    (let s := tC fun k => { k with groups := [(15, tG 3)], running :=
       [⟨⟨.pass 15 0 0 false false 7 7 64, 0, false⟩, [], false, false, 0, 0, 1, 0⟩] }
     ∃ r rest, (s.p.core 0).running = r :: rest ∧ r.op.spec = false ∧ r.op.op = .pass 15 0 0 false false 7 7 64 ∧
       ((s.p.core 0).group 15).state ≠ .closed) ∧
    ((tC fun k => { k with groups := [(15, { tG 3 with state := .spilling })] }).p.core 0 |>.group 15).state = .spilling ∧
    ((tC fun k => { k with groups := [(15, { tG 3 with state := .filling })] }).p.core 0 |>.group 15).state = .filling ∧
    (∃ o rest, ((tC fun k => { k with closing := [⟨.grpClose 15 31 65535, 0, false⟩] }).p.core 0).closing = o :: rest ∧
      o.op = .grpClose 15 31 65535) ∧
    (∃ o rest, ((tC fun k => { k with closing := [⟨.accSend 15 0 31 0, 0, false⟩] }).p.core 0).closing = o :: rest ∧
      o.op = .accSend 15 0 31 0) ∧ smSorted (tP.core 0).groups = true :=
  ⟨⟨_, _, _, rfl, rfl, rfl⟩, ⟨_, _, rfl, rfl, rfl, by decide, rfl⟩, ⟨_, _, rfl, rfl, rfl⟩, ⟨_, _, rfl, rfl, rfl, by decide⟩, by decide, by decide, ⟨_, _, rfl, rfl⟩, ⟨_, _, rfl, rfl⟩, by decide⟩

/-! ### Cluster memory, the network and accords -/

theorem witness_ClusterMemoryCommands :
    tP.hasCore 1023 = true ∧ tP.hasDie 63 = true ∧ 1 < 2 ∧
    ((tP.fput F.CD_CMEM_SCRUB_enable 1 63 1).flag F.CD_CMEM_SCRUB_enable 63 1 = true) ∧
    (∃ v : W64, v.getLsbD F.CD_RC_EPOCH_advance.lo = true) ∧ tP.accessStatus (0 * 256) 256 ≠ 2 ∧
    (let v : W64 := F.CD_CMEM_PART_kv_mib.write (F.CD_CMEM_PART_rc_mib.write 0 64) 64
     F.CD_CMEM_PART_rc_mib.read v + F.CD_CMEM_PART_kv_mib.read v ≤ 128 ∧ F.CD_CMEM_PART_rc_mib.read v ≤ 64) ∧
    (let v : W64 := F.CD_CMEM_PART_kv_mib.write (F.CD_CMEM_PART_rc_mib.write 0 64) 65
     128 < F.CD_CMEM_PART_rc_mib.read v + F.CD_CMEM_PART_kv_mib.read v) ∧
    (∀ i, i < 8 → tP.halted (63 * 16 + 1 * 8 + i) = true) ∧ tP.flag F.RQE_CONTROL_enable 0 = false ∧
    tP.flag F.RQE_CONTROL_enable 3 = false ∧ tP.fget F.CD_RC_EPOCH_epoch 63 1 < 65535 ∧
    (tP.fput F.CD_RC_EPOCH_epoch 65535 63 1).fget F.CD_RC_EPOCH_epoch 63 1 = 65535 ∧
    (let p := tP.fput F.CD_CMEM_PART_rc_mib 64 63 1
     0 = p.fget F.CD_RC_EPOCH_epoch 63 1 ∧ p.flag F.CD_RC_EPOCH_clearing 63 1 = false ∧ 0 < p.rcBytes 63 1) ∧
    smSorted tP.st.undef = true := by
  refine ⟨?_, ?_, ?_, ?_, ⟨BitVec.allOnes 64, ?_⟩, ?_⟩ <;> decide

theorem witness_ClusterMemoryCommands_fill :
    tP.accessStatus (scratchPa 0 0 / 256 * 256) 256 = 0 ∧
    (tP.readTagged (scratchPa 0 0 / 256 * 256) 256).1.any (·.2) = false := ⟨by decide, by decide +kernel⟩

theorem witness_RoutersTakeOrDiscardPackets :
    (let good : List (List Byte × BitVec 16) := [([1, 2], flitCrc [1, 2])]
     let bad : List (List Byte × BitVec 16) := [([1, 2], ~~~ flitCrc [1, 2])]
     (good.all fun f => flitCrc f.1 == f.2) = true ∧ (bad.all fun f => flitCrc f.1 == f.2) = false ∧
     ∀ l ∈ [good, bad], tP.behind 0x73 14 (packetOf (l.map (·.1))) = false ∧
       (tP.creditsFor 0x73 14 (chanOf (packetOf (l.map (·.1)))) l.length).isSome = true) ∧
    tP.routers.contains 0x73 = true ∧ tP.flag F.PNW_POOL_STATUS_paused 0x73 = false ∧
    (tP.fput F.PNW_POOL_STATUS_paused 1 0).flag F.PNW_POOL_STATUS_paused 0 = true ∧ tP.creditsFor 0 14 0 18 = none := by
  and_intros <;> decide +kernel

/-- A packet to node dst for panel address a. -/
def tK (op dst a len : Nat) : Packet :=
  { plainPacket op 0 5 0 dst 0 with addr := BitVec.ofNat 56 a, length := BitVec.ofNat 10 len }

theorem witness_RequestsAreServedAtTheirHome :
    tP.nodeUp 63 = true ∧ (tK 0 63 0 8).mc = false ∧ tP.early (tK 0 63 0 8) = false ∧
    (let k : Packet := { tK 1 0x7F 0 8 with mc := true, srcNode := 0x70, srcUnit := 24, w3 := 1 }
     k.mc = true ∧ mcOk k = true ∧ ({ tP with net := { tP.net with flying := [⟨0x70, 0x70, k, 1, none⟩] } } : Panel).net.flying.any
       (fun f => f.p == k) = true) ∧
    ({ tP with net := { tP.net with flying := [⟨0, 1, tK 0 63 0 8, 1, none⟩] } } : Panel).early (tK 0 63 0 8) = true ∧
    (let p := tP.takePacket (tK 0 0 (scratchPa 0 0) 64)
     p.accessStatus (scratchPa 0 0) 64 = 0 ∧ p.accessStatus (2 ^ 55) 64 = 1 ∧ (p.readRange (scratchPa 0 0) 8).2.1 = false) ∧
    tP.hasCore 1023 = true ∧ tP.isFenced 1023 = false ∧ (tP.modCore 1023 fun k => { k with fenced := true }).isFenced 1023 = true ∧
    (tP.fput F.HUB_SHAPE_logical_cores 1022).hasCore 1023 = false := by decide

/-- A panel in which node 5's unit 3 waits with tag 9. -/
def tWait (k : WaitKind) : Panel := { tP with net := { tP.net with waiting := [⟨5, 3, 9, k⟩] } }

/-- A response to node 5, unit 3, tag 9. -/
def tAns : Packet := { plainPacket 8 1 0 3 5 9 with status := 0 }

theorem witness_ResponsesReachTheirRequester :
    (∀ k ∈ [WaitKind.hub, .post 83 1023, .dma 83 0, .send 83 0, .accordRow 63 127, .accordPost 63, .multicast 1, .guest 3 7],
      let p := (tWait k).takePacket tAns
      (tWait k).nodeUp tAns.dstNode.toNat = true ∧ (tWait k).early tAns = false ∧
      (p.net.waiting.find? fun w => w.node == tAns.dstNode.toNat && w.unit == tAns.srcUnit.toNat && w.tag == tAns.tag) =
        some ⟨5, 3, 9, k⟩ ∧ responseCore tAns = some 83 ∧ p.isFenced 83 = false) ∧
    (tP.modCore 83 fun k => { k with fenced := true }).isFenced 83 = true ∧ tP.nodeUp 0x7E = false ∧
    (let p := tP.modCore 83 fun k => { k with closing := [⟨.accSend 15 0 31 0, 0, false⟩] }
     ((p.core 83).closing.find? fun o => o.seq == 0).isSome = true) ∧
    (let g := (tP.setGuest 3 { tP.guestSite 3 with bucket := 1024 }).guestSite 3
     g.back = [] ∧ tAns.payload.length ≤ g.bucket ∧ ¬ 1025 ≤ g.bucket) ∧
    ((tP.setGuest 3 { tP.guestSite 3 with back := [tAns] }).guestSite 3).back ≠ [] := by decide

/-- tP with node 5's unit 3 waiting in a drain. -/
def tDrain : Panel := (tWait (.post 83 1023)).fput F.PNW_DRAIN_STATUS_in_progress 1

/-- A packet held in the pool of node 0, which came by port 14. -/
def tHeld (mc : Bool) : Flying := ⟨0, 1, { tK 0 1 0 8 with mc := mc }, 1, some ⟨14, 0, false⟩⟩

theorem witness_NetworkFailuresAndDrains :
    (∀ k ∈ [WaitKind.hub, .post 83 1023, .dma 83 7, .accordRow 63 127, .multicast 64],
      ((tWait k).net.waiting.find? fun w => w.node == 5 && w.unit == 3 && w.tag == 9) = some ⟨5, 3, 9, k⟩ ∧
      (tWait k).flag F.PNW_DRAIN_STATUS_in_progress = false) ∧
    tDrain.flag F.PNW_DRAIN_STATUS_in_progress = true ∧
    (([tHeld true].filter fun f => f.inPool 0 && f.p.mc)[0]? = some (tHeld true)) ∧ tP.neighbour 0 3 = some 112 ∧
    tP.routers.contains 0 = true ∧ (∀ n ∈ tP.routers, n < 256) ∧ tP.swapHeld = false ∧
    (let p : Panel := { tP with net := { tP.net with swapDue := true }, pmc := { tP.pmc with restarting := [0] } }
     p.swapHeld = true) ∧
    (let p : Panel := { tDrain with net := { tDrain.net with flying := [tHeld false] } }
     p.poolEmpty 0 = false ∧ p.flag F.PNW_DRAIN_STATUS_in_progress = true) := by
  and_intros <;> decide +kernel

/-- Host B holds the lease; group 63 is enabled with the dies of its mask, which its last apply took too. -/
def tGroup (on : Nat) (dies : W64) : Panel :=
  let p := ((tP.fput F.PCI_LEASE_holder 2).fput F.PNW_MC_UNIT_enable on 0 63).put .PNW_MC_DEF dies 0 63
  p.fput F.PNW_MC_CONTROL_group 63

theorem witness_MulticastGroupsApply :
    MayWrite (tGroup 0 0) .hostB ∧ (let v := F.PNW_MC_CONTROL_group.write (maskOf 63 0) 63
      v.getLsbD F.PNW_MC_CONTROL_apply.lo = true ∧ F.PNW_MC_CONTROL_group.read v = 63) ∧
    (0 : W64).getLsbD F.PNW_MC_CONTROL_apply.lo = false ∧ (tGroup 0 0).flag F.PNW_MC_UNIT_enable 0 63 = false ∧
    (tGroup 1 1).flag F.PNW_MC_UNIT_enable 0 63 = true ∧
    (∀ d ∈ (tGroup 1 (1 <<< 63)).definedDies 63, (tGroup 1 (1 <<< 63)).hasDie d = true) ∧
    (let p := (tGroup 1 (1 <<< 63)).fput F.HUB_SHAPE_logical_rows 6
     ∃ d ∈ p.definedDies 63, p.hasDie d = false) := by
  unfold MayWrite; decide +kernel

/-- Slot 63 of MPD 0x63 in a state, its descriptor posting to core 1023. -/
def tAcc (state : Nat) (w0 : W64) : Panel :=
  ((tP.put .ACC_DESC w0 0x63 63 0).put .ACC_DESC (BitVec.ofNat 64 (2 ^ 15 + 1023)) 0x63 63 3).setAccState 0x63 63 state

theorem witness_AccordsRun :
    (tAcc 0 0).hasAcc 0x63 = true ∧ (∀ n ∈ [0, 1, 2, 3, 4], (tAcc n 0).accState 0x63 63 = n) ∧
    (tK 0x10 0x63 0 0).dstNode.toNat = 0x63 ∧ (tAcc 0 0).early (tK 0x10 0x63 0 0) = false ∧
    (tAcc 0 0).flag F.PNW_DRAIN_STATUS_in_progress = false ∧
    ((tAcc 0 0).fput F.PNW_DRAIN_STATUS_in_progress 1).flag F.PNW_DRAIN_STATUS_in_progress = true ∧
    (let p := tAcc 0 0
     let d := p.accDesc 0x63 63
     bit (0 : W64).toNat 63 = false ∧ bit (BitVec.allOnes 64 : W64).toNat 63 = true ∧
       p.accValid 0x63 63 { d with w0 := 2 ^ 64 - 1 } = false) ∧
    (let p := tAcc 3 0
     let d := p.accDesc 0x63 63
     d.forward = false ∧ (p.accSlot 0x63 63).rowsLeft = 0 ∧ (p.accSlot 0x63 63).rowFailed = false ∧
       (p.accSlot 0x63 63).posted = false ∧ d.increment ≠ 0 ∧ p.hasCore d.core = true) ∧
    (let p := (tAcc 3 0).fput F.HUB_SHAPE_logical_cores 1023
     p.hasAcc 0x63 = true ∧ (p.accDesc 0x63 63).increment ≠ 0 ∧ p.hasCore (p.accDesc 0x63 63).core = false) ∧
    (∀ ok ∈ [none, some true, some false],
      let p := (tAcc 3 0).modAcc 0x63 63 fun x => { x with posted := true, postOk := ok }
      p.accState 0x63 63 = 3 ∧ (p.accSlot 0x63 63).posted = true ∧ (p.accSlot 0x63 63).postOk = ok ∧
        (p.accSlot 0x63 63).rowsLeft = 0 ∧ (p.accSlot 0x63 63).rowFailed = false) ∧
    (let p := (tAcc 3 0).modAcc 0x63 63 fun x => { x with rowsLeft := 128 }
     (p.accSlot 0x63 63).rowsLeft ≠ 0 ∧ (p.accSlot 0x63 63).rowFailed = false) ∧
    (((tAcc 3 0).modAcc 0x63 63 fun x => { x with rowFailed := true }).accSlot 0x63 63).rowFailed = true ∧
    ((tAcc 3 0x10000).accDesc 0x63 63).forward = true := by and_intros <;> decide +kernel

theorem witness_AccordsRun_enable : ∃ w0 : W64, bit w0.toNat 63 = true ∧
    (tAcc 0 0).accValid 0x63 63 { (tAcc 0 0).accDesc 0x63 63 with w0 := w0.toNat } = true := ⟨BitVec.ofNat 64 (2 ^ 63 + 2 ^ 48 + 2 ^ 16), by decide +kernel⟩

/-! ### Barriers and HBM -/

/-- Every core halted, host A holding the lease. -/
def tIdle : Panel :=
  ((tP.fput F.CORE_STATUS_running 0 0).fput F.CORE_STATUS_halted 1 0).fput F.PCI_LEASE_holder 1

/-- One row of dies and no stack: an empty table has no error. -/
def tSmall : Panel := ((tIdle.fput F.HUB_SHAPE_logical_cores 1).fput F.HUB_SHAPE_working_stacks 0)


/-- Channel 15 with cores 0 and 1 as members; core 0 blocked on its arrival. -/
def tBar : Panel :=
  let p := { tP with bars := [(15, { BarCh.empty with members := [0, 1] })] }
  (p.modCore 0 fun k => { k with blocked := some (.barArrive 15) }).fput F.PCI_LEASE_holder 1

theorem witness_BarrierChannelsRun :
    tBar.holdsLease false = true ∧ (tBar.core 0).blocked = some (.barArrive 15) ∧
    (tBar.core 0).classesDone 0b1111 (tBar.core 0).q.seq = true ∧ (tBar.bar 15).members.contains 0 = true ∧
    (let p : Panel := { tBar with bars := [(15, { tBar.bar 15 with releaseDue := true })] }; (p.bar 15).releaseDue = true) ∧
    smSorted tBar.bars = true ∧ smHas ((tC fun k => { k with arrivals := [(15, 0)] }).p.core 0).arrivals 15 = true ∧
    (tBar.bar 15).members.contains 2 = false := by decide

theorem witness_BarrierChannelsRun_signal : tBar.wf ∧ tBar.asyncDue 0 = false ∧ (tBar.raiseAsync 0 0x1F 0).asyncDue 0 = true ∧
    (∃ q, Completes tBar 0 ((tBar.modCore 0 fun k => { k with
      arrivals := smSet k.arrivals 15 (BitVec.ofNat 16 (tBar.fget F.HUB_BAR_STATUS_generation 0 15))
      released := smDel k.released 15 }).modCore 0 fun k => { k with blocked := none }) q) :=
  ⟨by unfold Panel.wf; decide, by decide, by decide, completes_some (by decide)⟩

theorem witness_BarrierChannelsRun_apply :
    (let p := tBar.fput F.HUB_BAR_DIES_dies 3 0 15
     (p.bar 15).arrived = [] ∧ (p.bar 15).outside = false ∧ smSorted p.regs = true ∧
       ∀ d ∈ upTo 64 (bit (p.get .HUB_BAR_DIES 0 15).toNat), p.hasDie d = true) ∧
    (let p := (tP.fput F.HUB_SHAPE_logical_rows 6).put .HUB_BAR_DIES (1 <<< 63) 0 15
     ∃ d ∈ upTo 64 (bit (p.get .HUB_BAR_DIES 0 15).toNat), p.hasDie d = false) ∧
    (let p : Panel := { tBar with bars := [(15, { tBar.bar 15 with arrived := [(0, ())] })] }; (p.bar 15).arrived ≠ []) := by
  decide +kernel

/-- Channel 15 extended, as root or member, its arrival sent. -/
def tExt (root : Nat) : Panel :=
  let p := ((tP.fput F.HUB_BAR_EXT_enable 1 0 15).fput F.HUB_BAR_EXT_root root 0 15).fput F.HUB_BAR_STATUS_applied 1 0 15
  { p with bars := [(15, { BarCh.empty with outside := true, cal := { BarCal.empty with joined := [4095] } })] }

theorem witness_ExtendedBarriersRun :
    (tExt 1).extended 15 = true ∧ (tExt 1).isRoot 15 = true ∧ ((tExt 1).bar 15).outside = true ∧
    ((tExt 1).fput F.HUB_BAR_EXT_panels 4095 0 15).uncounted 15 = true ∧ ((tExt 0).bar 15).releaseDue = false ∧ ((tExt 1).bar 15).cal.joined.contains 4095 = true ∧
    (tExt 0).extended 15 = true ∧ (tExt 0).isRoot 15 = false ∧ ((tExt 0).bar 15).outside = true ∧
    (0 : BitVec 32).toNat ≤ (tExt 0).fget F.HUB_BAR_EXT_delay_cycles 0 15 * 32 + (tExt 0).fget F.HJF_BAR_CAL_delay_frac 0 15 ∧
    (tExt 0).fget F.HUB_BAR_EXT_delay_cycles 0 15 * 32 + (tExt 0).fget F.HJF_BAR_CAL_delay_frac 0 15 < (BitVec.allOnes 32).toNat ∧
    (tExt 1).flag F.HUB_BAR_STATUS_applied 0 15 = true := by decide

/-- Stack 35 with its limits set and its scrubber on. -/
def tHbm : Panel :=
  ((tP.put .MPD_TEMP_LIMITS 0x5F5A55 35).fput F.MPD_SCRUB_enable 1 35).fput F.MPD_SCRUB_words_per_refi 1 35

theorem witness_HbmUpkeep :
    tHbm.nodeUp (0x40 + 35) = true ∧ (tHbm.fput F.MPD_SCRUB_enable 0 35).flag F.MPD_SCRUB_enable 35 = false ∧
    tHbm.flag F.MPD_SCRUB_enable 35 = true ∧ F.MPD_HBM_CONFIG_refresh_mode.read (1 : W64) < 2 ∧
    2 ≤ F.MPD_HBM_CONFIG_refresh_mode.read (BitVec.allOnes 64) ∧ smSorted tHbm.regs = true ∧
    (let lim := tHbm.fget F.MPD_TEMP_LIMITS_refresh_x2_c 35
     tHbm.fget F.MPD_TEMP_LIMITS_shutdown_c 35 ≤ (0x5F : BitVec 8).toNat ∧
       (0x5E : BitVec 8).toNat < tHbm.fget F.MPD_TEMP_LIMITS_shutdown_c 35 ∧ lim ≤ (0x55 : BitVec 8).toNat ∧
       (0x52 : BitVec 8).toNat + 3 ≤ lim ∧ lim < (0x54 : BitVec 8).toNat + 3 ∧ (0x54 : BitVec 8).toNat < lim) := by
  decide +kernel

/-- Bring-up in stage 6; stack 35, at site 35 of the memory port dies, has power, and its run shows the result r. -/
def tTpe (r : Nat) : Panel :=
  let p := (List.range 14).foldl (fun p z => p.setZoneState z 1) (tP.fput F.PMC_STAGE_stage 6)
  { p with bring := { p.bring with runs := [(p.stackSite 35, ⟨7, true, r, 0, 0, 0⟩)], gates := List.range 124 },
           pwr := { p.pwr with rails := (List.range 14).map (·, 4) } }

theorem witness_TestEngineAndRegionMap :
    (let p := tTpe 1
     let site := p.stackSite 35
     smSorted p.regs = true ∧ p.tpeSite 35 = some site ∧ p.inBringup = true ∧ p.siteUp (72 + site) = true ∧
       p.railsUp (zoneOfEnd (72 + site)) = 4 ∧ p.tpeRunning site = false ∧ (1 : W64).getLsbD 0 = true) ∧
    (tP.fput F.PMC_STAGE_stage 0xA).inBringup = false ∧ (tTpe 3).tpeSite 35 = some ((tTpe 3).stackSite 35) ∧
    (∃ run, smGet (tTpe 3).bring.runs ((tTpe 3).stackSite 35) = some run ∧ run.result = 3) ∧
    (BitVec.allOnes 64 : W64).getLsbD F.HUB_HBM_MAP_CONTROL_apply.lo = true ∧ tIdle.flag F.HUB_HBM_MAP_CONTROL_busy = false ∧
    ({ tP with st := { tP.st with loading := some [0] } } : Panel).st.loading = some [0] ∧ tP.mapIdle = false := by
  refine ⟨?_, ?_, ?_, ⟨⟨7, true, 3, 0, 0, 0⟩, ?_⟩, ?_⟩ <;> decide +kernel

theorem witness_TestEngineAndRegionMap_writers : MayWrite tIdle .pmc ∧ MayWrite tIdle .hostA := by unfold MayWrite; decide +kernel

theorem witness_TestEngineAndRegionMap_apply : tSmall.mapIdle = true ∧ tSmall.tableError tSmall.writtenTable = 0 := by
  decide +kernel

/-! ### Clocks, power and heat -/

theorem witness_ClockIslandsRun :
    tP.hasIsland 63 20 = true ∧ tP.hasIsland 0x63 0 = true ∧ F.CLK_ISLAND_point.read 0 = 0 ∧
    (let p := tP.fput F.CLK_ISLAND_alarm_hold 1 63 20
     p.flag F.CLK_ISLAND_alarm_hold 63 20 = true ∧ (tP.flag F.CLK_ISLAND_alarm_hold 63 20 = false)) ∧
    (∀ k ∈ [5, 6, 7], F.CLK_ISLAND_point.read (F.CLK_ISLAND_point.write 0 k) = k) ∧ tP.stopRefused 63 20 = false ∧
    smGet ({ tP with pwr := { tP.pwr with moving := [(islandKey 63 20, 4)] } } : Panel).pwr.moving (islandKey 63 20) = some 4 ∧
    smGet tP.pwr.moving (islandKey 63 20) = none ∧ smSorted tP.regs = true ∧
    (tP.fput F.CLK_ISLAND_stopped 0 63 20).flag F.CLK_ISLAND_stopped 63 20 = false ∧
    (tP.fput F.CLK_ISLAND_stopped 1 63 20).flag F.CLK_ISLAND_stopped 63 20 = true ∧
    smHas tP.pwr.moving (islandKey 63 20) = false ∧
    smHas ({ tP with pwr := { tP.pwr with droop := [(islandKey 63 20, 4)] } } : Panel).pwr.droop (islandKey 63 20) = true ∧
    smSorted tP.pwr.droop = true ∧
    (let m (l : List (BitVec 6)) : Nat := l.foldl (fun (a : Nat) (c : BitVec 6) => min a c.toNat) 63
     (tP.marginLimits 63).1 < m [63] ∧ m [0] ≤ (tP.marginLimits 63).2 ∧ m [0] ≤ (tP.marginLimits 63).1) ∧
    smSorted tP.pwr.alarmed = true := by and_intros <;> decide +kernel

/-- Zone 13 on and zone 0 being shut down, the trip limit at 105 and the shutdown limit at 100. -/
def tZone : Panel := ((tP.setZoneState 13 1).setZoneState 0 2).put .PWR_THERM_LIMITS 0x696460

/-- The highest of a zone's readings, as a sample finds it. -/
def tHot (z : Nat) (rs : List (BitVec 8)) : Nat :=
  (if tZone.zoneState z = 1 ∨ tZone.zoneState z = 2 then tZone.heldReadings z else []).foldl max
    (rs.foldl (fun (a : Nat) r => max a r.toNat) 0)

theorem witness_ZonesGoDown :
    tZone.pwr.in44 = true ∧ tZone.pwr.efuse.contains 13 = false ∧ tZone.zoneState 13 = 1 ∧ tZone.zoneState 0 = 2 ∧
    tZone.zoneState 12 ≠ 1 ∧ tZone.zoneState 12 ≠ 2 ∧ smSorted tZone.regs = true ∧
    tZone.fget F.PWR_THERM_LIMITS_trip_c = 105 ∧ tZone.fget F.PWR_THERM_LIMITS_shutdown_c = 100 ∧
    (∀ t : BitVec 8, t ∈ [96, 99, 100, 103, 104, 105] → ∀ z ∈ [0, 13], tHot z [3, t] = t.toNat) ∧
    (tP.setZoneState 11 1).zoneState 11 = 1 ∧ tZone.pwr.trip = false ∧ tZone.zoneState 13 ≠ 2 := by
  and_intros <;> decide +kernel

theorem witness_ZonesGoDown_drain :
    tDrain.flag F.PNW_DRAIN_STATUS_in_progress = true ∧ tDrain.swapHeld = false ∧ tP.flag F.PNW_DRAIN_STATUS_in_progress = false ∧
    (∀ n ∈ tDrain.routers, tDrain.poolEmpty n = true) ∧
    (let p : Panel := { tDrain with net := { tDrain.net with flying := [tHeld false] } }
     ∃ n ∈ p.routers, p.poolEmpty n = false) := by
  refine ⟨?_, ?_, ?_, ?_, ?_⟩ <;> decide +kernel

theorem witness_ThrottleAndCapRun :
    tP.pwr.change = none ∧ tP.nextZone ([11] ++ []) = some 11 ∧ tP.nextZone [] = none ∧
    ({ tP with pwr := { tP.pwr with change := some (11, 4) } } : Panel).pwr.change = some (11, 4) ∧ tP.pwr.in44 = true ∧
    Panel.reset.pwr.in44 = false ∧ smSorted tP.regs = true ∧
    (let mean (n : Nat) : Nat :=
       let l := (sumL (([BitVec.ofNat 16 n].take 14).map (·.toNat)) :: tP.pwr.samples).take 10
       sumL l / l.length
     tP.capW < mean 65535 ∧ mean 0 ≤ tP.capW ∧ mean 0 * 100 ≤ tP.capW * 95) ∧
    (tP.setZoneState 11 1).hungriest = some 11 := by and_intros <;> decide +kernel

theorem witness_PowerBoundary :
    Panel.reset.pwr.in44 = false ∧ Panel.reset.pwr.overVolt = false ∧ Panel.reset.pwr.resetHeld = false ∧
    ({ Panel.reset with pwr := { Panel.reset.pwr with overVolt := true } } : Panel).pwr.overVolt = true ∧
    tP.pwr.in44 = true ∧ tP.pwr.convStopped = false ∧ tP.pwr.brownOut = false ∧ tP.pwr.trip = false ∧
    ({ tP with pwr := { tP.pwr with brownOut := true } } : Panel).pwr.brownOut = true ∧
    ({ tP with pwr := { tP.pwr with resetHeld := true } } : Panel).pwr.resetHeld = true ∧ homeUnit .PMC_STAGE 0 < 2048 := by
  and_intros <;> decide +kernel

/-! ### Bring-up and faults -/

/-- A flacon copy that both hubs of tStage take: its four sections follow the header, one page each. -/
def tFl : Flacon :=
  { magic := 0x4C465A44, format := 1, length := 0x5000, sectionCount := 4, padZero := true, sums := [1, 2, 3, 4],
    sections := [⟨1, 0, 0x1000, 16, 1⟩, ⟨2, 0, 0x2000, 16, 2⟩, ⟨3, 0, 0x3000, 16, 3⟩, ⟨4, 0, 0x4000, 16, 4⟩],
    version := 0x02000000, sequence := 1, gradeMask := 1, level := 1, ownerKey := 0, ownerKeyHash := 5, fwSigOk := true,
    ownerSigOk := true, hubSvn := 1, coreSvn := 1, config0 := 0, config1 := 0, droop := [], presets := [], coreFw := [],
    checkEntry := 0, policy0 := 0xF3, guests := [] }

/-- Stage n in progress, with an owner key in slot 0 of both fuse sets and the flacon running. -/
def tStage (n : Nat) : Panel :=
  let p := tP.fput F.PMC_STAGE_stage n
  let f : FuseSet := { FuseSet.blank with owners := [(5, false), (0, false), (0, false), (0, false)] }
  { p with fab := { p.fab with fuses0 := f, fuses3 := f }, bring := { p.bring with flacon := some tFl, running := [0, 3] } }

/-- Every zone on with its rails up and every site linked, stage n in progress, the flacon allowing k row pairs. -/
def tUp (n k : Nat) : Panel :=
  let p := (List.range 14).foldl (fun p z => p.setZoneState z 1) (tStage n)
  { p with bring := { p.bring with gates := List.range 124, hubsPassed := [0, 3], flacon := some { tFl with config0 := BitVec.ofNat 64 k } },
           pwr := { p.pwr with rails := (List.range 14).map (·, 3) } }

theorem witness_BringupStagesRun_early :
    (∀ n ≤ 9, (tStage n).inStage n = true) ∧ (∀ h, h < 4 → (tStage 1).detachWaits h = false) ∧
    ((tStage 1).modFab 3 fun f => { f with detachDue := true }).detachWaits 3 = true ∧
    (∀ h ∈ [0, 3], (tStage 1).hubUp h = true ∧ (tStage 1).candidate h tFl = true ∧
      (tStage 1).candidate h { tFl with ownerSigOk := false } = false) ∧
    (tStage 2).hubUp 3 = true ∧ 3 ∈ (tStage 2).bring.running ∧ (∀ e, e < 72 → (tStage 3).siteUp e = false) ∧
    (∃ e, e < 72 ∧ (tUp 3 15).siteUp e = true) ∧ 1 ≤ tFl.level.toNat := by
  refine ⟨?_, ?_, ?_, ?_, ?_, ?_, ?_, ⟨71, ?_⟩, ?_⟩ <;> decide +kernel

theorem witness_BringupStagesRun_shape :
    (∀ n ∈ [4, 5], ∃ x, (tUp n 1).bring.flacon = some x ∧ (tUp n 1).inStage n = true ∧ (tUp n 1).offenders x = [] ∧
      (tUp n 1).offenders { x with level := 8 } ≠ []) ∧
    (∀ n ∈ [4, 5], ∃ x, (tUp n 0).bring.flacon = some x ∧ (tUp n 0).selectShape x = none) := by
  constructor
  · intro n hn
    refine ⟨_, rfl, ?_⟩
    revert n; decide +kernel
  · intro n hn
    refine ⟨_, rfl, ?_⟩
    revert n; decide +kernel

theorem witness_BringupStagesRun_picked : ((tUp 4 1).selectShape { tFl with config0 := 1 }).isSome = true := by decide +kernel

theorem witness_BringupStagesRun_stacks :
    (tUp 6 15).railsUp 0 = 3 ∧ smSorted (tUp 6 15).pwr.rails = true ∧ (tUp 6 15).bring.flacon.isSome = true ∧
    ({ tUp 6 15 with bring := { (tUp 6 15).bring with rowPairs := [0, 1, 2, 3] } } : Panel).bring.rowPairs.contains (11 / 3) =
      true := by and_intros <;> decide +kernel

/-- What a hub reads from its NVM may be a candidate: if the bytes spell tFl, HD0 takes them. -/
theorem witness_BringupStagesRun_copy (a : List (Nat × Byte)) (h : (tStage 1).readCopy 0 a = tFl) :
    ((tStage 1).hubUp 0 && [0, 3].contains 0 && (tStage 1).candidate 0 ((tStage 1).readCopy 0 a)) = true := by
  rw [h]; decide +kernel

/-- Stage 7 of a shape of one core, which fails its check and whose spare fails too. -/
def tCheck : Panel := (tUp 7 15).fput F.HUB_SHAPE_logical_cores 1

theorem witness_BringupStagesRun_failed :
    (let p := tCheck.loadCores tFl
     let i : Stage7In := ⟨[0], [0]⟩
     let bad := upTo p.nCores fun c => i.mismatched.contains c || !p.checkOk tFl c
     bad = [0] ∧ (bad.foldl (fun (acc : Panel × List Nat × Nat) c => acc.1.mendCore tFl i c acc.2.1 acc.2.2) (p, [], 0)).2.1 ≠ [] ∧
       tCheck.bring.flacon.isSome = true ∧ tCheck.inStage 7 = true) := by decide +kernel

theorem witness_BringupStagesRun_checked (h : (tCheck.loadCores tFl).checkOk tFl 0 = true) :
    (let p := tCheck.loadCores tFl
     let i : Stage7In := ⟨[], []⟩
     let bad := upTo p.nCores fun c => i.mismatched.contains c || !p.checkOk tFl c
     (bad.foldl (fun (acc : Panel × List Nat × Nat) c => acc.1.mendCore tFl i c acc.2.1 acc.2.2) (p, [], 0)).2.1 = []) := by
  have n : (tCheck.loadCores tFl).nCores = 1 := by decide +kernel
  simp [n, upTo, h]

theorem witness_BringupStagesRun_late :
    (tStage 8).hasIsland 63 20 = true ∧ (tStage 14).inStage 14 = true ∧
    MayManage (tStage 14) .bmc ∧ (8 : W64).toNat % 2 ^ 18 / 2 ^ 16 = 0 ∧
    ((tStage 14).fput F.PMC_STAGE_failed_stage 3).mayRetry 3 = true ∧
    ((tStage 14).fput F.PMC_STAGE_failed_stage 3).mayRetry 4 = false := by
  unfold MayManage MayWrite; and_intros <;> decide +kernel

theorem witness_BringupStagesRun_rails :
    (let q := (tStage 0).edgeRailsUp; q.pwr.railW = true ∨ q.pwr.railE = true) ∧
    (let p := tStage 0
     let q := ({ p with pwr := { p.pwr with efuse := [12, 13], railW := false, railE := false } } : Panel).edgeRailsUp
     q.pwr.railW = false ∧ q.pwr.railE = false) := by decide +kernel

/-- A report of class c at a core. -/
def tRep (c : BitVec 3) : Report := ⟨0x0101, c, lvCore, 2, 0, 0, 0, 0⟩

/-- Hub 3's manager, the managers armed. -/
def tMgr (queue : List QEntry) (h : Option Handling) : Panel :=
  { tP with pmc := { tP.pmc with armed := true }, errs := smSet tP.errs 3 ⟨queue, h⟩ }

/-- A handling of a core's UC report, its level l, in phase f. -/
def tHand (l : BitVec 3) (f : HPhase) : Handling := ⟨tRep clsUC, l, false, false, 0, f⟩

theorem witness_ErrorManagersRun :
    (tMgr [] none).hubUp 3 = true ∧ (tMgr [] none).pmc.armed = true ∧ ((tMgr [] none).mgr 3).handling = none ∧
    (tMgr [] none).flag F.PMC_ERR_STATUS_storm = false ∧
    ((tMgr [] none).fput F.PMC_ERR_STATUS_storm 1).flag F.PMC_ERR_STATUS_storm = true ∧
    2 ≤ (tRep clsUC).cls.toNat ∧ ((tMgr [] none).mgr 3).queue.length < 256 ∧ tP.pmc.armed = false ∧ tP.pmc.dry = none ∧
    (let h := tHand lvCluster (.halting 63 1)
     let p := tMgr [] (some h)
     (p.mgr 3).handling = some h ∧ h.phase = .halting 63 1 ∧ reportStarts (tRep clsUC) = true ∧
       p.hasPrimary = true ∧ p.related h (tRep clsUC) = true) := by
  and_intros <;> decide +kernel

theorem witness_ErrorManagersRun_start :
    (let log : QEntry := ⟨tRep clsCE, 1, 3, none⟩
     let big : QEntry := ⟨tRep clsUC, 1, 3, none⟩
     reportStarts log.r = false ∧ reportStarts big.r = true ∧ ((tMgr [log, big] none).mgr 3).queue = [log] ++ big :: [] ∧
       (tMgr [log, big] none).pmc.halted.contains 3 = false ∧ (tMgr [log, big] none).pmc.restarting.contains 3 = false) ∧
    ({ tP with pmc := { tP.pmc with restarting := [0, 3] } } : Panel).hasPrimary = false := by decide +kernel

theorem witness_ErrorManagersRun_actions :
    (let h := tHand lvCore (.spareCheck 63 1 1023)
     ((tMgr [] (some h)).mgr 3).handling = some h ∧ ∀ m < 3, ((tMgr [] (some h)).mgr m).handling = none) ∧
    tP.primaryHub ≠ 3 ∧ tP.primaryHub = 0 ∧ smSorted tP.regs = true ∧ tP.stage = 0 ∧
    (∀ r ∈ [false, true],
      let p := { tStage 3 with bring := { (tStage 3).bring with pmcRetried := r } }
      p.primaryHub = 0 ∧ p.hubUp 0 = true ∧ 1 ≤ p.stage ∧ p.stage ≤ 9 ∧ p.bring.pmcRetried = r) ∧
    (8 : BitVec 8).toNat ≤ 8 ∧ 8 < (9 : BitVec 8).toNat ∧
    (tStage 3).hasPrimary = true ∧ (tStage 3).mayCross ⟨5, 3, 0, 7, 0⟩ = true ∧ (tStage 3).mayCross ⟨0, 3, 0, 7, 0⟩ = false ∧
    ({ tP with pmc := { tP.pmc with halted := [3] } } : Panel).pmc.halted.contains 3 = true := by
  and_intros <;> decide +kernel

/-! ### The request engine -/

def tStep (ph : StepPhase) (a : BitVec 8) : StepRec := ⟨1, a, [], ph, [], [], [], false, true, true⟩

/-- The engine of HD0 active, HD3's standby, with a step. -/
def tEng (f : Engine → Engine) : Panel :=
  let p := (tP.setRole 0 roleActive).setRole 3 roleStandby
  { p with eng0 := f p.eng0 }

theorem witness_EngineStepsRun :
    (tEng id).role 0 = roleActive ∧ (tEng id).hubUp 0 = true ∧
    (let p := tEng id
     (p.eng 0).step.isSome = false ∧ (p.eng 0).draining = false ∧ (p.eng 0).frozen = false ∧
       p.flag F.PCI_CSTORE_cq_wait 0 = false ∧ p.flag F.PCI_CSTORE_cq_wait 3 = false ∧ p.replaying 0 = false) ∧
    ((tEng id).fput F.RQE_REPLAY_STATUS_active 1 0).replaying 0 = true ∧
    ((tEng fun e => { e with draining := true }).eng 0).draining = true ∧
    (∀ ph ∈ [StepPhase.formed, .running, .aborting, .accepted], ∀ a ∈ [(0 : BitVec 8), 0x80, 1],
      ((tEng fun e => { e with step := some (tStep ph a) }).eng 0).step = some (tStep ph a)) ∧
    (0x80 : BitVec 8).toNat % 128 = 0 ∧ (1 : BitVec 8).toNat % 128 ≠ 0 ∧
    (tEng id).mayCommit (tStep .accepted 0) = true ∧ (tEng id).mayCommit (tStep .formed 0) = false ∧
    (tEng id).flag F.RQE_ILOG_CONFIG_commit_digest = false ∧
    ((tEng id).fput F.RQE_ILOG_CONFIG_commit_digest 1).flag F.RQE_ILOG_CONFIG_commit_digest = true := by
  decide +kernel

/-- The result mailbox holds a done record of step 1 with attempt a and status st, poisoned or not. -/
def tDone (a st : Nat) (pz : Bool) : Panel :=
  let p := (tEng id).fput F.CD_CMEM_PART_kv_mib 128 0 0
  let m := p.resultMbox 1 + 0x24000
  let p := p.putBytes m (toBytes 8 (1 + st * 2 ^ 48 + a * 2 ^ 56))
  if pz then { p with st := { p.st with poison := [(m / 8, ())] } } else p

theorem witness_EngineStepsRun_done :
    (∀ st ∈ [0, 1, 2], ∀ pz ∈ [false, true], ((tDone 1 st pz).doneRecord (tStep .running 1)).1 = some (1, st, pz)) ∧
    ((tEng id).doneRecord (tStep .running 1)).1 = none ∧
    (∀ t ∈ [false, true], ({ tStep .aborting 1 with takeover := t }).takeover = t) := by decide +kernel

/-- HD0's engine, in replay or not, with a cold move of context 0xFFFF over page 0 that the log marks as failed, or not. -/
def tCold (m : ColdMove) (re : Nat) (marked : Bool) : Panel :=
  let p := (tEng fun e => { e with cold := [m] }).fput F.RQE_REPLAY_STATUS_active re 0
  { p with ing := { p.ing with replay := if marked then [⟨1, 0, 1, 0, 1, [], 0, some (.coldFail true 0xFFFF)⟩] else [] } }

theorem witness_EngineStepsRun_cold :
    (let m : ColdMove := ⟨0xFFFF, true, [], [], 1, none, false, 0⟩
     (((tCold m 0 false).eng 0).cold.find? fun m => m.ctx == 0xFFFF && m.result.isNone) = some m ∧
       (tCold m 0 false).markedFailed 0 m = false ∧ (tCold m 0 false).coldReachable m = true ∧ (tCold m 1 true).markedFailed 0 m = true) ∧
    (let m : ColdMove := ⟨0xFFFF, true, [], [2 ^ 30], 1, none, false, 0⟩
     (tCold m 0 false).coldReachable m = false) ∧ hasEngine 0 = true ∧ hasEngine 3 = true := by decide +kernel

theorem witness_StandbyAndControlsAct :
    (let p := tEng fun e => { e with journal := [.heartbeat 0 0] }
     p.role 3 = roleStandby ∧ p.hubUp 3 = true ∧ (p.eng (3 - 3)).journal[(p.eng (3 - 3)).received]? = some (.heartbeat 0 0) ∧
       (.heartbeat 0 0 : JRec) ≠ .heartbeat 1 0) ∧
    (∀ r ∈ [JRec.heartbeat 0 0, .input 1 (.cancel false 63 63 9) 0 0, .commit 1 [] 0 0], ∀ n ∈ [0, 1],
      let p := tEng fun e => { e with journal := [r], received := 1, unwaited := n }
      (p.eng 0).journal = r :: [] ∧ (p.eng 0).received = 0 + 1 ∧ (p.eng 0).unwaited = n) ∧
    (inputQueue (.intake false 63 0 [] [])).isSome = true ∧ inputQueue (.coldFail true 0) = none ∧
    (let p := tEng id
     p.role 0 = roleActive ∧ p.role (3 - 0) = roleStandby ∧ (p.eng 0).journal = [] ∧ p.activeHub = some 0 ∧
       (p.eng 0).step = none ∧ p.inSync = false ∧ (p.eng 0).snapshotDone = false ∧ smSorted p.regs = true) := by decide +kernel

theorem witness_StandbyAndControlsAct_controls :
    (let p := (tP.setRole 0 roleFailed).setRole 3 roleStandby
     p.hubUp 3 = true ∧ p.role 3 = roleStandby ∧ p.role (3 - 3) ≠ roleStandby) ∧
    (let p := tSmall
     MayWrite p .hostA ∧ p.hubUp 0 = true ∧ p.enableError ≠ 0 ∧ p.flag F.RQE_CONTROL_enable 0 = false ∧
       p.role (3 - 0) ≠ roleActive ∧ p.bring.servingHd3 = decide (0 = 3)) ∧
    (let p := (tP.fput F.PCI_REGION_BASE_enable 1 3 7).fput F.PCI_REGION_BASE_kind 1 3 7
     writerHost .hostB = some true ∧ p.holdsStream true = true ∧ p.holdsStream false = false ∧ p.hubUp 3 = true) := by
  unfold MayWrite; decide +kernel

/-! ### The host interface and the register map -/

/-- Host A's queues 63 on, its link up, the engine of HD0 active, and one entry below the tail. -/
def tHost (f : Engine → Engine) : Panel :=
  let p := (tEng f).fput F.PCI_PORT_STATUS_link_up 1 0
  let p := p.fput F.PCI_PORT_STATUS_bus_master 1 0
  let p := p.fput F.PCI_SQ_BASE_size_log2 4 0 63
  let p := p.fput F.PCI_SQ_TAIL_tail 1 0 63
  p.modPort false fun x => { x with sqOn := [63], cqOn := [63] }

/-- A CANCEL entry for tag t that names completion queue 63. -/
def tCancel (t : W64) : Entry := [BitVec.ofNat 64 (2 * 2 ^ 56 + 63 * 2 ^ 50), t]

theorem witness_QueuesAreServed :
    ownPort .hostA (portHub false) = true ∧ ownPort .hostB (portHub false) = false ∧ writerHost .hostB = some true ∧
    tP.holdsLease true = false ∧ MayWrite ((tHost id).fput F.PCI_LEASE_holder 2) .hostB ∧ (tHost id).hubUp (portHub false) = true ∧
    (tHost id).flag F.PCI_CQ_BASE_enable (portHub false) 63 = false ∧
    ((tHost id).fput F.PCI_CQ_BASE_enable 1 0 63).flag F.PCI_CQ_BASE_enable (portHub false) 63 = true ∧
    (∀ n ∈ [3, 4, 15], F.PCI_CQ_BASE_size_log2.read (F.PCI_CQ_BASE_size_log2.write 0 n) = n) ∧
    (tHost id).activeHub = some 0 ∧ tP.activeHub = none ∧
    (let p := tHost id
     (p.eng 0).frozen = false ∧ (p.eng 0).draining = false ∧ p.replaying 0 = false ∧
       p.flag F.RQE_ILOG_STATUS_stream_wait 0 = false ∧ p.isTurn 0 false 63 = true ∧ p.isTurn 0 false 62 = false) := by
  unfold MayWrite; and_intros <;> decide +kernel

theorem witness_QueuesAreServed_entries :
    (tHost id).badSubmit 0 false [BitVec.ofNat 64 (2 ^ 56), 0] = true ∧
    ((tCancel 9).getD 0 0).toNat / 2 ^ 56 = 2 ∧ ((tCancel 9).getD 0 0).toNat % 2 ^ 50 = 0 ∧
    ((tHost id).port false).cqOn.contains (((tCancel 9).getD 0 0).toNat / 2 ^ 50 % 64) = true ∧
    ((tHost id).eng 0).tagLive false 9 = false ∧
    ((tHost fun e => { e with inputs := [.intake false 63 0 [0, 9] []] }).eng 0).tagLive false 9 = true ∧
    (((tHost id).eng 0).taking.find? fun t => t.host == false && t.queue == 63) = none ∧
    (((tHost fun e => { e with taking := [⟨false, 63, [1]⟩] }).eng 0).taking.find? fun t => t.host == false && t.queue == 63) =
      some ⟨false, 63, [1]⟩ ∧ (∀ i : Fin 8, 2 ≤ i.val → (tCancel 9).getD i 0 = 0) := by
  and_intros <;> decide +kernel

/-- A submission the engine takes: one token, one new; max_pos is 16. -/
def tSubmit : Entry := [BitVec.ofNat 64 (2 ^ 56 + 63 * 2 ^ 50 + 1), 9, 0, 0, 1]

theorem witness_QueuesAreServed_submit :
    ((tHost id).fput F.RQE_KV_CONFIG_tpg_log2 4).badSubmit 0 false tSubmit = false ∧
    (tSubmit.getD 0 0).toNat / 2 ^ 56 = 1 ∧ (tSubmit.getD 0 0).toNat % 2 ^ 32 = 1 := by decide +kernel

/-- Host A's BAR2 window lies over core 0's scratchpad, or over register space. -/
def tBar2 (base : Nat) : Panel := (tHost id).fput F.PCI_BAR2_BASE_base base 0

theorem witness_HostPortsRun :
    tP.leaseUp = true ∧ tP.fget F.PCI_LEASE_holder = 0 ∧ (tP.fput F.PCI_LEASE_holder 2).fget F.PCI_LEASE_holder ≠ 0 ∧
    (tP.fput F.PCI_LEASE_holder 2).holdsLease true = true ∧ tP.holdsLease true = false ∧ Panel.reset.leaseUp = false ∧
    tP.hubUp (portHub true) = true ∧ Panel.reset.hubUp (portHub true) = false ∧
    (tHost id).flag F.PCI_PORT_STATUS_link_up (portHub false) = true ∧
    ((tP.modPort true fun x => { x with lossTimer := true }).port true).lossTimer = true ∧
    tP.flag F.PCI_PORT_STATUS_link_up (portHub true) = false ∧ ((tHost id).port false).d3hot = false ∧
    (((tHost id).modPort false fun x => { x with d3hot := true }).port false).d3hot = true ∧
    ((tHost id).port false).lossTimer = false ∧
    (({ tP with net := { tP.net with held := [.bar0Read true 0 8] } } : Panel).net.held.any fun x => heldHost x == true) = true ∧
    (tP.net.held.any fun x => heldHost x == true) = false := by and_intros <;> decide +kernel

theorem witness_HostPortsRun_bar2 :
    (tHost id).barLive false (2 ^ 36 - 1) 1 (2 ^ 36) = true ∧ (tHost id).barLive false 0 4097 (2 ^ 36) = true ∧ (tHost id).barLive true 0 8 (2 ^ 36) = false ∧
    (let p := tBar2 (scratchPa 0 0 / 2 ^ 36)
     let pa := p.fget F.PCI_BAR2_BASE_base 0 * 2 ^ 36 + scratchPa 0 0 % 2 ^ 36
     p.barLive false (scratchPa 0 0 % 2 ^ 36) 8 (2 ^ 36) = true ∧ inRegs pa = false ∧ p.accessStatus pa 8 = 0) ∧
    (let p := (tBar2 (scratchPa 0 0 / 2 ^ 36)).modCore 0 fun k => { k with fenced := true }
     let pa := p.fget F.PCI_BAR2_BASE_base 0 * 2 ^ 36 + scratchPa 0 0 % 2 ^ 36
     p.barLive false (scratchPa 0 0 % 2 ^ 36) 8 (2 ^ 36) = true ∧ inRegs pa = false ∧ p.accessStatus pa 8 = 2) ∧
    (let p := tBar2 (2 ^ 19 - 1)
     p.accessStatus (p.fget F.PCI_BAR2_BASE_base 0 * 2 ^ 36) 8 = 1) := by and_intros <;> decide +kernel

/-- tP in SERVICE. -/
def tSrv : Panel := tP.fput F.PMC_STAGE_stage 0xA

/-- A management request of unit u to HD0 for register offset off. -/
def tMr (u off : Nat) (data : List Byte) : Packet :=
  { plainPacket 0x18 3 0x73 u 0x70 9 with addr := BitVec.ofNat 56 (regBase + off), payload := data }

theorem witness_RegisterAccessesAct :
    tP.nodeUp (tMr 24 0 []).dstNode.toNat = true ∧ tP.early (tMr 24 0 []) = false ∧
    ({ tP with net := { tP.net with flying := [⟨0x73, 1, tMr 24 0 [], 1, none⟩] } } : Panel).early (tMr 24 0 []) = true ∧
    unitWriter (tMr 24 0 []).srcUnit.toNat = some .pmc ∧ unitWriter (tMr 0 0 []).srcUnit.toNat = none ∧
    (∀ off ∈ [0, 0xFFFFFF8], regOffset (tMr 24 off []).addr.toNat = some off) ∧
    (tP.readTarget (tP.locate 0)).isSome = true ∧ tP.readTarget (tP.locate 0xFFFFFF8) = none ∧
    (tP.writeTarget .pmc (tP.locate 0) 0).isSome = true ∧ tP.writeTarget .pmc (tP.locate 0xFFFFFF8) 0 = none ∧
    (∀ off ∈ [0, 4, 0xFFFFFFC], (tHost id).barLive false off 4 (2 ^ 28) = true ∧ bar0ReadOk off 4 = true) ∧
    (tHost id).barLive true 0 4 (2 ^ 28) = false ∧ bar0ReadOk 0 64 = true ∧ bar0ReadOk 8 64 = false ∧
    (tHost id).barLive false 0 4097 (2 ^ 28) = true ∧ bar0ReadOk 0 4097 = false ∧
    ¬ (0x200000 / 0x200000 = portHub false) ∧ ((tHost id).readRegs 0 1).isSome = true ∧ (tHost id).readRegs 0xFFFFFF8 1 = none ∧
    (tHost id).flag F.PNW_DRAIN_STATUS_in_progress = false ∧ tDrain.flag F.PNW_DRAIN_STATUS_in_progress = true := by
  and_intros <;> decide +kernel

theorem witness_RegisterAccessesAct_cores :
    tP.coreUp 1023 = true ∧ Panel.reset.coreUp 1023 = false ∧ tP.running 0 = true ∧ tP.halted 1023 = true ∧
    smSorted tP.regs = true ∧ smSorted tP.cores = true ∧ tP.locate 0xFFFFFF8 = .absent := by
  and_intros <;> decide +kernel

theorem witness_RegisterAccessesAct_waiting :
    let k : Packet := { plainPacket 0x1A 3 0x70 24 0x73 9 with status := 0 }
    let q : Panel := { tP with net := { tP.net with waiting := [⟨0x73, 24, 9, .hub⟩] } }
    let p1 := q.takePacket k
    (p1.net.waiting.find? fun w => w.node == k.dstNode.toNat && w.unit == k.srcUnit.toNat && w.tag == k.tag) =
      some ⟨0x73, 24, 9, .hub⟩ ∧ responseCore k = none := by decide +kernel

/-- Where registers stand, by the map of the spec: SEC_CMD word 0 of HD0 needs the lease, a port's tail does not; a write of the
other port's tail is ignored of the holder. -/
theorem witness_RegisterAccessesAct_write :
    (∀ r ∈ [Reg.SEC_CMD, .PCI_SQ_TAIL], 
      (tP.mayWrite .hostA (.hub 0) r = if r = .SEC_CMD then .deny else .take) ∧
      tP.mayWrite .hostB (.hub 0) r = .deny ∧ (tP.fput F.PCI_LEASE_holder 2).mayWrite .hostB (.hub 0) r =
        if r = .SEC_CMD then .take else .ignore) ∧
    (∃ off w i j, off % 8 = 0 ∧ tP.locate off = .reg w .PCI_LEASE i j) ∧ writerHost .hostA = some false :=
  ⟨by decide +kernel, ⟨0x40008, .hub 0, 0, 0, by decide +kernel, by decide +kernel⟩,
    by decide +kernel⟩

/-! ### Mirroring, the fabric, security and management -/

/-- Mirroring in state n, in SERVICE, with guest window 3 of 1 MiB over core 0's scratchpad. -/
def tMir (n : Nat) : Panel :=
  let p := tSrv.fput F.MIR_CONFIG_enable 1
  let p := p.fput F.MIR_GUEST_WIN_enable 1 0 3
  let p := p.fput F.MIR_GUEST_WIN_size_mib 1 0 3
  let p := p.fput F.MIR_GUEST_WIN_base (scratchPa 0 0 / 2 ^ 20) 0 3
  p.setMirSt n

/-- A fabric packet with opcode op, for panel dst, carrying data, at offset a. -/
def tFk (op : Nat) (dst : BitVec 12) (a : Nat) (data : List Byte) : FPacket :=
  ⟨BitVec.ofNat 6 op, 0, false, false, false, false, dst, 0x123, 0, 0, 0, 9, BitVec.ofNat 13 data.length, 0, BitVec.ofNat 56 a, 0,
    false, 0, 0, data⟩

theorem witness_MirroringRuns :
    (let p := tMir mirUnpaired
     p.flag F.MIR_CONFIG_enable = true ∧ p.mirSt = mirUnpaired ∧ p.inService = true ∧ p.mirSt ≠ mirPaired ∧ p.mirrorOn = false) ∧
    (∀ n ∈ [mirSyncing, mirPaired], (tMir n).mirrorOn = true ∧ (tMir n).mirSt = n) ∧
    (∀ n ≤ 1, n ≤ (tMir mirPaired).mir.guest.step ∨ n = (tMir mirPaired).mir.guest.step + 1) ∧
    (deltaCommit [.commit 0 [] 0 0]).isSome = true ∧ deltaCommit [] = none ∧
    tSrv.serving ≠ servServing ∧ (tSrv.fput F.PMC_STAGE_state servServing).serving = servServing ∧
    (tSrv.fput F.PMC_STAGE_state servDried).serving = servDried := by and_intros <;> decide +kernel

theorem witness_MirroringRuns_copies :
    (let p := tMir mirPaired
     let k := tFk 1 0 (2 ^ 20 - 1) [7]
     let w := (p.dropArrived k).get .MIR_GUEST_WIN 0 3
     (p.dropArrived k).mirrorOn = true ∧ F.MIR_GUEST_WIN_enable.read w = 1 ∧
       k.addr.toNat + k.payload.length ≤ F.MIR_GUEST_WIN_size_mib.read w * 2 ^ 20 ∧
       (p.dropArrived k).accessStatus (F.MIR_GUEST_WIN_base.read w * 2 ^ 20 + k.addr.toNat) k.payload.length = 0 ∧
       ¬(tFk 1 0 (2 ^ 20) [7]).addr.toNat + 1 ≤ F.MIR_GUEST_WIN_size_mib.read w * 2 ^ 20) ∧
    (let p := (tMir mirPaired).fput F.RQE_KV_BASE_base (scratchPa 0 0 / 2 ^ 18)
     (p.dropArrived (tFk 1 0 0 [7])).accessStatus (p.kvBase + p.adoptPage 0 * 0x40000 + 0) 1 = 0) := by
  and_intros <;> decide +kernel

theorem witness_MirroringRuns_waits :
    (let p := tMir mirPaired
     p.mirrorOn = true ∧ ({ p with mir := { p.mir with deltas := [1] } } : Panel).mir.deltas.contains 1 = true ∧
       p.mir.deltas.contains 1 = false ∧ p.mir.copies = 0 ∧ p.mir.deltas = [] ∧
       ({ p with mir := { p.mir with copies := 1 } } : Panel).mir.copies ≠ 0) ∧
    (let p := tMir mirPaired
     let q : Panel := { p with mir := { p.mir with awaits := [⟨0, 9, none⟩], repairs := [64] }
                               st := { p.st with mirRanges := [(3, 0, 128)] } }
     (q.mir.awaits.any fun a => a.tag == (9 : BitVec 16)) = true ∧ (q.mir.awaits.any fun a => a.tag == (8 : BitVec 16)) = false ∧
       ((q.st.mirRanges.find? fun x => x.1 == 3).map fun x => x.2.1 + 64) = some 64 ∧ q.mir.repairs.contains 64 = true ∧
       q.mir.repairs.contains 0 = false ∧ (q.st.mirRanges.find? fun x => x.1 == 2) = none) ∧
    (let p := tSrv.fput F.PMC_STAGE_state servDrying
     p.serving = servDrying ∧ p.hasPrimary = true ∧
       ({ p with pmc := { p.pmc with halted := [0, 3] } } : Panel).hasPrimary = false) ∧ (tEng id).activeHub = some 0 ∧
    tP.activeHub = none ∧
    (tMir mirSyncing).hosting = false ∧
    (let p := tMir mirSyncing
     ({ p with mir := { p.mir with imports := [⟨0, 1, false, 63, 63, 9, 0, 0, 0, 1, 1, 0, 0, 0, 0, 0, [], 0, [], [], false, 0x456, true⟩] } } : Panel).hosting = true) ∧
    (∀ n ∈ [0, 1], ((tMir mirPaired).fput F.MIR_CONFIG_on_loss n).fget F.MIR_CONFIG_on_loss = n) ∧
    (∀ ret ∈ [false, true], ∃ p : Panel, p.mir.handoff = .sent ret []) ∧ (tMir mirPaired).mir.handoff = .none ∧
    (∀ n ∈ [0, 1], ((tMir mirSyncing).fput F.MIR_CONFIG_auto_return n).fget F.MIR_CONFIG_auto_return = n) := by
  refine ⟨?_, ?_, ?_, ?_, ?_, ?_, ?_, ?_, fun ret _ => ⟨{ tP with mir := { tP.mir with handoff := .sent ret [] } }, rfl⟩, ?_, ?_⟩ <;> decide +kernel

/-- What a partner at coordinate 0x456 answers to p: another failure domain, and no pages or regions of its own. -/
def tPeer (p : Panel) : PeerInfo := ⟨true, 0x456, 0, p.planDigest, 1, 0, 0, 0, 0, [], []⟩

def tPair : Panel := ((tMir mirUnpaired).fput F.MIR_CONFIG_partner_coord 0x456).fput F.HJF_COORD_valid 1

theorem witness_MirroringRuns_pairs : tPair.pairError (tPeer tPair) = 0 ∧
    tPair.pairError { tPeer tPair with reachable := false } ≠ 0 := by
  constructor
  · unfold Panel.pairError
    rw [if_neg (by decide +kernel), if_neg (by decide +kernel), if_neg (fun h => h rfl)]
    decide +kernel
  · decide +kernel

/-- HD0's fabric in SERVICE: port 0 up, port 1 draining, port 3 down, the domain in state d, route applies busy or not. -/
def tFab (d busy : Nat) : Panel :=
  let p := tSrv.fput F.HJF_PORT_STATUS_state 1 0 0
  let p := p.fput F.HJF_PORT_STATUS_state 2 0 1
  let p := p.fput F.HJF_CONTROL_domain_state d 0
  let p := p.fput F.HJF_COORD_valid 1
  let p := p.fput F.HJF_CONTROL_route_busy busy 0
  p.modFab 0 fun f => { f with swapping := [1], limiter := [(5, 200)], mlimiter := [(5, 200)] }

/-- The route table's first entry sends panel 0x123 out of port 0. -/
def tRoute : Panel := (tFab 1 0).fput F.HJF_ROUTE_ports 1 0 0 1

theorem witness_FabricPacketsAreServed :
    (tFab 1 0).fPort 0 0 = true ∧ (tFab 1 0).portState 0 0 = 1 ∧ (tFab 1 0).portState 0 1 = 2 ∧ (tFab 1 0).portState 0 3 = 0 ∧
    (tFab 1 0).fRoom 0 0 (tFk 0 0 0 []) ≠ none ∧ fOpcodeOk (tFk 0 0 0 []).opcode.toNat = true ∧
    fOpcodeOk (tFk 63 0 0 []).opcode.toNat = false ∧
    (let r (n : Nat) : Nat := min 0xFFFFFFFF ((tFk 0 0 0 []).residency.toNat + (BitVec.ofNat 32 n).toNat)
     r 0 ≤ (tFab 1 0).maxAge ∧ (tFab 1 0).maxAge < r 0xFFFFFFFF) ∧ (tFk 0 0 0 []).dstCoord = (tFab 1 0).coord ∧
    (tFk 0 0x123 0 []).dstCoord ≠ (tFab 1 0).coord ∧ smSorted (tFab 1 0).fabric = true ∧
    smSorted ((tFab 1 0).fab4 0).corrected = true ∧
    (let k := { tFk 0x21 0x100 0 [] with tclass := 3 }
     k.tclass = 3 ∧ (tRoute.fSend 0 ⟨k, 0, fChan k, 0⟩).2 = true ∧ ((tFab 1 0).fSend 0 ⟨k, 0, fChan k, 0⟩).2 = false) ∧
    ((tP.fput F.PMC_STAGE_stage 9).takeArrived 0 (tFk 0 0 0 [])).inService = false ∧
    (∀ mirror ∈ [false, true], smGet ((tFab 1 0).rates 0 mirror) (5 : BitVec 12).toNat = some 200) ∧
    (∀ c ∈ [1, 3], let k := { tFk 0x21 0x100 0 [] with tclass := c, mark := true }
     k.mark = true ∧ (((tFab 1 0).countMark 0 k).fab4 0).oddMarks = ((tFab 1 0).fab4 0).oddMarks + 1) ∧
    (tFk 0 0 0 []).mark = false := by
  and_intros <;> decide +kernel

/-- A packet is good or bad by its check alone: two packets that differ in nothing else are not both good. -/
theorem witness_FabricPacketsAreServed_check (k : FPacket) : fCheck (sealCheck k) = (sealCheck k).check ∧
    fCheck { k with check := ~~~ fCheck k } ≠ ~~~ fCheck k := by
  refine ⟨rfl, ?_⟩
  show fCheck k ≠ ~~~ fCheck k
  generalize fCheck k = x
  intro h
  have h0 := congrArg (BitVec.getLsbD · 0) h
  simp at h0

/-- Export window 7 covers core 0's scratchpad, for writes too when w is 1. -/
def tExp (w : Nat) : Panel :=
  let p := (tFab 1 0).fput F.HJF_EXPORT_enable 1 0 7
  let p := p.fput F.HJF_EXPORT_write w 0 7
  let p := p.fput F.HJF_EXPORT_base (scratchPa 0 0 / 2 ^ 21) 0 7
  p.fput F.HJF_EXPORT_size_mib 4 0 7

theorem witness_FabricPacketsAreServed_windows :
    (let k := tFk 0 0 (scratchPa 0 0x3FFFFF) [1]
     let p := (tExp 1).takeArrived 0 k
     p.inService = true ∧ p.exported k.addr.toNat k.length.toNat false = true ∧ p.accessStatus k.addr.toNat k.length.toNat = 0 ∧
       p.exported k.addr.toNat k.payload.length true = true ∧ p.accessStatus k.addr.toNat k.payload.length = 0 ∧
       ((p.fput F.HJF_CONFIG_accept_post 1).flag F.HJF_CONFIG_accept_post = true) ∧ p.accessStatus k.addr.toNat 0 = 0 ∧
       ((tExp 0).takeArrived 0 k).exported k.addr.toNat k.payload.length true = false) := by decide +kernel

/-- Command queue 7 of HD0 with one command whose slot holds ws, polled where poll is 1. -/
def tFq (poll : Nat) (ws : List W64) : Panel :=
  let p := (tFab 1 0).fput F.HJF_FQ_CONFIG_enable 1 0 7
  let p := p.fput F.HJF_FQ_CONFIG_poll poll 0 7
  let p := p.fput F.HJF_FQ_CONFIG_base (scratchPa 0 0 / 64) 0 7
  let p := p.fput F.HJF_FQ_CONFIG_size_log2 1 0 7
  let p := p.fput F.HJF_FQ_INDEX_producer 1 0 7
  p.putBytes (scratchPa 0 64) (ws.flatMap fun w => toBytes 8 w.toNat)

/-- The words of a command of opcode op, n bytes, between core 0's scratchpad and panel 0x123. -/
def tFc (op n : Nat) : List W64 :=
  [BitVec.ofNat 64 (op * 2 ^ 56 + n), BitVec.ofNat 64 (0x123 * 2 ^ 52), BitVec.ofNat 64 (scratchPa 0 0), 0, 0, 0, 0, 0]

theorem witness_FabricCommandsRun :
    (tFq 1 []).flag F.HJF_FQ_CONFIG_poll 0 7 = true ∧ (tFq 1 []).accessStatus ((tFq 1 []).fget F.HJF_FQ_CONFIG_base 0 7 * 64) 8 = 0 ∧
    (∀ n ∈ [0, 1], ∀ op ∈ [1, 2, 3],
      let cmd := tFc op n
      let p := tFq 0 cmd
      p.fPort 0 0 = true ∧ p.flag F.HJF_FQ_CONFIG_enable 0 7 = true ∧ p.fqNext 0 7 ≠ p.fqProducer 0 7 ∧ p.mayInject 0 = true ∧
        (p.fab4 0).cmds.length < 64 ∧ ((p.fab4 0).waiting.any fun x => x.q == 7 && x.reissued) = false ∧
        (List.getD cmd 0 (0 : W64)).toNat / 2 ^ 56 = op ∧ p.accessStatus (p.fqSlot 0 7 (p.fqNext 0 7)) 64 = 0) ∧
    (let cmd := tFc 1 0
     let p := tFq 0 cmd
     (∀ n, n < 8 → ofBytes (((p.readRange (p.fqSlot 0 7 (p.fqNext 0 7)) 64).1.drop (8 * n)).take 8) =
       (List.getD cmd n (0 : W64)).toNat) ∧ (List.getD cmd 0 (0 : W64)).toNat % 2 ^ 25 = 0) ∧
    (let cmd := tFc 3 1
     let p := tFq 0 cmd
     let p2 := (p.readRange (p.fqSlot 0 7 (p.fqNext 0 7)) 64).2.2.modFab 0 fun f =>
       { f with started := smSet f.started 7 ((p.fqNext 0 7 + 1) % 65536) }
     (∀ n, n < 8 → ofBytes (((p.readRange (p.fqSlot 0 7 (p.fqNext 0 7)) 64).1.drop (8 * n)).take 8) =
       (List.getD cmd n (0 : W64)).toNat) ∧ (List.getD cmd 0 (0 : W64)).toNat.testBit 55 = false ∧
       p2.fqCheck (fun n => (List.getD cmd n (0 : W64)).toNat) none = 0) := by decide +kernel

/-- HD0 with a command of opcode op and one request of it unanswered, sent once more or not. -/
def tOut (op : Nat) (again : Bool) : Panel :=
  (tFab 1 0).modFab 0 fun f => { f with
    cmds := [⟨7, 0, BitVec.ofNat 8 (op + 1), 0x123, 0, scratchPa 0 0, 0, 0, 0, false, 1, 0⟩]
    waiting := [⟨9, 7, 0, tFk op 0x123 0 [1], again⟩] }

theorem witness_FabricCommandsRun_queues :
    (tFab 1 0).fPort 0 0 = true ∧ (tFab 1 0).fPort 4 0 = false ∧ 7 < 8 ∧
    ((tFq 1 []).accessStatus ((tFq 1 []).fget F.HJF_FQ_CONFIG_base 0 7 * 64) 8 = 0) ∧
    (let p := (tFq 0 (tFc 3 1)).fput F.HJF_RANK_valid 1 0 0
     p.flag F.HJF_RANK_valid 0 0 = true) ∧
    (∀ g ∈ [0, 1], ((tFab 1 0).fput F.HJF_CONFIG_reissue_enable g).fget F.HJF_CONFIG_reissue_enable = g) ∧
    (let p := tOut 0 false
     p.fqMatch 0 8 (fun _ => true) = none ∧ (p.accessStatus (2 ^ 55) 1 ≠ 0)) := by and_intros <;> decide +kernel

theorem witness_FabricCommandsRun_answers :
    (∀ k ∈ [tFk 0x0A 0 0 []], ((((tFab 1 0).takeArrived 0 k).echoed 0 false k).fqMatch 0 k.tag fun _ => true) = none) ∧
    (∀ op ∈ [0, 1], let k := tFk 8 0 0 [1]
      let p1 := ((tOut op false).takeArrived 0 k).echoed 0 false k
      (p1.fqMatch 0 k.tag fun o => o == op).isSome = true ∧ (p1.fqMatch 0 k.tag fun _ => true).isSome = true ∧
        p1.accessStatus (scratchPa 0 0) 1 = 0) ∧
    (((tOut 0 true).fqMatch 0 9 fun _ => true).any fun x => x.1.reissued) = true ∧
    (((tOut 0 false).fqMatch 0 9 fun _ => true).any fun x => !x.1.reissued && decide (x.1.p.opcode ≠ 0x02)) = true ∧
    ((tOut 0 false).fput F.HJF_CONFIG_reissue_enable 1).flag F.HJF_CONFIG_reissue_enable = true ∧
    ((tFab 1 0).fqMatch 0 9 fun _ => true) = none ∧ ((tFab 1 0).mir.awaits.find? fun x => x.hub == 0 && x.tag == 9) = none ∧
    (let p : Panel := { tFab 1 0 with mir := { (tFab 1 0).mir with awaits := [⟨0, 9, some 64⟩] } }
     (p.fqMatch 0 9 fun _ => true) = none ∧
       (p.mir.awaits.find? fun x => x.hub == 0 && x.tag == 9) = some ⟨0, 9, some 64⟩) := by decide +kernel

theorem witness_FabricPortsRun :
    (tFab 1 1).flag F.HJF_CONTROL_route_busy 0 = true ∧ (tFab 1 0).flag F.HJF_CONTROL_route_busy 0 = false ∧
    (tFab 1 1).isSwapping 0 1 = true ∧ ((tFab 1 1).dropQueue 0 1).2 = 0 ∧
    (((tFab 1 1).modFab 0 fun f => { f with queues := [(1, [⟨tFk 0 0 0 [], 0, 0, 0⟩])] }).dropQueue 0 1).2 = 0 + 1 ∧
    (tFab 1 0).domain 0 = 1 ∧ (tFab 2 0).domain 0 = 2 ∧ (tFab 3 0).domain 0 ≠ 1 ∧ (tFab 1 0).portState 0 0 = 1 ∧
    (tFab 1 0).portState 0 0 ≠ 0 ∧ (tFab 1 0).portState 0 3 = 0 ∧ (tFab 1 0).flag F.HJF_COORD_valid = true ∧
    (tFab 1 0).fPort 4 0 = false ∧ (tFab 1 0).isSwapping 0 0 = false ∧ smSorted (tFab 1 0).regs = true ∧
    (∀ x ∈ [(⟨0xFF, 3⟩, 3), (⟨0x7F, 1⟩, 1), (⟨0xF7, 2⟩, 2), (⟨0x77, 3⟩, 0), (⟨0xFF, 0⟩, 0), (⟨0x0F, 3⟩, 0)],
      trainWidth x.1 = (x.2 : Nat)) := by
  and_intros <;> decide +kernel

theorem witness_FabricPortsRun_detach :
    (let q (l : SMap (List Pooled)) : Panel := (tFab 2 0).modFab 0 fun f => { f with queues := l }
     let n (p : Panel) : Nat :=
       let d0 := p.dropQueue 0 0
       let d1 := d0.1.dropQueue 0 1
       let d2 := d1.1.dropQueue 0 2
       let d3 := d2.1.dropQueue 0 3
       d0.2 + d1.2 + d2.2 + d3.2 + (smGetD (d3.1.fab4 0).queues 4 []).length + (smGetD (d3.1.fab4 0).queues 5 []).length
     n (q []) = 0 ∧ n (q ([1, 4, 5].map fun i => (i, [⟨tFk 0 0 0 [], 0, 0, 0⟩]))) = 3) := by decide +kernel

/-! ### Security and management -/

/-- HD0 with a command block whose words 0 and 13 are given, zeros besides, the flacon running in SERVICE. -/
def tSec0 (w0 w13 : Nat) : Panel :=
  let p := (tStage 0xA).put .SEC_CMD (BitVec.ofNat 64 w0) 0 0
  p.put .SEC_CMD (BitVec.ofNat 64 w13) 0 13

/-- Word 0 of a command c signed with signer s. -/
def tW0 (c s : Nat) : Nat := 2 ^ 56 + c * 2 ^ 48 + s * 2 ^ 40

/-- Each command of R462 can be found good: slot 0's key signs, slot 1 is blank, the floors stand at 0. What hashes and signatures
come to is open, so a block of zeros is signed where they say so. -/
theorem witness_SecurityCommandsAct_good (x : Nat × Nat) (hx : x ∈ [(1, 1), (2, 1), (3, 1), (4, 1), (5, 2 ^ 32 + 1)])
    (hk : Config.sha384 (List.replicate 96 0) = 5)
    (hv : Config.ecdsaVerify 0 ((tSec0 (tW0 x.1 0x10) x.2).secBytes 0 0 33) 0 = true) :
    (tSec0 (tW0 x.1 0x10) x.2).secUp 0 = true ∧ (tSec0 (tW0 x.1 0x10) x.2).secCommand 0 = x.1 ∧
      smSorted (tSec0 (tW0 x.1 0x10) x.2).regs = true ∧ (tSec0 (tW0 x.1 0x10) x.2).secResult 0 = 0 := by
  have e : (tSec0 (tW0 x.1 0x10) x.2).secSigned 0 = true := by
    have k : (tSec0 (tW0 x.1 0x10) x.2).secBytes 0 21 12 = List.replicate 96 0 ∧
        (tSec0 (tW0 x.1 0x10) x.2).secBytes 0 33 12 = List.replicate 96 0 ∧
        ((if (tSec0 (tW0 x.1 0x10) x.2).secSigner 0 = 0 then some ((tSec0 (tW0 x.1 0x10) x.2).fuses 0).rootHash
          else if ((tSec0 (tW0 x.1 0x10) x.2).fuses 0).slotValid ((tSec0 (tW0 x.1 0x10) x.2).secSigner 0 - 0x10) then
            some (((tSec0 (tW0 x.1 0x10) x.2).fuses 0).slot ((tSec0 (tW0 x.1 0x10) x.2).secSigner 0 - 0x10)).1 else none) =
          some 5) := by
      clear hv hk; revert x; decide +kernel
    have z : (BitVec.ofNat 768 (ofBytes (List.replicate 96 0)) : BitVec 768) = 0 := by decide +kernel
    unfold Panel.secSigned
    dsimp only
    rw [k.2.2, k.1, k.2.1, hk, z, hv]
    decide +kernel
  have c : (tSec0 (tW0 x.1 0x10) x.2).secUp 0 = true ∧ (tSec0 (tW0 x.1 0x10) x.2).secCommand 0 = x.1 ∧
      smSorted (tSec0 (tW0 x.1 0x10) x.2).regs = true ∧ (tSec0 (tW0 x.1 0x10) x.2).flag F.SEC_CMD_CONTROL_busy 0 = false ∧
      (tSec0 (tW0 x.1 0x10) x.2).secClosed 0 = false ∧ (tSec0 (tW0 x.1 0x10) x.2).secLayout 0 = true ∧
      ((List.range 6).any fun i => (tSec0 (tW0 x.1 0x10) x.2).secWord 0 (1 + i) != (tSec0 (tW0 x.1 0x10) x.2).get .SEC_DEVICE_ID 0 i) =
        false ∧
      ((List.range 6).any fun i => (tSec0 (tW0 x.1 0x10) x.2).secWord 0 (7 + i) != (tSec0 (tW0 x.1 0x10) x.2).get .SEC_NONCE 0 i) =
        false ∧ (tSec0 (tW0 x.1 0x10) x.2).secAllowed 0 = true := by
    clear hv hk e; revert x; decide +kernel
  refine ⟨c.1, c.2.1, c.2.2.1, ?_⟩
  unfold Panel.secResult
  simp [c, e]
  rfl

/-- Guest site 3 admitted, with window 0 over core 0's scratchpad. -/
def tGuest : Panel :=
  let p := tSrv.fput F.SEC_GUEST_STATUS_state gsAdmitted 2 1
  let p := p.fput F.SEC_GUEST_WIN_BASE_enable 1 2 1 0
  let p := p.fput F.SEC_GUEST_WIN_BASE_read 1 2 1 0
  let p := p.fput F.SEC_GUEST_WIN_BASE_base (scratchPa 0 0 / 4096) 2 1 0
  p.fput F.SEC_GUEST_WIN_LIMIT_limit (scratchPa 0 0 / 4096) 2 1 0

theorem witness_SecurityCommandsAct_bad :
    (∀ c ∈ [1, 2, 3, 4, 5], (tSec0 (tW0 c 0x10) (2 ^ 40)).secCommand 0 = c ∧ (tSec0 (tW0 c 0x10) (2 ^ 40)).secUp 0 = true ∧
      (tSec0 (tW0 c 0x10) (2 ^ 40)).secResult 0 ≠ 0) ∧
    (let p := tSec0 (tW0 1 0x10) 1
     p.flag F.SEC_CMD_CONTROL_busy 0 = false ∧ p.secClosed 0 = false ∧ p.secLayout 0 = true ∧
       (p.fput F.PMC_STAGE_stage 1).secClosed 0 = true) ∧
    (tSec0 (tW0 1 0x14) 1).secLayout 0 = false ∧
    (let p := tSec0 (tW0 1 0x13) 1
     p.secLayout 0 = true ∧ p.secSigned 0 = false) ∧
    (tSec0 (tW0 1 0x10) 1).secOwnWay 0 .hostB = true ∧ MayManage (tSec0 (tW0 1 0x10) 1) .bmc ∧
    (let p := tSec0 (tW0 1 0x10) 1
     let q : Panel := { p with bring := { p.bring with running := [3] } }
     q.secOwnWay 0 .hostB = false ∧ q.secOwnWay 0 .hostA = true) ∧
    writerHost .hostB = some true ∧ (tSec0 (tW0 1 0x10) 1).holdsLease true = false ∧
    tGuest.hubUp (guestHub 3) = true ∧ tGuest.fget F.SEC_GUEST_STATUS_state (guestHub 3) (3 % 2) = gsAdmitted ∧
    tGuest.guestPasses 3 (tK 0 0 (scratchPa 0 4095) 1) = true ∧ tGuest.guestPasses 3 (tK 0 0 (scratchPa 0 4096) 1) = false ∧
    (tGuest.guestSite 3).into = [] ∧ (tK 0 0 (scratchPa 0 4095) 1).payload.length ≤ (tGuest.guestSite 3).bucket ∧
    ¬ (1 ≤ (tGuest.guestSite 3).bucket) ∧
    tP.hubUp (7 / 2) = true ∧ (5 : BitVec 16).toNat ≤ (5 : BitVec 16).toNat ∧ (4 : BitVec 16).toNat < (5 : BitVec 16).toNat ∧
    (6 : BitVec 16).toNat > (5 : BitVec 16).toNat := by unfold MayManage MayWrite; and_intros <;> decide +kernel

/-- Both hubs run firmware, HD0 holds an alias key, its keys erased or not; host A's link is up. -/
def tSpdm (erased : Bool) : Panel :=
  let p := (tStage 0xA).fput F.PCI_PORT_STATUS_link_up 1 0
  { p with sec := [(0, { Sec.empty with aliasHeld := true, erased := erased })] }

theorem witness_SecurityCommandsAct_ways :
    (tSpdm false).secServer 0 .smbus = some 0 ∧ (tSpdm false).secServer 0 .i3c = none ∧
    (∀ c ∈ [1, 2, 3, 4, 5], ((tSpdm false).putBlock 0 [BitVec.ofNat 64 (tW0 c 0x10)]).secCommand 0 = c) ∧
    Panel.reset.secUp 0 = false ∧
    (let p := ((tSpdm false).modMgmt 0 fun m => { m with jtag := .extest }).fput F.SEC_STATUS_debug_open 1 0
     p.secUp 0 = true ∧ (p.closeDebug 0).mgmt ≠ [] ∧ (p.closeDebug 0).jtagOpen = false) := by and_intros <;> decide +kernel

theorem witness_SpdmRequestsAreAnswered :
    (∀ t ∈ [none, some Transport.smbus, some .pcieVdm], (tSpdm false).spdmHub 0 t = some 0) ∧
    ((tSpdm false).modMgmt 0 fun m => { m with i3cAddr := some 0x3A }).spdmHub 0 (some .i3c) = some 0 ∧
    (tSpdm false).spdmHub 0 (some .i3c) = none ∧
    (tSpdm false).keysErased 0 = false ∧ (tSpdm true).spdmHub 0 none = some 0 ∧ (tSpdm true).keysErased 0 = true ∧
    (tSpdm false).secUp 0 = true ∧ (tSpdm false).flag F.PCI_PORT_STATUS_link_up 0 = true ∧
    (tSpdm false).bring.running.contains 0 = true ∧ (tSpdm false).spdmHub 1 none = none ∧
    (let p := tP.fput F.PCI_PORT_STATUS_link_up 1 0
     p.secUp 0 = true ∧ p.flag F.PCI_PORT_STATUS_link_up 0 = true ∧ p.bring.running.contains 0 = false) ∧
    ((tSpdm false).measurements 0).length ≠ 0 ∧ 2 ≤ (2 : BitVec 8).toNat := by
  and_intros <;> decide +kernel

/-- tSpdm with an update of component 1 begun at its primary hub. -/
def tUpd (verified : Bool) : Panel := (tSpdm false).setUpdate 0 (some ⟨1, [], verified⟩)

/-- A panel in SAFE, both hubs in ROM. -/
def tRom : Panel :=
  let p := tStage stageSafe
  { p with bring := { p.bring with inRom := [0, 3], running := [] } }

theorem witness_ManagementAnswers :
    (∀ t ∈ [Transport.smbus, .pcieVdm], (tSpdm false).transportUp 0 t = true) ∧
    ((tSpdm false).modMgmt 0 fun m => { m with i3cAddr := some 0x3A }).transportUp 0 .i3c = true ∧
    tP.transportUp 0 .pcieVdm = false ∧ smSorted (tSpdm false).mgmt = true ∧ (tSpdm false).secUp 0 = true ∧
    Panel.reset.secUp 0 = false ∧ ((tSpdm false).mgmtOf 0).i3cAddr = none ∧ (tSpdm false).hasPrimary = true ∧
    ({ tP with pmc := { tP.pmc with restarting := [0, 3] } } : Panel).hasPrimary = false ∧ tP.jtagOpen = false ∧
    (tP.fput F.SEC_STATUS_debug_open 1 0).jtagOpen = true ∧
    (∀ x ∈ [(2, JtagInstr.pmcHalt), (2, .pmcStep), (2, .pmcResume), (2, .pmcRegs), (4, .sramRead)],
      (tP.fput F.SEC_STATUS_debug_open (1 + x.1) 0).jtagActs x.2 = x.2 ∧ (tP.fput F.SEC_STATUS_debug_open x.1 0).jtagActs x.2 = .bypass) ∧
    tP.hubUp 0 = true ∧ Panel.reset.hubUp 0 = false ∧ (1 : BitVec 8) ≠ 0xFF := by
  and_intros <;> decide +kernel

theorem witness_ManagementAnswers_updates :
    (tSpdm false).bring.running.contains 0 = true ∧ tP.bring.running.contains 0 = false ∧
    (tRom.bring.inRom.contains 3 = true ∧ tRom.stage = stageSafe ∧ tRom.secUp 3 = true) ∧
    (tStage 9).nvmClosed = true ∧ (tSpdm false).nvmClosed = false ∧ (tSpdm false).ownComponent 0 1 = true ∧
    tRom.ownComponent 3 1 = false ∧ (tSpdm false).primaryHub = 0 ∧ (tSpdm false).nvmProtected 2 = false ∧
    (tSpdm false).nvmProtected 1 = true ∧ (tSpdm false).hasPrimary = true ∧ (tSpdm false).transportUp 0 .pcieVdm = true ∧
    (tSpdm false).transportUp 0 .i3c = false ∧ tRom.transportUp 3 .smbus = true ∧
    ((tSpdm false).mgmtOf 0).update = none ∧
    (∀ v ∈ [false, true], ((tUpd v).mgmtOf 0).update = some ⟨1, [], v⟩) ∧ 4096 + (120 * 2 ^ 20 - 4096) ≤ 120 * 2 ^ 20 ∧
    (let p := (tUpd true).fput F.PMC_STAGE_state servServing
     p.serving ≠ servDown ∧ p.serving ≠ servDried ∧ p.stage ≠ stageSafe) ∧ smSorted ([] : SMap Byte) = true := by
  and_intros <;> decide +kernel

/-! ### Frames and the invariant -/

theorem witness_RegisterInstructionsLeaveTheRest :
    tP.wf ∧ 0 < 1024 ∧ smSorted (tP.core 0).q.sregs = true ∧ smSorted (tP.core 0).q.dregs = true ∧
    (∀ i ∈ ([.add 0 ⟨31, 0, 1, 0⟩, .li 0 ⟨1, 0, 5⟩, .dset 0 ⟨15, 9, 1, 0⟩, .beq 0 ⟨1, 2, 0, 5⟩, .call 0 ⟨0, 5⟩, .jr 0 ⟨0, 1, 0⟩, .ret 0 0,
      .loop 0 ⟨0, 0, 4, 3⟩, .vadd 0 ⟨31, 1, 2, 0, 4, 0, false, 0⟩] : List Instr), ∃ t, exec i (st tP) = .next t) := by
  refine ⟨test_wf_reset.2.1, by decide, by decide, by decide, fun i hi => ?_⟩
  simp only [List.mem_cons, List.not_mem_nil, or_false] at hi
  rcases hi with rfl | rfl | rfl | rfl | rfl | rfl | rfl | rfl | rfl <;> exact ⟨_, rfl⟩

theorem witness_MemoryInstructionsLeaveTheRest :
    tP.misCoded (.scratch 0) (scratchPa 0 0x3FFFF8) = false ∧ smGetD tP.st.latent (scratchPa 0 0x3FFFF8 / 64) [] = [] ∧
    (∀ w ∈ (List.range 8).map (scratchPa 0 0x3FFFC0 / 8 + ·), tP.lostWord (.scratch 0) w = false) ∧
    (∃ t, exec (.ld 0 ⟨1, 0, 0x3FFFF8⟩) (st tP) = .next t) ∧ (∃ t, exec (.st 0 ⟨1, 0, 0x3FFFF8⟩) (st tP) = .next t) ∧
    (∃ t, exec (.dst 0 ⟨1, 0, 0, 0x3FFFE0⟩) (st tP) = .next t) :=
  ⟨by decide +kernel, by decide +kernel, by decide +kernel, ⟨_, rfl⟩, ⟨_, rfl⟩, ⟨_, rfl⟩⟩

theorem witness_StepsKeepTheCanonicalForm : tP.wf ∧ ∃ t, step ⟨tP, [.addi 0 ⟨1, 0, 5⟩]⟩ = .next t ∧ t.p ≠ tP :=
  ⟨test_wf_reset.2.1, _, rfl, by decide +kernel⟩

theorem witness_StepRunsTheFrontCommand : ∃ t, step ⟨tP, [.addi 0 ⟨1, 0, 5⟩, .ret 0 0]⟩ = .next t ∧ t.pending = [.ret 0 0] :=
  ⟨_, rfl, rfl⟩

theorem witness_AccordSumsAreReproducible : 0x3F800000 < 2 ^ 32 ∧ 2 ^ 32 - 1 < 2 ^ 32 ∧ 2 ^ 32 - 1 ≠ 0x3F800000 ∧
    (∀ i, i < 2 ^ 2 → (fun n : Nat => if n < 4 then some n else none) i = some i) := by decide

/-! ### Single commands: expected values from the spec's text and worked examples -/

/-- What a test reads of the state a command leaves. -/
def after {α : Type} (i : Instr) (s : State) (f : Panel → α) : Option α :=
  match exec i s with
  | .next t => some (f t.p)
  | _ => none

/-- Core 0 with s1 = a and s2 = b. -/
def tAB (a b : W64) : State := tC fun k => (k.setS 1 a).setS 2 b

def s3 (p : Panel) : W64 := (p.core 0).sreg 3

/-- R49: scalar arithmetic wraps; signed and unsigned compares differ; a shift takes rb[5:0]. -/
theorem test_scalar_add : after (.add 0 ⟨3, 1, 2, 0⟩) (tAB (-1) 2) s3 = some 1 := by decide
theorem test_scalar_sub : after (.sub 0 ⟨3, 1, 2, 0⟩) (tAB 1 2) s3 = some (-1) := by decide
theorem test_scalar_sra : after (.sra 0 ⟨3, 1, 2, 0⟩) (tAB (-8) 0x41) s3 = some (-4) := by decide
theorem test_scalar_srl : after (.srl 0 ⟨3, 1, 2, 0⟩) (tAB (-8) 0x41) s3 = some 0x7FFFFFFFFFFFFFFC := by decide
theorem test_scalar_mulh : after (.mulh 0 ⟨3, 1, 2, 0⟩) (tAB (-1) 3) s3 = some (-1) := by decide
theorem test_scalar_slt : after (.slt 0 ⟨3, 1, 2, 0⟩) (tAB (-1) 3) s3 = some 1 := by decide
theorem test_scalar_sltu : after (.sltu 0 ⟨3, 1, 2, 0⟩) (tAB (-1) 3) s3 = some 0 := by decide
theorem test_scalar_min : after (.min_ 0 ⟨3, 1, 2, 0⟩) (tAB (-1) 3) s3 = some (-1) := by decide
theorem test_addi_sign : after (.addi 0 ⟨3, 1, 0x3FFFFFFFFFFF⟩) (tAB 5 0) s3 = some 4 := by decide
theorem test_lih : after (.lih 0 ⟨3, 0, 7⟩) (tC fun k => k.setS 3 (-1)) s3 = some 0x7FFFFFFFF := by decide

/-- R37: a write of s0 is discarded, and the pc moves on. -/
theorem test_s0 : after (.addi 0 ⟨0, 0, 5⟩) (st tP) (fun p => ((p.core 0).sreg 0, (p.core 0).q.pc)) = some (0, 1) := by decide

/-- R50: an address that is not a multiple of 8 traps MISALIGNED, R76: the handler runs in firmware mode. -/
theorem test_ld_misaligned : after (.ld 0 ⟨3, 0, 4⟩) (st tP) (fun p => (p.fwMode 0, p.fget F.CORE_TRAP_CAUSE_cause 0)) =
    some (true, 0x02) := by decide

/-- R50: a store, then a load of its upper half. -/
theorem test_stw_ldw : after (.ldw 0 ⟨3, 0, 4⟩) (st (tP.spStore 0 0 (toBytes 8 0x1122334455667788))) s3 =
    some 0x11223344 := by decide

/-- R53: CALL leaves the next index in s31. -/
theorem test_call : after (.call 0 ⟨0, 5⟩) (st tP) (fun p => ((p.core 0).sreg 31, (p.core 0).q.pc)) = some (1, 5) := by decide

/-- R78: a trap in firmware mode is a double trap; the core halts. -/
theorem test_double_trap : after (.ld 0 ⟨3, 0, 4⟩) (st tFw) (fun p => (p.running 0, p.halted 0)) = some (false, true) := by
  decide

/-- R69: RETT goes to CORE_TRAP_PC in the mode recorded. -/
theorem test_rett : after (.rett 0 0) (st ((tFw.put .CORE_TRAP_PC 7 0).fput F.CORE_TRAP_CAUSE_prev_mode 0 0))
    (fun p => ((p.core 0).q.pc, p.fwMode 0)) = some (7, false) := by decide

/-- R57: a counter saturates at 2^32 - 1 and records the overflow. -/
theorem test_token_saturates :
    after (.coreTokenWrite 0 5 0xFFFFFFFF) (st tP) (fun p =>
      let q := p.tokenAdd 0 5 2
      (q.fget F.CORE_TOKEN_value 0 5, bit (q.fget F.CORE_TOKEN_STATUS_overflow 0) 5)) = some (0xFFFFFFFF, true) := by decide

/-- The encodings of R120 to R122's example. -/
theorem test_formats :
    fmtE4M3.decode 0x5C = .fin false 12 1 ∧ fmtE5M2.decode 0xC5 = .fin true 5 0 ∧ fmtE3M2.decode 0b011101 = .fin false 5 2 ∧
    fmtE2M3.decode 0b101011 = .fin true 11 (-3) ∧ fmtE2M1.decode 0b0101 = .fin false 3 0 ∧
    fmtBF16.decode 0x4049 = .fin false 201 (-6) ∧ fmtFP16.decode 0x4248 = .fin false 1608 (-9) := by decide

/-- R123's example: 0.375 times 1,280 is 480. -/
theorem test_product :
    (FVal.cmp ((scaled (fmtE2M1.decode 0b0101) 0x7C).mul (scaled (fmtE3M2.decode 0b011101) 0x85)) (.fin false 480 0)) = .eq := by
  decide

/-- R134's example: 2.125 closes to 0x40, and 470 to 0x7E with out_sat. -/
theorem test_close : fmtE4M3.ofVal .ne (.fin false 17 (-3)) = 0x40 ∧ closeConv 0 .ne (.fin false 470 0) = (0x7E, true) := by decide

/-- The example of R129: L = 0x100_7FFF_8000_0000_0000 at anchor 0 closes to 0x4780_4000 in FP32. -/
theorem test_la96_close :
    (let v := closeVal kindLA96 0 0x10000000000000000007FFF800000000000#104
     v.2) = false ∧
    fmtFP32.ofVal .ne (closeVal kindLA96 0 (BitVec.ofNat 104 (2 ^ 72 + 65535 * 2 ^ 47))).1 = 0x47804000 := by decide

/-- The same products in an F32 cell: 65,536 plus 2^-9 stays, in that order; 127.998046875 plus 65,536 rounds up. -/
theorem test_f32_cell :
    (accAdd kindF32 0 (BitVec.ofNat 104 0x47800000) (.fin false 1 (-9))).1 = BitVec.ofNat 104 0x47800000 ∧
    (accAdd kindF32 0 (BitVec.ofNat 104 0x42FFFF00) (.fin false 65536 0)).1 = BitVec.ofNat 104 0x47804000 := by decide

/-- R236's example: 16,777,216, 1, 1 and -16,777,216 sum to 1 in a fixative slot; in order of arrival to 0 or to 2. -/
theorem test_fixative :
    (treeSum (fun i => [0x4B800000, 0x3F800000, 0x3F800000, 0xCB800000][i]?) 2 0).1 = some 0x3F800000 ∧
    (f32Add (f32Add (f32Add 0x4B800000 0x3F800000).1 0x3F800000).1 0xCB800000).1 = 0 ∧
    (f32Add (f32Add (f32Add 0x4B800000 0xCB800000).1 0x3F800000).1 0x3F800000).1 = 0x40000000 := by decide

/-- R425's example: three marks take the rate from 256 to 172. -/
theorem test_sillage : [256, 224, 196].map (fun r => max (tP.minRate) (r - r / 2 ^ tP.decShift)) = [224, 196, 172] := by decide

/-- R508's and R496's example: CORE_TRAP_CAUSE of core 613 lies at 0x0126_5028. -/
theorem test_register_map : (({ tP with bring := { tP.bring with rowPairs := [0, 1, 2, 3] } } : Panel).locate 0x01265028) =
    .reg (.core 613) .CORE_TRAP_CAUSE 0 0 := by decide +kernel

/-- R85: a halt request stops issue. -/
theorem test_halt_request : after (.coreHaltReq 0) (st tP) (fun p => p.running 0) = some false := by decide

/-- R439: a lease held by nobody is given to the host that asks. -/
theorem test_lease : after (.leaseAcquire true) (st tP) (fun p => p.fget F.PCI_LEASE_holder) = some 2 := by decide

/-- R464: DEBUG_WINDOW's end closes every scope. -/
theorem test_debug_closes : after (.debugWindowExpire 0) (st (tP.fput F.SEC_STATUS_debug_open 7 0))
    (fun p => p.fget F.SEC_STATUS_debug_open 0) = some 0 := by decide

/-- R465: a closed JTAG instruction acts as BYPASS. -/
theorem test_jtag : after (.jtagInstruction 0 .extest) (st tP) (fun p => (p.mgmtOf 0).jtag) = some .bypass := by decide

/-- A step takes the front command and keeps the rest; an empty queue leaves the queue empty. -/
theorem test_step : (match step ⟨tP, [.addi 0 ⟨3, 0, 5⟩, .ret 0 0]⟩ with
    | .next t => some (s3 t.p, t.pending) | _ => none) = some (5, [.ret 0 0]) := by decide

end Sys2Proof.Tests
end

section
/-! The canonical form of the sparse state (log 3) as an invariant: one lemma per function of the model that gives a panel, in
the model's order, each from the lemmas of the functions it calls. A change that reaches neither the registers nor the cores
nor the bytes of the memories keeps the form as it stands (`Panel.wf.frame`); a choice keeps it when both ways do
(`Panel.wf_ite`), a fold when its step does (`Panel.wf_foldl`). `nextWf_exec` gathers them for a command, and the obligation
is read off it. -/

namespace Sys2Proof.Machine

open Panel

/-! ### Frames and choices -/

/-- The predicate of an instruction's ending: each panel it carries is canonical. -/
def Issued.wf : Issued → Prop
  | .done p => p.wf
  | .jump p _ _ => p.wf
  | .skip p _ => p.wf
  | .enter p _ => p.wf
  | _ => True

/-- The predicate of a step's outcome: its next state, if there is one, is canonical. -/
def NextWf : Host.Outcome State Fault Refusal → Prop
  | .next t => t.p.wf
  | _ => True

/-- A change outside registers, cores and memories keeps the canonical form. -/
theorem Panel.wf.frame {p : Panel} (h : p.wf) {net accords bars eng0 eng3 ing image portA portB mir pwr bring fab nvmA nvmB errs
    pmc fabric sec guests oe mgmt reports out freeCtr} :
    (Panel.mk p.regs p.st p.cores net accords bars eng0 eng3 ing image portA portB mir pwr bring fab nvmA nvmB errs
      pmc fabric sec guests oe mgmt reports out freeCtr).wf := h

/-- So does a change that leaves the bytes of the memories alone. -/
theorem Panel.wf.frameSt {p : Panel} (h : p.wf) {net accords bars eng0 eng3 ing image portA portB mir pwr bring fab nvmA nvmB errs
    pmc fabric sec guests oe mgmt reports out freeCtr imem poison latent astray enc undef rc cmScrub hbmScrub refreshMode
    activations rfmLimit rfmIssued ecsLast regions heldTable loading mirRanges} :
    (Panel.mk p.regs ⟨p.st.mem, imem, poison, latent, astray, enc, undef, rc, cmScrub, hbmScrub, refreshMode, activations,
      rfmLimit, rfmIssued, ecsLast, regions, heldTable, loading, mirRanges⟩ p.cores net accords bars eng0 eng3 ing image portA
      portB mir pwr bring fab nvmA nvmB errs pmc fabric sec guests oe mgmt reports out freeCtr).wf := h

/-- And one that forgets every core, as each reset does. -/
theorem Panel.wf.noCores {p : Panel} (h : p.wf) {net accords bars eng0 eng3 ing image portA portB mir pwr bring fab nvmA nvmB errs
    pmc fabric sec guests oe mgmt reports out freeCtr} :
    (Panel.mk p.regs p.st [] net accords bars eng0 eng3 ing image portA portB mir pwr bring fab nvmA nvmB errs
      pmc fabric sec guests oe mgmt reports out freeCtr).wf := ⟨h.1, rfl, h.2.2⟩

section
variable {α β γ : Type}

theorem Panel.wf_getD {o : Option Panel} {p : Panel} (ho : ∀ q, o = some q → q.wf) (h : p.wf) : (o.getD p).wf := by
  cases o with
  | none => exact h
  | some q => exact ho q rfl

theorem Panel.wf_fst {e : Panel × α} {a : α} {q : Panel} (he : e = (q, a)) (h : e.1.wf) : q.wf := by
  subst he; exact h

theorem Panel.wf_snd {e : α × Panel} {a : α} {q : Panel} (he : e = (a, q)) (h : e.2.wf) : q.wf := by
  subst he; exact h

theorem Panel.wf_snd_snd {e : α × β × Panel} {a : α} {b : β} {q : Panel} (he : e = (a, b, q)) (h : e.2.2.wf) : q.wf := by
  subst he; exact h

/-- Both branches canonical, the choice is: the choice of an instruction's ending, and of a panel in a tuple. -/
theorem Issued.wf_ite {c : Prop} [Decidable c] {i j : Issued} (hi : i.wf) (hj : j.wf) : (if c then i else j).wf := by
  split <;> assumption

theorem Panel.wf_ite_fst {c : Prop} [Decidable c] {x y : Panel × α} (hx : x.1.wf) (hy : y.1.wf) :
    (if c then x else y).1.wf := by
  split <;> assumption

theorem Panel.wf_ite_snd {c : Prop} [Decidable c] {x y : α × Panel} (hx : x.2.wf) (hy : y.2.wf) :
    (if c then x else y).2.wf := by
  split <;> assumption

theorem Panel.wf_ite_snd_snd {c : Prop} [Decidable c] {x y : α × β × Panel} (hx : x.2.2.wf) (hy : y.2.2.wf) :
    (if c then x else y).2.2.wf := by
  split <;> assumption

/-- What each step of a fold keeps canonical, the fold keeps. -/
theorem Panel.wf_foldl {f : Panel → α → Panel} (hf : ∀ q a, q.wf → (f q a).wf) {l : List α} {p : Panel} (h : p.wf) :
    (l.foldl f p).wf := foldl_keeps Panel.wf f hf l p h

theorem Panel.wf_foldl_fst {f : Panel × β → α → Panel × β} (hf : ∀ q b a, q.wf → (f (q, b) a).1.wf) {l : List α}
    {x : Panel × β} (h : x.1.wf) : (l.foldl f x).1.wf :=
  foldl_keeps (fun x => x.1.wf) f (fun x a => hf x.1 x.2 a) l x h

theorem Panel.wf_foldl_snd {f : β × Panel → α → β × Panel} (hf : ∀ b q a, q.wf → (f (b, q) a).2.wf) {l : List α}
    {x : β × Panel} (h : x.2.wf) : (l.foldl f x).2.wf :=
  foldl_keeps (fun x => x.2.wf) f (fun x a => hf x.1 x.2 a) l x h

theorem Panel.wf_foldl_snd_snd {f : β × γ × Panel → α → β × γ × Panel}
    (hf : ∀ b c q a, q.wf → (f (b, c, q) a).2.2.wf) {l : List α} {x : β × γ × Panel} (h : x.2.2.wf) :
    (l.foldl f x).2.2.wf :=
  foldl_keeps (fun x => x.2.2.wf) f (fun x a => hf x.1 x.2.1 x.2.2 a) l x h

theorem nextWf_upd {s : State} {f : Panel → Panel} (h : s.p.wf) (hf : ∀ p, p.wf → (f p).wf) : NextWf (.next (s.upd f)) :=
  hf s.p h

/-- The fold's step, for a step whose text is too deep to compare with another: the fact is about its value. -/
theorem Panel.wf_foldl_of_eq {f : β × γ × Panel → α → β × γ × Panel}
    (hf : ∀ b c q a r, q.wf → f (b, c, q) a = r → r.2.2.wf) {l : List α} {x : β × γ × Panel} (h : x.2.2.wf) :
    (l.foldl f x).2.2.wf :=
  foldl_keeps (fun x => x.2.2.wf) f (fun x a hx => hf x.1 x.2.1 x.2.2 a _ hx rfl) l x h

end

/-- What holds of a function's text holds of the function. (`unfold` leaves it to the kernel to compare the two, and the
kernel then evaluates what the text matches on.) -/
theorem of_text {α : Sort*} {f g : α} (P : α → Prop) (e : f = g) (h : P g) : P f := e ▸ h

/-- The identity, about a call: it makes `refine` show a choice under local definitions as the call it is. -/
theorem Panel.wf_app {α : Sort*} {f : α → Panel} {a : α} (h : (f a).wf) : (f a).wf := h

section
variable {p : Panel} {s : State}

/-! ### Ops.lean -/

theorem Panel.wf_reportLink (h : p.wf) {n port ev cls} : (p.reportLink n port ev cls).wf := wf_sendReport h ..

theorem Panel.wf_reportHubEdge (h : p.wf) {hub ev cls d0} : (p.reportHubEdge hub ev cls d0).wf := wf_sendReport h ..

theorem Panel.wf_reportPanel (h : p.wf) {hub ev cls d0 d1} : (p.reportPanel hub ev cls d0 d1).wf := wf_sendReport h ..

theorem Panel.wf_reportZone (h : p.wf) {z ev cls} : (p.reportZone z ev cls).wf := wf_sendReport h ..

theorem Panel.wf_asWriter (h : p.wf) {src} {f : Panel → Panel} (hf : (f p).wf) : (p.asWriter src f).wf := by
  unfold Panel.asWriter
  split
  · exact h
  · split
    · exact hf
    · exact wf_ite hf (wf_addHold h ..)

theorem Panel.wf_asManager (h : p.wf) {src} {f : Panel → Panel} (hf : (f p).wf) : (p.asManager src f).wf := by
  unfold Panel.asManager
  split
  · exact hf
  · exact wf_asWriter h hf

theorem Panel.wf_setGuest (h : p.wf) {g s'} : (p.setGuest g s').wf := h.frame

/-! ### Memory.lean -/

theorem Panel.wf_loadRanges (h : p.wf) : p.loadRanges.wf := h.frame

theorem Panel.wf_mirPush (h : p.wf) {m} : (p.mirPush m).wf := h.frame

theorem Panel.wf_rcReadLine (h : p.wf) {die cl line opEpoch} : (p.rcReadLine die cl line opEpoch).2.wf := by
  unfold Panel.rcReadLine
  extract_lets x1
  have hx1 : ∀ (p : Panel), p.wf → (x1 p).2.wf := by
    intro p2 hq
    unfold x1
    extract_lets p3
    have h3 : p3.wf := wf_addWrap hq ..
    split
    rename_i p4 e4
    have h4 : p4.wf := wf_snd e4 (wf_readTagged h3 ..)
    exact wf_ite h4 (wf_rcInstall h4 ..)
  split
  · exact hx1 _ h
  · split
    rename_i p2 e2
    have h2 : p2.wf := wf_snd e2 (wf_draw h ..)
    refine wf_ite_snd (hx1 _ h2) ?_
    split
    rename_i p3 e3
    have h3 : p3.wf := wf_snd e3 (wf_ite_snd h2 (wf_draw h2 ..))
    extract_lets x4 p5
    have hx4 : ∀ (p : Panel) (d : List Byte), p.wf → (x4 p d).2.wf := by
      intro p6 _ hq
      unfold x4
      refine wf_ite ?_ (wf_addWrap hq ..)
      exact hq.frameSt
    split
    · refine hx1 _ ?_
      exact (wf_addHold h3 ..).frameSt
    · exact hx4 _ _ (wf_addHold h3 ..)
    · split
      rename_i p6 e6
      have h6 : p6.wf := wf_snd e6 (wf_drawBytes h3 ..)
      exact hx4 _ _ (wf_addHold h6 ..)
    · exact hx4 _ _ h3

theorem Panel.wf_dmaRead (h : p.wf) {die cl opEpoch pa n} : (p.dmaRead die cl opEpoch pa n).2.wf := by
  unfold Panel.dmaRead
  split
  · exact h
  · extract_lets
    refine wf_foldl_snd (fun b p1 a h1 => ?_) h
    extract_lets
    dsimp -zeta only
    split
    · exact wf_rcReadLine h1
    · exact wf_readTagged h1 ..

theorem nextWf_execSpStarvationGrant (h : s.p.wf) {c a1} : NextWf (execSpStarvationGrant c a1 s) :=
  nextWf_upd h (fun _ h1 => wf_ite (wf_addWrap h1 ..) h1)

theorem Panel.wf_scrubCmem (h : p.wf) {die cl} : (p.scrubCmem die cl).wf := by
  unfold Panel.scrubCmem
  extract_lets _ _ _ _ _ _ _ p1
  have h1 : p1.wf := by
    unfold p1
    exact h.frameSt
  refine wf_ite ?_ (wf_foldl (fun p2 a h2 => wf_ite ?_ (wf_ite h2 ?_)) h1)
  · exact h.frameSt
  · split
    rename_i p3 e3
    have h3 : p3.wf := wf_snd e3 (wf_draw h2 ..)
    exact wf_ite (wf_countErr h3 ..) (wf_ite (wf_setPoison (wf_countErr h3 ..) ..) h3)
  · extract_lets
    split
    rename_i p3 e3
    have h3 : p3.wf := wf_snd e3 (wf_findWord h2 ..)
    split
    · exact h3
    · exact h3
    · exact wf_clearLatent (wf_setPoison (wf_asFound h3 ..) ..) ..
    · exact wf_clearLatent (wf_asFound h3 ..) ..

theorem nextWf_execCmemScrubTick (h : s.p.wf) {die cl} : NextWf (execCmemScrubTick die cl s) :=
  nextWf_upd h (fun _ h1 => wf_ite (wf_scrubCmem h1) h1)

theorem nextWf_execRcEpochClearDone (h : s.p.wf) {die cl} : NextWf (execRcEpochClearDone die cl s) :=
  nextWf_upd h (fun _ h1 => wf_ite (wf_fput h1 ..) h1)

theorem Panel.wf_rcEpochWrite (h : p.wf) {die cl v} : (p.rcEpochWrite die cl v).wf := wf_ite (wf_advanceEpoch h ..) h

theorem nextWf_execRcEpochAdvanceWrite (h : s.p.wf) {die cl v} : NextWf (execRcEpochAdvanceWrite die cl v s) :=
  nextWf_upd h (fun _ h1 => wf_ite (wf_rcEpochWrite h1) h1)

theorem Panel.wf_cmemPartWrite (h : p.wf) {die cl v} : (p.cmemPartWrite die cl v).wf := by
  unfold Panel.cmemPartWrite
  extract_lets _ _ _ _ p1 p2 p3 _ p4
  have h1 : p1.wf := wf_fput h ..
  have h2 : p2.wf := wf_fput h1 ..
  have h3 : p3.wf := wf_fput h2 ..
  have h4 : p4.wf := h3.frame
  exact wf_ite (wf_markUndef h4 ..) (wf_fput h ..)

theorem nextWf_execCdCmemPartWrite (h : s.p.wf) {die cl v} : NextWf (execCdCmemPartWrite die cl v s) :=
  nextWf_upd h (fun _ h1 => wf_ite (wf_cmemPartWrite h1) h1)

/-! ### Operands.lean -/

/-- Every way an issue ends keeps the canonical form, where what the body carries has it. -/
theorem Panel.wf_issue (h : p.wf) {c cls bad} {body : Panel → Core → Issued} (hb : (body p (p.core c)).wf) :
    (p.issue c cls bad body).wf := by
  refine issue_wf bad h fun q hq => ?_
  obtain e | ⟨_, _, e⟩ | ⟨_, e⟩ | ⟨_, e⟩ := hq <;> (rw [e] at hb; exact hb)

theorem Panel.wf_unblock (h : p.wf) {c} {f : Panel → Panel} (hf : (f p).wf) : (p.unblock c f).wf := by
  unfold Panel.unblock
  refine wf_ite h ?_
  extract_lets _ p1
  have h1 : p1.wf := wf_modCore hf ..
  split
  · rename_i p2 e2
    exact wf_completeAt h1 e2
  · exact wf_foundTrap h ..

theorem Panel.wf_offsetOf {ra imm size} {i : Issued} (e : offsetOf ra imm size = .inr i) : i.wf := by
  unfold offsetOf at e
  extract_lets at e
  split at e
  · cases e; trivial
  · split at e
    · cases e; trivial
    · cases e

theorem Panel.wf_withHeld (h : p.wf) {c} : (p.withHeld c).wf := by
  unfold Panel.withHeld
  split
  · exact wf_foldl (fun _ _ h1 => wf_writeTagged h1 ..) h
  · exact h

theorem Panel.wf_spLoad (h : p.wf) {c off n} : (p.spLoad c off n).2.2.wf :=
  wf_ite_snd_snd ((wf_readRange h ..).frame) (wf_readRange (wf_withHeld h) ..)

theorem Panel.wf_spStore (h : p.wf) {c off bs} : (p.spStore c off bs).wf := by
  unfold Panel.spStore
  extract_lets
  split
  · exact wf_setCore h ..
  · exact wf_writeTagged h ..

/-! ### Route.lean -/

theorem Panel.wf_writeRoutes (h : p.wf) {shadow} : (p.writeRoutes shadow).wf := by
  unfold Panel.writeRoutes
  extract_lets _ _ _ _ _ p1
  have h1 : p1.wf := wf_foldl (fun _ _ h2 => wf_foldl (fun _ _ h3 => wf_put h3 ..) h2) h
  exact wf_foldl (fun _ _ h2 => wf_foldl (fun _ _ h3 => wf_put h3 ..) (wf_put h2 ..)) h1

theorem Panel.wf_writeTopo (h : p.wf) : p.writeTopo.wf := by
  unfold Panel.writeTopo
  extract_lets
  refine wf_foldl (fun p1 a h1 => ?_) h
  extract_lets
  exact wf_put h1 ..

theorem Panel.wf_writePorts (h : p.wf) : p.writePorts.wf := by
  unfold Panel.writePorts
  refine wf_foldl (fun p1 a h1 => wf_foldl (fun p2 a3 h2 => ?_) h1) h
  dsimp -zeta only
  extract_lets _ p3 p4 _ p5
  have h3 : p3.wf := wf_fput h2 ..
  have h4 : p4.wf := wf_fput h3 ..
  have h5 : p5.wf := wf_fput h4 ..
  exact wf_fput h5 ..

theorem Panel.wf_clearGroup (h : p.wf) {g} : (p.clearGroup g).wf := wf_foldl (fun _ _ h1 => wf_resetReg h1 ..) h

theorem Panel.wf_writeGroup (h : p.wf) {g} : (p.writeGroup g).wf := by
  unfold Panel.writeGroup
  extract_lets _ _ p1
  have h1 : p1.wf := wf_clearGroup h
  refine wf_foldl (fun p2 a h2 => ?_) h1
  extract_lets
  exact wf_ite h2 (wf_put h2 ..)

theorem Panel.wf_rewriteGroups (h : p.wf) : p.rewriteGroups.wf :=
  wf_foldl (fun _ _ h1 => wf_ite (wf_writeGroup h1) h1) h

theorem Panel.wf_divideShares (h : p.wf) : p.divideShares.wf := h.frame

theorem Panel.wf_installRoutes (h : p.wf) : p.installRoutes.wf :=
  wf_divideShares (wf_rewriteGroups (wf_writeTopo (wf_writePorts (wf_writeRoutes h))))

theorem Panel.wf_inject (h : p.wf) {node k} : (p.inject node k).wf := h.frame

theorem Panel.wf_await (h : p.wf) {node unit kind} : (p.await node unit kind).2.wf := h.frame

theorem Panel.wf_unawait (h : p.wf) {f} : (p.unawait f).wf := h.frame

/-! ### Matrix.lean -/

theorem Panel.wf_mmaIssue (h : p.wf) {c f arA brB} : (p.mmaIssue c f arA brB).wf := by
  unfold Panel.mmaIssue
  refine wf_issue h (Issued.wf_ite trivial ?_)
  extract_lets
  exact Issued.wf_ite trivial (Issued.wf_ite trivial (Issued.wf_ite trivial (Issued.wf_ite trivial
      (Issued.wf_ite trivial (Issued.wf_ite trivial (Issued.wf_ite trivial (Issued.wf_ite trivial
          (Issued.wf_ite trivial (wf_setCore h ..)))))))))

theorem Panel.wf_rowElems (h : p.wf) {d i1 i2 n} : (p.rowElems d i1 i2 n).2.2.wf := by
  unfold Panel.rowElems
  extract_lets
  dsimp -zeta only
  extract_lets
  split
  · exact wf_readBlocks (wf_readBlocks h ..) ..
  · exact wf_readBlocks h ..

theorem Panel.wf_rowsElems (h : p.wf) {d l} : (p.rowsElems d l).2.2.wf :=
  wf_foldl_snd_snd (fun _ _ _ _ h1 => wf_rowElems h1) h

theorem Panel.wf_operand (h : p.wf) {d rowMajor ksteps} : (p.operand d rowMajor ksteps).2.2.wf := by
  unfold Panel.operand
  split
  · exact wf_rowsElems h
  · extract_lets
    exact wf_foldl_snd_snd (fun _ _ _ _ h1 => wf_rowsElems h1) h

theorem Panel.wf_sendFailed (h : p.wf) {c o} : (p.sendFailed c o).wf := by
  unfold Panel.sendFailed
  split
  · extract_lets p1 p2
    have h1 : p1.wf := wf_modCore h ..
    have h2 : p2.wf := wf_unawait h1
    exact wf_raiseAsync h2 ..
  · exact h

theorem Panel.wf_mxHead (h : p.wf) {c} : (p.mxHead c).1.wf := by
  unfold Panel.mxHead
  extract_lets
  split
  · exact h
  · extract_lets
    split
    · exact h
    · split
      · split
        · exact h
        · exact wf_setCore h ..
      · extract_lets
        split
        · exact h
        · exact wf_setCore h ..
      · split
        · exact h
        · exact wf_setCore h ..
      · dsimp -zeta only
        extract_lets
        split
        · exact wf_setCore h ..
        · exact wf_setCore h ..
      · dsimp -zeta only
        split
        · split
          · exact wf_setCore h ..
          · exact wf_setCore h ..
        · split
          · exact wf_setCore h ..
          · exact wf_setCore h ..
      · dsimp -zeta only
        split
        · split
          · extract_lets _ p1
            have h1 : p1.wf := wf_setCore h ..
            split
            · exact wf_sendFailed h1
            · exact wf_await h1
          · exact wf_setCore h ..
        · split
          · extract_lets _ p1
            have h1 : p1.wf := wf_setCore h ..
            split
            · exact wf_sendFailed h1
            · exact wf_await h1
          · exact wf_setCore h ..
      · exact wf_setCore h ..
      · split
        · exact h
        · split
          · exact wf_setCore h ..
          · exact wf_setCore h ..

theorem Panel.wf_mxAdvanceN (h : p.wf) {c n} : (Panel.mxAdvanceN c n p).wf := by
  induction n generalizing p with
  | zero => exact h
  | succ n ih => exact wf_ite (ih (wf_mxHead h)) (wf_mxHead h)

theorem Panel.wf_mxAdvance (h : p.wf) {c} : (p.mxAdvance c).wf := wf_mxAdvanceN h

theorem Panel.wf_mxIssue (h : p.wf) {c bad} {body : Panel → Core → Issued} (hb : (body p (p.core c)).wf) :
    (p.mxIssue c bad body).wf := wf_mxAdvance (wf_issue h hb)

theorem Panel.wf_mxPut (h : p.wf) {c op} : (p.mxPut c op).wf := by
  unfold Panel.mxPut
  extract_lets
  split
  · exact trivial
  · exact wf_setCore h ..

theorem nextWf_execMma (h : s.p.wf) {c f} : NextWf (execMma c f s) :=
  nextWf_upd h (fun _ h1 => wf_mxAdvance (wf_mmaIssue h1))

theorem nextWf_execMmaAr (h : s.p.wf) {c f} : NextWf (execMmaAr c f s) :=
  nextWf_upd h (fun _ h1 => wf_mxAdvance (wf_mmaIssue h1))

theorem nextWf_execMmaBr (h : s.p.wf) {c f} : NextWf (execMmaBr c f s) :=
  nextWf_upd h (fun _ h1 => wf_mxAdvance (wf_mmaIssue h1))

theorem nextWf_execMmaArbr (h : s.p.wf) {c f} : NextWf (execMmaArbr c f s) :=
  nextWf_upd h (fun _ h1 => wf_mxAdvance (wf_mmaIssue h1))

theorem nextWf_execGrpOpen (h : s.p.wf) {c f} : NextWf (execGrpOpen c f s) := by
  unfold execGrpOpen
  refine nextWf_upd h (fun p1 h1 => wf_mxIssue h1 ?_)
  extract_lets
  refine Issued.wf_ite trivial (Issued.wf_ite trivial (Issued.wf_ite trivial ?_))
  split
  rename_i p2 e2
  have h2 : p2.wf := wf_snd_snd e2 (wf_spLoad h1)
  extract_lets
  exact Issued.wf_ite trivial (Issued.wf_ite trivial (Issued.wf_ite trivial (wf_mxPut h2)))

theorem nextWf_execGrpClose (h : s.p.wf) {c f} : NextWf (execGrpClose c f s) := by
  unfold execGrpClose
  refine nextWf_upd h (fun p1 h1 => wf_mxIssue h1 ?_)
  extract_lets
  exact Issued.wf_ite trivial (Issued.wf_ite trivial (Issued.wf_ite trivial (Issued.wf_ite trivial (wf_mxPut h1))))

theorem nextWf_execAccSend (h : s.p.wf) {c f} : NextWf (execAccSend c f s) := by
  unfold execAccSend
  refine nextWf_upd h (fun p1 h1 => wf_mxIssue h1 ?_)
  extract_lets
  exact Issued.wf_ite trivial (Issued.wf_ite trivial (wf_mxPut h1))

theorem nextWf_execGrpAbort (h : s.p.wf) {c f} : NextWf (execGrpAbort c f s) :=
  nextWf_upd h (fun _ h1 => wf_mxIssue h1 (wf_mxPut h1))

theorem nextWf_execGrpStatus (h : s.p.wf) {c f} : NextWf (execGrpStatus c f s) :=
  nextWf_upd h (fun _ h1 => wf_mxIssue h1 (Issued.wf_ite trivial (wf_mxPut h1)))

theorem nextWf_execGrpPrefetch (h : s.p.wf) {c f} : NextWf (execGrpPrefetch c f s) :=
  nextWf_upd h (fun _ h1 => wf_mxIssue h1 (Issued.wf_ite trivial (Issued.wf_ite trivial (wf_mxPut h1))))

theorem Panel.wf_readRegion (h : p.wf) {d} : (p.readRegion d).2.2.wf :=
  wf_foldl_snd_snd (fun _ _ _ _ h1 => wf_readBlocks h1 ..) h

theorem Panel.wf_startPass (h : p.wf) {c before after o} : (p.startPass c before after o).wf := by
  unfold Panel.startPass
  extract_lets
  split
  · split
    · exact h
    · extract_lets
      dsimp -zeta only
      extract_lets
      exact wf_setCore (wf_operand (wf_operand h)) ..
  · exact wf_ite h (wf_ite h (wf_setCore (wf_operand (wf_operand (wf_ite_snd_snd (wf_readRegion h) h))) ..))
  · exact h

theorem nextWf_execMatrixPassStart (h : s.p.wf) {c} : NextWf (execMatrixPassStart c s) := by
  unfold execMatrixPassStart
  refine nextWf_upd h (fun p1 h1 => ?_)
  split
  · exact wf_mxAdvance (wf_startPass h1)
  · exact h1

theorem nextWf_execMatrixPassDone (h : s.p.wf) {c} : NextWf (execMatrixPassDone c s) := by
  unfold execMatrixPassDone
  refine nextWf_upd h (fun p1 h1 => ?_)
  extract_lets
  split
  · exact h1
  · refine wf_ite h1 ?_
    extract_lets _ p2
    have h2 : p2.wf := wf_setCore h1 ..
    split
    · exact wf_mxAdvance (wf_setCore h1 ..)
    · extract_lets _ p3
      have h3 : p3.wf := wf_foldl (fun _ _ h4 => wf_writeBlocks h4 ..) h2
      exact wf_mxAdvance h3
    · exact wf_setCore h1 ..

theorem nextWf_execGroupSpillDone (h : s.p.wf) {c gid} : NextWf (execGroupSpillDone c gid s) := by
  unfold execGroupSpillDone
  refine nextWf_upd h (fun p1 h1 => ?_)
  extract_lets _ _ _ p2
  have h2 : p2.wf := wf_writeBlocks h1 ..
  exact wf_ite h1 (wf_mxAdvance (wf_modCore h2 ..))

theorem nextWf_execGroupFillDone (h : s.p.wf) {c gid} : NextWf (execGroupFillDone c gid s) := by
  unfold execGroupFillDone
  refine nextWf_upd h (fun p1 h1 => ?_)
  extract_lets
  refine wf_ite h1 ?_
  split
  rename_i p2 e2
  have h2 : p2.wf := wf_snd_snd e2 (wf_readBlocks h1 ..)
  extract_lets
  exact wf_mxAdvance (wf_modCore h2 ..)

theorem Panel.wf_closeDone (h : p.wf) {c g tn inc seq} : (p.closeDone c g tn inc seq).wf := by
  unfold Panel.closeDone
  extract_lets _ _ p1
  have h1 : p1.wf := wf_foldl (fun _ _ h2 => wf_writeBlocks h2 ..) h
  dsimp -zeta only
  extract_lets p2 p3 p4
  have h2 : p2.wf := wf_modCore h1 ..
  have h3 : p3.wf := wf_ite h2 (wf_tokenAdd h2 ..)
  have h4 : p4.wf := wf_ite (wf_reportCore h3 ..) h3
  exact wf_ite (wf_ite (wf_raiseAsync h4 ..) h4) h3

theorem nextWf_execGroupCloseDone (h : s.p.wf) {c} : NextWf (execGroupCloseDone c s) := by
  unfold execGroupCloseDone
  refine nextWf_upd h (fun p1 h1 => ?_)
  split
  · exact h1
  · split
    · extract_lets p2
      have h2 : p2.wf := wf_modCore h1 ..
      exact wf_mxAdvance (wf_closeDone h2)
    · exact h1

theorem nextWf_execAccSendAccepted (h : s.p.wf) {c} : NextWf (execAccSendAccepted c s) := by
  unfold execAccSendAccepted
  refine nextWf_upd h (fun p1 h1 => ?_)
  split
  · exact h1
  · split
    · extract_lets _ _ _ _ p2 p3 p4
      have h2 : p2.wf := wf_foldl (fun _ _ h5 => wf_inject h5) h1
      have h3 : p3.wf := wf_unawait h2
      have h4 : p4.wf := wf_modCore h3 ..
      exact wf_mxAdvance (wf_ite h4 (wf_tokenAdd h4 ..))
    · exact h1

/-! ### Accord.lean -/

theorem Panel.wf_setAccState (h : p.wf) {node slot st} : (p.setAccState node slot st).wf := wf_fput h ..

theorem Panel.wf_accDescWrite (h : p.wf) {node slot w v} : (p.accDescWrite node slot w v).wf := by
  unfold Panel.accDescWrite
  refine wf_ite (wf_fput (wf_fput h ..) ..) (wf_ite ?_ (wf_put h ..))
  extract_lets _ _ p1
  have h1 : p1.wf := wf_put h ..
  exact wf_ite (wf_put h ..) (wf_fput (wf_fput h1 ..) ..)

theorem nextWf_execAccDescWrite (h : s.p.wf) {node slot w v} : NextWf (execAccDescWrite node slot w v s) :=
  nextWf_upd h (fun _ h1 => wf_ite (wf_accDescWrite h1) h1)

theorem Panel.wf_setAccSlot (h : p.wf) {node slot x} : (p.setAccSlot node slot x).wf := h.frame

theorem Panel.wf_accToIdle (h : p.wf) {node slot} : (p.accToIdle node slot).wf := wf_setAccState (wf_unawait h.frame)

theorem Panel.wf_accError (h : p.wf) {node slot f ev detail} : (p.accError node slot f ev detail).wf :=
  wf_reportNode (wf_fput (wf_addHold h ..) ..) ..

theorem Panel.wf_accFail (h : p.wf) {node slot} : (p.accFail node slot).wf :=
  wf_accToIdle (wf_reportNode (wf_fput (wf_fput h ..) ..) ..)

theorem Panel.wf_accOvf (h : p.wf) {node slot d ov sat} : (p.accOvf node slot d ov sat).wf :=
  wf_ite (wf_reportNode h ..) h

theorem Panel.wf_modAcc (h : p.wf) {node slot f} : (p.modAcc node slot f).wf := wf_setAccSlot h

theorem Panel.wf_accRows (h : p.wf) {node slot d x} : (p.accRows node slot d x).wf := by
  unfold Panel.accRows
  extract_lets
  refine wf_foldl (fun p1 a h1 => ?_) h
  extract_lets
  split
  · exact wf_modAcc h1
  · exact wf_inject (wf_await h1)

theorem Panel.wf_accDeliver (h : p.wf) {node slot} : (p.accDeliver node slot).wf := by
  unfold Panel.accDeliver
  extract_lets _ _ p1
  have h1 : p1.wf := wf_setAccState h
  refine wf_ite (wf_ite (wf_accFail h1) h1) (wf_ite (wf_accToIdle (wf_accError h1)) ?_)
  dsimp -zeta only
  extract_lets p2 p3
  have h2 : p2.wf := wf_fput h1 ..
  have h3 : p3.wf := wf_fput h2 ..
  exact wf_accRows (wf_modAcc h3)

theorem Panel.wf_accComplete (h : p.wf) {node slot} : (p.accComplete node slot).wf :=
  wf_ite (wf_setAccState h) (wf_accDeliver h)

theorem Panel.wf_accTake (h : p.wf) {node k n} : (p.accTake node k n).wf := by
  unfold Panel.accTake
  extract_lets _ _ p1 _ p2
  have h1 : p1.wf := wf_addHold h ..
  have h2 : p2.wf := wf_setAccState (wf_accError h1)
  refine wf_ite (wf_ite (wf_accToIdle h2) h2) ?_
  dsimp -zeta only
  extract_lets _ p3 p4 p5 p6
  have h3 : p3.wf := wf_ite (wf_fput h1 ..) h1
  have h4 : p4.wf := wf_ite (wf_fput h3 ..) h3
  have h5 : p5.wf := wf_ite (wf_fput h4 ..) h4
  have h6 : p6.wf := wf_setAccSlot h5
  exact wf_ite (wf_accComplete h6) h6

theorem Panel.wf_contribution (h : p.wf) {k} : (p.contribution k).wf := by
  unfold Panel.contribution
  extract_lets _ _ _ p1 p2
  have h1 : p1.wf := wf_addHold h ..
  have h2 : p2.wf := wf_setAccSlot (wf_put h ..)
  exact wf_ite (wf_accError h) (wf_ite (wf_accError h) (wf_ite (wf_ite (wf_accToIdle h1) h1) (wf_ite (wf_accTake
      (wf_setAccState h2)) (wf_accTake h))))

theorem Panel.wf_takePacket (h : p.wf) {k} : (p.takePacket k).wf := by
  unfold Panel.takePacket
  extract_lets
  split
  · exact h.frame
  · exact h

theorem nextWf_execAccContrib (h : s.p.wf) {k} : NextWf (execAccContrib k s) :=
  nextWf_upd h (fun _ h1 => wf_ite (wf_contribution (wf_takePacket h1)) h1)

theorem nextWf_execAccordCombineDone (h : s.p.wf) {node slot} : NextWf (execAccordCombineDone node slot s) := by
  unfold execAccordCombineDone
  refine nextWf_upd h (fun p1 h1 => wf_ite ?_ h1)
  extract_lets
  split
  extract_lets p2
  have h2 : p2.wf := wf_ite (wf_fput h1 ..) h1
  exact wf_accDeliver (wf_setAccSlot h2)

theorem nextWf_execAccordOutputAcked (h : s.p.wf) {node slot} : NextWf (execAccordOutputAcked node slot s) := by
  unfold execAccordOutputAcked
  refine nextWf_upd h (fun p1 h1 => ?_)
  extract_lets _ _ p2
  have h2 : p2.wf := wf_modAcc h1
  refine wf_ite (wf_ite (wf_modAcc h2) ?_) h1
  dsimp -zeta only
  extract_lets
  exact wf_inject (wf_await h2)

theorem nextWf_execAccordDeliveryEnd (h : s.p.wf) {node slot e} : NextWf (execAccordDeliveryEnd node slot e s) := by
  unfold execAccordDeliveryEnd
  refine nextWf_upd h (fun p1 h1 => ?_)
  extract_lets _ p2
  have h2 : p2.wf := wf_accOvf h1
  refine wf_ite ?_ h1
  split
  · exact h1
  · exact wf_ite (wf_accFail h1) (wf_ite (wf_accToIdle h2) (wf_accFail h2))

theorem nextWf_execAccordForwardAccepted (h : s.p.wf) {node slot} : NextWf (execAccordForwardAccepted node slot s) := by
  unfold execAccordForwardAccepted
  refine nextWf_upd h (fun p1 h1 => ?_)
  extract_lets _ _ _ _ _ p2 p3
  have h2 : p2.wf := wf_foldl (fun _ _ h4 => wf_inject h4) h1
  have h3 : p3.wf := wf_ite h2 (wf_accOvf h2)
  exact wf_ite (wf_accToIdle h3) h1

theorem nextWf_execAccordTimeout (h : s.p.wf) {node slot} : NextWf (execAccordTimeout node slot s) := by
  unfold execAccordTimeout
  refine nextWf_upd h (fun p1 h1 => wf_ite ?_ h1)
  extract_lets
  exact wf_ite (wf_accToIdle (wf_accError h1)) (wf_ite (wf_accToIdle h1) h1)

/-! ### Dma.lean -/

theorem Panel.wf_pruneDma (h : p.wf) {c} : (p.pruneDma c).wf := wf_unawait h

theorem Panel.wf_dmaFault (h : p.wf) {c n} : (p.dmaFault c n).wf := wf_raiseAsync (wf_pruneDma (wf_modCore h ..)) ..

theorem Panel.wf_dmaFailed (h : p.wf) {c n} : (p.dmaFailed c n).wf := wf_ite (wf_modCore h ..) (wf_dmaFault h)

theorem Panel.wf_dmaHeldFault (h : p.wf) {c} : (p.dmaHeldFault c).wf := by
  unfold Panel.dmaHeldFault
  split
  · exact wf_dmaFault h
  · exact h

theorem Panel.wf_dmaPut (h : p.wf) {c op tn inc} : (p.dmaPut c op tn inc).wf := by
  unfold Panel.dmaPut
  extract_lets _ _ p1
  have h1 : p1.wf := wf_setCore h ..
  exact wf_ite (wf_await h1) h1

theorem nextWf_execDmaCopy (h : s.p.wf) {c f} : NextWf (execDmaCopy c f s) := by
  unfold execDmaCopy
  refine nextWf_upd h (fun p1 h1 => wf_issue h1 ?_)
  extract_lets
  split
  · exact trivial
  · split
    · exact trivial
    · split
      · exact trivial
      · exact wf_dmaPut h1

theorem nextWf_execDmaGather (h : s.p.wf) {c f} : NextWf (execDmaGather c f s) := by
  unfold execDmaGather
  refine nextWf_upd h (fun p1 h1 => wf_issue h1 ?_)
  extract_lets
  split
  · exact trivial
  · split
    · exact trivial
    · split
      · exact trivial
      · exact wf_dmaPut h1

theorem nextWf_execDmaScatter (h : s.p.wf) {c f} : NextWf (execDmaScatter c f s) := by
  unfold execDmaScatter
  refine nextWf_upd h (fun p1 h1 => wf_issue h1 ?_)
  extract_lets
  split
  · exact trivial
  · split
    · exact trivial
    · split
      · exact trivial
      · exact wf_dmaPut h1

theorem nextWf_execDmaFill (h : s.p.wf) {c f} : NextWf (execDmaFill c f s) := by
  unfold execDmaFill
  refine nextWf_upd h (fun p1 h1 => wf_issue h1 ?_)
  extract_lets
  split
  · exact trivial
  · split
    · exact trivial
    · split
      · exact trivial
      · exact wf_dmaPut h1

theorem nextWf_execDmaMark (h : s.p.wf) {c f} : NextWf (execDmaMark c f s) := by
  unfold execDmaMark
  refine nextWf_upd h (fun p1 h1 => wf_issue h1 ?_)
  split
  · exact trivial
  · exact wf_dmaPut h1

theorem Panel.wf_dmaGather (h : p.wf) {c epoch pclass l} : (p.dmaGather c epoch pclass l).2.2.wf := by
  unfold Panel.dmaGather
  refine wf_foldl_snd_snd (fun b c1 p1 a h1 => ?_) h
  extract_lets p2
  have h2 : p2.wf := h1
  split
  · exact h1
  · split
    · exact h2
    · exact wf_dmaRead h2

theorem Panel.wf_dmaScatter (h : p.wf) {c pclass bs l} : (p.dmaScatter c pclass bs l).2.2.wf := by
  unfold Panel.dmaScatter
  refine foldl_keeps (fun x : Bool × Nat × Panel × List (Byte × Bool) => x.2.2.1.wf) _ (fun x r hx => ?_) _ _ h
  dsimp only
  split
  · exact hx
  · split
    · exact hx
    · exact wf_rcInvalidate (wf_storePa hx ..) ..

theorem Panel.wf_dmaList (h : p.wf) {c epoch n di} : (p.dmaList c epoch n di).2.wf := by
  unfold Panel.dmaList
  dsimp -zeta only
  split
  · exact wf_dmaGather h
  · exact wf_dmaGather h

theorem Panel.wf_dmaReads (h : p.wf) {c o} : (p.dmaReads c o).2.wf := by
  unfold Panel.dmaReads
  extract_lets _ x1
  have hx1 : ∀ (list : List ℕ) (pclass : ℕ) (l : List (ℕ × ℕ)) (p : Panel), p.wf → (x1 list pclass l p).2.wf := by
    intro _ _ _ p2 hq
    unfold x1
    exact wf_dmaGather hq
  split
  · exact h
  · exact h
  · exact hx1 _ _ _ _ h
  · extract_lets
    split
    · rename_i p2 e2
      have h2 : p2.wf := wf_snd e2 (wf_dmaList h)
      exact h2
    · rename_i p2 e2
      have h2 : p2.wf := wf_snd e2 (wf_dmaList h)
      exact hx1 _ _ _ _ h2
  · split
    · rename_i p2 e2
      have h2 : p2.wf := wf_snd e2 (wf_dmaList h)
      exact h2
    · rename_i p2 e2
      have h2 : p2.wf := wf_snd e2 (wf_dmaList h)
      exact hx1 _ _ _ _ h2

theorem Panel.wf_dmaWrites (h : p.wf) {c o x} : (p.dmaWrites c o x).2.2.wf := by
  unfold Panel.dmaWrites
  split
  · exact h
  · exact wf_dmaScatter h
  · exact wf_dmaScatter h
  · exact wf_dmaScatter h
  · extract_lets
    exact wf_dmaScatter h

theorem Panel.wf_dmaRun (h : p.wf) {c o} : (p.dmaRun c o).2.2.wf := by
  unfold Panel.dmaRun
  refine wf_dmaWrites ?_
  split
  · exact h
  · exact wf_dmaReads h

theorem Panel.wf_readAhead (h : p.wf) {c i} : (p.readAhead c i).wf := by
  unfold Panel.readAhead
  split
  · exact h
  · exact wf_modCore (wf_dmaReads h) ..

theorem Panel.wf_lineFails (h : p.wf) {die cl line} : (p.lineFails die cl line).wf := by
  unfold Panel.lineFails
  refine wf_foldl (fun p1 a h1 => ?_) h
  split
  · exact wf_ite (wf_dmaFailed h1) h1
  · exact h1

theorem Panel.wf_fillMissed (h : p.wf) {die cl line} : (p.fillMissed die cl line).wf := by
  unfold Panel.fillMissed
  refine wf_ite ?_ h
  extract_lets p1
  have h1 : p1.wf := wf_addWrap h ..
  split
  · exact h1.frame
  · exact h1

theorem nextWf_execRcLineFill (h : s.p.wf) {die cl line epoch st} : NextWf (execRcLineFill die cl line epoch st s) := by
  unfold execRcLineFill
  dsimp -zeta only
  refine nextWf_upd h (fun p1 h1 => wf_ite h1 (wf_ite (wf_lineFails h1) (wf_ite h1 (wf_ite (wf_readTagged h1 ..) ?_))))
  extract_lets p2
  have h2 : p2.wf := wf_rcInstall (wf_readTagged h1 ..) ..
  exact wf_ite (wf_fillMissed h2) h2

theorem nextWf_execDmaOpComplete (h : s.p.wf) {c} : NextWf (execDmaOpComplete c s) := by
  unfold execDmaOpComplete
  refine nextWf_upd h (fun p1 h1 => ?_)
  split
  · exact h1
  · refine wf_ite h1 ?_
    split
    · rename_i p2 e2
      have h2 : p2.wf := wf_snd_snd e2 (wf_dmaRun h1)
      exact wf_dmaFault h2
    · rename_i p2 e2
      have h2 : p2.wf := wf_snd_snd e2 (wf_dmaRun h1)
      extract_lets p3 p4
      have h3 : p3.wf := wf_modCore h2 ..
      have h4 : p4.wf := wf_addWrap (wf_pruneDma h3) ..
      exact wf_ite h4 (wf_tokenAdd h4 ..)

/-! ### Control.lean -/

theorem Panel.wf_branchOp (h : p.wf) {c f cmp} : (p.branchOp c f cmp).wf := by
  unfold Panel.branchOp
  refine wf_issue h ?_
  split
  · exact trivial
  · exact trivial

theorem nextWf_execBeq (h : s.p.wf) {c f} : NextWf (execBeq c f s) := nextWf_upd h (fun _ h1 => wf_branchOp h1)

theorem nextWf_execBne (h : s.p.wf) {c f} : NextWf (execBne c f s) := nextWf_upd h (fun _ h1 => wf_branchOp h1)

theorem nextWf_execBlt (h : s.p.wf) {c f} : NextWf (execBlt c f s) := nextWf_upd h (fun _ h1 => wf_branchOp h1)

theorem nextWf_execBge (h : s.p.wf) {c f} : NextWf (execBge c f s) := nextWf_upd h (fun _ h1 => wf_branchOp h1)

theorem nextWf_execBltu (h : s.p.wf) {c f} : NextWf (execBltu c f s) := nextWf_upd h (fun _ h1 => wf_branchOp h1)

theorem nextWf_execBgeu (h : s.p.wf) {c f} : NextWf (execBgeu c f s) := nextWf_upd h (fun _ h1 => wf_branchOp h1)

theorem nextWf_execJmp (h : s.p.wf) {c f} : NextWf (execJmp c f s) := nextWf_upd h (fun _ h1 => wf_issue h1 h1)

theorem nextWf_execCall (h : s.p.wf) {c f} : NextWf (execCall c f s) := by
  unfold execCall
  refine nextWf_upd h (fun p1 h1 => wf_issue h1 ?_)
  split
  · exact trivial
  · exact wf_setS h1 ..

theorem nextWf_execJr (h : s.p.wf) {c f} : NextWf (execJr c f s) := by
  unfold execJr
  refine nextWf_upd h (fun p1 h1 => wf_issue h1 ?_)
  split
  · exact trivial
  · exact h1

theorem nextWf_execCallr (h : s.p.wf) {c f} : NextWf (execCallr c f s) := by
  unfold execCallr
  refine nextWf_upd h (fun p1 h1 => wf_issue h1 ?_)
  split
  · exact trivial
  · exact wf_setS h1 ..

theorem nextWf_execRet (h : s.p.wf) {c rsvd} : NextWf (execRet c rsvd s) := by
  unfold execRet
  refine nextWf_upd h (fun p1 h1 => wf_issue h1 ?_)
  split
  · exact trivial
  · exact h1

theorem nextWf_execLoop (h : s.p.wf) {c f} : NextWf (execLoop c f s) := by
  unfold execLoop
  refine nextWf_upd h (fun p1 h1 => wf_issue h1 ?_)
  split
  · exact trivial
  · extract_lets _ _ ls
    clear_value ls
    split
    · exact trivial
    · split
      · split
        · exact trivial
        · split
          · exact h1
          · split
            · exact trivial
            · exact h1
      · split
        · exact trivial
        · split
          · exact h1
          · split
            · exact trivial
            · exact h1

theorem Panel.wf_commitSpec (h : p.wf) {c sp} : (p.commitSpec c sp).wf := by
  unfold Panel.commitSpec
  extract_lets p1 p2
  have h1 : p1.wf := wf_modCore h ..
  have h2 : p2.wf := wf_dmaHeldFault (wf_foldl (fun _ _ h3 => wf_writeTagged h3 ..) h1)
  split
  · exact wf_ite h2 (wf_syncTrap h2 ..)
  · exact h2

theorem Panel.wf_squashSpec (h : p.wf) {c sp} : (p.squashSpec c sp).wf := by
  unfold Panel.squashSpec
  extract_lets _ p1 p2
  have h1 : p1.wf := wf_addWrap h ..
  have h2 : p2.wf := wf_modCore h1 ..
  exact wf_ite (wf_modCore h2 ..) (wf_getD (fun _ e4 => wf_completeAt h2 e4) h2)

theorem nextWf_execBranchResolve (h : s.p.wf) {c} : NextWf (execBranchResolve c s) := by
  unfold execBranchResolve
  refine nextWf_upd h (fun p1 h1 => ?_)
  split
  · exact h1
  · extract_lets _ p2
    have h2 : p2.wf := wf_modCore h1 ..
    exact wf_mxAdvance (wf_pruneDma (wf_ite (wf_commitSpec h2) (wf_squashSpec h2)))

/-! ### CoreCtl.lean -/

theorem Panel.wf_coreRead (h : p.wf) {c r i} : (p.coreRead c r i).2.wf := by
  unfold Panel.coreRead
  extract_lets
  split
  · exact h
  · exact h
  · exact h
  · exact h
  · exact h
  · exact h

theorem Panel.wf_abortQueues (h : p.wf) {c} : (p.abortQueues c).wf := wf_pruneDma (wf_unawait (wf_modCore h ..))

theorem Panel.wf_haltReq (h : p.wf) {c} : (p.haltReq c).wf := wf_ite (wf_modCore (wf_fput h ..) ..) h

theorem Panel.wf_attention (h : p.wf) {c} : (p.attention c).wf := by
  unfold Panel.attention
  dsimp -zeta only
  exact wf_raiseAsync (wf_drawBits h ..) ..

theorem Panel.wf_clearState (h : p.wf) {c} : (p.clearState c).wf := by
  unfold Panel.clearState
  extract_lets p1
  have h1 : p1.wf := wf_foldl (fun _ _ h2 => wf_put h2 ..) h
  exact wf_modCore h1 ..

theorem Panel.wf_startCore (h : p.wf) {c pc clear} : (p.startCore c pc clear).wf := by
  unfold Panel.startCore
  refine wf_ite h ?_
  extract_lets p1 p2 p3 p4 p5
  have h1 : p1.wf := wf_ite (wf_clearState h) h
  have h2 : p2.wf := wf_fput h1 ..
  have h3 : p3.wf := wf_fput h2 ..
  have h4 : p4.wf := wf_fput h3 ..
  have h5 : p5.wf := wf_fput h4 ..
  exact wf_modCore h5 ..

theorem Panel.wf_coreControl (h : p.wf) {c v} : (p.coreControl c v).wf := by
  unfold Panel.coreControl
  extract_lets _ _ p1 p2 p3 p4
  have h1 : p1.wf := wf_store h ..
  have h2 : p2.wf := wf_ite (wf_abortQueues h1) h1
  have h3 : p3.wf := wf_ite (wf_haltReq h2) h2
  have h4 : p4.wf := wf_ite (wf_attention h3) h3
  exact wf_ite (wf_startCore h4) h4

theorem Panel.wf_coreWrite (h : p.wf) {c r i v} : (p.coreWrite c r i v).wf := by
  unfold Panel.coreWrite
  split
  · exact wf_coreControl h
  · exact wf_fput h ..
  · exact wf_modCore (wf_store h ..) ..
  · exact wf_store h ..

theorem nextWf_execCoreAbortQueues (h : s.p.wf) {c} : NextWf (execCoreAbortQueues c s) :=
  nextWf_upd h (fun _ h1 => wf_ite (wf_mxAdvance (wf_abortQueues h1)) h1)

theorem nextWf_execCoreHaltReq (h : s.p.wf) {c} : NextWf (execCoreHaltReq c s) :=
  nextWf_upd h (fun _ h1 => wf_ite (wf_haltReq h1) h1)

theorem nextWf_execCoreAttention (h : s.p.wf) {c} : NextWf (execCoreAttention c s) :=
  nextWf_upd h (fun _ h1 => wf_ite (wf_attention h1) h1)

theorem nextWf_execCoreStart (h : s.p.wf) {c v} : NextWf (execCoreStart c v s) :=
  nextWf_upd h (fun _ h1 => wf_ite (wf_coreControl h1) h1)

theorem nextWf_execCoreTokenWrite (h : s.p.wf) {c n v} : NextWf (execCoreTokenWrite c n v s) :=
  nextWf_upd h (fun _ h1 => wf_ite (wf_coreWrite h1) h1)

/-! ### FabricNet.lean -/

theorem Panel.wf_modFab (h : p.wf) {hub f} : (p.modFab hub f).wf := h.frame

theorem Panel.wf_fDiscard (h : p.wf) {hub port ev} : (p.fDiscard hub port ev).wf := by
  unfold Panel.fDiscard
  extract_lets p1
  have h1 : p1.wf := by
    unfold p1
    split
    · exact wf_addHold h ..
    · exact wf_modFab h
  exact wf_reportHubEdge h1

theorem Panel.wf_linkSet (h : p.wf) {hub i c n} : (p.linkSet hub i c n).wf := wf_modFab h

theorem Panel.wf_linkReturn (h : p.wf) {hub i} : (p.linkReturn hub i).wf := by
  unfold Panel.linkReturn
  refine wf_foldl (fun p1 a h1 => ?_) h
  split
  · exact h1
  · dsimp -zeta only
    exact wf_linkSet (wf_draw h1 ..)

theorem Panel.wf_linkFresh (h : p.wf) {hub i} : (p.linkFresh hub i).wf := wf_modFab h

theorem Panel.wf_fHighWater (h : p.wf) {hub} : (p.fHighWater hub).wf := wf_fput h ..

theorem Panel.wf_fOut (h : p.wf) {hub i k} : (p.fOut hub i k).wf := by
  unfold Panel.fOut
  dsimp -zeta only
  exact wf_ite (wf_ite (wf_fDiscard (wf_addHold (wf_draw h ..) ..)) (wf_emit (wf_draw h ..) ..)) (wf_emit h ..)

theorem Panel.wf_fLink (h : p.wf) {hub i c k} : (p.fLink hub i c k).wf := wf_fOut (wf_linkSet h)

theorem Panel.wf_fHold (h : p.wf) {hub key x} : (p.fHold hub key x).wf := wf_fHighWater (wf_modFab h)

theorem Panel.wf_enqueue (h : p.wf) {hub i x} : (p.enqueue hub i x).wf := wf_fHold h

theorem Panel.wf_fSend (h : p.wf) {hub x} : (p.fSend hub x).1.wf := by
  unfold Panel.fSend
  split
  · exact h
  · extract_lets ports
    clear_value ports
    split
    · exact h
    · dsimp -zeta only
      split
      · split
        · exact wf_fHold h
        · exact wf_fOut h
      · split
        · exact wf_fHold h
        · split
          · exact wf_enqueue h
          · split
            · exact wf_enqueue h
            · exact wf_fHold h

theorem Panel.wf_fInject (h : p.wf) {hub k} : (p.fInject hub k).1.wf := by
  unfold Panel.fInject
  split
  · exact h
  · split
    · exact h
    · split
      · exact wf_fSend h
      · split
        · exact wf_fSend h
        · exact wf_modFab h

theorem Panel.wf_fUnreachable (h : p.wf) {hub input} : (p.fUnreachable hub input).wf := wf_fDiscard h

theorem Panel.wf_fFlush (h : p.wf) {hub i} : (p.fFlush hub i).wf := by
  unfold Panel.fFlush
  extract_lets _ p1
  have h1 : p1.wf := by
    refine wf_foldl (fun p2 a h2 => ?_) h
    split
    · exact wf_fLink h2
    · exact wf_fLink (wf_linkFresh h2)
  exact wf_modFab h1

theorem Panel.wf_fAgain (h : p.wf) {hub key} : (p.fAgain hub key).wf :=
  wf_foldl (fun _ _ h2 => wf_ite (wf_fSend h2) (wf_fUnreachable (wf_fSend h2))) (wf_modFab h)

theorem Panel.wf_fRelease (h : p.wf) {hub} : (p.fRelease hub).wf := wf_fAgain h

theorem Panel.wf_fChanTick (h : p.wf) {hub i chan} : (p.fChanTick hub i chan).wf := by
  unfold Panel.fChanTick
  extract_lets
  split
  · exact h
  · split
    · exact h
    · exact wf_fLink (wf_modFab h)

theorem Panel.wf_fPortsTick (h : p.wf) : p.fPortsTick.wf :=
  wf_foldl (fun _ _ h1 => wf_foldl (fun _ _ h2 => wf_fChanTick h2) (wf_linkReturn h1)) h

theorem Panel.wf_fNiTick (h : p.wf) {hub} : (p.fNiTick hub).wf := by
  unfold Panel.fNiTick
  extract_lets
  refine wf_ite h ?_
  split
  · exact h
  · extract_lets p1
    have h1 : p1.wf := wf_modFab h
    split
    · exact wf_ite (wf_fSend h1) (wf_fUnreachable (wf_fSend h1))
    · exact h1

theorem Panel.wf_fTick (h : p.wf) : p.fTick.wf := wf_foldl (fun _ _ h1 => wf_fNiTick (wf_fAgain h1)) (wf_fPortsTick h)

theorem Panel.wf_fStart (h : p.wf) {hub k} : (p.fStart hub k).wf := wf_ite (wf_fInject h) (wf_fUnreachable h)

theorem Panel.wf_sendControl (h : p.wf) {dst opcode ch val} : (p.sendControl dst opcode ch val).wf :=
  wf_ite (wf_fStart h) h

/-! ### Barrier.lean -/

theorem Panel.wf_modBar (h : p.wf) {ch f} : (p.modBar ch f).wf := h.frame

theorem Panel.wf_barDone (h : p.wf) {ch f} : (p.barDone ch f).wf := by
  obtain ⟨hr, hc, hm⟩ := h
  refine ⟨hr, ?_, hm⟩
  rw [Panel.barDone, smSorted_map_val _ (fun e => by dsimp only; split <;> rfl)]
  exact hc

theorem Panel.wf_barNext (h : p.wf) {ch} : (p.barNext ch).wf := wf_modBar (wf_fput (wf_fput (wf_addWrap h ..) ..) ..)

theorem Panel.wf_barReleaseLocal (h : p.wf) {ch} : (p.barReleaseLocal ch).wf := wf_barNext (wf_barDone h)

theorem Panel.wf_barAbortChannel (h : p.wf) {ch} : (p.barAbortChannel ch).wf := wf_fput (wf_barNext (wf_barDone h)) ..

theorem Panel.wf_rootCheck (h : p.wf) {ch} : (p.rootCheck ch).wf :=
  wf_ite (wf_modBar (wf_foldl (fun _ _ h2 => wf_sendControl h2) h)) h

theorem Panel.wf_barComplete (h : p.wf) {ch} : (p.barComplete ch).wf := by
  unfold Panel.barComplete
  refine wf_ite (wf_barReleaseLocal h) ?_
  extract_lets p1
  have h1 : p1.wf := wf_fput (wf_modBar h) ..
  exact wf_ite (wf_rootCheck (wf_modBar h1)) (wf_sendControl h1)

theorem Panel.wf_extAbortLocal (h : p.wf) {ch} : (p.extAbortLocal ch).wf := wf_reportPanel (wf_barAbortChannel h)

theorem Panel.wf_extAbort (h : p.wf) {ch} : (p.extAbort ch).wf :=
  wf_extAbortLocal (wf_foldl (fun _ _ h2 => wf_sendControl h2) h)

theorem Panel.wf_setDelay (h : p.wf) {ch d} : (p.setDelay ch d).wf := wf_addWrap (wf_fput (wf_fput h ..) ..) ..

theorem Panel.wf_calFinish (h : p.wf) {ch} : (p.calFinish ch).wf :=
  wf_ite h (wf_rootCheck (wf_modBar (wf_setDelay (wf_foldl (fun _ _ h3 => wf_sendControl h3) h))))

theorem Panel.wf_calibrate (h : p.wf) {ch} : (p.calibrate ch).wf :=
  wf_ite h (wf_ite (wf_calFinish (wf_modBar h)) (wf_sendControl h))

theorem Panel.wf_barApply (h : p.wf) {ch} : (p.barApply ch).wf :=
  wf_ite (wf_fput h ..) (wf_calibrate (wf_modBar (wf_fput (wf_fput (wf_fput h ..) ..) ..)))

theorem Panel.wf_barControl (h : p.wf) {v} : (p.barControl v).wf := by
  unfold Panel.barControl
  extract_lets _ p1 p2
  have h1 : p1.wf := wf_store h ..
  have h2 : p2.wf := wf_ite (wf_barAbortChannel h1) h1
  exact wf_ite (wf_barApply h2) h2

theorem nextWf_execBarrierApply (h : s.p.wf) {src v} : NextWf (execBarrierApply src v s) :=
  nextWf_upd h (fun _ h1 => wf_asWriter h1 (wf_barControl h1))

theorem nextWf_execBarrierAbort (h : s.p.wf) {src v} : NextWf (execBarrierAbort src v s) :=
  nextWf_upd h (fun _ h1 => wf_asWriter h1 (wf_barControl h1))

theorem nextWf_execBarArriveSignal (h : s.p.wf) {c} : NextWf (execBarArriveSignal c s) := by
  unfold execBarArriveSignal
  refine nextWf_upd h (fun p1 h1 => ?_)
  extract_lets
  split
  · refine wf_ite h1 ?_
    extract_lets _ p2 _ p3 _ p4
    have h2 : p2.wf := wf_unblock h1 (wf_modCore h1 ..)
    have h3 : p3.wf := wf_modBar h2
    have h4 : p4.wf := wf_fput h3 ..
    exact wf_ite h2 (wf_ite (wf_sendReport h2 ..) (wf_ite (wf_barComplete h4) h4))
  · exact h1

theorem nextWf_execFabricBarArrive (h : s.p.wf) {ch coord} : NextWf (execFabricBarArrive ch coord s) :=
  nextWf_upd h (fun _ h1 => wf_ite (wf_rootCheck (wf_modBar h1)) h1)

theorem nextWf_execBarRelease (h : s.p.wf) {ch residency} : NextWf (execBarRelease ch residency s) :=
  nextWf_upd h (fun _ h1 => wf_ite h1 (wf_ite (wf_reportPanel (wf_addHold (wf_barReleaseLocal h1) ..)) (wf_modBar h1)))

theorem nextWf_execBarReleaseDelayExpire (h : s.p.wf) {ch} : NextWf (execBarReleaseDelayExpire ch s) :=
  nextWf_upd h (fun _ h1 => wf_ite (wf_barReleaseLocal h1) h1)

theorem nextWf_execExtBarrierTimeout (h : s.p.wf) {ch} : NextWf (execExtBarrierTimeout ch s) := by
  unfold execExtBarrierTimeout
  refine nextWf_upd h (fun p1 h1 => ?_)
  extract_lets
  exact wf_ite (wf_extAbort h1) h1

theorem nextWf_execBarAbort (h : s.p.wf) {ch} : NextWf (execBarAbort ch s) :=
  nextWf_upd h (fun _ h1 => wf_ite (wf_extAbortLocal h1) h1)

theorem nextWf_execExtBarrierSelfAbort (h : s.p.wf) {ch} : NextWf (execExtBarrierSelfAbort ch s) := by
  unfold execExtBarrierSelfAbort
  refine nextWf_upd h (fun p1 h1 => ?_)
  extract_lets
  exact wf_ite (wf_extAbortLocal h1) h1

theorem nextWf_execBarJoin (h : s.p.wf) {ch coord} : NextWf (execBarJoin ch coord s) :=
  nextWf_upd h (fun _ h1 => wf_ite (wf_sendControl (wf_modBar h1)) h1)

theorem nextWf_execCalProbe (h : s.p.wf) {ch residency} : NextWf (execCalProbe ch residency s) :=
  nextWf_upd h (fun _ h1 => wf_ite (wf_sendControl h1) h1)

theorem nextWf_execCalEcho (h : s.p.wf) {ch coord roundTrip rOut rBack} : NextWf
    (execCalEcho ch coord roundTrip rOut rBack s) :=
  nextWf_upd h (fun _ h1 => wf_ite (wf_calFinish (wf_modBar h1)) h1)

theorem nextWf_execCalDelay (h : s.p.wf) {ch delay} : NextWf (execCalDelay ch delay s) :=
  nextWf_upd h (fun _ h1 => wf_ite (wf_setDelay h1) h1)

theorem nextWf_execCalibrationTimer (h : s.p.wf) {ch} : NextWf (execCalibrationTimer ch s) :=
  nextWf_upd h (fun _ h1 => wf_ite (wf_calibrate h1) h1)

/-! ### HostQ.lean -/

theorem Panel.wf_modPort (h : p.wf) {host f} : (p.modPort host f).wf := wf_ite h.frame h.frame

theorem Panel.wf_sendVector (h : p.wf) {host v} : (p.sendVector host v).wf := by
  unfold Panel.sendVector
  refine wf_ite ?_ (wf_modPort h)
  extract_lets p1
  have h1 : p1.wf := wf_emit h ..
  exact wf_ite (wf_addWrap h1 ..) h1

theorem Panel.wf_flushVectors (h : p.wf) {host} : (p.flushVectors host).wf :=
  wf_foldl (fun _ _ h1 => wf_ite (wf_sendVector (wf_modPort h1)) h1) h

theorem Panel.wf_hostEvent (h : p.wf) {host count} : (p.hostEvent host count).wf :=
  wf_ite (wf_sendVector (wf_addWrap h ..)) h

theorem Panel.wf_bothHosts (h : p.wf) {count} : (p.bothHosts count).wf := wf_hostEvent (wf_hostEvent h)

theorem Panel.wf_setHolder (h : p.wf) {hub} : (p.setHolder hub).wf :=
  wf_bothHosts (wf_fput (wf_addWrap (wf_fput h ..) ..) ..)

theorem Panel.wf_dropLease (h : p.wf) : p.dropLease.wf := wf_ite h (wf_setHolder h)

theorem Panel.wf_setRole (h : p.wf) {hub r} : (p.setRole hub r).wf := wf_fput h ..

theorem Panel.wf_setEng (h : p.wf) {hub e} : (p.setEng hub e).wf := wf_ite h.frame h.frame

theorem Panel.wf_modEng (h : p.wf) {hub f} : (p.modEng hub f).wf := wf_setEng h

theorem Panel.wf_cqWrite (h : p.wf) {host q e} : (p.cqWrite host q e).wf := by
  unfold Panel.cqWrite
  extract_lets _ _ _ p1 _ p2
  have h1 : p1.wf := wf_emit h ..
  have h2 : p2.wf := wf_fput h1 ..
  exact wf_ite (wf_modPort h2) h2

theorem Panel.wf_showStore (h : p.wf) {host} : (p.showStore host).wf := by
  unfold Panel.showStore
  extract_lets _ p1
  have h1 : p1.wf := wf_fput h ..
  exact wf_ite (wf_fput h1 ..) h1

theorem Panel.wf_pushEntry (h : p.wf) {host q e} : (p.pushEntry host q e).1.wf := by
  unfold Panel.pushEntry
  split
  · exact wf_cqWrite h
  · exact wf_showStore (wf_modPort h)

theorem Panel.wf_signal (h : p.wf) {qs} : (p.signal qs).wf := wf_foldl (fun _ _ h1 => wf_sendVector h1) h

theorem Panel.wf_hostLost (h : p.wf) {host} : (p.hostLost host).wf :=
  wf_hostEvent (wf_fput (wf_showStore (wf_modPort h)) ..)

theorem Panel.wf_loseHost (h : p.wf) {host} : (p.loseHost host).wf := wf_ite (wf_hostLost h) (wf_modPort h)

theorem Panel.wf_storeFull (h : p.wf) {host} : (p.storeFull host).wf := by
  unfold Panel.storeFull
  extract_lets _ _ p1
  have h1 : p1.wf := wf_fput h ..
  exact wf_ite (wf_ite (wf_fput h ..) h) (wf_ite (wf_loseHost h1) h1)

theorem Panel.wf_deliver (h : p.wf) {cs} : (p.deliver cs).wf := by
  unfold Panel.deliver
  refine wf_storeFull (wf_storeFull (wf_signal (wf_foldl_fst (fun p1 b a h1 => ?_) h)))
  extract_lets
  exact wf_foldl_fst (fun _ _ _ h2 => wf_pushEntry h2) h1

theorem Panel.wf_drainStore (h : p.wf) {host} : (p.drainStore host).wf := by
  unfold Panel.drainStore
  extract_lets
  refine wf_signal (wf_showStore (wf_modPort (wf_foldl_fst (fun p1 b a h1 => ?_) h)))
  dsimp -zeta only
  split
  · exact wf_cqWrite h1
  · exact h1

theorem Panel.wf_applyQueues (h : p.wf) {host} : (p.applyQueues host).wf := by
  unfold Panel.applyQueues
  extract_lets _ p1 p2
  have h1 : p1.wf := by
    refine wf_foldl (fun p3 a h3 => ?_) h
    extract_lets p4 p5
    have h4 : p4.wf := wf_fput h3 ..
    have h5 : p5.wf := wf_fput h4 ..
    exact wf_modPort h5
  have h2 : p2.wf := wf_modPort h1
  exact wf_drainStore h2

theorem Panel.wf_queuesChanged (h : p.wf) {host} : (p.queuesChanged host).wf := wf_ite h (wf_applyQueues h)

theorem Panel.wf_advanceHead (h : p.wf) {host q} : (p.advanceHead host q).wf := wf_fput h ..

theorem Panel.wf_advanceHeads (h : p.wf) {hub} : (p.advanceHeads hub).wf := by
  unfold Panel.advanceHeads
  refine wf_ite h (wf_modEng (wf_foldl_fst (fun p1 b a h1 => ?_) h))
  split
  · exact wf_advanceHead h1
  · exact h1

theorem Panel.wf_headRecorded (h : p.wf) {hub host q} : (p.headRecorded hub host q).wf := by
  unfold Panel.headRecorded
  extract_lets
  split
  · exact wf_modEng h
  · exact h

theorem Panel.wf_headReady (h : p.wf) {hub host q recorded} : (p.headReady hub host q recorded).wf := by
  unfold Panel.headReady
  extract_lets
  split
  · exact wf_advanceHeads (wf_modEng h)
  · exact h

/-! ### Image.lean -/

theorem Panel.wf_setNvm (h : p.wf) {hub n} : (p.setNvm hub n).wf := wf_ite h.frame h.frame

/-! ### Ingress.lean -/

theorem Panel.wf_bothEngines (h : p.wf) {f v} : (p.bothEngines f v).wf := wf_fput (wf_fput h ..) ..

theorem Panel.wf_streamRecords (h : p.wf) : p.streamRecords.wf := by
  unfold Panel.streamRecords
  split
  · exact h
  · extract_lets _ p1
    have h1 : p1.wf := wf_foldl (fun _ _ h2 => wf_emit h2 ..) h
    exact wf_ite h h1.frame

theorem Panel.wf_putRecord (h : p.wf) {type step units unit body d i} : (p.putRecord type step units unit body d i).wf := by
  unfold Panel.putRecord
  extract_lets _ _ p1 _ p2 _ p3 p4
  have h1 : p1.wf := wf_storePa h ..
  have h2 : p2.wf := wf_ite h1 (wf_bothEngines h1)
  have h3 : p3.wf := h2.frame
  have h4 : p4.wf := wf_bothEngines h3
  exact wf_streamRecords (wf_bothEngines h4)

theorem Panel.wf_record (h : p.wf) {type step body i} : (p.record type step body i).wf := by
  unfold Panel.record
  extract_lets
  dsimp -zeta only
  extract_lets p1 _ _ _ p2
  have h1 : p1.wf := wf_ite h (wf_putRecord h)
  have h2 : p2.wf := wf_putRecord h1
  exact h2.frame

theorem Panel.wf_recNeed (h : p.wf) {n} : (p.recNeed n).wf := wf_bothEngines h.frame

theorem Panel.wf_tryRecord (h : p.wf) {type step body i} : (p.tryRecord type step body i).1.wf := by
  unfold Panel.tryRecord
  split
  · exact wf_recNeed h
  · split
    · exact h
    · exact wf_recNeed (wf_record h)

theorem Panel.wf_openLog (h : p.wf) : p.openLog.wf :=
  wf_record (wf_bothEngines (wf_bothEngines (wf_bothEngines h.frame)))

theorem Panel.wf_readLog (h : p.wf) {fuel unit seq} : (readLog fuel p unit seq).2.wf := by
  induction fuel generalizing p unit seq with
  | zero => exact h
  | succ fuel ih =>
    unfold readLog
    refine wf_ite_snd h ?_
    have h1 : (p.readRange (p.ringBase + unit * 64) 16).2.2.wf := wf_readRange h ..
    generalize p.readRange (p.ringBase + unit * 64) 16 = x at h1 ⊢
    obtain ⟨hd, b, q⟩ := x
    dsimp -zeta only at h1 ⊢
    extract_lets _ _ units
    refine wf_ite_snd h1 (wf_ite_snd h1 ?_)
    have h2 : (q.readRange (q.ringBase + unit * 64) (units * 64)).2.2.wf := wf_readRange h1 ..
    generalize q.readRange (q.ringBase + unit * 64) (units * 64) = x at h2 ⊢
    obtain ⟨bs, b, q2⟩ := x
    exact ih h2

theorem Panel.wf_readLogAll (h : p.wf) : p.readLogAll.2.wf := wf_readLog h

/-! ### Network.lean -/

theorem Panel.wf_noteHighWater (h : p.wf) {n} : (p.noteHighWater n).wf := wf_fput h ..

theorem Panel.wf_answer (h : p.wf) {k opcode status data poison} : (p.answer k opcode status data poison).wf :=
  wf_inject h

theorem Panel.wf_imemWrite (h : p.wf) {c off bs} : (p.imemWrite c off bs).wf := wf_ite (wf_reportCore h ..) h.frame

theorem Panel.wf_takeMc (h : p.wf) {die k} : (p.takeMc die k).1.wf := by
  unfold Panel.takeMc
  extract_lets _ _ _ _ x1
  have hx1 : ∀ (p : Panel) (pa : ℕ), p.wf → (x1 p pa).1.wf := by
    intro p2 _ hq
    unfold x1
    extract_lets
    split
    · exact wf_storePa hq ..
    · exact hq
  split
  · refine wf_foldl_fst (fun p2 b a h2 => ?_) h
    dsimp -zeta only
    split
    · exact hx1 _ _ h2
    · exact h2
  · refine wf_foldl_fst (fun p2 b a h2 => ?_) h
    dsimp -zeta only
    split
    · exact hx1 _ _ h2
    · exact h2
  · split
    · exact h
    · refine wf_foldl_fst (fun p2 b a h2 => ?_) h
      extract_lets
      split
      · exact h2
      · exact wf_imemWrite h2
  · refine wf_foldl_fst (fun p2 b a h2 => ?_) h
    extract_lets
    split
    · exact h2
    · exact wf_tokenAdd h2 ..

theorem Panel.wf_deliverMc (h : p.wf) {die k} : (p.deliverMc die k).wf := wf_answer (wf_takeMc h)

theorem Panel.wf_multicast (h : p.wf) {k} : (p.multicast k).1.wf := by
  unfold Panel.multicast
  extract_lets x1
  have hx1 : x1.1.wf := wf_foldl_fst (fun _ _ _ h2 => wf_takeMc h2) h
  exact hx1

theorem Panel.wf_replicate (h : p.wf) {node born room k} : (p.replicate node born room k).wf := by
  unfold Panel.replicate
  extract_lets x1 _ p2 _ _ p3 p4
  have hx1 : ∀ (p : Panel) (q : ℕ) (k : Packet), p.wf → (x1 p q k).wf := by
    intro p5 _ _ hq
    unfold x1
    split
    · exact hq.frame
    · exact hq
  have h2 : p2.wf := wf_foldl (fun _ _ h5 => hx1 _ _ _ h5) h
  have h3 : p3.wf := wf_ite (wf_reportNode h ..) h
  have h4 : p4.wf := by
    refine wf_foldl (fun p5 a h5 => ?_) h3
    extract_lets
    exact wf_ite h5 (hx1 _ _ _ h5)
  exact wf_ite (wf_ite (wf_reportNode h ..) (wf_ite (wf_deliverMc h2) h2)) (wf_ite (wf_deliverMc h4) h4)

theorem Panel.wf_refuse (h : p.wf) {node k} : (p.refuse node k).wf := wf_inject h

theorem Panel.wf_imagePart (h : p.wf) {k} : (p.imagePart k).wf := wf_ite h.frame h

theorem Panel.wf_deliverAll (h : p.wf) {k} : (p.deliverAll k).wf := by
  unfold Panel.deliverAll
  refine wf_ite h ?_
  extract_lets p1
  have h1 : p1.wf := wf_ite (wf_takePacket h) (wf_imagePart h)
  exact wf_foldl (fun _ _ h2 => wf_deliverMc h2) h1

theorem Panel.wf_awaitHub (h : p.wf) {node k} : (p.awaitHub node k).wf := wf_ite h.frame h

theorem Panel.wf_routePacket (h : p.wf) {node port born room k} : (p.routePacket node port born room k).wf := by
  unfold Panel.routePacket
  extract_lets x1
  have hx1 : ∀ (p : Panel) (nxt : ℕ) (k : Packet), p.wf → (x1 p nxt k).wf := by
    intro p2 _ _ hq
    unfold x1
    exact wf_noteHighWater hq.frame
  refine wf_ite (wf_reportNode h ..) (wf_ite (wf_noteHighWater (wf_replicate (wf_ite (wf_imagePart h) h))) (wf_ite
      (wf_refuse h) (wf_ite (hx1 _ _ _ h) ?_)))
  split
  · exact wf_reportNode h ..
  · split
    · exact h
    · exact hx1 _ _ _ h

theorem nextWf_execRouterPacketReceive (h : s.p.wf) {node port flits} : NextWf
    (execRouterPacketReceive node port flits s) := by
  unfold execRouterPacketReceive
  refine nextWf_upd h (fun p1 h1 => ?_)
  extract_lets _ _ _ _ _ _ p2 _ p3
  have h2 : p2.wf := h1.frame
  have h3 : p3.wf := h2.frame
  refine wf_ite h1 ?_
  split
  · exact h1
  · exact wf_ite (wf_routePacket (wf_ite (wf_awaitHub h2) h2)) (wf_ite (wf_reportLink (wf_addHold h3 ..))
      (wf_reportNode h2 ..))

theorem nextWf_execPktRd (h : s.p.wf) {k} : NextWf (execPktRd k s) := by
  unfold execPktRd
  refine nextWf_upd h (fun p1 h1 => wf_ite h1 ?_)
  extract_lets p2
  have h2 : p2.wf := wf_takePacket h1
  exact wf_ite (wf_answer h2) (wf_answer (wf_readRange h2 ..))

theorem nextWf_execPktWr (h : s.p.wf) {k} : NextWf (execPktWr k s) := by
  unfold execPktWr
  refine nextWf_upd h (fun p1 h1 => wf_ite (wf_deliverAll h1) (wf_ite h1 ?_))
  extract_lets p2
  have h2 : p2.wf := wf_takePacket h1
  exact wf_ite (wf_answer h2) (wf_answer (wf_storePa h2 ..))

theorem nextWf_execPktTpost (h : s.p.wf) {k} : NextWf (execPktTpost k s) := by
  unfold execPktTpost
  refine nextWf_upd h (fun p1 h1 => wf_ite (wf_deliverAll h1) (wf_ite h1 ?_))
  extract_lets p2
  have h2 : p2.wf := wf_takePacket h1
  exact wf_ite (wf_answer h2) (wf_ite (wf_answer h2) (wf_answer (wf_tokenAdd h2 ..)))

theorem Panel.wf_lateResponse (h : p.wf) {k} : (p.lateResponse k).wf := wf_addHold h ..

theorem Panel.wf_response (h : p.wf) {k} {f : Panel → Waiting → Option Panel}
    (hf : ∀ q w, q.wf → ∀ r, f q w = some r → r.wf) : (p.response k f).wf := by
  unfold Panel.response
  refine wf_ite h ?_
  extract_lets p1
  have h1 : p1.wf := wf_takePacket h
  split
  · exact wf_ite (wf_lateResponse h1) (wf_getD (hf p1 _ h1) (wf_lateResponse h1))
  · exact wf_lateResponse h1

theorem Panel.wf_endWait (h : p.wf) {w} : (p.endWait w).wf := wf_unawait h

theorem Panel.wf_mcAnswer (h : p.wf) {w left} : (p.mcAnswer w left).wf := wf_ite (wf_endWait h) h.frame

theorem Panel.wf_postAnswer (h : p.wf) {w slot ok} : (p.postAnswer w slot ok).wf := wf_modAcc (wf_endWait h)

theorem Panel.wf_rowAnswer (h : p.wf) {w slot ok} : (p.rowAnswer w slot ok).wf := wf_modAcc (wf_endWait h)

theorem Panel.wf_toGuest (h : p.wf) {site k} : (p.toGuest site k).wf :=
  wf_ite (wf_emit (wf_setGuest h) ..) (wf_setGuest h)

theorem Panel.wf_guestAnswer (h : p.wf) {w site tag k} : (p.guestAnswer w site tag k).wf := wf_toGuest (wf_endWait h)

theorem nextWf_execPktRdData (h : s.p.wf) {k} : NextWf (execPktRdData k s) := by
  refine nextWf_upd h fun p hp => wf_response hp fun q w hq r e => ?_
  split at e
  · cases e; exact hq
  · cases e; exact wf_endWait hq
  · cases e; exact wf_guestAnswer hq
  · cases e

theorem nextWf_execPktWrAck (h : s.p.wf) {k} : NextWf (execPktWrAck k s) := by
  refine nextWf_upd h fun p hp => wf_response hp fun q w hq r e => ?_
  split at e
  · cases e; exact hq
  · cases e; exact wf_endWait hq
  · cases e; exact wf_guestAnswer hq
  · cases e; exact wf_rowAnswer hq
  · cases e; exact wf_mcAnswer hq
  · cases e

theorem nextWf_execPktTpostAck (h : s.p.wf) {k} : NextWf (execPktTpostAck k s) := by
  refine nextWf_upd h fun p hp => wf_response hp fun q w hq r e => ?_
  split at e
  · cases e; exact wf_modCore (wf_endWait hq) ..
  · cases e; exact wf_postAnswer hq
  · cases e; exact wf_guestAnswer hq
  · cases e; exact wf_mcAnswer hq
  · cases e

theorem Panel.wf_opFailed (h : p.wf) {w postCause} : (p.opFailed w postCause).wf := by
  unfold Panel.opFailed
  split
  · exact wf_raiseAsync (wf_modCore (wf_endWait h) ..) ..
  · exact wf_dmaFailed h
  · split
    · exact wf_mxAdvance (wf_sendFailed h)
    · exact wf_endWait h
  · exact wf_rowAnswer h
  · exact wf_postAnswer h
  · exact wf_mcAnswer h
  · exact wf_endWait h
  · exact wf_endWait h

theorem nextWf_execPktNak (h : s.p.wf) {k} : NextWf (execPktNak k s) := by
  refine nextWf_upd h fun p hp => wf_response hp fun q w hq r e => ?_
  split at e
  · cases e; exact wf_guestAnswer hq
  · cases e; exact wf_opFailed hq

theorem nextWf_execNetworkOpTimeout (h : s.p.wf) {node unit tag} : NextWf (execNetworkOpTimeout node unit tag s) := by
  unfold execNetworkOpTimeout
  refine nextWf_upd h (fun p1 h1 => wf_ite h1 ?_)
  split
  · exact h1
  · split
    · exact wf_endWait h1
    · exact wf_opFailed h1

theorem Panel.wf_loseLink (h : p.wf) {node port} : (p.loseLink node port).wf := by
  unfold Panel.loseLink
  extract_lets _ far _ p1 p2 p3 _ _ p4
  clear_value far
  have h1 : p1.wf := h.frame
  have h2 : p2.wf := wf_reportLink h1
  have h3 : p3.wf := by
    unfold p3
    split
    · exact wf_reportLink h2
    · exact h2
  have h4 : p4.wf := h3.frame
  exact wf_writeRoutes (wf_writePorts h4)

theorem nextWf_execLinkDown (h : s.p.wf) {node port} : NextWf (execLinkDown node port s) :=
  nextWf_upd h (fun _ h1 => wf_ite (wf_loseLink h1) h1)

theorem Panel.wf_abandon (h : p.wf) {node f} : (p.abandon node f).wf := by
  unfold Panel.abandon
  extract_lets _ p1
  have h1 : p1.wf := h.frame
  exact wf_ite (wf_reportNode h1 ..) (wf_reportNode h1 ..)

theorem nextWf_execDrainPause (h : s.p.wf) : NextWf (execDrainPause s) := by
  unfold execDrainPause
  refine nextWf_upd h (fun p1 h1 => wf_ite h1 ?_)
  extract_lets p2 p3
  have h2 : p2.wf := wf_foldl (fun _ _ h4 => wf_fput h4 ..) h1
  have h3 : p3.wf := wf_foldl (fun _ _ h4 => wf_abandon h4) h2
  exact wf_fput (wf_fput h3 ..) ..

theorem Panel.wf_swapBanks (h : p.wf) : p.swapBanks.wf := by
  unfold Panel.swapBanks
  refine wf_foldl (fun p1 a h1 => wf_foldl (fun p2 a3 h2 => ?_) h1) h
  extract_lets
  exact wf_put (wf_put h2 ..) ..

theorem nextWf_execDrainTimeout (h : s.p.wf) {node} : NextWf (execDrainTimeout node s) := by
  unfold execDrainTimeout
  refine nextWf_upd h (fun p1 h1 => wf_ite h1 ?_)
  extract_lets _ _ p2 p3
  have h2 : p2.wf := h1.frame
  have h3 : p3.wf := wf_addHold h2 ..
  exact wf_reportPanel h3

theorem nextWf_execMcHoldExpire (h : s.p.wf) {node k} : NextWf (execMcHoldExpire node k s) := by
  unfold execMcHoldExpire
  refine nextWf_upd h (fun p1 h1 => wf_ite h1 ?_)
  split
  · exact wf_abandon h1
  · exact h1

theorem Panel.wf_mcControl (h : p.wf) {v} : (p.mcControl v).wf := by
  unfold Panel.mcControl
  extract_lets _ p1 _ p2 p3
  have h1 : p1.wf := wf_fput h ..
  have h2 : p2.wf := h1.frame
  have h3 : p3.wf := h2.frame
  exact wf_ite h1 (wf_ite (wf_fput (wf_fput (wf_clearGroup h2) ..) ..) (wf_ite (wf_fput h1 ..) (wf_fput (wf_fput
      (wf_writeGroup h3) ..) ..)))

theorem nextWf_execMcGroupApply (h : s.p.wf) {src v} : NextWf (execMcGroupApply src v s) :=
  nextWf_upd h (fun _ h1 => wf_asWriter h1 (wf_mcControl h1))

/-! ### Rqe.lean -/

theorem Panel.wf_tryStore (h : p.wf) {pa bs} : (p.tryStore pa bs).1.wf := by
  unfold Panel.tryStore
  split
  · exact wf_storePa h ..
  · exact h

theorem Panel.wf_tryStores (h : p.wf) {ws} : (p.tryStores ws).1.wf := wf_foldl_fst (fun _ _ _ h1 => wf_tryStore h1) h

theorem Panel.wf_showEngineAs (h : p.wf) {hub e} : (p.showEngineAs hub e).wf :=
  wf_fput (wf_fput (wf_fput (wf_fput h ..) ..) ..) ..

theorem Panel.wf_showEngine (h : p.wf) {hub} : (p.showEngine hub).wf := wf_showEngineAs h

theorem Panel.wf_standBy (h : p.wf) {hub} : (p.standBy hub).wf :=
  wf_showEngine (wf_fput (wf_setRole (wf_setEng h)) ..)

theorem Panel.wf_activate (h : p.wf) {hub} : (p.activate hub).wf := by
  unfold Panel.activate
  extract_lets p1 p2 p3 p4 p5 p6 p7 p8
  have h1 : p1.wf := wf_setEng h
  have h2 : p2.wf := wf_fput h1 ..
  have h3 : p3.wf := wf_fput h2 ..
  have h4 : p4.wf := wf_bothEngines h3
  have h5 : p5.wf := wf_bothEngines h4
  have h6 : p6.wf := wf_setRole h5
  have h7 : p7.wf := wf_ite (wf_standBy h6) h6
  have h8 : p8.wf := wf_fput h7 ..
  exact wf_showEngine h8

theorem Panel.wf_enableReplay (h : p.wf) {hub} : (p.enableReplay hub).wf := by
  unfold Panel.enableReplay
  dsimp -zeta only
  extract_lets p1 p2 p3 p4
  have h1 : p1.wf := wf_put (wf_readLogAll h) ..
  have h2 : p2.wf := wf_fput (wf_fput h1 ..) ..
  have h3 : p3.wf := wf_activate h2
  have h4 : p4.wf := wf_setRole h3
  exact wf_ite (wf_fput h1 ..) h4.frame

theorem Panel.wf_nextEpoch (h : p.wf) {hub} : (p.nextEpoch hub).wf := wf_bothEngines h

theorem Panel.wf_enableService (h : p.wf) {hub} : (p.enableService hub).wf := by
  unfold Panel.enableService
  extract_lets p1 p2 p3
  have h1 : p1.wf := wf_put h ..
  have h2 : p2.wf := wf_ite h1 (wf_nextEpoch h1)
  have h3 : p3.wf := wf_openLog (wf_activate h2)
  exact wf_ite (wf_mirPush h3) h3

theorem Panel.wf_tryEnable (h : p.wf) {hub} : (p.tryEnable hub).wf := by
  unfold Panel.tryEnable
  refine wf_ite h (wf_ite (wf_fput (wf_ite h (wf_standBy h)) ..) ?_)
  extract_lets _ p1 p2
  have h1 : p1.wf := wf_fput h ..
  have h2 : p2.wf := wf_applyQueues (wf_applyQueues h1)
  exact wf_ite (wf_fput h ..) (wf_ite (wf_fput h ..) (wf_ite (wf_bothEngines h) (wf_ite (wf_enableReplay h2)
      (wf_enableService h2))))

theorem Panel.wf_stopEngine (h : p.wf) {hub} : (p.stopEngine hub).wf :=
  wf_modEng (wf_bothEngines (wf_fput (wf_setRole h) ..))

theorem Panel.wf_rqeStopped (h : p.wf) {hub} : (p.rqeStopped hub).wf := wf_reportPanel (wf_stopEngine h)

theorem Panel.wf_actInput (h : p.wf) {hub i} : (p.actInput hub i).wf := by
  unfold Panel.actInput
  dsimp -zeta only
  extract_lets p1 p2
  have h1 : p1.wf := wf_setEng h
  have h2 : p2.wf := by
    unfold p2
    split
    · exact wf_tryStore h1
    · extract_lets p3
      have h3 : p3.wf := wf_tryStore h1
      exact wf_tryStore h3
    · exact h1
  exact wf_deliver h2

theorem Panel.wf_journalBehind (h : p.wf) {hub r} : (p.journalBehind hub r).wf := wf_modEng h

theorem Panel.wf_journalInput (h : p.wf) {hub n i} : (p.journalInput hub n i).wf := by
  unfold Panel.journalInput
  extract_lets _ p1 p2 p3
  have h1 : p1.wf := wf_modEng h
  have h2 : p2.wf := by
    unfold p2
    split
    · exact wf_headRecorded h1
    · unfold p1
      exact wf_modEng h
  have h3 : p3.wf := wf_journalBehind h2
  refine wf_ite (wf_modEng h2) ?_
  split
  · exact wf_headReady h3
  · exact h3

theorem Panel.wf_cancelLate (h : p.wf) {hub i} : (p.cancelLate hub i).wf := by
  unfold Panel.cancelLate
  split
  · exact wf_deliver (wf_headReady h)
  · exact h

theorem Panel.wf_applyInputs (h : p.wf) {hub n l kept} : (applyInputs hub n l kept p).wf := by
  induction l generalizing kept p with
  | nil => exact wf_modEng h
  | cons i l ih =>
    unfold applyInputs
    refine wf_ite (ih h) ?_
    split
    · exact wf_ite (ih (wf_journalInput (wf_actInput (wf_tryRecord h)))) (wf_modEng (wf_tryRecord h))
    · exact wf_ite (ih h) (ih (wf_cancelLate h))

theorem Panel.wf_lossInputs (h : p.wf) {hub host} : (p.lossInputs hub host).wf := wf_ite (wf_modEng h) h

theorem Panel.wf_recordColdFails (h : p.wf) {hub n} : (p.recordColdFails hub n).1.wf := by
  have hp : ((p, true) : Panel × Bool).1.wf := h
  refine wf_foldl_fst (fun q ok a hq => ?_) hp
  refine wf_ite_fst hq ?_
  extract_lets
  split
  rename_i q1 ok' e
  have h1 : q1.wf := wf_fst e (wf_tryRecord hq)
  split
  · dsimp only
    exact wf_journalInput (wf_modEng h1)
  · exact h1

theorem Panel.wf_importMore (h : p.wf) {hub n} : (p.importMore hub n).wf := by
  unfold Panel.importMore
  refine wf_foldl (fun p1 a h1 => ?_) h
  split
  · extract_lets _ _ _ p2
    have h2 : p2.wf := h1.frame
    exact wf_journalInput (wf_actInput (wf_journalInput h2))
  · exact h1

theorem Panel.wf_hotLists (h : p.wf) {hub n} : (p.hotLists hub n).wf := by
  unfold Panel.hotLists
  refine wf_foldl (fun p1 a h1 => ?_) h
  extract_lets
  split
  rename_i p2 e2
  have h2 : p2.wf := by
    refine wf_snd e2 (wf_ite_snd ?_ h1)
    split
    rename_i p3 e3
    have h3 : p3.wf := wf_snd_snd e3 (wf_readRange h1 ..)
    exact h3
  extract_lets
  exact wf_modEng h2

theorem Panel.wf_formStep (h : p.wf) {hub n attempt ph takeover moved} :
    (p.formStep hub n attempt ph takeover moved).wf := by
  unfold Panel.formStep
  extract_lets _ _ _ p1 p2
  have h1 : p1.wf := wf_setEng h
  have h2 : p2.wf := wf_addWrap h1 ..
  exact wf_ite (wf_showEngine h) (wf_showEngine (wf_hotLists h2))

theorem Panel.wf_raiseStepAttention (h : p.wf) : p.raiseStepAttention.wf :=
  wf_foldl (fun _ _ h2 => wf_barAbortChannel h2) (wf_foldl (fun _ _ h2 => wf_attention h2) h)

theorem Panel.wf_formMoved (h : p.wf) {hub n failed} : (p.formMoved hub n failed).wf := by
  unfold Panel.formMoved
  extract_lets
  dsimp -zeta only
  extract_lets p1 p2
  have h1 : p1.wf := wf_deliver (wf_setEng h)
  have h2 : p2.wf := wf_formStep h1
  exact wf_ite (wf_raiseStepAttention h2) h2

theorem Panel.wf_takeInputs (h : p.wf) {hub n} : (p.takeInputs hub n).1.wf := by
  unfold Panel.takeInputs
  split
  · exact wf_recordColdFails h
  · extract_lets p1 p2 p3 p4 p5
    have h1 : p1.wf := wf_applyQueues (wf_applyQueues h)
    have h2 : p2.wf := wf_applyInputs h1
    have h3 : p3.wf := wf_lossInputs (wf_lossInputs h2)
    have h4 : p4.wf := wf_ite (wf_applyInputs h3) h3
    have h5 : p5.wf := wf_foldl (fun _ _ h6 => wf_ite (wf_hostLost h6) h6) h4
    exact wf_recordColdFails (wf_importMore h5)

theorem Panel.wf_serveForm (h : p.wf) {hub n} : (p.serveForm hub n).wf :=
  wf_ite (wf_fput h ..) (wf_ite (wf_takeInputs (wf_fput h ..)) (wf_formMoved (wf_takeInputs (wf_fput h ..))))

theorem Panel.wf_endReplay (h : p.wf) {hub err} : (p.endReplay hub err).wf := by
  unfold Panel.endReplay
  extract_lets p1 p2
  have h1 : p1.wf := wf_stopEngine h
  have h2 : p2.wf := wf_fput h1 ..
  exact wf_ite (wf_fput h2 ..) (wf_fput h2 ..)

theorem Panel.wf_replayRecords (h : p.wf) {hub l} : (replayRecords hub l p).1.wf := by
  induction l generalizing p with
  | nil => exact h
  | cons r l ih =>
    unfold replayRecords
    split
    · exact h
    · split
      · exact h
      · extract_lets _ p1
        have h1 : p1.wf := h.frame
        split
        · exact h1
        · split
          · exact h1
          · exact ih (wf_actInput h1)
          · exact ih h1.frame

theorem Panel.wf_replayColdRetry (h : p.wf) {hub n failed} : (p.replayColdRetry hub n failed).1.wf := wf_setEng h

theorem Panel.wf_replayForm (h : p.wf) {hub n} : (p.replayForm hub n).wf := by
  unfold Panel.replayForm
  extract_lets p1 p2
  have h1 : p1.wf := wf_applyQueues (wf_applyQueues h)
  have h2 : p2.wf := wf_foldl (fun _ _ h3 => wf_ite (wf_hostLost h3) h3) h1
  refine wf_ite (wf_endReplay h2) (wf_ite (wf_fput h2 ..) (wf_ite (wf_endReplay (wf_replayColdRetry h2)) (wf_ite
      (wf_fput (wf_replayColdRetry h2) ..) ?_)))
  extract_lets p3
  have h3 : p3.wf := wf_fput (wf_setEng h2) ..
  split
  · rename_i p4 _ e4
    have h4 : p4.wf := wf_fst e4 (wf_replayRecords h3)
    exact wf_endReplay h4
  · rename_i p4 e4
    have h4 : p4.wf := wf_fst e4 (wf_replayRecords h3)
    extract_lets _ p5
    have h5 : p5.wf := h4.frame
    exact wf_formMoved h5

theorem Panel.wf_modStep (h : p.wf) {hub f} : (p.modStep hub f).wf := wf_modEng h

theorem Panel.wf_multicasts (h : p.wf) {ks} : (p.multicasts ks).1.wf :=
  wf_foldl_fst (fun _ _ _ h1 => wf_multicast h1) h

theorem Panel.wf_nextAttempt (h : p.wf) {hub} : (p.nextAttempt hub).wf := by
  unfold Panel.nextAttempt
  extract_lets p1 p2 p3
  have h1 : p1.wf := wf_modStep h
  have h2 : p2.wf := wf_addWrap h1 ..
  have h3 : p3.wf := wf_showEngine (wf_fput h2 ..)
  split
  · exact wf_ite (wf_rqeStopped h3) h3
  · exact h3

theorem Panel.wf_abortAttempt (h : p.wf) {hub} : (p.abortAttempt hub).wf :=
  wf_raiseStepAttention (wf_fput (wf_modStep h) ..)

theorem Panel.wf_startStep (h : p.wf) {hub s'} : (p.startStep hub s').wf := by
  unfold Panel.startStep
  split
  rename_i p1 _ e1
  have h1 : p1.wf := wf_fst e1 (wf_tryStores h)
  split
  rename_i p2 _ e2
  have h2 : p2.wf := wf_fst e2 (wf_multicasts h1)
  refine wf_ite (wf_nextAttempt h2) ?_
  extract_lets p3
  have h3 : p3.wf := wf_ite (wf_foldl (fun _ _ h4 => wf_advanceEpoch h4 ..) h2) h2
  split
  rename_i p4 _ _ e4
  have h4 : p4.wf := wf_fst e4 (wf_multicast h3)
  exact wf_ite (wf_abortAttempt h4) (wf_fput (wf_modStep h4) ..)

theorem Panel.wf_retryStep (h : p.wf) {hub} : (p.retryStep hub).wf := by
  unfold Panel.retryStep
  extract_lets p1
  have h1 : p1.wf := wf_reportPanel h
  refine wf_ite h1 ?_
  split
  · exact h1
  · split
    · exact h1
    · exact wf_abortAttempt h
    · exact wf_nextAttempt h
    · exact h

theorem Panel.wf_doneRecord (h : p.wf) {s'} : (p.doneRecord s').2.wf := by
  unfold Panel.doneRecord
  extract_lets
  refine wf_ite_snd h ?_
  split
  rename_i p1 e1
  have h1 : p1.wf := wf_snd_snd e1 (wf_readRange h ..)
  extract_lets
  exact h1

theorem Panel.wf_sendDeltas (h : p.wf) : p.sendDeltas.wf := by
  unfold Panel.sendDeltas
  split
  · exact wf_ite h.frame h
  · exact h

theorem Panel.wf_deltasDue (h : p.wf) {hub n rs} : (p.deltasDue hub n rs).wf := wf_sendDeltas h.frame

theorem Panel.wf_acceptStep (h : p.wf) {hub s' rs raw} : (p.acceptStep hub s' rs raw).wf := by
  unfold Panel.acceptStep
  extract_lets _ _ p1 p2 p3 p4 _ p5
  have h1 : p1.wf := wf_modStep h
  have h2 : p2.wf := wf_fput h1 ..
  have h3 : p3.wf := wf_fput h2 ..
  have h4 : p4.wf := wf_fput h3 ..
  have h5 : p5.wf := wf_ite (wf_modEng h4) (wf_journalBehind h4)
  exact wf_ite (wf_deltasDue h5) h5

theorem Panel.wf_readResults (h : p.wf) {hub s'} : (p.readResults hub s').wf := by
  refine of_text (fun f => (f p hub s').wf) (f := Panel.readResults) (by delta Panel.readResults; rfl) ?_
  refine wf_ite (wf_abortAttempt (wf_reportPanel h)) ?_
  split
  rename_i rs raw q e
  have hq : q.wf := by
    refine wf_snd_snd e (wf_foldl_of_eq (fun b c q i r hq => ?_) h)
    split
    rename_i e'
    rintro rfl
    exact wf_snd_snd e' (wf_readRange hq ..)
  split
  · exact wf_abortAttempt (wf_reportPanel hq)
  · exact wf_acceptStep hq

theorem Panel.wf_pollDone (h : p.wf) {hub s'} : (p.pollDone hub s').wf := by
  have hd : (p.doneRecord s').2.wf := wf_doneRecord h
  refine of_text (fun f => (f p hub s').wf) (f := Panel.pollDone) (by delta Panel.pollDone; rfl) ?_
  generalize p.doneRecord s' = x at hd ⊢
  obtain ⟨r, q⟩ := x
  dsimp only at hd ⊢
  split
  · exact hd
  · split
    · exact wf_ite hd (wf_ite (wf_abortAttempt (wf_reportPanel hd)) (wf_ite (wf_readResults hd) (wf_nextAttempt hd)))
    · exact wf_ite (wf_ite (wf_modStep hd) (wf_nextAttempt hd)) hd
    · exact hd

theorem Panel.wf_applyCommit (h : p.wf) {hub s'} : (p.applyCommit hub s').wf := by
  unfold Panel.applyCommit
  dsimp -zeta only
  extract_lets p1 p2 p3 p4 p5 p6 _ _ p7 p8 p9
  have h1 : p1.wf := wf_modEng (wf_setEng h)
  have h2 : p2.wf := wf_foldl (fun _ _ h10 => wf_tryStore h10) h1
  have h3 : p3.wf := wf_fput h2 ..
  have h4 : p4.wf := wf_fput h3 ..
  have h5 : p5.wf := wf_fput h4 ..
  have h6 : p6.wf := wf_deliver h5
  have h7 : p7.wf := h6.frame
  have h8 : p8.wf := wf_ite (wf_ite (wf_fput (wf_fput h7 ..) ..) h7) h6
  have h9 : p9.wf := wf_ite (wf_stopEngine h8) h8
  exact wf_showEngine h9

theorem Panel.wf_commitStep (h : p.wf) {hub s'} : (p.commitStep hub s').wf :=
  wf_ite h (wf_ite (wf_ite (wf_applyCommit (wf_tryRecord h)) (wf_tryRecord h)) (wf_applyCommit h))

/-! ### RqeCmd.lean -/

theorem Panel.wf_onStep (h : p.wf) {hub} {f : Panel → StepRec → Panel} (hf : ∀ r, (f p r).wf) : (p.onStep hub f).wf := by
  unfold Panel.onStep
  split
  · exact wf_ite (hf _) h
  · exact h

theorem nextWf_execStepForm (h : s.p.wf) {hub} : NextWf (execStepForm hub s) := by
  unfold execStepForm
  refine nextWf_upd h (fun p1 h1 => ?_)
  extract_lets
  exact wf_ite h1 (wf_showEngine (wf_ite (wf_replayForm h1) (wf_serveForm h1)))

theorem Panel.wf_coldCopy (h : p.wf) {m} : (p.coldCopy m).wf := by
  unfold Panel.coldCopy
  refine wf_foldl (fun p1 a h1 => ?_) h
  split
  extract_lets
  refine wf_ite ?_ ?_
  · split
    · exact wf_storePa h1 ..
    · exact h1
  · split
    rename_i p2 e2
    have h2 : p2.wf := wf_snd e2 (wf_readTagged h1 ..)
    exact wf_modPort h2

theorem nextWf_execColdMoveFinish (h : s.p.wf) {hub ctx ok} : NextWf (execColdMoveFinish hub ctx ok s) := by
  unfold execColdMoveFinish
  refine nextWf_upd h (fun p1 h1 => ?_)
  split
  · exact h1
  · refine wf_ite h1 ?_
    extract_lets _ p2
    have h2 : p2.wf := wf_modEng h1
    exact wf_ite (wf_coldCopy h2) h2

theorem nextWf_execDonePoll (h : s.p.wf) {hub} : NextWf (execDonePoll hub s) :=
  nextWf_upd h (fun _ h1 => wf_onStep h1 (fun _ => wf_pollDone h1))

theorem nextWf_execStepTimeout (h : s.p.wf) {hub} : NextWf (execStepTimeout hub s) :=
  nextWf_upd h (fun _ h1 => wf_onStep h1 (fun _ => wf_ite (wf_abortAttempt (wf_reportPanel h1)) h1))

theorem nextWf_execAbortedWaitTimeout (h : s.p.wf) {hub} : NextWf (execAbortedWaitTimeout hub s) :=
  nextWf_upd h (fun _ h1 => wf_onStep h1 (fun _ => wf_ite (wf_rqeStopped h1) h1))

theorem Panel.wf_standbyCommit (h : p.wf) {hub n rs} : (p.standbyCommit hub n rs).wf := by
  unfold Panel.standbyCommit
  extract_lets _ _ formed
  clear_value formed
  dsimp -zeta only
  extract_lets p1
  have h1 : p1.wf := wf_fput (wf_setEng h) ..
  exact wf_showEngine (wf_bothEngines h1)

theorem Panel.wf_standbyInput (h : p.wf) {hub i} : (p.standbyInput hub i).wf := wf_showEngineAs (wf_modEng h)

theorem Panel.wf_caughtUp (h : p.wf) {a} : (p.caughtUp a).wf := wf_ite (wf_bothEngines (wf_setEng h)) h

theorem nextWf_execJournalRecord (h : s.p.wf) {hub r} : NextWf (execJournalRecord hub r s) := by
  unfold execJournalRecord
  refine nextWf_upd h (fun p1 h1 => ?_)
  extract_lets _ _ p2 p3 p4 p5
  have h2 : p2.wf := wf_modEng h1
  have h3 : p3.wf := wf_bothEngines h2
  have h4 : p4.wf := wf_modEng h3
  have h5 : p5.wf := by
    unfold p5
    split
    · exact h4
    · exact wf_standbyInput h4
    · exact wf_standbyCommit h4
  exact wf_ite h1 (wf_caughtUp h5)

theorem nextWf_execJournalAck (h : s.p.wf) {hub} : NextWf (execJournalAck hub s) := by
  unfold execJournalAck
  refine nextWf_upd h (fun p1 h1 => ?_)
  extract_lets
  split
  · extract_lets p2
    have h2 : p2.wf := wf_setEng h1
    refine wf_ite h2 ?_
    split
    · split
      · exact wf_headReady h2
      · exact h2
    · exact wf_fput (wf_modStep h2) ..
    · exact h2
  · exact h1

theorem nextWf_execHeartbeat (h : s.p.wf) {hub} : NextWf (execHeartbeat hub s) :=
  nextWf_upd h (fun _ h1 => wf_ite (wf_modEng h1) h1)

theorem nextWf_execHeartbeatMiss (h : s.p.wf) : NextWf (execHeartbeatMiss s) := by
  unfold execHeartbeatMiss
  refine nextWf_upd h (fun p1 h1 => ?_)
  split
  · extract_lets p2
    have h2 : p2.wf := wf_foldl (fun _ _ h3 => wf_addHold h3 ..) h1
    exact wf_sendReport h2 ..
  · exact h1

theorem Panel.wf_journalFrom (h : p.wf) {a} : (p.journalFrom a).wf := wf_caughtUp (wf_setEng h)

theorem nextWf_execStandbySnapshot (h : s.p.wf) {ctxs used step} : NextWf (execStandbySnapshot ctxs used step s) := by
  unfold execStandbySnapshot
  refine nextWf_upd h (fun p1 h1 => ?_)
  split
  · exact h1
  · extract_lets _ _ p2 p3 p4
    have h2 : p2.wf := wf_setEng h1
    have h3 : p3.wf := wf_fput h2 ..
    have h4 : p4.wf := wf_bothEngines h3
    exact wf_ite h1 (wf_showEngine (wf_journalFrom h4))

theorem Panel.wf_standbyLost (h : p.wf) {hub} : (p.standbyLost hub).wf :=
  wf_advanceHeads (wf_fput (wf_modStep (wf_setEng (wf_bothEngines h))) ..)

theorem Panel.wf_rqeDrain (h : p.wf) {hub} : (p.rqeDrain hub).wf := wf_ite h (wf_ite (wf_stopEngine h) (wf_modEng h))

theorem Panel.wf_continueLog (h : p.wf) {hub} : (p.continueLog hub).wf := by
  unfold Panel.continueLog
  split
  · exact h
  · extract_lets _ _ _ p1 p2 p3
    have h1 : p1.wf := h.frame
    have h2 : p2.wf := wf_bothEngines h1
    have h3 : p3.wf := by
      unfold p3
      split
      · exact wf_bothEngines h2
      · exact h2
    exact wf_foldl (fun _ _ h4 => wf_record h4) h3

theorem Panel.wf_headsKnown (h : p.wf) {o} : (p.headsKnown o).wf := by
  unfold Panel.headsKnown
  extract_lets
  refine wf_foldl (fun p1 a h1 => ?_) h
  split
  · split
    · exact wf_headReady h1
    · exact h1
  · exact h1

theorem Panel.wf_inheritInputs (h : p.wf) {hub n formed} : (p.inheritInputs hub n formed).wf :=
  wf_foldl (fun _ _ h2 => wf_modEng h2) (wf_modEng h)

theorem Panel.wf_landStep (h : p.wf) {hub} : (p.landStep hub).wf := by
  unfold Panel.landStep
  split
  · exact h
  · extract_lets p1 p2 p3
    have h1 : p1.wf := wf_modEng h
    have h2 : p2.wf := wf_foldl (fun _ _ h4 => wf_tryStore h4) h1
    have h3 : p3.wf := wf_ite (wf_tryRecord h2) h2
    exact wf_deliver h3

theorem Panel.wf_rqeTakeover (h : p.wf) {hub} : (p.rqeTakeover hub).wf := by
  unfold Panel.rqeTakeover
  refine wf_ite h ?_
  extract_lets _ _ p1 p2 p3 p4 p5 _ x6
  have h1 : p1.wf := wf_headsKnown h
  have h2 : p2.wf := wf_setEng (wf_setRole (wf_setRole h1))
  have h3 : p3.wf := wf_fput h2 ..
  have h4 : p4.wf := wf_bothEngines h3
  have h5 : p5.wf := wf_landStep (wf_continueLog (wf_fput h4 ..))
  have hx6 : ∀ (p : Panel), p.wf → (x6 p).wf := by
    intro p7 hq
    unfold x6
    exact wf_modEng hq
  split
  · extract_lets _ p7
    have h7 : p7.wf := wf_inheritInputs (wf_modEng h5)
    exact wf_raiseStepAttention (wf_showEngine (hx6 _ (wf_modEng h7)))
  · exact wf_serveForm (hx6 _ (wf_inheritInputs h5))

theorem Panel.wf_rqeOff (h : p.wf) {hub} : (p.rqeOff hub).wf := by
  unfold Panel.rqeOff
  extract_lets _ p1 p2
  have h1 : p1.wf := wf_setRole (wf_fput h ..)
  have h2 : p2.wf := wf_setEng h1
  exact wf_ite h1 (wf_ite (wf_standbyLost h2) h2)

theorem Panel.wf_rqeControl (h : p.wf) {hub v} : (p.rqeControl hub v).wf := by
  unfold Panel.rqeControl
  extract_lets _ p1 p2 p3
  have h1 : p1.wf := wf_ite (wf_ite h (wf_tryEnable h)) (wf_ite h (wf_rqeOff h))
  have h2 : p2.wf := wf_ite (wf_rqeDrain h1) h1
  have h3 : p3.wf := wf_ite (wf_retryStep h2) h2
  exact wf_ite h (wf_ite (wf_rqeTakeover h3) h3)

theorem nextWf_execRqeEnable (h : s.p.wf) {hub src v} : NextWf (execRqeEnable hub src v s) :=
  nextWf_upd h (fun _ h1 => wf_asWriter h1 (wf_rqeControl h1))

theorem nextWf_execRqeDrain (h : s.p.wf) {hub src v} : NextWf (execRqeDrain hub src v s) :=
  nextWf_upd h (fun _ h1 => wf_asWriter h1 (wf_rqeControl h1))

theorem nextWf_execRqeRetry (h : s.p.wf) {hub src v} : NextWf (execRqeRetry hub src v s) :=
  nextWf_upd h (fun _ h1 => wf_asWriter h1 (wf_rqeControl h1))

theorem nextWf_execRqeTakeover (h : s.p.wf) {hub src v} : NextWf (execRqeTakeover hub src v s) :=
  nextWf_upd h (fun _ h1 => wf_asWriter h1 (wf_rqeControl h1))

theorem Panel.wf_ilogStream (h : p.wf) {v} : (p.ilogStream v).wf := by
  unfold Panel.ilogStream
  extract_lets p1 _ p2 _ p3
  have h1 : p1.wf := wf_store h ..
  have h2 : p2.wf := h1.frame
  have h3 : p3.wf := wf_recNeed h2
  refine wf_ite h2 ?_
  split
  · exact wf_advanceHeads h3
  · exact h3

/-! ### Host.lean -/

theorem Panel.wf_sqTailWrite (h : p.wf) {hub q v} : (p.sqTailWrite hub q v).wf := wf_store h ..

theorem Panel.wf_sqBaseWrite (h : p.wf) {hub q v} : (p.sqBaseWrite hub q v).wf := wf_queuesChanged (wf_store h ..)

theorem Panel.wf_cqBaseWrite (h : p.wf) {hub q v} : (p.cqBaseWrite hub q v).wf := by
  unfold Panel.cqBaseWrite
  extract_lets _ _ _ _ p1 p2
  have h1 : p1.wf := wf_store h ..
  have h2 : p2.wf := wf_ite (wf_fput (wf_modPort h1) ..) h1
  exact wf_queuesChanged h2

theorem Panel.wf_cqHeadWrite (h : p.wf) {hub q v} : (p.cqHeadWrite hub q v).wf := wf_drainStore (wf_store h ..)

theorem Panel.wf_portWrite (h : p.wf) {hub q src} {f : Panel → Panel} (hf : (f p).wf) : (p.portWrite hub q src f).wf :=
  wf_ite (wf_ite hf (wf_asWriter h h)) h

theorem nextWf_execSqTailDoorbell (h : s.p.wf) {hub q src v} : NextWf (execSqTailDoorbell hub q src v s) :=
  nextWf_upd h (fun _ h1 => wf_portWrite h1 (wf_sqTailWrite h1))

theorem nextWf_execCqHeadDoorbell (h : s.p.wf) {hub q src v} : NextWf (execCqHeadDoorbell hub q src v s) :=
  nextWf_upd h (fun _ h1 => wf_portWrite h1 (wf_cqHeadWrite h1))

theorem nextWf_execCqEnable (h : s.p.wf) {hub q src v} : NextWf (execCqEnable hub q src v s) :=
  nextWf_upd h (fun _ h1 => wf_portWrite h1 (wf_cqBaseWrite h1))

theorem Panel.wf_answerEntry (h : p.wf) {hub host q e reason} : (p.answerEntry hub host q e reason).wf := by
  unfold Panel.answerEntry
  extract_lets _ p1
  have h1 : p1.wf := wf_modEng h
  exact wf_deliver (wf_advanceHeads h1)

theorem Panel.wf_takeCancel (h : p.wf) {hub host q e} : (p.takeCancel hub host q e).wf := by
  unfold Panel.takeCancel
  extract_lets
  exact wf_ite (wf_answerEntry h) (wf_ite (wf_answerEntry h) (wf_modEng h))

theorem Panel.wf_takeEntry (h : p.wf) {host q e} : (p.takeEntry host q e).wf := by
  unfold Panel.takeEntry
  split
  · exact h
  · extract_lets _ p1
    have h1 : p1.wf := wf_modEng h
    exact wf_ite h (wf_ite (wf_takeCancel h1) (wf_ite (wf_answerEntry h1) (wf_ite h1 (wf_modEng h1))))

theorem nextWf_execSubmit (h : s.p.wf) {host q e} : NextWf (execSubmit host q e s) :=
  nextWf_upd h (fun _ h1 => wf_takeEntry h1)

theorem nextWf_execCancel (h : s.p.wf) {host q e} : NextWf (execCancel host q e s) :=
  nextWf_upd h (fun _ h1 => wf_takeEntry h1)

theorem Panel.wf_readFailed (h : p.wf) {host e} : (p.readFailed host e).wf := wf_modPort h

theorem nextWf_execPromptReadComplete (h : s.p.wf) {host q ok tokens} : NextWf
    (execPromptReadComplete host q ok tokens s) := by
  unfold execPromptReadComplete
  refine nextWf_upd h (fun p1 h1 => ?_)
  split
  · exact h1
  · split
    · exact h1
    · extract_lets x2
      have hx2 : ∀ (p : Panel), p.wf → (x2 p).wf := by
        intro p3 hq
        unfold x2
        exact wf_modEng hq
      exact wf_ite (wf_answerEntry (wf_readFailed (hx2 _ h1))) (wf_ite h1 (wf_modEng (hx2 _ h1)))

theorem Panel.wf_leaseAcquire (h : p.wf) {host} : (p.leaseAcquire host).wf := wf_ite (wf_setHolder h) h

theorem Panel.wf_leaseRenew (h : p.wf) {host} : (p.leaseRenew host).wf := wf_ite (wf_fput h ..) h

theorem Panel.wf_leaseRelease (h : p.wf) {host} : (p.leaseRelease host).wf := wf_ite (wf_setHolder h) h

theorem Panel.wf_leaseWrite (h : p.wf) {host v} : (p.leaseWrite host v).wf := by
  unfold Panel.leaseWrite
  extract_lets _ p1 p2
  have h1 : p1.wf := wf_ite (wf_leaseAcquire h) h
  have h2 : p2.wf := wf_ite (wf_leaseRenew h1) h1
  exact wf_ite (wf_leaseRelease h2) h2

theorem nextWf_execLeaseAcquire (h : s.p.wf) {host} : NextWf (execLeaseAcquire host s) :=
  nextWf_upd h (fun _ h1 => wf_ite (wf_leaseAcquire h1) h1)

theorem nextWf_execLeaseRenew (h : s.p.wf) {host} : NextWf (execLeaseRenew host s) :=
  nextWf_upd h (fun _ h1 => wf_ite (wf_leaseRenew h1) h1)

theorem nextWf_execLeaseRelease (h : s.p.wf) {host} : NextWf (execLeaseRelease host s) :=
  nextWf_upd h (fun _ h1 => wf_ite (wf_leaseRelease h1) h1)

theorem nextWf_execLeaseExpire (h : s.p.wf) : NextWf (execLeaseExpire s) :=
  nextWf_upd h (fun _ h1 => wf_ite (wf_setHolder h1) h1)

theorem Panel.wf_portReset (h : p.wf) {host d3hot} : (p.portReset host d3hot).wf :=
  wf_storeFull (wf_modPort (wf_resetReg (wf_addWrap (wf_fput h ..) ..) ..))

theorem Panel.wf_linkReset (h : p.wf) {host} : (p.linkReset host).wf :=
  wf_portReset (wf_fput (wf_fput (wf_fput h ..) ..) ..)

theorem Panel.wf_portServes (h : p.wf) {host} : (p.portServes host).wf :=
  wf_streamRecords (wf_flushVectors (wf_drainStore (wf_modPort h)))

theorem nextWf_execPcieLinkReset (h : s.p.wf) {host} : NextWf (execPcieLinkReset host s) :=
  nextWf_upd h (fun _ h1 => wf_ite (wf_linkReset h1) h1)

theorem nextWf_execPcieLinkReturn (h : s.p.wf) {host} : NextWf (execPcieLinkReturn host s) := by
  unfold execPcieLinkReturn
  refine nextWf_upd h (fun p1 h1 => ?_)
  extract_lets
  refine wf_ite h1 ?_
  dsimp -zeta only
  extract_lets p2 p3 p4 p5
  have h2 : p2.wf := wf_fput (wf_draw (wf_draw h1 ..) ..) ..
  have h3 : p3.wf := wf_fput h2 ..
  have h4 : p4.wf := wf_fput h3 ..
  have h5 : p5.wf := wf_fput h4 ..
  exact wf_portServes (wf_modPort h5)

theorem nextWf_execConfigurationWrite (h : s.p.wf) {host c} : NextWf (execConfigurationWrite host c s) := by
  unfold execConfigurationWrite
  refine nextWf_upd h (fun p1 h1 => ?_)
  extract_lets _ p2
  have h2 : p2.wf := wf_fput h1 ..
  exact wf_ite h1 (wf_ite (wf_ite h1 (wf_portReset h1)) (wf_portServes (wf_modPort h2)))

theorem nextWf_execHostLossTimeout (h : s.p.wf) {host} : NextWf (execHostLossTimeout host s) :=
  nextWf_upd h (fun _ h1 => wf_ite (wf_loseHost h1) h1)

theorem Panel.wf_fatalError (h : p.wf) {host} : (p.fatalError host).wf := wf_linkReset (wf_modPort h)

theorem Panel.wf_onBar (h : p.wf) {host off len size most} {f : Panel → Panel} (hf : (f p).wf) :
    (p.onBar host off len size most f).wf := wf_ite h (wf_ite (wf_fatalError h) hf)

theorem Panel.wf_bar2Read (h : p.wf) {host off len} : (p.bar2Read host off len).wf := by
  unfold Panel.bar2Read
  refine wf_onBar h ?_
  extract_lets
  exact wf_ite (wf_emit (wf_modPort h) ..) (wf_ite (wf_emit (wf_modPort h) ..) (wf_emit (wf_readRange h ..) ..))

theorem Panel.wf_bar2Write (h : p.wf) {host off data poison} : (p.bar2Write host off data poison).wf := by
  unfold Panel.bar2Write
  refine wf_onBar h ?_
  extract_lets p1
  have h1 : p1.wf := wf_ite (wf_modPort h) h
  exact wf_ite (wf_modPort h1) (wf_ite h1 (wf_storePa h1 ..))

theorem Panel.wf_orHeld {a regs now} (h : p.wf) (hnow : now.wf) : (p.orHeld a regs now).wf := wf_ite h.frame hnow

theorem nextWf_execBar2ReadTlp (h : s.p.wf) {host off len} : NextWf (execBar2ReadTlp host off len s) :=
  nextWf_upd h (fun _ h1 => wf_orHeld h1 (wf_bar2Read h1))

theorem nextWf_execBar2WriteTlp (h : s.p.wf) {host off data poison} : NextWf (execBar2WriteTlp host off data poison s) :=
  nextWf_upd h (fun _ h1 => wf_orHeld h1 (wf_bar2Write h1))

/-! ### ClockPower.lean -/

theorem Panel.wf_startMove (h : p.wf) {node n} : (p.startMove node n).wf := wf_ite h h.frame

theorem Panel.wf_requestPoint (h : p.wf) {node n q} : (p.requestPoint node n q).wf := wf_startMove (wf_fput h ..)

theorem Panel.wf_clkPointWrite (h : p.wf) {node n v} : (p.clkPointWrite node n v).wf := wf_ite h (wf_requestPoint h)

theorem nextWf_execClkPointWrite (h : s.p.wf) {node n v} : NextWf (execClkPointWrite node n v s) :=
  nextWf_upd h (fun _ h1 => wf_ite (wf_clkPointWrite h1) h1)

theorem Panel.wf_endMove (h : p.wf) {node n q} : (p.endMove node n q).wf :=
  wf_addWrap (wf_fput (wf_fput h.frame ..) ..) ..

theorem Panel.wf_finishMove (h : p.wf) {node n} : (p.finishMove node n).wf := by
  unfold Panel.finishMove
  split
  · exact wf_endMove h
  · exact h

theorem Panel.wf_takePoint (h : p.wf) {node n} : (p.takePoint node n).wf := by
  unfold Panel.takePoint
  extract_lets p1
  have h1 : p1.wf := wf_finishMove h
  exact wf_ite h1 (wf_endMove h1)

theorem nextWf_execPointChangeDone (h : s.p.wf) {node n} : NextWf (execPointChangeDone node n s) := by
  unfold execPointChangeDone
  refine nextWf_upd h (fun p1 h1 => ?_)
  split
  · exact wf_ite (wf_startMove (wf_endMove h1)) h1
  · exact h1

theorem Panel.wf_stopIsland (h : p.wf) {node n} : (p.stopIsland node n).wf :=
  wf_fput (wf_fput (wf_fput h.frame ..) ..) ..

theorem Panel.wf_showStretch (h : p.wf) {node n} : (p.showStretch node n).wf := wf_fput h ..

theorem nextWf_execDroopStretch (h : s.p.wf) {node n k} : NextWf (execDroopStretch node n k s) := by
  unfold execDroopStretch
  refine nextWf_upd h (fun p1 h1 => wf_ite ?_ h1)
  extract_lets _ _ p2
  have h2 : p2.wf := h1.frame
  exact wf_showStretch (wf_addHold h2 ..)

theorem nextWf_execStretchRecover (h : s.p.wf) {node n} : NextWf (execStretchRecover node n s) := by
  unfold execStretchRecover
  refine nextWf_upd h (fun p1 h1 => ?_)
  extract_lets _ _ p2
  have h2 : p2.wf := h1.frame
  dsimp -zeta only
  exact wf_ite (wf_showStretch (wf_addHold (wf_draw h2 ..) ..)) h1

theorem Panel.wf_marginAlarm (h : p.wf) {node n stepDue} : (p.marginAlarm node n stepDue).wf := by
  unfold Panel.marginAlarm
  extract_lets _ _ p1 p2
  have h1 : p1.wf := h.frame
  have h2 : p2.wf := wf_ite h (wf_reportNode (wf_addHold (wf_showStretch h1) ..) ..)
  exact wf_ite (wf_requestPoint (wf_fput h2 ..)) h2

theorem nextWf_execMarginSample (h : s.p.wf) {node n codes warnDue stepDue} : NextWf
    (execMarginSample node n codes warnDue stepDue s) := by
  unfold execMarginSample
  refine nextWf_upd h (fun p1 h1 => wf_ite ?_ h1)
  extract_lets _ p2 p3
  have h2 : p2.wf := wf_fput h1 ..
  have h3 : p3.wf := wf_fput h2 ..
  dsimp -zeta only
  extract_lets p4
  have h4 : p4.wf := wf_ite (wf_reportNode (wf_addHold h3 ..) ..) h3
  exact wf_ite (wf_marginAlarm h4) h4

theorem nextWf_execMarginAlarmRelease (h : s.p.wf) {node n} : NextWf (execMarginAlarmRelease node n s) :=
  nextWf_upd h (fun _ h1 => wf_ite (wf_showStretch h1.frame) h1)

theorem Panel.wf_setZoneState (h : p.wf) {z st} : (p.setZoneState z st).wf := wf_fput h ..

theorem Panel.wf_setRails (h : p.wf) {z k} : (p.setRails z k).wf := h.frame

theorem Panel.wf_setCeiling (h : p.wf) {z c} : (p.setCeiling z c).wf := by
  unfold Panel.setCeiling
  extract_lets p1
  have h1 : p1.wf := wf_fput h ..
  exact wf_ite h1.frame h1

theorem Panel.wf_keepGates (h : p.wf) {keep} : (p.keepGates keep).wf := h.frame

theorem Panel.wf_coreLost (h : p.wf) {c} : (p.coreLost c).wf := wf_setCore (wf_fput (wf_fput h ..) ..) ..

theorem Panel.wf_noChange (h : p.wf) {z} : (p.noChange z).wf := by
  unfold Panel.noChange
  extract_lets _ _ _ p1
  have h1 : p1.wf := h.frame
  exact wf_ite (wf_fput h1 ..) h1

theorem Panel.wf_forgetStretch (h : p.wf) {ns} : (p.forgetStretch ns).wf := h.frame

theorem Panel.wf_computeZoneDown (h : p.wf) {z st} : (p.computeZoneDown z st).wf := by
  unfold Panel.computeZoneDown
  extract_lets _ p1 p2 _ p3 p4 _ p5 p6 p7 _ p8 p9
  have h1 : p1.wf := wf_forgetStretch (wf_setRails (wf_setZoneState (wf_noChange h)))
  have h2 : p2.wf := wf_keepGates h1
  have h3 : p3.wf := h2.frame
  have h4 : p4.wf := wf_foldl (fun _ _ h10 => wf_foldl (fun _ _ h11 => wf_fput (wf_fput (wf_fput h11 ..) ..) ..) h10) h3
  have h5 : p5.wf := wf_foldl (fun _ _ h10 => wf_foldl (fun _ _ h11 => wf_coreLost h11) h10) h4
  have h6 : p6.wf := wf_markUndef h5 ..
  have h7 : p7.wf := wf_foldl (fun _ _ h10 => wf_fput h10 ..) h6
  have h8 : p8.wf := h7.frame
  have h9 : p9.wf := wf_writeRoutes (wf_writePorts h8)
  exact h9.frame

theorem Panel.wf_clearGuestRegs (h : p.wf) {g} : (p.clearGuestRegs g).wf :=
  wf_foldl (fun _ _ h2 => wf_put (wf_put h2 ..) ..) (wf_put (wf_put h ..) ..)

theorem Panel.wf_guestOff (h : p.wf) {g state reason} : (p.guestOff g state reason).wf :=
  wf_fput (wf_fput (wf_setGuest (wf_clearGuestRegs h)) ..) ..

theorem Panel.wf_edgeUnitsLost (h : p.wf) {hubs} : (p.edgeUnitsLost hubs).wf := by
  unfold Panel.edgeUnitsLost
  extract_lets p1 p2
  have h1 : p1.wf := wf_foldl (fun _ _ h3 => wf_emit h3 ..) h
  have h2 : p2.wf := wf_foldl (fun _ _ h3 => wf_guestOff h3) h1
  exact h2.frame

theorem Panel.wf_edgeZoneDown (h : p.wf) {z st} : (p.edgeZoneDown z st).wf := by
  unfold Panel.edgeZoneDown
  extract_lets _ _ p1 _ p2 _ p3 _ p4 p5 p6 _ p7 p8 p9 _ p10 _ p11 p12
  have h1 : p1.wf := wf_setRails (wf_setZoneState (wf_edgeUnitsLost h))
  have h2 : p2.wf := h1.frame
  have h3 : p3.wf := wf_foldl (fun _ _ h13 => wf_fput (wf_fput h13 ..) ..) h2
  have h4 : p4.wf := wf_fput (wf_fput h3 ..) ..
  have h5 : p5.wf := wf_foldl (fun _ _ h13 => wf_put h13.frame ..) h4
  have h6 : p6.wf := wf_ite h5.frame h5.frame
  have h7 : p7.wf := wf_setEng (wf_setRole (wf_fput h6 ..))
  have h8 : p8.wf := wf_ite (wf_standbyLost h7) h7
  have h9 : p9.wf := wf_ite (wf_resetReg h8 ..) h8
  have h10 : p10.wf := wf_ite h9.frame h9
  have h11 : p11.wf := h10.frame
  have h12 : p12.wf := wf_writeRoutes (wf_writePorts h11)
  exact h12.frame

theorem Panel.wf_zoneDown (h : p.wf) {z st} : (p.zoneDown z st).wf :=
  wf_ite (wf_computeZoneDown h) (wf_edgeZoneDown h)

theorem Panel.wf_thermalOff (h : p.wf) {z} : (p.thermalOff z).wf := wf_zoneDown (wf_addHold h.frame ..)

theorem Panel.wf_zoneShutdown (h : p.wf) {z} : (p.zoneShutdown z).wf := by
  unfold Panel.zoneShutdown
  refine wf_ite h ?_
  extract_lets p1 p2
  have h1 : p1.wf := wf_setZoneState (wf_noChange h)
  have h2 : p2.wf := wf_writeRoutes (wf_reportZone h1)
  exact h2.frame

theorem Panel.wf_zoneLostNow (h : p.wf) {z fuse} : (p.zoneLostNow z fuse).wf :=
  wf_reportZone (wf_ite (wf_zoneDown h) (wf_thermalOff h))

theorem Panel.wf_finishDraining (h : p.wf) : p.finishDraining.wf := wf_foldl (fun _ _ h1 => wf_thermalOff h1) h

theorem Panel.wf_panelTrip (h : p.wf) : p.panelTrip.wf := by
  unfold Panel.panelTrip
  refine wf_ite h ?_
  extract_lets _ p1 p2 p3
  have h1 : p1.wf := h.frame
  have h2 : p2.wf := wf_reportPanel h1
  have h3 : p3.wf := wf_foldl (fun _ _ h4 => wf_computeZoneDown h4) h2
  exact wf_ite h1 (wf_foldl (fun _ _ h4 => wf_setZoneState h4) h3)

theorem Panel.wf_fuseInReset (h : p.wf) {z} : (p.fuseInReset z).wf := by
  unfold Panel.fuseInReset
  extract_lets p1
  have h1 : p1.wf := wf_setRails h
  exact h1.frame

theorem nextWf_execEfuseOpen (h : s.p.wf) {z} : NextWf (execEfuseOpen z s) := by
  unfold execEfuseOpen
  refine nextWf_upd h (fun p1 h1 => wf_ite ?_ h1)
  extract_lets _ p2
  have h2 : p2.wf := h1.frame
  exact wf_ite (wf_fuseInReset h2) (wf_ite (wf_zoneLostNow h2) (wf_setZoneState h2))

theorem nextWf_execZoneShutdownTimeout (h : s.p.wf) {z} : NextWf (execZoneShutdownTimeout z s) :=
  nextWf_upd h (fun _ h1 => wf_ite (wf_zoneLostNow h1) h1)

theorem Panel.wf_heatPending (h : p.wf) {z t dwellDown dwellUp} : (p.heatPending z t dwellDown dwellUp).wf := h.frame

theorem nextWf_execZoneTempSample (h : s.p.wf) {z readings dwellDown dwellUp} : NextWf
    (execZoneTempSample z readings dwellDown dwellUp s) := by
  unfold execZoneTempSample
  refine nextWf_upd h (fun p1 h1 => wf_ite ?_ h1)
  extract_lets _ _ _ p2 _ _ _ p3 _ p4
  have h2 : p2.wf := h1.frame
  have h3 : p3.wf := wf_ite h2 (wf_fput h2 ..)
  have h4 : p4.wf := wf_ite (wf_reportZone h3) h3
  exact wf_ite (wf_panelTrip h3) (wf_ite (wf_zoneLostNow h4) (wf_ite (wf_zoneShutdown h3) (wf_ite h3 (wf_ite (wf_ite
      (wf_reportZone h3) h3) (wf_heatPending h3)))))

theorem Panel.wf_moveZone (h : p.wf) {z} : (p.moveZone z).wf :=
  wf_foldl (fun _ _ h1 => wf_foldl (fun _ _ h2 => wf_startMove h2) h1) h

theorem nextWf_execThrottleTokenGrant (h : s.p.wf) : NextWf (execThrottleTokenGrant s) := by
  unfold execThrottleTokenGrant
  refine nextWf_upd h (fun p1 h1 => ?_)
  extract_lets _ _ x2
  have hx2 : ∀ (z c : ℕ), (x2 z c).wf := by
    intro _ _
    unfold x2
    extract_lets _ p3 p4
    have h3 : p3.wf := h1.frame
    have h4 : p4.wf := wf_addWrap (wf_fput (wf_fput h3 ..) ..) ..
    exact wf_moveZone h4
  refine wf_ite h1 ?_
  split
  · exact hx2 ..
  · split
    · exact hx2 ..
    · exact h1

theorem nextWf_execCeilingChangeDone (h : s.p.wf) : NextWf (execCeilingChangeDone s) := by
  unfold execCeilingChangeDone
  refine nextWf_upd h (fun p1 h1 => ?_)
  split
  · exact h1
  · extract_lets p2 _ p3
    have h2 : p2.wf := wf_fput (wf_fput h1 ..) ..
    have h3 : p3.wf := h2.frame
    exact wf_foldl (fun _ _ h4 => wf_foldl (fun _ _ h5 => wf_takePoint h5) h4) h3

theorem nextWf_execPowerCapSample (h : s.p.wf) {watts below100ms} : NextWf (execPowerCapSample watts below100ms s) := by
  unfold execPowerCapSample
  refine nextWf_upd h (fun p1 h1 => wf_ite h1 ?_)
  extract_lets _ p2 _ _ _ p3 p4
  have h2 : p2.wf := wf_foldl (fun _ _ h5 => wf_fput h5 ..) h1
  have h3 : p3.wf := wf_fput h2.frame ..
  have h4 : p4.wf := wf_fput h3 ..
  refine wf_ite ?_ (wf_ite (wf_fput h3 ..) h3)
  split
  · exact h4.frame
  · exact h4

/-! ### Fabric.lean -/

theorem Panel.wf_countMark (h : p.wf) {hub k} : (p.countMark hub k).wf := wf_ite (wf_modFab h) h

theorem Panel.wf_fDeliver (h : p.wf) {hub port k} : (p.fDeliver hub port k).wf := by
  unfold Panel.fDeliver
  extract_lets p1
  have h1 : p1.wf := wf_countMark h
  exact wf_ite (wf_fDiscard h1) (wf_ite h1 (wf_modFab h1))

theorem Panel.wf_countCorrected (h : p.wf) {hub port n} : (p.countCorrected hub port n).wf := wf_modFab h

theorem nextWf_execFabricPacketReceive (h : s.p.wf) {hub port k fecOk transit corrected} : NextWf
    (execFabricPacketReceive hub port k fecOk transit corrected s) := by
  unfold execFabricPacketReceive
  refine nextWf_upd h (fun p1 h1 => wf_ite h1 ?_)
  extract_lets p2
  have h2 : p2.wf := wf_countCorrected h1
  exact wf_ite (wf_reportHubEdge (wf_addHold h2 ..)) (wf_ite (wf_reportHubEdge (wf_modFab h2)) (wf_ite (wf_fDiscard
      (wf_addHold h2 ..)) (wf_ite (wf_fDeliver h2) (wf_ite (wf_fSend h2) (wf_fDiscard h2)))))

theorem Panel.wf_niSend (h : p.wf) {hub k} : (p.niSend hub k).1.wf := by
  unfold Panel.niSend
  split
  · exact wf_modFab h
  · exact wf_fInject h

theorem Panel.wf_niAnswer (h : p.wf) {hub k opcode status data poison} :
    (p.niAnswer hub k opcode status data poison).wf := by
  unfold Panel.niAnswer
  refine wf_ite ?_ h
  extract_lets
  exact wf_ite (wf_niSend h) (wf_fUnreachable h)

theorem Panel.wf_takeArrived (h : p.wf) {hub k} : (p.takeArrived hub k).wf := wf_modFab h

theorem Panel.wf_niServe (h : p.wf) {hub k allowed len} {f : Panel → Panel} (hf : (f p).wf) :
    (p.niServe hub k allowed len f).wf := by
  unfold Panel.niServe
  refine wf_ite (wf_niAnswer h) (wf_ite (wf_reportHubEdge (wf_niAnswer h)) ?_)
  split
  · exact hf
  · exact h
  · exact wf_niAnswer h

theorem nextWf_execFabricRd (h : s.p.wf) {hub k} : NextWf (execFabricRd hub k s) := by
  unfold execFabricRd
  refine nextWf_upd h (fun p1 h1 => wf_ite h1 ?_)
  extract_lets
  exact wf_niServe (wf_takeArrived h1) (wf_niAnswer (wf_readRange (wf_takeArrived h1) ..))

theorem nextWf_execFabricWr (h : s.p.wf) {hub k} : NextWf (execFabricWr hub k s) := by
  unfold execFabricWr
  refine nextWf_upd h (fun p1 h1 => wf_ite h1 ?_)
  extract_lets
  exact wf_niServe (wf_takeArrived h1) (wf_niAnswer (wf_storePa (wf_takeArrived h1) ..))

theorem Panel.wf_pmcPost (h : p.wf) {post} : (p.pmcPost post).wf := wf_ite (wf_tokenAdd h ..) h

theorem nextWf_execFpost (h : s.p.wf) {hub k} : NextWf (execFpost hub k s) :=
  nextWf_upd h (fun _ h1 => wf_ite h1 (wf_niServe (wf_takeArrived h1) (wf_niAnswer (wf_pmcPost (wf_takeArrived h1)))))

theorem Panel.wf_setRates (h : p.wf) {hub mirror m} : (p.setRates hub mirror m).wf := wf_modFab h

theorem Panel.wf_echoed (h : p.wf) {hub mirror k} : (p.echoed hub mirror k).wf := by
  unfold Panel.echoed
  refine wf_ite h ?_
  extract_lets
  split
  · exact wf_ite h (wf_setRates h)
  · dsimp -zeta only
    exact wf_ite (wf_draw h ..) (wf_setRates (wf_draw h ..))

theorem nextWf_execSillageRecover (h : s.p.wf) {limiter coord} : NextWf (execSillageRecover limiter coord s) := by
  unfold execSillageRecover
  refine nextWf_upd h (fun p1 h1 => ?_)
  extract_lets
  split
  · exact h1
  · extract_lets
    exact wf_setRates h1

theorem nextWf_execFqProducerWrite (h : s.p.wf) {hub q v} : NextWf (execFqProducerWrite hub q v s) :=
  nextWf_upd h (fun _ h1 => wf_ite (wf_store h1 ..) h1)

theorem nextWf_execFqPoll (h : s.p.wf) {hub q} : NextWf (execFqPoll hub q s) := by
  unfold execFqPoll
  refine nextWf_upd h (fun p1 h1 => ?_)
  extract_lets
  refine wf_ite ?_ h1
  split
  rename_i p2 e2
  have h2 : p2.wf := wf_snd_snd e2 (wf_readRange h1 ..)
  exact wf_modFab h2

theorem Panel.wf_fqAdvance (h : p.wf) {hub q n} : (fqAdvance hub q n p).wf := by
  induction n generalizing p with
  | zero => exact h
  | succ n ih => exact wf_ite (ih (wf_fput (wf_modFab h) ..)) h

theorem Panel.wf_fqEnd (h : p.wf) {hub q index status localPost} : (p.fqEnd hub q index status localPost).wf := by
  unfold Panel.fqEnd
  extract_lets _ p1 p2 p3 p4
  have h1 : p1.wf := wf_ite (wf_storePa h ..) h
  have h2 : p2.wf := by
    unfold p2
    split
    · exact wf_pmcPost h1
    · exact h1
  have h3 : p3.wf := wf_ite h2 (wf_fput h2 ..)
  have h4 : p4.wf := wf_modFab h3
  exact wf_fqAdvance h4

theorem Panel.wf_fqRequest (h : p.wf) {hub c opcode addr len data poison post} :
    (p.fqRequest hub c opcode addr len data poison post).1.wf := by
  unfold Panel.fqRequest
  extract_lets
  dsimp -zeta only
  split
  · exact wf_modFab (wf_niSend h)
  · exact h

theorem Panel.wf_fqSend (h : p.wf) {hub c ps} : (p.fqSend hub c ps).1.wf := by
  unfold Panel.fqSend
  refine wf_foldl_fst (fun p1 b a h1 => ?_) h
  split
  · exact h1
  · split
    · exact wf_fqRequest h1
    · exact wf_fqRequest (wf_readRange h1 ..)

theorem Panel.wf_fqStart (h : p.wf) {hub q cmd ops} : (p.fqStart hub q cmd ops).wf := by
  unfold Panel.fqStart
  extract_lets
  refine wf_ite h ?_
  split
  rename_i p1 e1
  have h1 : p1.wf := wf_snd_snd e1 (wf_readRange h ..)
  refine wf_ite h1 ?_
  extract_lets p2
  have h2 : p2.wf := wf_modFab h1
  refine wf_ite (wf_fqEnd h2) ?_
  split
  extract_lets _ p3
  have h3 : p3.wf := wf_modFab h2
  split
  rename_i p4 _ e4
  have h4 : p4.wf := wf_fst e4 (wf_fqSend h3)
  exact wf_ite h4 (wf_fqEnd h4)

theorem nextWf_execFabricGet (h : s.p.wf) {hub q cmd} : NextWf (execFabricGet hub q cmd s) :=
  nextWf_upd h (fun _ h1 => wf_fqStart h1)

theorem nextWf_execFabricPut (h : s.p.wf) {hub q cmd} : NextWf (execFabricPut hub q cmd s) :=
  nextWf_upd h (fun _ h1 => wf_fqStart h1)

theorem nextWf_execFabricPutPost (h : s.p.wf) {hub q cmd} : NextWf (execFabricPutPost hub q cmd s) :=
  nextWf_upd h (fun _ h1 => wf_fqStart h1)

theorem Panel.wf_fqDone (h : p.wf) {hub w c} : (p.fqDone hub w c).wf := by
  unfold Panel.fqDone
  extract_lets p1 _ p2
  have h1 : p1.wf := wf_modFab h
  have h2 : p2.wf := wf_modFab h1
  exact wf_ite (wf_modFab h1) (wf_ite (wf_ite (wf_fqRequest h2) (wf_fqEnd (wf_fqRequest h2))) (wf_fqEnd h1))

theorem Panel.wf_countLate (h : p.wf) {hub} : (p.countLate hub).wf := wf_modFab h

theorem nextWf_execFabricRdData (h : s.p.wf) {hub k} : NextWf (execFabricRdData hub k s) := by
  unfold execFabricRdData
  refine nextWf_upd h (fun p1 h1 => ?_)
  extract_lets p2
  have h2 : p2.wf := wf_echoed (wf_takeArrived h1)
  split
  · exact wf_countLate h2
  · extract_lets
    exact wf_ite (wf_fqDone (wf_storePa h2 ..)) (wf_fqEnd h2)

theorem nextWf_execFabricWrAck (h : s.p.wf) {hub k} : NextWf (execFabricWrAck hub k s) := by
  unfold execFabricWrAck
  refine nextWf_upd h (fun p1 h1 => ?_)
  extract_lets p2
  have h2 : p2.wf := wf_echoed (wf_takeArrived h1)
  split
  · exact wf_countLate h2
  · exact wf_fqDone h2

theorem nextWf_execFabricNak (h : s.p.wf) {hub k} : NextWf (execFabricNak hub k s) := by
  unfold execFabricNak
  refine nextWf_upd h (fun p1 h1 => ?_)
  extract_lets p2
  have h2 : p2.wf := wf_echoed (wf_takeArrived h1)
  split
  · exact wf_countLate h2
  · exact wf_fqEnd h2

theorem Panel.wf_mirrorTimeout (h : p.wf) {x} : (p.mirrorTimeout x).wf := wf_reportHubEdge h.frame

theorem nextWf_execFabricRequestTimeout (h : s.p.wf) {hub tag} : NextWf (execFabricRequestTimeout hub tag s) := by
  unfold execFabricRequestTimeout
  refine nextWf_upd h (fun p1 h1 => ?_)
  split
  · split
    · exact wf_mirrorTimeout h1
    · exact h1
  · refine wf_ite (wf_reportHubEdge (wf_fqEnd h1)) ?_
    extract_lets _ _ p2
    have h2 : p2.wf := wf_modFab h1
    exact wf_niSend h2

theorem Panel.wf_removePort (h : p.wf) {hub k} : (p.removePort hub k).wf := wf_foldl (fun _ _ h1 => wf_fput h1 ..) h

theorem Panel.wf_restorePort (h : p.wf) {hub k} : (p.restorePort hub k).wf := by
  unfold Panel.restorePort
  extract_lets
  refine wf_foldl (fun p1 a h1 => ?_) h
  extract_lets
  exact wf_ite h1 (wf_fput h1 ..)

theorem Panel.wf_clearQueue (h : p.wf) {hub key} : (p.clearQueue hub key).wf := wf_modFab h

theorem Panel.wf_dropQueue (h : p.wf) {hub i} : (p.dropQueue hub i).1.wf := wf_addHold (wf_clearQueue h) ..

theorem Panel.wf_recalibrate (h : p.wf) : p.recalibrate.wf := wf_foldl (fun _ _ h1 => wf_calibrate h1) h

theorem Panel.wf_swapEntries (h : p.wf) {z f} : (p.swapEntries z f).wf := by
  unfold Panel.swapEntries
  refine wf_foldl (fun p1 a h1 => ?_) h
  extract_lets _ p2
  have h2 : p2.wf := wf_modFab (wf_fput h1 ..)
  exact wf_fput h2 ..

theorem Panel.wf_startDetach (h : p.wf) {hub} : (p.startDetach hub).wf :=
  wf_modFab (wf_foldl (fun _ _ h3 => wf_emit h3 ..) (wf_fput h ..))

theorem Panel.wf_endDetach (h : p.wf) {hub} : (p.endDetach hub).wf :=
  wf_fput (wf_modFab (wf_foldl (fun _ _ h3 => wf_ite h3 (wf_fput (wf_fput h3 ..) ..)) h)) ..

theorem Panel.wf_checkDetach (h : p.wf) {hub} : (p.checkDetach hub).wf := wf_ite (wf_endDetach h) h

theorem Panel.wf_nextSwap (h : p.wf) {z l} : (nextSwap z l p).wf := by
  induction l generalizing p with
  | nil =>
    unfold nextSwap
    extract_lets p1 p2 p3
    have h1 : p1.wf := wf_swapEntries h
    have h2 : p2.wf := wf_foldl (fun _ _ hq => wf_fput hq ..) h1
    have h3 : p3.wf := wf_recalibrate h2
    exact wf_foldl (fun _ _ hq => wf_ite (wf_startDetach hq) hq) h3
  | cons k l ih =>
    unfold nextSwap
    split
    exact wf_ite (wf_modFab (wf_fput h ..)) (ih (wf_modFab (wf_swapEntries h)))

theorem Panel.wf_portSwapped (h : p.wf) {hub i} : (p.portSwapped hub i).wf := by
  unfold Panel.portSwapped
  extract_lets _ _ p1 p2 _ p3
  have h1 : p1.wf := wf_swapEntries h
  have h2 : p2.wf := wf_ite (wf_fput h1 ..) h1
  have h3 : p3.wf := wf_modFab h2
  exact wf_nextSwap (wf_fRelease (wf_fRelease h3))

theorem Panel.wf_routeApply (h : p.wf) {hub} : (p.routeApply hub).wf :=
  wf_ite h (wf_nextSwap (wf_modFab (wf_foldl (fun _ _ h2 => wf_fput (wf_fput h2 ..) ..) h)))

theorem nextWf_execRouteApply (h : s.p.wf) {hub} : NextWf (execRouteApply hub s) :=
  nextWf_upd h (fun _ h1 => wf_ite (wf_routeApply h1) h1)

theorem Panel.wf_routeError (h : p.wf) {hub} : (p.routeError hub).wf := wf_foldl (fun _ _ h1 => wf_fput h1 ..) h

theorem nextWf_execPortQueueEmpty (h : s.p.wf) {hub port} : NextWf (execPortQueueEmpty hub port s) :=
  nextWf_upd h (fun _ h1 => wf_ite (wf_portSwapped (wf_fFlush h1)) h1)

theorem nextWf_execPortDrainTimeout (h : s.p.wf) {hub port} : NextWf (execPortDrainTimeout hub port s) := by
  unfold execPortDrainTimeout
  refine nextWf_upd h (fun p1 h1 => wf_ite ?_ h1)
  dsimp -zeta only
  extract_lets p2
  have h2 : p2.wf := wf_ite (wf_dropQueue h1) (wf_reportHubEdge (wf_routeError (wf_dropQueue h1)))
  exact wf_portSwapped h2

theorem Panel.wf_detachHub (h : p.wf) {hub} : (p.detachHub hub).wf :=
  wf_ite h (wf_ite (wf_modFab h) (wf_checkDetach (wf_startDetach h)))

theorem nextWf_execHjfDetach (h : s.p.wf) {hub} : NextWf (execHjfDetach hub s) :=
  nextWf_upd h (fun _ h1 => wf_ite (wf_detachHub h1) h1)

theorem nextWf_execDetach (h : s.p.wf) {hub port} : NextWf (execDetach hub port s) := by
  unfold execDetach
  refine nextWf_upd h (fun p1 h1 => wf_ite ?_ h1)
  extract_lets p2
  have h2 : p2.wf := wf_fFlush (wf_removePort h1)
  exact wf_emit h2 ..

theorem nextWf_execDetachAck (h : s.p.wf) {hub port} : NextWf (execDetachAck hub port s) :=
  nextWf_upd h (fun _ h1 => wf_ite (wf_checkDetach (wf_modFab h1)) h1)

theorem nextWf_execDetachTimeout (h : s.p.wf) {hub} : NextWf (execDetachTimeout hub s) := by
  unfold execDetachTimeout
  refine nextWf_upd h (fun p1 h1 => wf_ite ?_ h1)
  dsimp -zeta only
  extract_lets _ p2 p3
  have h2 : p2.wf := wf_clearQueue (wf_clearQueue (wf_foldl_fst (fun _ _ _ h4 => wf_dropQueue h4) h1))
  have h3 : p3.wf := wf_ite h2 (wf_reportHubEdge h2)
  exact wf_endDetach h3

theorem Panel.wf_portLost (h : p.wf) {hub i} : (p.portLost hub i).wf := by
  unfold Panel.portLost
  extract_lets _ _ p1 p2 p3 p4 p5 _ p6 p7 p8
  have h1 : p1.wf := wf_linkFresh (wf_clearQueue (wf_removePort h))
  have h2 : p2.wf := wf_fput h1 ..
  have h3 : p3.wf := wf_fput h2 ..
  have h4 : p4.wf := wf_fput h3 ..
  have h5 : p5.wf := wf_reportHubEdge h4
  have h6 : p6.wf := wf_foldl (fun _ _ h9 => wf_extAbort h9) h5
  have h7 : p7.wf := wf_ite (wf_portSwapped (wf_reportHubEdge (wf_ite h6 (wf_routeError h6)))) h6
  have h8 : p8.wf := wf_checkDetach (wf_modFab h7)
  exact wf_ite h (wf_recalibrate h8)

theorem nextWf_execFabricPortDown (h : s.p.wf) {hub port} : NextWf (execFabricPortDown hub port s) :=
  nextWf_upd h (fun _ h1 => wf_ite (wf_portLost h1) h1)

theorem Panel.wf_portRaised (h : p.wf) {hub i width nb nport} : (p.portRaised hub i width nb nport).wf := by
  unfold Panel.portRaised
  extract_lets _ p1 p2 p3 p4 p5
  have h1 : p1.wf := wf_fput h ..
  have h2 : p2.wf := wf_fput h1 ..
  have h3 : p3.wf := wf_fput h2 ..
  have h4 : p4.wf := wf_fput h3 ..
  have h5 : p5.wf := wf_fput h4 ..
  exact wf_ite (wf_restorePort h5) h5

theorem Panel.wf_trainPort (h : p.wf) {hub i nb x} : (p.trainPort hub i nb x).wf := by
  unfold Panel.trainPort
  extract_lets p1
  have h1 : p1.wf := wf_ite h (wf_reportHubEdge h)
  exact wf_ite h1 (wf_portRaised h1)

theorem nextWf_execLaneDegraded (h : s.p.wf) {hub port lanesOk} : NextWf (execLaneDegraded hub port lanesOk s) := by
  unfold execLaneDegraded
  refine nextWf_upd h (fun p1 h1 => wf_ite h1 ?_)
  extract_lets _ _ p2
  have h2 : p2.wf := wf_reportHubEdge (wf_portLost h1)
  exact wf_ite h2 (wf_portRaised h2)

theorem nextWf_execFabricPortUp (h : s.p.wf) {hub port neighbour nport} : NextWf
    (execFabricPortUp hub port neighbour nport s) :=
  nextWf_upd h (fun _ h1 => wf_ite (wf_trainPort h1) h1)

theorem nextWf_execFrefLoss (h : s.p.wf) {hub} : NextWf (execFrefLoss hub s) :=
  nextWf_upd h (fun _ h1 => wf_ite (wf_foldl (fun _ _ h2 => wf_portLost h2) h1) h1)

/-! ### Hbm.lean -/

theorem Panel.wf_loadTable (h : p.wf) {ws} : (p.loadTable ws).wf := by
  unfold Panel.loadTable
  extract_lets _ _ p1 x2
  have h1 : p1.wf := wf_loadRanges h.frame
  have hx2 : x2.1.wf := by
    refine wf_foldl_fst (fun p3 b a h3 => ?_) h1
    dsimp -zeta only
    split
    · exact wf_fput (wf_put h3 ..) ..
    · exact wf_fput (wf_put h3 ..) ..
  exact wf_fput (wf_fput hx2 ..) ..

theorem Panel.wf_mapControl (h : p.wf) {v} : (p.mapControl v).wf := by
  unfold Panel.mapControl
  refine wf_ite h ?_
  extract_lets _ _ p1
  have h1 : p1.wf := wf_fput h ..
  refine wf_ite h1 (wf_fput ?_ ..)
  exact h1.frameSt

theorem nextWf_execHbmMapApply (h : s.p.wf) {src v} : NextWf (execHbmMapApply src v s) :=
  nextWf_upd h (fun _ h1 => wf_asWriter h1 (wf_mapControl h1))

theorem nextWf_execHbmMapLoadDone (h : s.p.wf) : NextWf (execHbmMapLoadDone s) := by
  unfold execHbmMapLoadDone
  refine nextWf_upd h (fun p1 h1 => ?_)
  split
  · exact wf_loadTable h1
  · exact h1

theorem Panel.wf_writeTable (h : p.wf) {ws} : (p.writeTable ws).wf := wf_foldl (fun _ _ h1 => wf_put h1 ..) h

theorem Panel.wf_applyHeld (h : p.wf) : p.applyHeld.wf := by
  unfold Panel.applyHeld
  split
  · extract_lets
    exact wf_ite (wf_fput (wf_fput (wf_loadTable (wf_writeTable h)) ..) ..) (wf_fput (wf_fput (wf_loadTable
        (wf_writeTable h)) ..) ..)
  · exact wf_fput (wf_fput (wf_loadTable (wf_writeTable h)) ..) ..

theorem nextWf_execHbmRefresh (h : s.p.wf) {stack} : NextWf (execHbmRefresh stack s) :=
  nextWf_upd h (fun _ h1 => wf_ite h1.frame h1)

theorem Panel.wf_mpdConfigWrite (h : p.wf) {stack v} : (p.mpdConfigWrite stack v).wf := by
  unfold Panel.mpdConfigWrite
  extract_lets _ p1
  have h1 : p1.wf := wf_ite (wf_reportNode h ..) h
  exact wf_ite h1 (wf_fput h1 ..)

theorem nextWf_execMpdRefreshModeWrite (h : s.p.wf) {stack v} : NextWf (execMpdRefreshModeWrite stack v s) :=
  nextWf_upd h (fun _ h1 => wf_ite (wf_mpdConfigWrite h1) h1)

theorem Panel.wf_patrolOne (h : p.wf) {stack} : (p.patrolOne stack).wf := by
  unfold Panel.patrolOne
  extract_lets
  split
  rename_i p1 e1
  have h1 : p1.wf := wf_snd_snd e1 (wf_readBlock h ..)
  extract_lets _ _ p2
  have h2 : p2.wf := by
    unfold p2
    exact h1.frameSt
  exact wf_ite (wf_addWrap h2 ..) h2

theorem nextWf_execHbmPatrolScrub (h : s.p.wf) {stack} : NextWf (execHbmPatrolScrub stack s) :=
  nextWf_upd h (fun _ h1 => wf_ite (wf_foldl (fun _ _ h2 => wf_patrolOne h2) h1) h1)

theorem nextWf_execHbmEcsRead (h : s.p.wf) {stack count} : NextWf (execHbmEcsRead stack count s) := by
  unfold execHbmEcsRead
  refine nextWf_upd h (fun p1 h1 => wf_ite ?_ h1)
  extract_lets p2
  have h2 : p2.wf := wf_addHold h1 ..
  exact h2.frame

theorem nextWf_execHbmTempRead (h : s.p.wf) {stack temp} : NextWf (execHbmTempRead stack temp s) := by
  unfold execHbmTempRead
  refine nextWf_upd h (fun p1 h1 => wf_ite ?_ h1)
  extract_lets _ _ _ _ _ p2 p3 p4 p5
  have h2 : p2.wf := wf_fput h1 ..
  have h3 : p3.wf := wf_ite (wf_fput h2 ..) (wf_ite (wf_fput h2 ..) h2)
  have h4 : p4.wf := wf_fput h3 ..
  have h5 : p5.wf := wf_fput h4 ..
  exact wf_ite (wf_zoneShutdown h5) h5

theorem nextWf_execStackLost (h : s.p.wf) {stack} : NextWf (execStackLost stack s) :=
  nextWf_upd h (fun _ h1 => wf_ite (wf_reportNode (wf_fput h1 ..) ..) h1)

/-! ### Stage.lean -/

theorem Panel.wf_platformEvent (h : p.wf) {sensor value} : (p.platformEvent sensor value).wf :=
  wf_ite (wf_emit h ..) h

theorem Panel.wf_setStage (h : p.wf) {n} : (p.setStage n).wf :=
  wf_ite h (wf_platformEvent (wf_bothHosts (wf_fput h ..)))

theorem Panel.wf_setServing (h : p.wf) {n} : (p.setServing n).wf := wf_ite h (wf_platformEvent (wf_fput h ..))

theorem Panel.wf_logWords (h : p.wf) {ws} : (p.logWords ws).wf :=
  wf_addWrap (wf_foldl (fun _ _ h2 => wf_put h2 ..) h) ..

theorem Panel.wf_logError (h : p.wf) {hub r level escalated replaced related count} :
    (p.logError hub r level escalated replaced related count).wf := by
  unfold Panel.logError
  dsimp -zeta only
  extract_lets p1 p2
  have h1 : p1.wf := wf_logWords h
  have h2 : p2.wf := wf_addWrap h1 ..
  exact wf_ite (wf_bothHosts h2) (wf_ite (wf_platformEvent (wf_bothHosts h2)) h2)

theorem Panel.wf_logPanel (h : p.wf) {ev cls d0} : (p.logPanel ev cls d0).wf := wf_logError h

theorem Panel.wf_showFfl (h : p.wf) : p.showFfl.wf := wf_fput (wf_fput (wf_fput h ..) ..) ..

theorem Panel.wf_writeFfl (h : p.wf) {l} : (p.writeFfl l).wf := by
  unfold Panel.writeFfl
  refine wf_ite h ?_
  extract_lets _ p1 p2
  have h1 : p1.wf := wf_ite h.frame h
  have h2 : p2.wf := wf_ite h1.frame h1
  exact wf_showFfl h2

theorem Panel.wf_addFfl (h : p.wf) {kind site sub reason} : (p.addFfl kind site sub reason).wf :=
  wf_ite (wf_writeFfl h) (wf_ite (wf_writeFfl h) h)

theorem Panel.wf_clearEngines (h : p.wf) : p.clearEngines.wf := by
  unfold Panel.clearEngines
  extract_lets p1 p2
  have h1 : p1.wf := h.frame
  have h2 : p2.wf := by
    refine wf_foldl (fun p3 a h3 => ?_) h1
    extract_lets p4
    have h4 : p4.wf := wf_resetReg (wf_setRole (wf_fput h3 ..)) ..
    exact wf_resetReg (wf_resetReg h4 ..) ..
  exact wf_bothEngines h2

theorem Panel.wf_clearMirror (h : p.wf) : p.clearMirror.wf :=
  wf_fput (wf_fput (wf_fput (wf_fput h.frame ..) ..) ..) ..

theorem Panel.wf_computeReset (h : p.wf) : p.computeReset.wf := by
  unfold Panel.computeReset
  extract_lets p1 p2 _ p3 p4 p5 p6 p7 p8 p9
  have h2 : p2.wf := wf_fput (wf_fput (wf_clearMirror (wf_clearEngines (wf_finishDraining h))) ..) ..
  clear_value p2
  have h4 : p4.wf := wf_fput h2.frameSt ..
  clear_value p4
  have h8 : p8.wf := wf_fput (wf_fput (wf_fput h4.noCores ..) ..) ..
  clear_value p8
  exact h8.frame.frame

theorem Panel.wf_modSec (h : p.wf) {hub f} : (p.modSec hub f).wf := h.frame

theorem Panel.wf_drawNonce (h : p.wf) {hub} : (p.drawNonce hub).wf := by
  unfold Panel.drawNonce
  dsimp -zeta only
  exact wf_foldl (fun _ _ h1 => wf_put (wf_drawBits h1 ..) ..) h

theorem Panel.wf_jtagSettle (h : p.wf) : p.jtagSettle.wf := h.frame

theorem Panel.wf_closeDebug (h : p.wf) {hub} : (p.closeDebug hub).wf := wf_jtagSettle (wf_fput (wf_fput h ..) ..)

theorem Panel.wf_keysBack (h : p.wf) {hub} : (p.keysBack hub).wf := by
  unfold Panel.keysBack
  split
  · exact wf_ite (wf_modSec h) h
  · exact wf_modSec h

theorem Panel.wf_secBringup (h : p.wf) {hub} : (p.secBringup hub).wf := by
  unfold Panel.secBringup
  extract_lets _ p1 p2
  have h1 : p1.wf := wf_modSec h
  have h2 : p2.wf := wf_ite (wf_fput h1 ..) h1
  exact wf_drawNonce (wf_keysBack (wf_closeDebug h2))

theorem Panel.wf_hbmRailsUp (h : p.wf) : p.hbmRailsUp.wf := wf_foldl (fun _ _ h1 => wf_setRails h1) h

theorem Panel.wf_enterStage (h : p.wf) {n} : (p.enterStage n).wf := by
  unfold Panel.enterStage
  extract_lets _ p1
  have h1 : p1.wf := h.frame
  exact wf_setStage (wf_ite (wf_hbmRailsUp h1) h1)

theorem Panel.wf_showKept (h : p.wf) : p.showKept.wf := by
  unfold Panel.showKept
  extract_lets _ p1 p2 p3 p4
  have h1 : p1.wf := wf_addHold (wf_addHold h ..) ..
  have h2 : p2.wf := wf_foldl (fun _ _ h5 => wf_fput h5 ..) h1
  have h3 : p3.wf := wf_foldl (fun _ _ h5 => wf_addHold h5 ..) h2
  have h4 : p4.wf := wf_ite (wf_foldl (fun _ _ h5 => wf_setZoneState h5) h3) h3
  exact h4.frame

theorem Panel.wf_edgeZonePower (h : p.wf) {z} : (p.edgeZonePower z).wf := by
  unfold Panel.edgeZonePower
  extract_lets _ _ p1 _ p2
  have h1 : p1.wf := wf_setRails (wf_setZoneState h)
  have h2 : p2.wf := h1.frame
  exact h2.frame

theorem Panel.wf_edgeZonesReturn (h : p.wf) : p.edgeZonesReturn.wf := by
  unfold Panel.edgeZonesReturn
  refine wf_foldl (fun p1 a h1 => ?_) h
  extract_lets p2
  have h2 : p2.wf := wf_edgeZonePower h1
  exact h2.frame

theorem Panel.wf_openGates (h : p.wf) : p.openGates.wf := h.frame

theorem Panel.wf_powerZone (h : p.wf) {z} : (p.powerZone z).wf := by
  unfold Panel.powerZone
  refine wf_ite h ?_
  extract_lets _ p1
  have h1 : p1.wf := wf_setZoneState h
  exact wf_ite (wf_setRails h1.frame) h1

theorem Panel.wf_powerZones (h : p.wf) : p.powerZones.wf := by
  unfold Panel.powerZones
  refine wf_ite h ?_
  extract_lets p1
  have h1 : p1.wf := wf_openGates (wf_foldl (fun _ _ h2 => wf_powerZone h2) h)
  exact h1.frame

theorem Panel.wf_beginBringup (h : p.wf) {n} : (p.beginBringup n).wf := by
  unfold Panel.beginBringup
  extract_lets p1 p2 _ p3 p4 p5 p6 _ p7 p8
  have h1 : p1.wf := wf_dropLease (wf_setServing (wf_computeReset h))
  have h2 : p2.wf := wf_secBringup (wf_secBringup h1)
  have h3 : p3.wf := h2.frame
  have h4 : p4.wf := wf_fput (wf_showKept h3) ..
  have h5 : p5.wf := wf_fput (wf_fput h4 ..) ..
  have h6 : p6.wf := wf_foldl (fun _ _ h9 => wf_setCeiling h9) h5
  have h7 : p7.wf := h6.frame
  have h8 : p8.wf := wf_edgeZonesReturn h7
  exact wf_enterStage (wf_ite (wf_powerZones h8) h8)

theorem Panel.wf_zoneRailsDown (h : p.wf) {z} : (p.zoneRailsDown z).wf := by
  unfold Panel.zoneRailsDown
  extract_lets p1
  have h1 : p1.wf := wf_keepGates h
  exact wf_ite (wf_setRails (wf_fput (wf_setZoneState (wf_noChange h1)) ..)) h1

theorem Panel.wf_computeRailsDown (h : p.wf) : p.computeRailsDown.wf := wf_foldl (fun _ _ h1 => wf_zoneRailsDown h1) h

theorem Panel.wf_endDomain (h : p.wf) {hub} : (p.endDomain hub).wf := by
  unfold Panel.endDomain
  extract_lets p1 _ p2
  have h1 : p1.wf := by
    refine wf_foldl (fun p3 a h3 => ?_) h
    extract_lets p4 p5
    have h4 : p4.wf := wf_ite (wf_emit h3 ..) h3
    have h5 : p5.wf := wf_fput h4 ..
    exact wf_fput (wf_fput h5 ..) ..
  have h2 : p2.wf := h1.frame
  exact wf_fput h2 ..

theorem Panel.wf_goSafe (h : p.wf) {failed} : (p.goSafe failed).wf := by
  unfold Panel.goSafe
  extract_lets p1 p2 p3
  have h1 : p1.wf := wf_computeRailsDown (wf_computeReset h)
  have h2 : p2.wf := wf_fput (wf_setServing h1) ..
  have h3 : p3.wf := wf_ite (wf_foldl (fun _ _ h4 => wf_fput h4 ..) h2) (wf_foldl (fun _ _ h4 => wf_ite
      (wf_detachHub h4) h4) h2)
  exact wf_setStage h3

theorem Panel.wf_addFailed (h : p.wf) {sites cores} : (p.addFailed sites cores).wf := h.frame

theorem Panel.wf_stageRecord (h : p.wf) {n result detail words} : (p.stageRecord n result detail words).wf := by
  unfold Panel.stageRecord
  dsimp -zeta only
  extract_lets _ _ p1
  have h1 : p1.wf := wf_foldl (fun _ _ h2 => wf_put h2 ..) (wf_draw h ..)
  exact wf_logWords h1

theorem Panel.wf_failStage (h : p.wf) {n detail words} : (p.failStage n detail words).wf :=
  wf_goSafe (wf_stageRecord h)

theorem Panel.wf_endStage (h : p.wf) {n result words} : (p.endStage n result words).wf :=
  wf_enterStage (wf_stageRecord h)

theorem Panel.wf_passStage (h : p.wf) {n degraded words} : (p.passStage n degraded words).wf := wf_endStage h

/-! ### Mirror.lean -/

theorem Panel.wf_setMirSt (h : p.wf) {n} : (p.setMirSt n).wf := wf_ite h (wf_platformEvent (wf_fput h ..))

theorem Panel.wf_sendRegion (h : p.wf) {r parts} : (p.sendRegion r parts).wf := by
  unfold Panel.sendRegion
  refine wf_foldl (fun p1 a h1 => ?_) h
  extract_lets
  dsimp -zeta only
  exact wf_ite (wf_mirCopy (wf_readTagged h1 ..) ..) h1

theorem Panel.wf_sendSnapshot (h : p.wf) : p.sendSnapshot.wf := by
  unfold Panel.sendSnapshot
  extract_lets _ p1 p2 p3
  have h1 : p1.wf := wf_mirPush h
  have h2 : p2.wf := wf_sendRegion h1
  have h3 : p3.wf := wf_foldl (fun _ _ h4 => wf_sendRegion h4) h2
  split
  · exact wf_ite (wf_deltasDue h3) h3
  · exact h3

theorem Panel.wf_partnerDone (h : p.wf) : p.partnerDone.wf :=
  wf_foldl (fun _ _ h2 => wf_fput (wf_modStep h2) ..) h.frame

theorem Panel.wf_tryPair (h : p.wf) {x} : (p.tryPair x).wf := by
  unfold Panel.tryPair
  extract_lets p1 _ p2 p3 p4
  have h1 : p1.wf := wf_mirPush h
  have h2 : p2.wf := wf_fput h1 ..
  have h3 : p3.wf := wf_fput h2 ..
  have h4 : p4.wf := wf_setMirSt (wf_partnerDone h3)
  exact wf_ite (wf_logPanel (wf_setMirSt h2)) (wf_sendSnapshot h4.frame)

theorem nextWf_execPairingAttempt (h : s.p.wf) {x} : NextWf (execPairingAttempt x s) :=
  nextWf_upd h (fun _ h1 => wf_ite (wf_tryPair h1) h1)

theorem Panel.wf_dropArrived (h : p.wf) {k} : (p.dropArrived k).wf := wf_foldl (fun _ _ h1 => wf_takeArrived h1) h

theorem Panel.wf_mirrorAnswer (h : p.wf) {k val} : (p.mirrorAnswer k val).wf := wf_ite (wf_fStart h) h

theorem Panel.wf_mirTick (h : p.wf) : p.mirTick.wf := by
  unfold Panel.mirTick
  split
  · exact h
  · extract_lets _ _ _ _ _ p1 p2
    have h1 : p1.wf := h.frame
    have h2 : p2.wf := wf_modFab h1
    exact wf_ite h (wf_fStart (wf_emit h2 ..))

theorem nextWf_execMirrorWr (h : s.p.wf) {k region} : NextWf (execMirrorWr k region s) := by
  unfold execMirrorWr
  refine nextWf_upd h (fun p1 h1 => ?_)
  extract_lets p2
  have h2 : p2.wf := wf_dropArrived h1
  split
  · exact wf_ite (wf_mirrorAnswer (wf_writeTagged h2 ..)) h2
  · exact h2

theorem Panel.wf_applyDelta (h : p.wf) {n recs} : (p.applyDelta n recs).wf := by
  unfold Panel.applyDelta
  split
  · exact h
  · extract_lets
    exact h.frame

theorem nextWf_execMirrorDelta (h : s.p.wf) {k n recs} : NextWf (execMirrorDelta k n recs s) := by
  unfold execMirrorDelta
  refine nextWf_upd h (fun p1 h1 => ?_)
  extract_lets p2
  have h2 : p2.wf := wf_dropArrived h1
  exact wf_ite h2 (wf_ite (wf_mirrorAnswer h2) (wf_ite (wf_mirrorAnswer (wf_applyDelta h2)) h2))

theorem Panel.wf_copyAcked (h : p.wf) : p.copyAcked.wf := wf_sendDeltas h.frame

theorem Panel.wf_deltasAcked (h : p.wf) {n} : (p.deltasAcked n).wf := by
  unfold Panel.deltasAcked
  extract_lets _ p1 p2
  have h1 : p1.wf := h.frame
  have h2 : p2.wf := wf_fput h1 ..
  split
  · exact wf_ite (wf_fput (wf_modStep h2) ..) h2
  · unfold p2
    exact wf_fput h1 ..

theorem nextWf_execMirrorAck (h : s.p.wf) {k step} : NextWf (execMirrorAck k step s) := by
  unfold execMirrorAck
  refine nextWf_upd h (fun p1 h1 => ?_)
  extract_lets p2 _ p3
  have h2 : p2.wf := wf_echoed (wf_dropArrived h1)
  have h3 : p3.wf := h2.frame
  refine wf_ite h2 (wf_ite (wf_countLate h2) ?_)
  split
  · exact wf_copyAcked h3
  · exact wf_ite (wf_deltasAcked h3) h3

theorem Panel.wf_partnerSilent (h : p.wf) : p.partnerSilent.wf := by
  have h1 : ((p.logPanel 0x0604 clsInfo).setMirSt mirUnpaired).wf := wf_setMirSt (wf_logPanel h)
  refine wf_ite (wf_app ?_) (wf_partnerDone h1)
  split
  · exact wf_fput (wf_fput h1.frame ..) ..
  · exact wf_fput h1.frame ..

theorem Panel.wf_endRequests (h : p.wf) : p.endRequests.wf := by
  unfold Panel.endRequests
  split
  · exact h
  · dsimp -zeta only
    extract_lets _ p1
    have h1 : p1.wf := wf_showEngine (wf_deliver (wf_setEng h))
    exact h1.frame

theorem Panel.wf_afterDry (h : p.wf) : p.afterDry.wf := by
  unfold Panel.afterDry
  extract_lets p1
  have h1 : p1.wf := wf_setServing h
  refine wf_ite h1 ?_
  split
  · exact wf_beginBringup h1
  · exact wf_beginBringup h1
  · exact h1

theorem Panel.wf_dryFail (h : p.wf) : p.dryFail.wf := wf_afterDry (wf_logPanel (wf_endRequests h.frame))

theorem Panel.wf_sendHandoff (h : p.wf) {hub ret cs} : (p.sendHandoff hub ret cs).wf := by
  unfold Panel.sendHandoff
  extract_lets p1 p2
  have h1 : p1.wf := wf_mirPush h
  have h2 : p2.wf := wf_addHold h1 ..
  exact h2.frame

theorem Panel.wf_handoffOut (h : p.wf) : p.handoffOut.wf := by
  unfold Panel.handoffOut
  split
  · refine wf_ite h ?_
    extract_lets
    split
    rename_i p1 _ e1
    have h1 : p1.wf := wf_fst e1 (wf_tryRecord h)
    refine wf_ite h1 ?_
    extract_lets p2 _ p3 _ p4 p5 p6
    have h2 : p2.wf := wf_showEngine (wf_journalInput (wf_actInput h1))
    have h3 : p3.wf := h2.frame
    have h4 : p4.wf := h3.frame
    have h5 : p5.wf := h3.frame
    have h6 : p6.wf := wf_showEngine (wf_modEng h5)
    exact wf_ite (wf_modEng h4) (wf_afterDry (wf_setMirSt h6))
  · exact h

theorem Panel.wf_releaseCommits (h : p.wf) : p.releaseCommits.wf := wf_ite (wf_partnerDone (wf_fput h ..)) h

theorem Panel.wf_mirConfigured (h : p.wf) {was} : (p.mirConfigured was).wf := by
  unfold Panel.mirConfigured
  extract_lets _ p1
  have h1 : p1.wf := wf_ite (wf_releaseCommits h) h
  exact wf_ite (wf_setMirSt h1) (wf_ite (wf_setMirSt (wf_partnerDone h1)) h1)

theorem Panel.wf_dryAdvance (h : p.wf) : p.dryAdvance.wf := by
  unfold Panel.dryAdvance
  refine wf_ite h (wf_ite (wf_dryFail h) (wf_ite (wf_handoffOut h) ?_))
  split
  · exact wf_dryFail h
  · split
    · exact wf_ite (wf_sendHandoff h) (wf_dryFail h)
    · refine wf_ite (wf_ite (wf_sendHandoff h) h) ?_
      extract_lets p1
      have h1 : p1.wf := wf_releaseCommits h
      split
      · exact wf_ite (wf_dryFail (wf_commitStep h1)) h1
      · exact wf_dryFail h1

theorem Panel.wf_freeze (h : p.wf) {hub} : (p.freeze hub).wf := by
  unfold Panel.freeze
  extract_lets p1
  have h1 : p1.wf := wf_modEng h
  split
  · exact h1
  · exact wf_ite (wf_commitStep h1) (wf_showEngine (wf_fput (wf_modEng h1) ..))

theorem Panel.wf_dryBegin (h : p.wf) : p.dryBegin.wf := by
  unfold Panel.dryBegin
  refine wf_ite h (wf_ite ?_ (wf_ite (wf_dryAdvance h) (wf_ite (wf_afterDry h) (wf_ite (wf_dryFail h) h))))
  extract_lets p1 p2
  have h1 : p1.wf := wf_setServing h
  have h2 : p2.wf := wf_foldl (fun _ _ h3 => wf_ite (wf_freeze h3) h3) h1
  exact wf_dryAdvance h2

theorem Panel.wf_startDry (h : p.wf) {after} : (p.startDry after).wf := wf_dryBegin h.frame

theorem Panel.wf_adopt (h : p.wf) {src ctxs} : (p.adopt src ctxs).wf := h.frame

theorem Panel.wf_takeHandoff (h : p.wf) {src step seq d ret cs} : (p.takeHandoff src step seq d ret cs).wf := by
  unfold Panel.takeHandoff
  split
  · exact h
  · extract_lets
    refine wf_ite h ?_
    split
    rename_i p1 _ e1
    have h1 : p1.wf := wf_fst e1 (wf_tryRecord h)
    refine wf_ite h1 ?_
    extract_lets p2 p3
    have h2 : p2.wf := wf_addHold (wf_adopt h1) ..
    have h3 : p3.wf := wf_mirPush h2
    exact wf_ite h3 (wf_setMirSt (wf_partnerDone h3))

theorem Panel.wf_returnAdvance (h : p.wf) : p.returnAdvance.wf := by
  unfold Panel.returnAdvance
  split
  · exact h
  · exact wf_ite h (wf_ite h.frame (wf_sendHandoff (wf_modEng h)))

theorem Panel.wf_handoffAcked (h : p.wf) : p.handoffAcked.wf := by
  unfold Panel.handoffAcked
  split
  · exact wf_handoffOut h.frame
  · exact h

theorem nextWf_execHandoffAck (h : s.p.wf) {_count} : NextWf (execHandoffAck _count s) :=
  nextWf_upd h (fun _ h1 => wf_handoffAcked h1)

theorem nextWf_execMirrorAckTimeout (h : s.p.wf) : NextWf (execMirrorAckTimeout s) :=
  nextWf_upd h (fun _ h1 => wf_ite (wf_dryAdvance (wf_partnerSilent h1)) h1)

theorem nextWf_execHandoffAckTimeout (h : s.p.wf) : NextWf (execHandoffAckTimeout s) := by
  unfold execHandoffAckTimeout
  refine nextWf_upd h (fun p1 h1 => ?_)
  split
  · exact wf_dryAdvance h1.frame
  · extract_lets _ p2
    have h2 : p2.wf := h1.frame
    split
    · exact wf_modEng h2
    · exact h2
  · exact h1

theorem nextWf_execReturnRetry (h : s.p.wf) : NextWf (execReturnRetry s) :=
  nextWf_upd h (fun _ h1 => wf_returnAdvance h1)

theorem Panel.wf_repairBytes (h : p.wf) {r off} : (p.repairBytes r off).2.wf := by
  unfold Panel.repairBytes
  split
  · split
    · exact wf_readTagged h ..
    · exact h
  · exact h

theorem Panel.wf_repairDone (h : p.wf) {r off d} : (p.repairDone r off d).wf := by
  unfold Panel.repairDone
  split
  · exact h
  · refine wf_ite h ?_
    extract_lets _ p1
    have h1 : p1.wf := h.frame
    split
    · exact wf_ite (wf_addHold (wf_writeTagged h1 ..) ..) h1
    · exact h1

theorem nextWf_execMirrorCtrl (h : s.p.wf) {m} : NextWf (execMirrorCtrl m s) := by
  unfold execMirrorCtrl
  refine nextWf_upd h (fun p1 h1 => ?_)
  split
  · exact wf_takeHandoff h1
  · exact wf_handoffAcked h1
  · exact wf_ite (wf_returnAdvance h1.frame) h1
  · refine wf_ite ?_ h1
    extract_lets
    exact h1.frame
  · exact wf_ite (wf_mirPush h1) h1
  · exact wf_ite (wf_mirPush (wf_repairBytes h1)) h1
  · exact wf_repairDone h1

theorem nextWf_execMirrorSyncDone (h : s.p.wf) : NextWf (execMirrorSyncDone s) := by
  unfold execMirrorSyncDone
  refine nextWf_upd h (fun p1 h1 => wf_ite ?_ h1)
  extract_lets p2
  have h2 : p2.wf := wf_setMirSt h1
  exact wf_ite (wf_returnAdvance h2.frame) h2

theorem nextWf_execStepCommit (h : s.p.wf) {hub} : NextWf (execStepCommit hub s) :=
  nextWf_upd h (fun _ h1 => wf_onStep h1 (fun _ => wf_returnAdvance (wf_dryAdvance (wf_commitStep h1))))

theorem Panel.wf_askRepairs (h : p.wf) : p.askRepairs.wf := by
  unfold Panel.askRepairs
  extract_lets _ _ p1
  have h1 : p1.wf := h.frame
  refine wf_ite h1 (wf_foldl (fun p2 a h2 => ?_) h1)
  split
  · refine wf_ite ?_ h2
    extract_lets p3
    have h3 : p3.wf := wf_mirPush h2
    exact h3.frame
  · exact h2

theorem nextWf_execStepStart (h : s.p.wf) {hub} : NextWf (execStepStart hub s) := by
  unfold execStepStart
  refine nextWf_upd h (fun p1 h1 => wf_onStep h1 (fun r => wf_ite h1 (wf_ite (wf_startStep h1.frame) ?_)))
  extract_lets p2
  have h2 : p2.wf := wf_askRepairs h1
  exact wf_ite (wf_startStep h2) h2

theorem Panel.wf_streamStored (h : p.wf) {v} : (p.streamStored v).wf := wf_handoffOut (wf_ilogStream h)

theorem nextWf_execRqeIlogStreamWrite (h : s.p.wf) {hub src v} : NextWf (execRqeIlogStreamWrite hub src v s) :=
  nextWf_upd h (fun _ h1 => wf_ite h1 (wf_ite (wf_streamStored h1) (wf_asWriter h1 (wf_streamStored h1))))

theorem Panel.wf_restartHubs (h : p.wf) : p.restartHubs.wf := by
  unfold Panel.restartHubs
  extract_lets p1
  have h1 : p1.wf := wf_linkReset (wf_linkReset (wf_foldl (fun _ _ h2 => wf_detachHub h2) h))
  exact h1.frame

theorem Panel.wf_serviceDrydown (h : p.wf) : p.serviceDrydown.wf := by
  unfold Panel.serviceDrydown
  extract_lets _ p1
  have h1 : p1.wf := wf_fput h ..
  exact wf_ite (wf_startDry h1) h1

theorem Panel.wf_serviceReturn (h : p.wf) : p.serviceReturn.wf := by
  unfold Panel.serviceReturn
  extract_lets _ p1
  have h1 : p1.wf := wf_fput h ..
  exact wf_ite (wf_mirPush h1) h1

theorem Panel.wf_serviceRestart (h : p.wf) : p.serviceRestart.wf := by
  unfold Panel.serviceRestart
  extract_lets _ _ p1
  have h1 : p1.wf := wf_fput h ..
  exact wf_ite (wf_ite (wf_beginBringup (wf_restartHubs h1)) (wf_beginBringup h1)) h1

theorem Panel.wf_serviceControl (h : p.wf) {v} : (p.serviceControl v).wf := by
  unfold Panel.serviceControl
  extract_lets p1 p2 p3
  have h1 : p1.wf := wf_store h ..
  have h2 : p2.wf := wf_ite (wf_serviceDrydown h1) h1
  have h3 : p3.wf := wf_ite (wf_serviceReturn h2) h2
  exact wf_ite (wf_serviceRestart h3) h3

theorem nextWf_execServiceDrydown (h : s.p.wf) {src} : NextWf (execServiceDrydown src s) :=
  nextWf_upd h (fun _ h1 => wf_asManager h1 (wf_serviceDrydown h1))

theorem nextWf_execServiceReturn (h : s.p.wf) {src} : NextWf (execServiceReturn src s) :=
  nextWf_upd h (fun _ h1 => wf_asWriter h1 (wf_serviceReturn h1))

theorem nextWf_execServiceRestart (h : s.p.wf) {src v} : NextWf (execServiceRestart src v s) :=
  nextWf_upd h (fun _ h1 => wf_asWriter h1 (wf_serviceRestart (wf_store h1 ..)))

/-! ### Flacon.lean -/

theorem Panel.wf_loadWindow (h : p.wf) {x w hits} : (p.loadWindow x w hits).wf := by
  unfold Panel.loadWindow
  extract_lets _ p1
  have h1 : p1.wf := wf_foldl (fun _ _ h2 => wf_foldl (fun _ _ h3 => wf_ite (wf_put h3 ..) h3) h2) h
  refine wf_foldl (fun p2 a h2 => ?_) h1
  split
  · exact wf_put h2 ..
  · exact h2

theorem Panel.wf_loadHub (h : p.wf) {x hub} : (p.loadHub x hub).wf := wf_loadWindow h

theorem Panel.wf_loadDie (h : p.wf) {x d site} : (p.loadDie x d site).wf := wf_loadWindow h

theorem Panel.wf_loadStack (h : p.wf) {x s' site} : (p.loadStack x s' site).wf := wf_fput (wf_loadWindow h) ..

theorem Panel.wf_showDeviceId (h : p.wf) {hub} : (p.showDeviceId hub).wf := wf_foldl (fun _ _ h1 => wf_put h1 ..) h

theorem Panel.wf_bootHub (h : p.wf) {hub x} : (p.bootHub hub x).wf := by
  unfold Panel.bootHub
  dsimp -zeta only
  extract_lets p1
  have h1 : p1.wf := wf_modSec (wf_drawBits h ..)
  exact h1.frame

theorem Panel.wf_loadFfl (h : p.wf) : p.loadFfl.wf := by
  unfold Panel.loadFfl
  extract_lets _ _ p1 p2
  have h1 : p1.wf := wf_ite h.frame h
  have h2 : p2.wf := wf_ite h1.frame h1
  exact wf_ite (wf_showFfl h) (wf_showFfl h2)

/-! ### Shape.lean -/

theorem Panel.wf_setPick (h : p.wf) {k} : (p.setPick k).wf := h.frame

theorem Panel.wf_clearUnits (h : p.wf) : p.clearUnits.wf := ⟨smSorted_filter h.1 _, h.2⟩

theorem Panel.wf_showSpares (h : p.wf) {d} : (p.showSpares d).wf := wf_fput (wf_fput h ..) ..

theorem Panel.wf_setCoreGates (h : p.wf) {site l} : (p.setCoreGates site l).wf := h.frame

theorem Panel.wf_nameDie (h : p.wf) {x d} : (p.nameDie x d).wf := by
  unfold Panel.nameDie
  extract_lets _ p1 p2 p3 _ p4 p5
  have h1 : p1.wf := wf_loadDie h
  have h2 : p2.wf := wf_put h1 ..
  have h3 : p3.wf := wf_showSpares h2
  have h4 : p4.wf := wf_foldl (fun _ _ h6 => wf_put h6 ..) h3
  have h5 : p5.wf := wf_setCoreGates h4
  exact wf_foldl (fun _ _ h6 => wf_fput (wf_fput h6 ..) ..) h5

theorem Panel.wf_applyShape (h : p.wf) {x} : (p.applyShape x).wf := by
  unfold Panel.applyShape
  extract_lets _ _ p1 _ p2 p3 p4 _ p5 p6 p7 p8 _ _ _ p9 p10
  have h1 : p1.wf := wf_clearUnits h
  have h2 : p2.wf := by
    unfold p2
    exact ⟨h1.1, rfl, rfl⟩
  have h3 : p3.wf := by
    refine wf_foldl (fun p11 a h11 => ?_) h2
    split
    · extract_lets
      exact wf_put h11 ..
    · exact wf_put h11 ..
  have h4 : p4.wf := wf_foldl (fun _ _ h11 => wf_put h11 ..) h3
  have h5 : p5.wf := wf_fput h4 ..
  have h6 : p6.wf := wf_fput (wf_fput h5 ..) ..
  have h7 : p7.wf := wf_addHold (wf_fput h6 ..) ..
  have h8 : p8.wf := wf_fput h7 ..
  have h9 : p9.wf := h8.frame
  have h10 : p10.wf := wf_foldl (fun _ _ h11 => wf_nameDie h11) h9
  exact wf_markUndef h10 ..

theorem Panel.wf_nameStacks (h : p.wf) {x sites} : (p.nameStacks x sites).wf := by
  unfold Panel.nameStacks
  extract_lets p1 p2
  have h1 : p1.wf := by
    refine wf_foldl (fun p3 a h3 => ?_) h
    extract_lets
    exact wf_put h3 ..
  have h2 : p2.wf := wf_fput h1 ..
  refine wf_foldl (fun p3 a h3 => ?_) h2
  split
  extract_lets p4 _ p5 p6 p7
  have h4 : p4.wf := wf_loadStack h3
  have h5 : p5.wf := wf_put h4 ..
  have h6 : p6.wf := wf_put h5 ..
  have h7 : p7.wf := wf_fput (wf_fput h6 ..) ..
  split
  rename_i p8 e8
  have h8 : p8.wf := wf_snd e8 (wf_draw h7 ..)
  extract_lets _ p9
  have h9 : p9.wf := by
    unfold p9
    exact h8.frameSt
  exact wf_zeroStack (wf_fput h9 ..) ..

/-! ### Maceration.lean -/

theorem Panel.wf_showRun (h : p.wf) {stack r} : (p.showRun stack r).wf :=
  wf_fput (wf_fput (wf_fput (wf_fput (wf_fput h ..) ..) ..) ..) ..

theorem Panel.wf_setRun (h : p.wf) {stack site r} : (p.setRun stack site r).wf := wf_showRun h.frame

theorem Panel.wf_tpeControl (h : p.wf) {stack v src} : (p.tpeControl stack v src).wf := by
  unfold Panel.tpeControl
  extract_lets p1
  have h1 : p1.wf := wf_fput h ..
  split
  · exact h1
  · exact wf_ite (wf_setRun h1) h1

theorem nextWf_execTpeStart (h : s.p.wf) {stack v src} : NextWf (execTpeStart stack v src s) :=
  nextWf_upd h (fun _ h1 => wf_ite (wf_asWriter h1 (wf_tpeControl h1)) h1)

theorem nextWf_execTpeRunDone (h : s.p.wf) {stack pass lastElement rows repairLeft} : NextWf
    (execTpeRunDone stack pass lastElement rows repairLeft s) := by
  unfold execTpeRunDone
  refine nextWf_upd h (fun p1 h1 => ?_)
  split
  · exact h1
  · split
    · exact h1
    · refine wf_ite h1 (wf_ite (wf_zeroStack (wf_setRun h1) ..) ?_)
      extract_lets _ p2
      have h2 : p2.wf := wf_setRun h1
      exact h2.frame

theorem Panel.wf_tpeAdvance (h : p.wf) {stack} : (p.tpeAdvance stack).wf := by
  unfold Panel.tpeAdvance
  split
  · exact h
  · split
    · exact h
    · refine wf_ite h ?_
      split
      · exact wf_setRun h
      · exact h

theorem Panel.wf_startRuns (h : p.wf) {x} : (p.startRuns x).wf :=
  wf_ite h (wf_foldl (fun _ _ h1 => wf_ite h1 (wf_setRun h1)) h)

theorem Panel.wf_stageRun (h : p.wf) {quick site bad} : (p.stageRun quick site bad).wf := h.frame

theorem Panel.wf_stageRuns (h : p.wf) {quick sites failed} : (p.stageRuns quick sites failed).wf := by
  unfold Panel.stageRuns
  refine wf_foldl (fun p1 a h1 => ?_) h
  split
  · exact wf_ite (wf_stageRun h1) h1
  · exact wf_stageRun h1

theorem Panel.wf_showRuns (h : p.wf) {sites} : (p.showRuns sites).wf := by
  unfold Panel.showRuns
  refine wf_foldl (fun p1 a h1 => ?_) h
  split
  · exact wf_showRun h1
  · exact h1

theorem Panel.wf_applyStacks (h : p.wf) {x sites} : (p.applyStacks x sites).wf :=
  wf_applyHeld (wf_showRuns (wf_nameStacks h))

/-! ### Bringup.lean -/

theorem nextWf_whenStage (h : s.p.wf) {n} {f : Panel → Panel} (hf : ∀ p, p.wf → (f p).wf) :
    NextWf (whenStage n s f) := nextWf_upd h fun _ h => wf_ite (hf _ h) h

theorem Panel.wf_edgeRailsUp (h : p.wf) : p.edgeRailsUp.wf := wf_edgeZonePower (wf_edgeZonePower h)

theorem nextWf_execStage0 (h : s.p.wf) : NextWf (execStage0 s) := by
  unfold execStage0
  refine nextWf_whenStage h (fun p1 h1 => ?_)
  extract_lets p2
  have h2 : p2.wf := wf_edgeRailsUp h1
  exact wf_ite h2 (wf_passStage h2)

theorem Panel.wf_showFlacon (h : p.wf) : p.showFlacon.wf := by
  unfold Panel.showFlacon
  split
  · extract_lets p1 p2
    have h1 : p1.wf := wf_fput h ..
    have h2 : p2.wf := wf_fput h1 ..
    exact wf_put (wf_fput h2 ..) ..
  · exact h

theorem Panel.wf_secRestart (h : p.wf) {hub} : (p.secRestart hub).wf :=
  wf_drawNonce (wf_showDeviceId (wf_closeDebug h.frame))

theorem Panel.wf_readNvm (h : p.wf) {hub found} : (p.readNvm hub found).wf := wf_setNvm h

theorem nextWf_execStage1 (h : s.p.wf) {a0 b0 selfOk} : NextWf (execStage1 a0 b0 selfOk s) := by
  unfold execStage1
  refine nextWf_whenStage h (fun p1 h1 => wf_ite h1 ?_)
  extract_lets _ _ _ _ _ _ p2 p3 p4 p5 p6 p7 _ _ p8 _ x _ _ p9
  clear_value x
  have h2 : p2.wf := wf_ite (wf_readNvm h1) h1
  have h3 : p3.wf := wf_ite (wf_readNvm h2) h2
  have h4 : p4.wf := wf_foldl (fun _ _ h10 => wf_endDomain h10) h3
  have h5 : p5.wf := wf_secRestart (wf_secRestart h4)
  have h6 : p6.wf := wf_ite (wf_reportHubEdge h5) h5
  have h7 : p7.wf := wf_ite (wf_reportHubEdge h6) h6
  have h8 : p8.wf := wf_fput (wf_fput h7 ..) ..
  have h9 : p9.wf := h8.frame
  split
  · exact wf_failStage h9
  · extract_lets p10 p11 p12
    have h10 : p10.wf := wf_loadHub h9
    have h11 : p11.wf := wf_ite (wf_bootHub h10) h10
    have h12 : p12.wf := wf_ite (wf_bootHub h11) h11
    exact wf_passStage (wf_showFlacon (wf_loadFfl h12))

theorem Panel.wf_repairFuses (h : p.wf) : p.repairFuses.wf := by
  unfold Panel.repairFuses
  refine wf_ite ?_ h
  extract_lets _ p1 p2
  have h1 : p1.wf := wf_ite h (wf_reportHubEdge h)
  have h2 : p2.wf := wf_ite h1 (wf_reportHubEdge h1)
  exact h2.frame

theorem nextWf_execStage2 (h : s.p.wf) {i} : NextWf (execStage2 i s) := by
  unfold execStage2
  refine nextWf_whenStage h (fun p1 h1 => ?_)
  extract_lets _ _ p2 p3 _ p4
  have h2 : p2.wf := wf_repairFuses h1
  have h3 : p3.wf := wf_foldl (fun _ _ h5 => wf_fput h5 ..) h2
  have h4 : p4.wf := h3.frame
  exact wf_ite (wf_passStage h4) (wf_failStage h4)

theorem Panel.wf_converge (h : p.wf) {retested} : (p.converge retested).wf := by
  unfold Panel.converge
  extract_lets pick
  clear_value pick
  split
  · exact h
  · extract_lets _ _ _ _ p1 p2 _ _ _ _ p3 p4
    have h1 : p1.wf := h.frame
    have h2 : p2.wf := wf_foldl (fun _ _ h5 => wf_bootHub h5) h1
    have h3 : p3.wf := h2.frame
    have h4 : p4.wf := wf_stageRecord h3
    exact wf_ite (wf_showFlacon h2) (wf_showFlacon (wf_loadHub h4))

theorem Panel.wf_oneZone (h : p.wf) : p.oneZone.wf := wf_showFlacon h.frame

theorem nextWf_execStage3 (h : s.p.wf) {i} : NextWf (execStage3 i s) := by
  unfold execStage3
  refine nextWf_whenStage h (fun p1 h1 => ?_)
  extract_lets p2 _ _ p3 p4 _ p5 p6
  have h2 : p2.wf := wf_powerZones h1
  have h3 : p3.wf := h2.frame
  have h4 : p4.wf := wf_ite (wf_converge h3) (wf_oneZone h3)
  have h5 : p5.wf := h4.frame
  have h6 : p6.wf := wf_installRoutes h5
  exact wf_ite (wf_failStage h6) (wf_passStage h6)

theorem Panel.wf_restart4 (h : p.wf) : p.restart4.wf :=
  wf_ite (wf_failStage h) (wf_enterStage (wf_computeReset (wf_fput h ..)))

theorem Panel.wf_closePairs (h : p.wf) {x} : (p.closePairs x).wf := wf_keepGates h

theorem nextWf_execStage4 (h : s.p.wf) {i} : NextWf (execStage4 i s) := by
  unfold execStage4
  refine nextWf_whenStage h (fun p1 h1 => ?_)
  extract_lets _ p2
  have h2 : p2.wf := h1.frame
  split
  · exact h2
  · extract_lets
    refine wf_ite (wf_failStage h2) ?_
    split
    · exact wf_failStage h2
    · extract_lets p3
      have h3 : p3.wf := wf_closePairs (wf_setPick h2)
      exact wf_passStage h3

theorem Panel.wf_dropZones (h : p.wf) : p.dropZones.wf := by
  unfold Panel.dropZones
  extract_lets p1 _ _ p2
  have h1 : p1.wf := wf_foldl (fun _ _ h3 => wf_zoneRailsDown h3) h
  have h2 : p2.wf := wf_keepGates h1
  exact h2.frame

theorem nextWf_execStage5 (h : s.p.wf) {i} : NextWf (execStage5 i s) := by
  unfold execStage5
  refine nextWf_whenStage h (fun p1 h1 => ?_)
  split
  · exact h1
  · extract_lets _ _ _ _ _ _ _ p2
    have h2 : p2.wf := h1.frame
    split
    · exact wf_failStage h2
    · extract_lets p3
      have h3 : p3.wf := wf_installRoutes (wf_dropZones (wf_applyShape (wf_setPick h2)))
      exact wf_startRuns (wf_endStage h3)

theorem nextWf_execStage6 (h : s.p.wf) {i} : NextWf (execStage6 i s) := by
  unfold execStage6
  refine nextWf_whenStage h (fun p1 h1 => ?_)
  split
  · exact h1
  · extract_lets _ _ p2 _ _ p3
    have h2 : p2.wf := wf_stageRuns (wf_hbmRailsUp h1)
    have h3 : p3.wf := h2.frame
    exact wf_ite (wf_failStage h3) (wf_endStage (wf_installRoutes (wf_applyStacks h3)))

theorem Panel.wf_promote (h : p.wf) {c} : (p.promote c).wf := by
  unfold Panel.promote
  extract_lets _ _ _ _ p1 _ p2 p3
  have h1 : p1.wf := wf_stopIsland h
  have h2 : p2.wf := h1.frame
  have h3 : p3.wf := wf_showSpares h2
  exact wf_ite (wf_fput (wf_fput h3 ..) ..) (wf_takePoint h3)

theorem Panel.wf_atomize (h : p.wf) {x dies cores} : (p.atomize x dies cores).wf :=
  wf_foldl (fun _ _ h1 => wf_multicast h1) h

theorem Panel.wf_checkedCore (h : p.wf) {x c} : (p.checkedCore x c).wf := by
  unfold Panel.checkedCore
  extract_lets p1 _ _ p2 p3
  have h1 : p1.wf := wf_startCore h
  have h2 : p2.wf := wf_writeTagged h1 ..
  have h3 : p3.wf := wf_fput h2 ..
  dsimp -zeta only
  extract_lets p4
  have h4 : p4.wf := wf_modCore (wf_draw h3 ..) ..
  exact wf_fput (wf_fput h4 ..) ..

theorem Panel.wf_loadCores (h : p.wf) {x} : (p.loadCores x).wf :=
  wf_foldl (fun _ _ h1 => wf_checkedCore h1) (wf_atomize h)

theorem Panel.wf_mendCore (h : p.wf) {x i c dead n} : (p.mendCore x i c dead n).1.wf := by
  unfold Panel.mendCore
  extract_lets _ _ _ p1 p2
  have h1 : p1.wf := wf_addFailed h
  have h2 : p2.wf := wf_checkedCore (wf_atomize (wf_promote h1))
  split
  · exact h1
  · split
    · exact wf_addFailed h2
    · exact h2

theorem nextWf_execStage7 (h : s.p.wf) {i} : NextWf (execStage7 i s) := by
  unfold execStage7
  refine nextWf_whenStage h (fun p1 h1 => ?_)
  split
  · exact h1
  · extract_lets p2
    have h2 : p2.wf := wf_loadCores h1
    dsimp -zeta only
    extract_lets _ p3
    have h3 : p3.wf := wf_addFailed (wf_foldl_fst (fun _ _ _ h4 => wf_mendCore h4) h2)
    exact wf_ite (wf_passStage (wf_foldl_fst (fun _ _ _ h4 => wf_mendCore h4) h2)) (wf_restart4 (wf_stageRecord h3))

theorem Panel.wf_clearServices (h : p.wf) : p.clearServices.wf := ⟨smSorted_filter h.1 _, h.2⟩

theorem Panel.wf_raiseIslands (h : p.wf) : p.raiseIslands.wf := wf_foldl (fun _ _ h1 => wf_takePoint h1) h

theorem Panel.wf_baseline (h : p.wf) {node n code} : (p.baseline node n code).wf := by
  unfold Panel.baseline
  refine wf_ite ?_ (wf_fput h ..)
  extract_lets p1 p2
  have h1 : p1.wf := wf_fput h ..
  have h2 : p2.wf := wf_takePoint (wf_fput h1 ..)
  dsimp -zeta only
  exact wf_fput (wf_draw h2 ..) ..

theorem Panel.wf_calibrated (h : p.wf) : p.calibrated.wf := by
  unfold Panel.calibrated
  extract_lets _ p1 p2
  have h1 : p1.wf := h.frame
  have h2 : p2.wf := wf_installRoutes (wf_clearServices (wf_raiseIslands h1))
  exact h2.frame

theorem nextWf_execStage8 (h : s.p.wf) {i} : NextWf (execStage8 i s) := by
  unfold execStage8
  refine nextWf_whenStage h (fun p1 h1 => wf_ite (wf_failStage h1) ?_)
  extract_lets p2 _ p3
  have h2 : p2.wf := wf_calibrated h1
  have h3 : p3.wf := wf_foldl (fun _ _ h4 => wf_baseline h4) h2
  exact wf_passStage h3

theorem Panel.wf_guestOn (h : p.wf) {g e w} : (p.guestOn g e w).wf := by
  unfold Panel.guestOn
  extract_lets _ _ _ p1 p2 p3 p4 p5
  have h1 : p1.wf := wf_setGuest (wf_clearGuestRegs h)
  have h2 : p2.wf := wf_fput (wf_fput h1 ..) ..
  have h3 : p3.wf := wf_fput (wf_fput h2 ..) ..
  have h4 : p4.wf := wf_fput h3 ..
  have h5 : p5.wf := wf_fput h4 ..
  exact wf_foldl (fun _ _ h6 => wf_put (wf_put h6 ..) ..) h5

theorem Panel.wf_admitGuest (h : p.wf) {x who g} : (p.admitGuest x who g).wf := by
  unfold Panel.admitGuest
  extract_lets
  refine wf_ite (wf_guestOff h) ?_
  dsimp -zeta only
  extract_lets p1 r p2
  clear_value r
  have h1 : p1.wf := wf_ite (wf_emit (wf_drawBits h ..) ..) (wf_drawBits h ..)
  have h2 : p2.wf := wf_guestOff h1
  split
  · exact wf_guestOn h1
  · exact wf_sendReport h2 ..

theorem Panel.wf_openDomain (h : p.wf) {hub ports} : (p.openDomain hub ports).wf := by
  unfold Panel.openDomain
  extract_lets p1
  have h1 : p1.wf := wf_fput h ..
  exact wf_ite h1 (wf_foldl (fun _ _ h2 => wf_ite h2 (wf_trainPort h2)) h1)

theorem Panel.wf_openService (h : p.wf) : p.openService.wf :=
  wf_setServing (wf_setStage (wf_bothEngines (wf_nextEpoch h.frame)))

theorem nextWf_execStage9 (h : s.p.wf) {i} : NextWf (execStage9 i s) := by
  unfold execStage9
  refine nextWf_whenStage h (fun p1 h1 => ?_)
  split
  · exact h1
  · extract_lets p2 _ p3 p4 _ _ _ _ p5
    have h2 : p2.wf := wf_foldl (fun _ _ h6 => wf_openDomain h6) h1
    have h3 : p3.wf := wf_ite (wf_setMirSt h2) h2
    have h4 : p4.wf := wf_foldl (fun _ _ h6 => wf_admitGuest h6) h3
    have h5 : p5.wf := wf_openService (wf_stageRecord h4)
    exact wf_ite (wf_tryPair h5) h5

theorem nextWf_execStageBoundExpire (h : s.p.wf) : NextWf (execStageBoundExpire s) :=
  nextWf_upd h (fun _ h1 => wf_ite (wf_failStage h1) h1)

theorem Panel.wf_reuseStage (h : p.wf) {n} : (p.reuseStage n).wf := wf_stageRecord h

theorem Panel.wf_restoreSpares (h : p.wf) {x b} : (p.restoreSpares x b).wf :=
  wf_foldl (fun _ _ h2 => wf_nameDie h2) h.frame

theorem Panel.wf_restoreClocks {old} (h : p.wf) : (p.restoreClocks old).wf := by
  unfold Panel.restoreClocks
  refine wf_foldl (fun p1 a h1 => ?_) h
  extract_lets p2 p3
  have h2 : p2.wf := wf_fput h1 ..
  have h3 : p3.wf := wf_fput h2 ..
  exact wf_takePoint (wf_fput h3 ..)

theorem Panel.wf_reapply (h : p.wf) {n} : (p.reapply n).wf := by
  unfold Panel.reapply
  extract_lets p1 p2
  have h1 : p1.wf := h
  have h2 : p2.wf := wf_ite (wf_powerZones h) h
  split
  · exact h2
  · extract_lets p3 p4 p5 p6 p7
    have h3 : p3.wf := wf_ite (wf_closePairs h2) h2
    have h4 : p4.wf := wf_ite (wf_installRoutes (wf_dropZones (wf_applyShape h3))) h3
    have h5 : p5.wf := wf_ite (wf_restoreSpares h4) h4
    have h6 : p6.wf := wf_ite (wf_installRoutes (wf_applyStacks (wf_hbmRailsUp h5))) h5
    have h7 : p7.wf := wf_ite (wf_loadCores h6) h6
    exact wf_ite (wf_restoreClocks (wf_calibrated h7)) h7

theorem Panel.wf_retryFrom (h : p.wf) {n} : (p.retryFrom n).wf := by
  unfold Panel.retryFrom
  extract_lets p1 _ _ _ _ _ _ p2 p3 p4
  have h1 : p1.wf := wf_fput (wf_fput h ..) ..
  have h2 : p2.wf := h1.frame
  have h3 : p3.wf := wf_ite (wf_restartHubs h2) h2
  have h4 : p4.wf := wf_reapply (wf_foldl (fun _ _ h5 => wf_reuseStage h5) h3)
  split
  · exact wf_startRuns (wf_enterStage h4)
  · exact wf_enterStage h4

theorem Panel.wf_fflRemove (h : p.wf) {k} : (p.fflRemove k).wf := wf_ite (wf_writeFfl (wf_fput h ..)) (wf_fput h ..)

theorem Panel.wf_bringupControl (h : p.wf) {v} : (p.bringupControl v).wf := by
  unfold Panel.bringupControl
  extract_lets p1 p2
  have h1 : p1.wf := wf_store h ..
  have h2 : p2.wf := wf_ite (wf_fflRemove h1) h1
  exact wf_ite (wf_ite (wf_retryFrom h2) (wf_fput h2 ..)) h2

theorem nextWf_execBringupRetry (h : s.p.wf) {src v} : NextWf (execBringupRetry src v s) :=
  nextWf_upd h (fun _ h1 => wf_asManager h1 (wf_bringupControl h1))

theorem nextWf_execFflClear (h : s.p.wf) {src v} : NextWf (execFflClear src v s) :=
  nextWf_upd h (fun _ h1 => wf_asManager h1 (wf_bringupControl h1))

/-! ### Power.lean -/

theorem Panel.wf_railsLost : p.railsLost.wf := ⟨rfl, rfl, rfl⟩

theorem nextWf_execPowerApplied (h : s.p.wf) : NextWf (execPowerApplied s) := by
  unfold execPowerApplied
  refine nextWf_upd h (fun p1 h1 => wf_ite h1 ?_)
  extract_lets _ p2
  have h2 : p2.wf := h1.frame
  exact wf_ite h2 (wf_beginBringup h2)

theorem nextWf_execInputUnderVoltage (h : s.p.wf) : NextWf (execInputUnderVoltage s) :=
  nextWf_upd h (fun _ h1 => wf_ite wf_railsLost h1)

theorem nextWf_execInputOverVoltage (h : s.p.wf) : NextWf (execInputOverVoltage s) := by
  unfold execInputOverVoltage
  refine nextWf_upd h (fun p1 h1 => wf_ite ?_ h1)
  extract_lets p2
  have h2 : p2.wf := wf_railsLost
  exact h2.frame

theorem nextWf_execPowerRemoved (h : s.p.wf) : NextWf (execPowerRemoved s) := by
  unfold execPowerRemoved
  refine nextWf_upd h (fun p1 h1 => ?_)
  extract_lets p2
  have h2 : p2.wf := wf_railsLost
  exact h2.frame

theorem nextWf_execBrownOutSustained (h : s.p.wf) : NextWf (execBrownOutSustained s) := by
  unfold execBrownOutSustained
  refine nextWf_upd h (fun p1 h1 => wf_ite ?_ h1)
  extract_lets _ p2
  have h2 : p2.wf := h1.frame
  exact wf_startDry (wf_logPanel h2)

theorem nextWf_execBrownOutRailsOff (h : s.p.wf) : NextWf (execBrownOutRailsOff s) := by
  unfold execBrownOutRailsOff
  refine nextWf_upd h (fun p1 h1 => wf_ite ?_ h1)
  extract_lets p2 _ p3
  have h2 : p2.wf := wf_ite (wf_dryFail h1) h1
  have h3 : p3.wf := h2.frame
  exact wf_goSafe h3

theorem Panel.wf_hubsReset {p : Panel} : p.hubsReset.wf := by
  unfold Panel.hubsReset
  extract_lets p1 _ _ p2
  have h1 : p1.wf := wf_railsLost
  have h2 : p2.wf := by
    unfold p2
    exact h1.frameSt
  exact h2.frame

theorem nextWf_execPanelResetAssert (h : s.p.wf) {widthNs} : NextWf (execPanelResetAssert widthNs s) :=
  nextWf_upd h (fun _ h1 => wf_ite h1 (wf_hubsReset))

theorem nextWf_execPanelResetDeassert (h : s.p.wf) : NextWf (execPanelResetDeassert s) := by
  unfold execPanelResetDeassert
  refine nextWf_upd h (fun p1 h1 => wf_ite ?_ h1)
  extract_lets _ p2
  have h2 : p2.wf := h1.frame
  exact wf_ite (wf_beginBringup h2) h2

/-! ### System.lean -/

theorem nextWf_execCsrr (h : s.p.wf) {c f} : NextWf (execCsrr c f s) := by
  unfold execCsrr
  refine nextWf_upd h (fun p1 h1 => wf_issue h1 ?_)
  split
  · exact trivial
  · split
    · exact trivial
    · exact wf_setS (wf_coreRead h1) ..

theorem Panel.wf_csrOp (h : p.wf) {c f value} : (p.csrOp c f value).wf := by
  unfold Panel.csrOp
  refine wf_issue h ?_
  split
  · exact trivial
  · split
    · exact trivial
    · dsimp -zeta only
      extract_lets
      split
      · exact trivial
      · split
        · exact trivial
        · exact wf_coreWrite (wf_coreRead h)

theorem nextWf_execCsrw (h : s.p.wf) {c f} : NextWf (execCsrw c f s) := nextWf_upd h (fun _ h1 => wf_csrOp h1)

theorem nextWf_execCsrs (h : s.p.wf) {c f} : NextWf (execCsrs c f s) := nextWf_upd h (fun _ h1 => wf_csrOp h1)

theorem nextWf_execCsrc (h : s.p.wf) {c f} : NextWf (execCsrc c f s) := nextWf_upd h (fun _ h1 => wf_csrOp h1)

theorem nextWf_execTrap (h : s.p.wf) {c f} : NextWf (execTrap c f s) := nextWf_upd h (fun _ h1 => wf_issue h1 trivial)

theorem nextWf_execRett (h : s.p.wf) {c rsvd} : NextWf (execRett c rsvd s) := by
  unfold execRett
  refine nextWf_upd h (fun p1 h1 => wf_issue h1 ?_)
  split
  · exact trivial
  · exact trivial

theorem nextWf_execHalt (h : s.p.wf) {c rsvd} : NextWf (execHalt c rsvd s) := by
  unfold execHalt
  refine nextWf_upd h (fun p1 h1 => wf_issue h1 ?_)
  split
  · exact trivial
  · exact trivial

theorem nextWf_execAsyncTrapDelivery (h : s.p.wf) {c} : NextWf (execAsyncTrapDelivery c s) := by
  unfold execAsyncTrapDelivery
  refine nextWf_upd h (fun p1 h1 => ?_)
  extract_lets
  refine wf_ite ?_ h1
  split
  · exact h1
  · extract_lets _ p2 p3
    have h2 : p2.wf := wf_fput h1 ..
    have h3 : p3.wf := wf_modCore h2 ..
    exact wf_enterTrap h3 ..

/-! ### Faults.lean -/

theorem Panel.wf_modMgr (h : p.wf) {hub f} : (p.modMgr hub f).wf := h.frame

theorem Panel.wf_setHandling (h : p.wf) {hub hub2} : (p.setHandling hub hub2).wf := wf_modMgr h

theorem Panel.wf_settle (h : p.wf) {hub} : (p.settle hub).wf := by
  unfold Panel.settle
  split
  · split
    · extract_lets
      exact wf_ite h (wf_setHandling h)
    · exact h
  · exact h

theorem Panel.wf_endAction (h : p.wf) {hub hub2} : (p.endAction hub hub2).wf := wf_setHandling h

theorem Panel.wf_askRetry (h : p.wf) : p.askRetry.wf := by
  unfold Panel.askRetry
  split
  · exact wf_retryStep h
  · exact h

theorem Panel.wf_failUnit (h : p.wf) {r} : (p.failUnit r).wf :=
  wf_ite (wf_addFailed h) (wf_ite h.frame (wf_ite h.frame h))

theorem Panel.wf_recordUnit (h : p.wf) {r replaced} : (p.recordUnit r replaced).wf :=
  wf_ite (wf_ite (wf_addFfl h) (wf_ite (wf_addFfl h) h)) (wf_ite (wf_addFfl h) (wf_ite (wf_addFfl h) h))

theorem Panel.wf_hubLost (h : p.wf) {hub} : (p.hubLost hub).wf :=
  wf_foldl (fun _ _ h2 => wf_guestOff h2) (wf_foldl (fun _ _ h2 => wf_portLost h2) h)

theorem Panel.wf_edgeAction (h : p.wf) {r} : (p.edgeAction r).wf :=
  wf_ite (wf_rqeTakeover h) (wf_ite (wf_hubLost h) h)

theorem Panel.wf_bigAction (h : p.wf) {r level replaced} : (p.bigAction r level replaced).wf := by
  unfold Panel.bigAction
  refine wf_ite (wf_startDry (wf_recordUnit (wf_failUnit h))) (wf_ite ?_ (wf_ite (wf_startDry h) (wf_edgeAction h)))
  split
  · extract_lets _ p1
    have h1 : p1.wf := wf_ite h.frame h
    exact wf_startDry h1
  · exact h

theorem Panel.wf_stormed (h : p.wf) : p.stormed.wf := wf_startDry (wf_logPanel (wf_fput (wf_addHold h ..) ..))

theorem Panel.wf_joinQueue (h : p.wf) {hub e} : (p.joinQueue hub e).wf := wf_ite (wf_modMgr h) (wf_stormed h)

theorem Panel.wf_passUp (h : p.wf) {hub hub2} : (p.passUp hub hub2).wf := wf_joinQueue h

theorem Panel.wf_actBig (h : p.wf) {hub hub2} : (p.actBig hub hub2).wf := by
  unfold Panel.actBig
  extract_lets p1
  have h1 : p1.wf := wf_setHandling h
  exact wf_ite (wf_bigAction h1) (wf_ite (wf_passUp h1) (wf_ite h1 (wf_bigAction (wf_setHandling h1))))

theorem Panel.wf_replaceByDie (h : p.wf) {hub hub2} : (p.replaceByDie hub hub2).wf :=
  wf_actBig (wf_addWrap (wf_logError h) ..)

theorem Panel.wf_restartCluster (h : p.wf) {die cl} : (p.restartCluster die cl).wf := by
  unfold Panel.restartCluster
  extract_lets p1 _ p2 p3
  have h1 : p1.wf := wf_advanceEpoch h ..
  have h2 : p2.wf := wf_foldl (fun _ _ h4 => wf_modEng h4) h1
  have h3 : p3.wf := wf_markUndef h2 ..
  exact wf_foldl (fun _ _ h4 => wf_startCore (wf_put h4 ..)) h3

theorem Panel.wf_clusterHalted (h : p.wf) {hub} : (p.clusterHalted hub).wf := by
  unfold Panel.clusterHalted
  split
  · split
    · exact wf_ite (wf_endAction (wf_restartCluster h)) h
    · exact h
  · exact h

theorem Panel.wf_actCluster (h : p.wf) {hub hub2} : (p.actCluster hub hub2).wf := by
  unfold Panel.actCluster
  split
  · exact wf_setHandling h
  · split
    · exact wf_setHandling h
    · refine wf_ite (wf_replaceByDie h) ?_
      extract_lets p1 p2 p3
      have h1 : p1.wf := wf_askRetry h
      have h2 : p2.wf := wf_foldl (fun _ _ h4 => wf_haltReq (wf_abortQueues h4)) h1
      have h3 : p3.wf := wf_setHandling h2
      exact wf_clusterHalted h3

theorem Panel.wf_fenceCore (h : p.wf) {c r} : (p.fenceCore c r).wf := by
  unfold Panel.fenceCore
  extract_lets p1 _ p2 _ p3 _ p4 p5
  have h1 : p1.wf := wf_fput (wf_fput h ..) ..
  have h2 : p2.wf := wf_setCore h1 ..
  have h3 : p3.wf := wf_stopIsland h2
  have h4 : p4.wf := h3.frame
  have h5 : p5.wf := wf_addFfl h4
  exact wf_addFailed h5

theorem Panel.wf_actCore (h : p.wf) {hub hub2} : (p.actCore hub hub2).wf := by
  unfold Panel.actCore
  split
  · exact wf_setHandling h
  · extract_lets _ p1
    have h1 : p1.wf := wf_fenceCore (wf_askRetry h)
    exact wf_ite (wf_replaceByDie h1) (wf_setHandling h1)

theorem Panel.wf_act (h : p.wf) {hub hub2} : (p.act hub hub2).wf :=
  wf_ite (wf_actCore h) (wf_ite (wf_actCluster h) (wf_actBig h))

theorem Panel.wf_escalate (h : p.wf) {hub hub2 r} : (p.escalate hub hub2 r).wf :=
  wf_act (wf_addWrap (wf_logError h) ..)

theorem Panel.wf_unarmedReport (h : p.wf) {hub r} : (p.unarmedReport hub r).wf := by
  unfold Panel.unarmedReport
  extract_lets p1
  have h1 : p1.wf := wf_ite (wf_logError h) h
  exact wf_ite (wf_restart4 h1.frame) h1

theorem Panel.wf_enqueueReport (h : p.wf) {hub r} : (p.enqueueReport hub r).wf :=
  wf_ite (wf_addHold h ..) (wf_ite (wf_modMgr h) (wf_joinQueue h))

theorem Panel.wf_takeReport (h : p.wf) {hub r} : (p.takeReport hub r).wf := by
  unfold Panel.takeReport
  extract_lets p1 _ p2 p3
  have h1 : p1.wf := h.frame
  have h2 : p2.wf := wf_ite h1.frame h1
  have h3 : p3.wf := wf_settle h2
  refine wf_ite (wf_unarmedReport h1) ?_
  split
  · exact wf_ite (wf_escalate h3) (wf_enqueueReport h3)
  · exact wf_enqueueReport h3

theorem nextWf_execErrorReport (h : s.p.wf) {hub r} : NextWf (execErrorReport hub r s) :=
  nextWf_upd h (fun _ h1 => wf_ite (wf_takeReport h1) h1)

theorem Panel.wf_startHandling (h : p.wf) {hub e} : (p.startHandling hub e).wf := by
  unfold Panel.startHandling
  extract_lets _ _ p1
  have h1 : p1.wf := wf_logError h
  split
  · exact wf_act h
  · exact wf_ite (wf_joinQueue h) (wf_ite h1 (wf_act h1))

theorem Panel.wf_takeEntries (h : p.wf) {hub l} : (takeEntries hub l p).wf := by
  induction l generalizing p with
  | nil => exact wf_modMgr h
  | cons e l ih => exact wf_ite (wf_startHandling (wf_modMgr h)) (ih (wf_logError h))

theorem nextWf_execErrorHandlingStart (h : s.p.wf) {hub} : NextWf (execErrorHandlingStart hub s) := by
  unfold execErrorHandlingStart
  refine nextWf_upd h (fun p1 h1 => wf_ite h1 ?_)
  extract_lets p2
  have h2 : p2.wf := wf_settle h1
  exact wf_ite (wf_modMgr (wf_foldl (fun _ _ h3 => wf_logError h3) h2)) (wf_ite h2 (wf_takeEntries h2))

theorem Panel.wf_spareStarts (h : p.wf) {c} : (p.spareStarts c).wf := by
  unfold Panel.spareStarts
  extract_lets p1 p2 p3 p4
  have h1 : p1.wf := ⟨smSorted_filter h.1 _, h.2⟩
  have h3 : p3.wf := wf_markUndef (wf_setCore (wf_put (wf_promote h1) ..) ..) ..
  have h4 : p4.wf := by
    unfold p4
    split
    · exact wf_atomize h3
    · exact h3
  exact wf_startCore h4

theorem nextWf_execSpareCheckDone (h : s.p.wf) {ok} : NextWf (execSpareCheckDone ok s) := by
  unfold execSpareCheckDone
  refine nextWf_upd h (fun p1 h1 => ?_)
  split
  · exact h1
  · split
    · split
      · refine wf_ite (wf_endAction (wf_spareStarts h1)) ?_
        extract_lets _ _ p2
        have h2 : p2.wf := wf_addFfl h1
        exact wf_escalate h2
      · exact h1
    · exact h1

theorem nextWf_execClusterHaltTimeout (h : s.p.wf) : NextWf (execClusterHaltTimeout s) := by
  unfold execClusterHaltTimeout
  refine nextWf_upd h (fun p1 h1 => wf_foldl (fun p2 a h2 => ?_) h1)
  split
  · split
    · exact wf_replaceByDie h2
    · exact h2
  · exact h2

theorem nextWf_execHaltComplete (h : s.p.wf) {c} : NextWf (execHaltComplete c s) := by
  unfold execHaltComplete
  refine nextWf_upd h (fun p1 h1 => ?_)
  extract_lets _ p2 p3
  have h2 : p2.wf := wf_setCore h1 ..
  have h3 : p3.wf := wf_fput (wf_fput h2 ..) ..
  exact wf_ite (wf_foldl (fun _ _ h4 => wf_clusterHalted h4) h3) h1

theorem nextWf_execPmcWatchdogTrip (h : s.p.wf) {hub within60s} : NextWf (execPmcWatchdogTrip hub within60s s) := by
  unfold execPmcWatchdogTrip
  refine nextWf_upd h (fun p1 h1 => wf_ite h1 ?_)
  extract_lets _ p2 _ p3 _ _ p4 p5 p6 _ p7
  have h2 : p2.wf := wf_addHold h1 ..
  have h3 : p3.wf := h2.frame
  have h4 : p4.wf := wf_ite h3.frame h3
  have h5 : p5.wf := wf_reportHubEdge h4
  have h6 : p6.wf := wf_ite (wf_reportHubEdge h5) h5
  have h7 : p7.wf := wf_stageRecord h6
  exact wf_ite (wf_ite (wf_failStage h6) (wf_enterStage h7.frame)) h6

theorem nextWf_execPmcResume (h : s.p.wf) {hub} : NextWf (execPmcResume hub s) := by
  unfold execPmcResume
  refine nextWf_upd h (fun p1 h1 => ?_)
  extract_lets _ p2 _ p3
  have h2 : p2.wf := h1.frame
  have h3 : p3.wf := wf_ite h2.frame h2
  exact wf_ite (wf_dryBegin h3) (wf_handoffOut h3)

theorem nextWf_execPredictMarginCross (h : s.p.wf) {a} : NextWf (execPredictMarginCross a s) := by
  unfold execPredictMarginCross
  refine nextWf_upd h (fun p1 h1 => wf_ite h1 ?_)
  extract_lets p2 p3 p4
  have h2 : p2.wf := wf_logError h1
  have h3 : p3.wf := wf_addWrap h2 ..
  have h4 : p4.wf := wf_fput h3 ..
  exact wf_platformEvent h4

/-! ### Security.lean -/

theorem Panel.wf_modMgmt (h : p.wf) {hub f} : (p.modMgmt hub f).wf := h.frame

theorem Panel.wf_reply (h : p.wf) {hub t a} : (p.reply hub t a).wf := wf_emit (wf_ite (wf_emit h ..) h) ..

theorem Panel.wf_blow (h : p.wf) {hub f} : (p.blow hub f).wf := by
  unfold Panel.blow
  extract_lets _ _ p1
  have h1 : p1.wf := wf_ite h.frame h
  exact wf_ite h1.frame h1

theorem Panel.wf_openDebug (h : p.wf) {hub scopes window} : (p.openDebug hub scopes window).wf :=
  wf_reportPanel (wf_fput (wf_fput (wf_fput (wf_ite (wf_modSec h) h) ..) ..) ..)

theorem Panel.wf_secApply (h : p.wf) {hub} : (p.secApply hub).wf :=
  wf_ite (wf_blow h) (wf_ite (wf_blow h) (wf_ite (wf_blow h) (wf_ite (wf_blow h) (wf_openDebug h))))

theorem Panel.wf_romTest (h : p.wf) {hub} : (p.romTest hub).wf := wf_ite h (wf_fput h ..)

theorem Panel.wf_secSubmit (h : p.wf) {hub} : (p.secSubmit hub).wf := by
  unfold Panel.secSubmit
  extract_lets _ p1 p2
  have h1 : p1.wf := wf_fput h ..
  have h2 : p2.wf := wf_ite (wf_secApply h1) (wf_reportPanel h1)
  exact wf_fput (wf_drawNonce (wf_romTest h2)) ..

theorem Panel.wf_putBlock (h : p.wf) {hub block} : (p.putBlock hub block).wf :=
  wf_foldl (fun _ _ h1 => wf_put h1 ..) h

theorem Panel.wf_secCmd (h : p.wf) {hub c v} : (p.secCmd hub c v).wf := by
  unfold Panel.secCmd
  split
  · exact wf_ite (wf_asManager h (wf_secSubmit h)) h
  · split
    · extract_lets p1
      have h1 : p1.wf := wf_putBlock h
      exact wf_ite (wf_secSubmit h1) h
    · exact h

theorem nextWf_execOwnerProgram (h : s.p.wf) {hub v} : NextWf (execOwnerProgram hub v s) :=
  nextWf_upd h (fun _ h1 => wf_secCmd h1)

theorem nextWf_execOwnerRevoke (h : s.p.wf) {hub v} : NextWf (execOwnerRevoke hub v s) :=
  nextWf_upd h (fun _ h1 => wf_secCmd h1)

theorem nextWf_execFlaconFloor (h : s.p.wf) {hub v} : NextWf (execFlaconFloor hub v s) :=
  nextWf_upd h (fun _ h1 => wf_secCmd h1)

theorem nextWf_execFwFloor (h : s.p.wf) {hub v} : NextWf (execFwFloor hub v s) :=
  nextWf_upd h (fun _ h1 => wf_secCmd h1)

theorem nextWf_execDebugUnlock (h : s.p.wf) {hub v} : NextWf (execDebugUnlock hub v s) :=
  nextWf_upd h (fun _ h1 => wf_secCmd h1)

theorem nextWf_execDebugRelock (h : s.p.wf) {hub} : NextWf (execDebugRelock hub s) :=
  nextWf_upd h (fun _ h1 => wf_ite (wf_closeDebug h1) h1)

theorem nextWf_execDebugWindowExpire (h : s.p.wf) {hub} : NextWf (execDebugWindowExpire hub s) :=
  nextWf_upd h (fun _ h1 => wf_ite (wf_closeDebug h1) h1)

theorem nextWf_execEntropyFail (h : s.p.wf) {hub} : NextWf (execEntropyFail hub s) := by
  unfold execEntropyFail
  refine nextWf_upd h (fun p1 h1 => wf_ite ?_ h1)
  extract_lets p2
  have h2 : p2.wf := wf_modSec h1
  exact wf_reportHubEdge (wf_fput h2 ..)

theorem Panel.wf_guestDenied (h : p.wf) {g k} : (p.guestDenied g k).wf := by
  unfold Panel.guestDenied
  extract_lets _ _ p1 p2 p3 _ p4 p5
  have h1 : p1.wf := wf_emit h ..
  have h2 : p2.wf := wf_addHold h1 ..
  have h3 : p3.wf := wf_sendReport h2 ..
  have h4 : p4.wf := wf_unawait h3
  have h5 : p5.wf := wf_guestOff h4
  exact wf_ite h3 (wf_sendReport h5 ..)

theorem Panel.wf_guestForward (h : p.wf) {g k} : (p.guestForward g k).wf := by
  unfold Panel.guestForward
  extract_lets _ _ dst
  clear_value dst
  split
  · exact wf_toGuest h
  · exact wf_inject (wf_await h)

theorem Panel.wf_guestSend (h : p.wf) {g k} : (p.guestSend g k).wf :=
  wf_ite (wf_guestForward (wf_setGuest h)) (wf_setGuest h)

theorem Panel.wf_guestFlush (h : p.wf) {g} : (p.guestFlush g).wf :=
  wf_foldl (fun _ _ h3 => wf_guestSend h3) (wf_foldl (fun _ _ h3 => wf_toGuest h3) (wf_setGuest h))

theorem Panel.wf_guestTick (h : p.wf) {g} : (p.guestTick g).wf := by
  unfold Panel.guestTick
  refine wf_ite h ?_
  dsimp -zeta only
  extract_lets
  exact wf_guestFlush (wf_setGuest (wf_draw (wf_draw (wf_draw h ..) ..) ..))

theorem nextWf_execGuestTransaction (h : s.p.wf) {site k} : NextWf (execGuestTransaction site k s) :=
  nextWf_upd h (fun _ h1 => wf_ite h1 (wf_ite (wf_guestSend h1) (wf_guestDenied h1)))

theorem nextWf_execOeReading (h : s.p.wf) {k kind value lo hi} : NextWf (execOeReading k kind value lo hi s) :=
  nextWf_upd h (fun _ h1 => wf_ite h1 (wf_ite h1.frame (wf_sendReport h1 ..)))

theorem Panel.wf_spdm (h : p.wf) {hub t f} : (p.spdm hub t f).wf := by
  unfold Panel.spdm
  split
  · exact wf_reply h
  · exact h

theorem nextWf_execGetVersion (h : s.p.wf) {hub t} : NextWf (execGetVersion hub t s) :=
  nextWf_upd h (fun _ h1 => wf_spdm h1)

theorem nextWf_execGetCapabilities (h : s.p.wf) {hub t} : NextWf (execGetCapabilities hub t s) :=
  nextWf_upd h (fun _ h1 => wf_spdm h1)

theorem nextWf_execNegotiateAlgorithms (h : s.p.wf) {hub t} : NextWf (execNegotiateAlgorithms hub t s) :=
  nextWf_upd h (fun _ h1 => wf_spdm h1)

theorem nextWf_execGetDigests (h : s.p.wf) {hub t} : NextWf (execGetDigests hub t s) :=
  nextWf_upd h (fun _ h1 => wf_spdm h1)

theorem nextWf_execGetCertificate (h : s.p.wf) {hub t slot} : NextWf (execGetCertificate hub t slot s) :=
  nextWf_upd h (fun _ h1 => wf_spdm h1)

theorem nextWf_execChallenge (h : s.p.wf) {hub t slot nonce} : NextWf (execChallenge hub t slot nonce s) :=
  nextWf_upd h (fun _ h1 => wf_ite h1 (wf_spdm h1))

theorem nextWf_execGetMeasurements (h : s.p.wf) {hub t index nonce} : NextWf (execGetMeasurements hub t index nonce s) :=
  nextWf_upd h (fun _ h1 => wf_ite h1 (wf_spdm h1))

theorem nextWf_execDoeDiscovery (h : s.p.wf) {hub index} : NextWf (execDoeDiscovery hub index s) := by
  unfold execDoeDiscovery
  refine nextWf_upd h (fun p1 h1 => wf_ite ?_ h1)
  extract_lets
  exact wf_emit h1 ..

/-! ### Mgmt.lean -/

theorem Panel.wf_mctp (h : p.wf) {hub t a} : (p.mctp hub t a).wf := wf_ite (wf_reply h) h

theorem nextWf_execSetEndpointId (h : s.p.wf) {hub t eid} : NextWf (execSetEndpointId hub t eid s) := by
  unfold execSetEndpointId
  refine nextWf_upd h (fun p1 h1 => wf_ite ?_ h1)
  extract_lets p2
  have h2 : p2.wf := wf_ite h1 (wf_modMgmt h1)
  exact wf_mctp h2

theorem nextWf_execGetEndpointId (h : s.p.wf) {hub t} : NextWf (execGetEndpointId hub t s) :=
  nextWf_upd h (fun _ h1 => wf_mctp h1)

theorem nextWf_execGetMctpVersionSupport (h : s.p.wf) {hub t} : NextWf (execGetMctpVersionSupport hub t s) :=
  nextWf_upd h (fun _ h1 => wf_mctp h1)

theorem nextWf_execGetMessageTypeSupport (h : s.p.wf) {hub t} : NextWf (execGetMessageTypeSupport hub t s) :=
  nextWf_upd h (fun _ h1 => wf_mctp h1)

theorem nextWf_execGetVendorDefinedMessageSupport (h : s.p.wf) {hub t} : NextWf
    (execGetVendorDefinedMessageSupport hub t s) :=
  nextWf_upd h (fun _ h1 => wf_mctp h1)

theorem nextWf_execEntdaa (h : s.p.wf) {hub addr} : NextWf (execEntdaa hub addr s) :=
  nextWf_upd h (fun _ h1 => wf_ite (wf_modMgmt h1) h1)

theorem nextWf_execSetdasa (h : s.p.wf) {hub static addr} : NextWf (execSetdasa hub static addr s) :=
  nextWf_upd h (fun _ h1 => wf_ite (wf_modMgmt h1) h1)

theorem nextWf_execRstdaa (h : s.p.wf) {hub} : NextWf (execRstdaa hub s) :=
  nextWf_upd h (fun _ h1 => wf_ite (wf_modMgmt h1) h1)

theorem Panel.wf_pldm (h : p.wf) {e} {f : Panel → Panel × Answer} (hf : (f p).1.wf) : (p.pldm e f).wf :=
  wf_ite h (wf_ite (wf_reply h) (wf_reply hf))

theorem Panel.wf_pldm5 (h : p.wf) {e} {f : Nat → Panel → Panel × Answer} (hf : ∀ hub, (f hub p).1.wf) :
    (p.pldm5 e f).wf := wf_ite (wf_reply (hf _)) (wf_pldm h (hf _))

theorem Panel.wf_setUpdate (h : p.wf) {hub u} : (p.setUpdate hub u).wf := wf_modMgmt h

theorem nextWf_execRequestUpdate (h : s.p.wf) {e component} : NextWf (execRequestUpdate e component s) := by
  unfold execRequestUpdate
  refine nextWf_upd h (fun p1 h1 => wf_pldm5 h1 (fun hub => ?_))
  split
  · exact h1
  · split
    · exact h1
    · split
      · exact h1
      · exact wf_setUpdate h1

theorem Panel.wf_writeImage (h : p.wf) {component off data} : (p.writeImage component off data).wf := wf_setNvm h

theorem nextWf_execPldmType5Transfer (h : s.p.wf) {e off data} : NextWf (execPldmType5Transfer e off data s) := by
  unfold execPldmType5Transfer
  refine nextWf_upd h (fun p1 h1 => wf_pldm5 h1 (fun hub => ?_))
  split
  · exact h1
  · split
    · exact h1
    · split
      · exact h1
      · split
        · exact h1
        · extract_lets
          exact wf_setUpdate (wf_writeImage h1)

theorem nextWf_execVerifyComplete (h : s.p.wf) {e digestOk} : NextWf (execVerifyComplete e digestOk s) := by
  unfold execVerifyComplete
  refine nextWf_upd h (fun p1 h1 => wf_pldm5 h1 (fun hub => ?_))
  split
  · exact h1
  · split
    · exact wf_setUpdate h1
    · exact h1

theorem nextWf_execActivateFirmware (h : s.p.wf) {hub t} : NextWf (execActivateFirmware hub t s) := by
  unfold execActivateFirmware
  refine nextWf_upd h (fun p1 h1 => wf_pldm5 h1 (fun hub2 => ?_))
  split
  · exact h1
  · split
    · exact h1
    · extract_lets p2
      have h2 : p2.wf := wf_setUpdate h1
      split
      · dsimp -zeta only
        exact wf_beginBringup (wf_restartHubs h2)
      · exact h2

theorem Panel.wf_sensor (h : p.wf) {id live reading code} : (p.sensor id live reading code).wf :=
  wf_ite h.frame (wf_ite h (wf_platformEvent h.frame))

theorem Panel.wf_vinSensors (h : p.wf) : p.vinSensors.wf := by
  unfold Panel.vinSensors
  dsimp -zeta only
  extract_lets
  exact wf_sensor (wf_sensor (wf_draw (wf_draw h ..) ..))

theorem Panel.wf_zoneSensor (h : p.wf) {z} : (p.zoneSensor z).wf := wf_sensor h

theorem Panel.wf_stackSensor (h : p.wf) {site} : (p.stackSensor site).wf := by
  unfold Panel.stackSensor
  split
  · exact wf_sensor h
  · extract_lets
    exact wf_sensor h

theorem Panel.wf_opticalSensor (h : p.wf) {k} : (p.opticalSensor k).wf := by
  unfold Panel.opticalSensor
  split
  · exact wf_sensor h
  · exact wf_sensor h

theorem Panel.wf_marginSensor (h : p.wf) : p.marginSensor.wf := by
  unfold Panel.marginSensor
  extract_lets _ l
  clear_value l
  split
  · exact wf_sensor h
  · exact wf_sensor h

theorem Panel.wf_portSensor (h : p.wf) : p.portSensor.wf := wf_sensor h

theorem nextWf_execPldmSensorRefresh (h : s.p.wf) : NextWf (execPldmSensorRefresh s) := by
  unfold execPldmSensorRefresh
  refine nextWf_upd h (fun p1 h1 => wf_ite h1 ?_)
  extract_lets _ p2 p3 p4 p5
  have h2 : p2.wf := wf_vinSensors (wf_sensor h1)
  have h3 : p3.wf := wf_foldl (fun _ _ h6 => wf_zoneSensor h6) h2
  have h4 : p4.wf := wf_foldl (fun _ _ h6 => wf_stackSensor h6) h3
  have h5 : p5.wf := wf_foldl (fun _ _ h6 => wf_opticalSensor h6) h4
  exact wf_portSensor (wf_marginSensor h5)

theorem nextWf_execSetEventReceiver (h : s.p.wf) {e eid} : NextWf (execSetEventReceiver e eid s) :=
  nextWf_upd h (fun _ h1 => wf_pldm h1 (wf_modMgmt h1))

theorem Panel.wf_jtagEffect (h : p.wf) {hub a} : (p.jtagEffect hub a).wf := by
  unfold Panel.jtagEffect
  split
  · exact wf_emit h ..
  · exact h.frame
  · exact h.frame
  · dsimp -zeta only
    exact wf_emit (wf_drawBits h ..) ..
  · dsimp -zeta only
    exact wf_emit (wf_drawBits h ..) ..
  · exact h

theorem nextWf_execJtagInstruction (h : s.p.wf) {hub i} : NextWf (execJtagInstruction hub i s) := by
  unfold execJtagInstruction
  refine nextWf_upd h (fun p1 h1 => wf_ite h1 ?_)
  extract_lets
  exact wf_jtagEffect (wf_emit (wf_modMgmt h1) ..)

/-! ### RegAccess.lean -/

theorem Panel.wf_readFree (h : p.wf) {f v live bound} : (p.readFree f v live bound).2.wf := by
  unfold Panel.readFree
  split
  · dsimp -zeta only
    exact wf_draw h ..
  · exact h

theorem Panel.wf_regRead (h : p.wf) {w r i j} : (p.regRead w r i j).2.wf := by
  unfold Panel.regRead
  extract_lets
  split
  · exact wf_coreRead h
  · split
    · exact h
    · exact h
    · exact h
    · exact h
    · exact h
    · exact wf_readFree h
    · exact h
    · exact wf_readFree h
    · exact h
    · exact wf_readFree h
    · exact h
    · exact h
    · exact h

theorem Panel.wf_readTarget (h : p.wf) {t} {v : W64} {q : Panel} (e : p.readTarget t = some (v, q)) : q.wf := by
  unfold Panel.readTarget at e
  split at e
  · cases e
  · exact wf_snd (Option.some.inj e) h
  · exact wf_snd (Option.some.inj e) (wf_regRead h)
  · exact wf_snd (Option.some.inj e) h
  · exact wf_snd (Option.some.inj e) h

theorem Panel.wf_reportLock (h : p.wf) {w} : (p.reportLock w).wf := by
  unfold Panel.reportLock
  split
  · exact wf_sendReport h ..
  · exact wf_reportNode h ..
  · exact wf_reportNode h ..
  · exact wf_reportNode h ..

theorem Panel.wf_plainWrite (h : p.wf) {w r i j v} : (p.plainWrite w r i j v).wf :=
  wf_store (wf_ite (wf_reportLock h) h) ..

theorem Panel.wf_policyWrite (h : p.wf) {src r i mask v} : (p.policyWrite src r i mask v).wf := by
  unfold Panel.policyWrite
  extract_lets _ _ p1
  have h1 : p1.wf := wf_store h ..
  split
  · exact wf_modEng h1
  · exact h1

theorem Panel.wf_whileOff (h : p.wf) {on} {f : Panel → Panel} (hf : (f p).wf) : (p.whileOff on f).wf :=
  wf_ite h hf

theorem Panel.wf_rqeWrite (h : p.wf) {src hub r i v} : (p.rqeWrite src hub r i v).wf := by
  unfold Panel.rqeWrite
  split
  · exact wf_rqeControl h
  · exact wf_policyWrite h
  · exact wf_policyWrite h
  · exact wf_policyWrite h
  · exact wf_policyWrite h
  · exact wf_streamStored h
  · exact wf_ite (wf_fput h ..) (wf_store h ..)
  · exact wf_store h ..
  · exact wf_whileOff h (wf_store h ..)

theorem Panel.wf_mirWrite (h : p.wf) {r i v} : (p.mirWrite r i v).wf := by
  unfold Panel.mirWrite
  extract_lets
  split
  · exact wf_mirConfigured (wf_store h ..)
  · exact wf_whileOff h (wf_store h ..)

theorem Panel.wf_hjfWrite (h : p.wf) {hub r i j v} : (p.hjfWrite hub r i j v).wf := by
  unfold Panel.hjfWrite
  split
  · extract_lets
    exact wf_store h ..
  · extract_lets p1
    have h1 : p1.wf := wf_ite (wf_routeApply h) h
    exact wf_ite (wf_detachHub h1) h1
  · extract_lets
    exact wf_store h ..
  · extract_lets
    exact wf_store h ..
  · extract_lets p1
    have h1 : p1.wf := wf_store h ..
    exact wf_ite (wf_fput h1 ..) h1
  · exact wf_store h ..

theorem Panel.wf_pciWrite (h : p.wf) {src hub r i v} : (p.pciWrite src hub r i v).wf := by
  unfold Panel.pciWrite
  split
  · split
    · exact wf_leaseWrite h
    · exact h
  · exact wf_sqBaseWrite h
  · exact wf_sqTailWrite h
  · exact wf_cqBaseWrite h
  · exact wf_cqHeadWrite h
  · exact wf_whileOff h (wf_store h ..)
  · exact wf_whileOff h (wf_store h ..)
  · exact wf_store h ..

theorem Panel.wf_secWrite (h : p.wf) {src hub r i v} : (p.secWrite src hub r i v).wf := by
  unfold Panel.secWrite
  split
  · exact wf_ite (wf_secSubmit h) h
  · exact wf_ite (wf_closeDebug h) h
  · exact wf_store h ..

theorem Panel.wf_regWrite (h : p.wf) {src w r i j v} : (p.regWrite src w r i j v).wf := by
  unfold Panel.regWrite
  extract_lets _ p1 _ p2
  have h1 : p1.wf := wf_store h ..
  have h2 : p2.wf := wf_plainWrite h
  split
  · exact wf_coreWrite h
  · exact wf_rqeWrite h
  · exact wf_mirWrite h
  · exact wf_hjfWrite h
  · exact wf_pciWrite h
  · exact wf_secWrite h
  · split
    · exact wf_cmemPartWrite h
    · exact wf_rcEpochWrite h
    · exact wf_mpdConfigWrite h
    · exact wf_tpeControl h
    · exact wf_accDescWrite h
    · exact wf_clkPointWrite h
    · exact wf_ite (wf_fput h1 ..) h1
    · exact wf_ite h (wf_store h ..)
    · exact wf_mapControl h
    · exact wf_barControl h
    · exact wf_mcControl h
    · exact wf_ite (wf_fput h2 ..) h2
    · exact wf_bringupControl h
    · exact wf_serviceControl h
    · exact wf_plainWrite h

theorem Panel.wf_leaseDenied (h : p.wf) {src} : (p.leaseDenied src).wf := by
  unfold Panel.leaseDenied
  split
  · exact wf_addHold h ..
  · exact h

theorem Panel.wf_writeTarget (h : p.wf) {src t v} {q : Panel} (e : p.writeTarget src t v = some q) : q.wf := by
  unfold Panel.writeTarget at e
  split at e
  · cases e
  · cases e; exact h
  · cases e
    split
    · exact wf_regWrite h
    · exact h
    · exact wf_leaseDenied h
  · cases e; exact wf_asWriter h (wf_flushVectors (wf_modPort h))
  · cases e; exact h

theorem nextWf_execMrd (h : s.p.wf) {k} : NextWf (execMrd k s) := by
  refine nextWf_upd h fun p hp => wf_ite hp ?_
  extract_lets q
  have hq : q.wf := wf_takePacket hp
  split
  · rename_i e
    obtain ⟨_, _, e⟩ := Option.bind_eq_some_iff.1 e
    obtain ⟨_, _, e⟩ := Option.bind_eq_some_iff.1 e
    exact wf_answer (wf_readTarget hq e)
  · exact wf_answer hq

theorem nextWf_execMwr (h : s.p.wf) {k} : NextWf (execMwr k s) := by
  refine nextWf_upd h fun p hp => wf_ite hp ?_
  extract_lets q
  have hq : q.wf := wf_takePacket hp
  split
  · rename_i e
    obtain ⟨_, _, e⟩ := Option.bind_eq_some_iff.1 e
    obtain ⟨_, _, e⟩ := Option.bind_eq_some_iff.1 e
    exact wf_answer (wf_writeTarget hq e)
  · exact wf_answer hq

theorem Panel.wf_mgmtAnswer (h : p.wf) {k} : (p.mgmtAnswer k).wf := by
  refine wf_response h fun q w hq r e => ?_
  split at e
  · cases e; exact wf_endWait hq
  · cases e

theorem nextWf_execMrdData (h : s.p.wf) {k} : NextWf (execMrdData k s) := nextWf_upd h (fun _ h1 => wf_mgmtAnswer h1)

theorem nextWf_execMwrAck (h : s.p.wf) {k} : NextWf (execMwrAck k s) := nextWf_upd h (fun _ h1 => wf_mgmtAnswer h1)

theorem nextWf_execMnak (h : s.p.wf) {k} : NextWf (execMnak k s) := nextWf_upd h (fun _ h1 => wf_mgmtAnswer h1)

theorem Panel.wf_readRegs (h : p.wf) {off n} {bs : List Byte} {q : Panel} (e : p.readRegs off n = some (bs, q)) : q.wf := by
  induction n generalizing p off bs with
  | zero => cases e; exact h
  | succ n ih =>
    unfold Panel.readRegs at e
    split at e
    · cases e
    · rename_i e1
      obtain ⟨r, e2, e3⟩ := Option.map_eq_some_iff.1 e
      cases e3
      exact ih (wf_readTarget h e1) e2

theorem Panel.wf_readLost (h : p.wf) {host off} : (p.readLost host off).2.wf := by
  unfold Panel.readLost
  split
  · exact h
  · dsimp -zeta only
    exact wf_draw h ..

theorem Panel.wf_bar0Read (h : p.wf) {host off len} : (p.bar0Read host off len).wf := by
  unfold Panel.bar0Read
  refine wf_onBar h (wf_ite (wf_emit (wf_modPort h) ..) ?_)
  dsimp -zeta only
  split
  · exact wf_emit (wf_modPort (wf_readLost h)) ..
  · rename_i e
    split at e
    · cases e
    · exact wf_emit (wf_readRegs (wf_readLost h) e) ..

theorem Panel.wf_bar0Write (h : p.wf) {host off len v} : (p.bar0Write host off len v).wf :=
  wf_onBar h (wf_ite (wf_modPort h) (wf_getD (fun _ e2 => wf_writeTarget h e2) h))

theorem Panel.wf_access (h : p.wf) {a1} : (p.access a1).wf := by
  unfold Panel.access
  split
  · exact wf_bar0Read h
  · exact wf_bar0Write h
  · exact wf_bar2Read h
  · exact wf_bar2Write h

theorem nextWf_execBar0ReadTlp (h : s.p.wf) {host off len} : NextWf (execBar0ReadTlp host off len s) :=
  nextWf_upd h (fun _ h1 => wf_orHeld h1 (wf_bar0Read h1))

theorem nextWf_execBar0WriteTlp (h : s.p.wf) {host off len v} : NextWf (execBar0WriteTlp host off len v s) :=
  nextWf_upd h (fun _ h1 => wf_orHeld h1 (wf_bar0Write h1))

theorem nextWf_execRegisterWrite (h : s.p.wf) {src off v} : NextWf (execRegisterWrite src off v s) :=
  nextWf_upd h (fun _ h1 => wf_ite (wf_getD (fun _ e3 => wf_writeTarget h1 e3) h1) h1)

theorem Panel.wf_swapTables (h : p.wf) : p.swapTables.wf := by
  unfold Panel.swapTables
  extract_lets p1
  have h1 : p1.wf := wf_ite (wf_divideShares (wf_rewriteGroups (wf_writeTopo (wf_swapBanks h)))) h
  exact h1.frame

theorem nextWf_execDrainRoutersEmpty (h : s.p.wf) : NextWf (execDrainRoutersEmpty s) := by
  unfold execDrainRoutersEmpty
  refine nextWf_upd h (fun p1 h1 => wf_ite h1 ?_)
  extract_lets p2 p3
  have h2 : p2.wf := wf_finishDraining (wf_swapTables h1)
  have h3 : p3.wf := wf_foldl (fun _ _ h4 => wf_fput h4 ..) h2
  dsimp -zeta only
  extract_lets p4 p5
  have h4 : p4.wf := wf_fput (wf_draw h3 ..) ..
  have h5 : p5.wf := wf_addWrap (wf_fput h4 ..) ..
  exact wf_foldl (fun _ _ h6 => wf_access h6) h5.frame

/-! ### Scalar.lean -/

theorem Panel.wf_regOp (h : p.wf) {c f op} : (p.regOp c f op).wf := by
  unfold Panel.regOp
  refine wf_issue h ?_
  split
  · exact trivial
  · exact wf_setS h ..

theorem Panel.wf_immOp (h : p.wf) {c f bad op} : (p.immOp c f bad op).wf := by
  unfold Panel.immOp
  refine wf_issue h ?_
  split
  · exact trivial
  · exact wf_setS h ..

theorem nextWf_execAdd (h : s.p.wf) {c f} : NextWf (execAdd c f s) := nextWf_upd h (fun _ h1 => wf_regOp h1)

theorem nextWf_execSub (h : s.p.wf) {c f} : NextWf (execSub c f s) := nextWf_upd h (fun _ h1 => wf_regOp h1)

theorem nextWf_execAnd (h : s.p.wf) {c f} : NextWf (execAnd c f s) := nextWf_upd h (fun _ h1 => wf_regOp h1)

theorem nextWf_execOr (h : s.p.wf) {c f} : NextWf (execOr c f s) := nextWf_upd h (fun _ h1 => wf_regOp h1)

theorem nextWf_execXor (h : s.p.wf) {c f} : NextWf (execXor c f s) := nextWf_upd h (fun _ h1 => wf_regOp h1)

theorem nextWf_execSll (h : s.p.wf) {c f} : NextWf (execSll c f s) := nextWf_upd h (fun _ h1 => wf_regOp h1)

theorem nextWf_execSrl (h : s.p.wf) {c f} : NextWf (execSrl c f s) := nextWf_upd h (fun _ h1 => wf_regOp h1)

theorem nextWf_execSra (h : s.p.wf) {c f} : NextWf (execSra c f s) := nextWf_upd h (fun _ h1 => wf_regOp h1)

theorem nextWf_execMul (h : s.p.wf) {c f} : NextWf (execMul c f s) := nextWf_upd h (fun _ h1 => wf_regOp h1)

theorem nextWf_execMulh (h : s.p.wf) {c f} : NextWf (execMulh c f s) := nextWf_upd h (fun _ h1 => wf_regOp h1)

theorem nextWf_execSlt (h : s.p.wf) {c f} : NextWf (execSlt c f s) := nextWf_upd h (fun _ h1 => wf_regOp h1)

theorem nextWf_execSltu (h : s.p.wf) {c f} : NextWf (execSltu c f s) := nextWf_upd h (fun _ h1 => wf_regOp h1)

theorem nextWf_execMin (h : s.p.wf) {c f} : NextWf (execMin c f s) := nextWf_upd h (fun _ h1 => wf_regOp h1)

theorem nextWf_execMax (h : s.p.wf) {c f} : NextWf (execMax c f s) := nextWf_upd h (fun _ h1 => wf_regOp h1)

theorem nextWf_execAddi (h : s.p.wf) {c f} : NextWf (execAddi c f s) := nextWf_upd h (fun _ h1 => wf_immOp h1)

theorem nextWf_execAndi (h : s.p.wf) {c f} : NextWf (execAndi c f s) := nextWf_upd h (fun _ h1 => wf_immOp h1)

theorem nextWf_execOri (h : s.p.wf) {c f} : NextWf (execOri c f s) := nextWf_upd h (fun _ h1 => wf_immOp h1)

theorem nextWf_execXori (h : s.p.wf) {c f} : NextWf (execXori c f s) := nextWf_upd h (fun _ h1 => wf_immOp h1)

theorem nextWf_execSlli (h : s.p.wf) {c f} : NextWf (execSlli c f s) := nextWf_upd h (fun _ h1 => wf_immOp h1)

theorem nextWf_execSrli (h : s.p.wf) {c f} : NextWf (execSrli c f s) := nextWf_upd h (fun _ h1 => wf_immOp h1)

theorem nextWf_execSrai (h : s.p.wf) {c f} : NextWf (execSrai c f s) := nextWf_upd h (fun _ h1 => wf_immOp h1)

theorem nextWf_execLi (h : s.p.wf) {c f} : NextWf (execLi c f s) := nextWf_upd h (fun _ h1 => wf_immOp h1)

theorem nextWf_execLih (h : s.p.wf) {c f} : NextWf (execLih c f s) := by
  unfold execLih
  refine nextWf_upd h (fun p1 h1 => wf_issue h1 ?_)
  split
  · exact trivial
  · exact wf_setS h1 ..

theorem Panel.wf_loadOp (h : p.wf) {c f n} : (p.loadOp c f n).wf := by
  unfold Panel.loadOp
  refine wf_issue h ?_
  split
  · exact trivial
  · split
    · rename_i e1
      exact wf_offsetOf e1
    · dsimp -zeta only
      split
      · exact trivial
      · exact wf_setS (wf_spLoad h) ..

theorem Panel.wf_storeOp (h : p.wf) {c f n} : (p.storeOp c f n).wf := by
  unfold Panel.storeOp
  refine wf_issue h ?_
  split
  · exact trivial
  · split
    · rename_i e1
      exact wf_offsetOf e1
    · exact wf_spStore h

theorem nextWf_execLd (h : s.p.wf) {c f} : NextWf (execLd c f s) := nextWf_upd h (fun _ h1 => wf_loadOp h1)

theorem nextWf_execLdw (h : s.p.wf) {c f} : NextWf (execLdw c f s) := nextWf_upd h (fun _ h1 => wf_loadOp h1)

theorem nextWf_execSt (h : s.p.wf) {c f} : NextWf (execSt c f s) := nextWf_upd h (fun _ h1 => wf_storeOp h1)

theorem nextWf_execStw (h : s.p.wf) {c f} : NextWf (execStw c f s) := nextWf_upd h (fun _ h1 => wf_storeOp h1)

theorem nextWf_execDld (h : s.p.wf) {c f} : NextWf (execDld c f s) := by
  refine nextWf_upd h (fun p hp => wf_issue hp (Issued.wf_ite trivial ?_))
  have hl (o n) : (p.spLoad c o n).2.2.wf := wf_spLoad hp
  generalize p.spLoad c = load at hl ⊢
  obtain ⟨d, pz, q, rfl⟩ : ∃ (d : ℕ → ℕ → _) (pz : ℕ → ℕ → _) (q : ℕ → ℕ → _), load = fun o n =>
      (d o n, pz o n, q o n) := ⟨_, _, _, rfl⟩
  cases e : offsetOf ((p.core c).sreg f.ra) f.imm 32 with
  | inr t => exact wf_offsetOf e
  | inl o => exact Issued.wf_ite trivial (wf_modCore (hl o 32) ..)

theorem nextWf_execDst (h : s.p.wf) {c f} : NextWf (execDst c f s) := by
  unfold execDst
  refine nextWf_upd h (fun p1 h1 => wf_issue h1 ?_)
  split
  · exact trivial
  · split
    · rename_i e2
      exact wf_offsetOf e2
    · exact wf_spStore h1

theorem nextWf_execDset (h : s.p.wf) {c f} : NextWf (execDset c f s) := by
  unfold execDset
  refine nextWf_upd h (fun p1 h1 => wf_issue h1 ?_)
  split
  · exact trivial
  · split
    · exact trivial
    · exact wf_modCore h1 ..

theorem nextWf_execDget (h : s.p.wf) {c f} : NextWf (execDget c f s) := by
  unfold execDget
  refine nextWf_upd h (fun p1 h1 => wf_issue h1 ?_)
  split
  · exact trivial
  · split
    · exact trivial
    · extract_lets
      exact wf_setS h1 ..

/-! ### Sync.lean -/

theorem nextWf_execTpost (h : s.p.wf) {c f} : NextWf (execTpost c f s) := by
  unfold execTpost
  refine nextWf_upd h (fun p1 h1 => wf_issue h1 ?_)
  split
  · exact trivial
  · exact wf_setCore h1 ..

theorem Panel.wf_sendPost (h : p.wf) {c o} : (p.sendPost c o).wf := by
  unfold Panel.sendPost
  extract_lets
  refine wf_ite (wf_raiseAsync h ..) ?_
  dsimp -zeta only
  extract_lets p1
  have h1 : p1.wf := wf_modCore (wf_await h) ..
  exact wf_inject h1

theorem nextWf_execTpostRelease (h : s.p.wf) {c k} : NextWf (execTpostRelease c k s) := by
  unfold execTpostRelease
  refine nextWf_upd h (fun p1 h1 => ?_)
  extract_lets _ p2
  have h2 : p2.wf := wf_setCore h1 ..
  split
  · exact h1
  · exact wf_ite h1 (wf_ite (wf_sendPost h2) (wf_tokenAdd h2 ..))

theorem nextWf_execTwait (h : s.p.wf) {c f} : NextWf (execTwait c f s) := by
  unfold execTwait
  refine nextWf_upd h (fun p1 h1 => wf_issue h1 ?_)
  split
  · exact trivial
  · extract_lets
    split
    · exact wf_fput h1 ..
    · exact trivial

theorem nextWf_execTwaitSatisfy (h : s.p.wf) {c} : NextWf (execTwaitSatisfy c s) := by
  unfold execTwaitSatisfy
  refine nextWf_upd h (fun p1 h1 => ?_)
  split
  · extract_lets
    exact wf_ite (wf_unblock h1 (wf_fput h1 ..)) h1
  · exact h1

theorem nextWf_execTtest (h : s.p.wf) {c f} : NextWf (execTtest c f s) := by
  unfold execTtest
  refine nextWf_upd h (fun p1 h1 => wf_issue h1 ?_)
  split
  · exact trivial
  · exact wf_setS h1 ..

theorem nextWf_execTset (h : s.p.wf) {c f} : NextWf (execTset c f s) := by
  unfold execTset
  refine nextWf_upd h (fun p1 h1 => wf_issue h1 ?_)
  split
  · exact trivial
  · exact wf_fput h1 ..

theorem nextWf_execBarArrive (h : s.p.wf) {c f} : NextWf (execBarArrive c f s) := by
  unfold execBarArrive
  refine nextWf_upd h (fun p1 h1 => wf_issue h1 ?_)
  split
  · exact trivial
  · exact trivial

theorem nextWf_execBarWait (h : s.p.wf) {c f} : NextWf (execBarWait c f s) := by
  unfold execBarWait
  refine nextWf_upd h (fun p1 h1 => wf_issue h1 ?_)
  extract_lets
  split
  · exact trivial
  · split
    · exact wf_setCore h1 ..
    · exact trivial

theorem nextWf_execBarWaitRelease (h : s.p.wf) {c} : NextWf (execBarWaitRelease c s) := by
  unfold execBarWaitRelease
  refine nextWf_upd h (fun p1 h1 => ?_)
  split
  · exact wf_ite (wf_unblock h1 (wf_modCore h1 ..)) h1
  · exact h1

theorem Panel.wf_coreEpoch (h : p.wf) {c} : (p.coreEpoch c).wf := wf_advanceEpoch h ..

theorem nextWf_execEpochAdvance (h : s.p.wf) {c rsvd} : NextWf (execEpochAdvance c rsvd s) := by
  unfold execEpochAdvance
  refine nextWf_upd h (fun p1 h1 => wf_issue h1 ?_)
  split
  · exact wf_coreEpoch h1
  · exact trivial

theorem nextWf_execWaitTimeout (h : s.p.wf) {c} : NextWf (execWaitTimeout c s) := by
  unfold execWaitTimeout
  refine nextWf_upd h (fun p1 h1 => ?_)
  extract_lets _ p2
  have h2 : p2.wf := wf_ite h1 (wf_syncTrap (wf_setCore h1 ..) ..)
  split
  · exact h2
  · exact h2
  · exact h1

theorem nextWf_execFence (h : s.p.wf) {c f} : NextWf (execFence c f s) := by
  unfold execFence
  refine nextWf_upd h (fun p1 h1 => wf_issue h1 ?_)
  split
  · exact h1
  · exact trivial

theorem nextWf_execFenceComplete (h : s.p.wf) {c} : NextWf (execFenceComplete c s) := by
  unfold execFenceComplete
  refine nextWf_upd h (fun p1 h1 => ?_)
  extract_lets
  split
  · exact wf_ite (wf_unblock h1 h1) h1
  · exact wf_ite (wf_unblock h1 (wf_coreEpoch h1)) h1
  · exact h1

/-! ### Vector.lean -/

theorem Panel.wf_vecPlace {c f d i1 i2} {i : Issued} (e : p.vecPlace c f d i1 i2 = .inr i) : i.wf := by
  unfold Panel.vecPlace at e
  extract_lets _ _ _ _ place _ _ at e
  split at e
  · rw [← Sum.inr.inj e]; trivial
  · split at e
    · rw [← Sum.inr.inj e]; trivial
    · split at e
      · rw [← Sum.inr.inj e]; trivial
      · cases e

theorem Panel.wf_vecIssue (h : p.wf) {c o f} : (p.vecIssue c o f).wf := by
  unfold Panel.vecIssue
  refine wf_issue h (Issued.wf_ite trivial ?_)
  extract_lets dn go
  have hgo : go.wf := wf_setCore h ..
  refine Issued.wf_ite ?_ hgo
  split
  · rename_i e
    exact wf_vecPlace e
  · exact hgo

theorem Panel.wf_vecRun (h : p.wf) {c o} : (p.vecRun c o).wf := by
  unfold Panel.vecRun
  extract_lets
  split
  · exact wf_ite (wf_raiseAsync h ..) (wf_setCore h ..)
  · dsimp -zeta only
    extract_lets
    exact wf_modCore (wf_readBlocks h ..) ..
  · exact wf_writeBlocks h ..
  · exact wf_setCore h ..
  · exact wf_setCore h ..
  · exact wf_setCore h ..

theorem nextWf_execVectorOpDone (h : s.p.wf) {c} : NextWf (execVectorOpDone c s) := by
  unfold execVectorOpDone
  refine nextWf_upd h (fun p1 h1 => ?_)
  split
  · exact wf_ite h1 (wf_modCore (wf_vecRun h1) ..)
  · exact h1

theorem nextWf_execVadd (h : s.p.wf) {c f} : NextWf (execVadd c f s) := nextWf_upd h (fun _ h1 => wf_vecIssue h1)

theorem nextWf_execVsub (h : s.p.wf) {c f} : NextWf (execVsub c f s) := nextWf_upd h (fun _ h1 => wf_vecIssue h1)

theorem nextWf_execVmul (h : s.p.wf) {c f} : NextWf (execVmul c f s) := nextWf_upd h (fun _ h1 => wf_vecIssue h1)

theorem nextWf_execVfma (h : s.p.wf) {c f} : NextWf (execVfma c f s) := nextWf_upd h (fun _ h1 => wf_vecIssue h1)

theorem nextWf_execVmin (h : s.p.wf) {c f} : NextWf (execVmin c f s) := nextWf_upd h (fun _ h1 => wf_vecIssue h1)

theorem nextWf_execVmax (h : s.p.wf) {c f} : NextWf (execVmax c f s) := nextWf_upd h (fun _ h1 => wf_vecIssue h1)

theorem nextWf_execVcmp (h : s.p.wf) {c f} : NextWf (execVcmp c f s) := nextWf_upd h (fun _ h1 => wf_vecIssue h1)

theorem nextWf_execVsel (h : s.p.wf) {c f} : NextWf (execVsel c f s) := nextWf_upd h (fun _ h1 => wf_vecIssue h1)

theorem nextWf_execVlogic (h : s.p.wf) {c f} : NextWf (execVlogic c f s) := nextWf_upd h (fun _ h1 => wf_vecIssue h1)

theorem nextWf_execVcvt (h : s.p.wf) {c f} : NextWf (execVcvt c f s) := nextWf_upd h (fun _ h1 => wf_vecIssue h1)

theorem nextWf_execVsf (h : s.p.wf) {c f} : NextWf (execVsf c f s) := nextWf_upd h (fun _ h1 => wf_vecIssue h1)

theorem nextWf_execVred (h : s.p.wf) {c f} : NextWf (execVred c f s) := nextWf_upd h (fun _ h1 => wf_vecIssue h1)

theorem nextWf_execVscan (h : s.p.wf) {c f} : NextWf (execVscan c f s) := nextWf_upd h (fun _ h1 => wf_vecIssue h1)

theorem nextWf_execVsort (h : s.p.wf) {c f} : NextWf (execVsort c f s) := nextWf_upd h (fun _ h1 => wf_vecIssue h1)

theorem nextWf_execVbcast (h : s.p.wf) {c f} : NextWf (execVbcast c f s) := nextWf_upd h (fun _ h1 => wf_vecIssue h1)

theorem nextWf_execVextr (h : s.p.wf) {c f} : NextWf (execVextr c f s) := nextWf_upd h (fun _ h1 => wf_vecIssue h1)

theorem nextWf_execVld (h : s.p.wf) {c f} : NextWf (execVld c f s) := nextWf_upd h (fun _ h1 => wf_vecIssue h1)

theorem nextWf_execVst (h : s.p.wf) {c f} : NextWf (execVst c f s) := nextWf_upd h (fun _ h1 => wf_vecIssue h1)

theorem nextWf_execRngGen (h : s.p.wf) {c f} : NextWf (execRngGen c f s) := nextWf_upd h (fun _ h1 => wf_vecIssue h1)

theorem nextWf_execVmxq (h : s.p.wf) {c f} : NextWf (execVmxq c f s) := nextWf_upd h (fun _ h1 => wf_vecIssue h1)

/-! ### Dispatch.lean -/

theorem nextWf_exec (h : s.p.wf) {i} : NextWf (exec i s) := by
  unfold exec
  split
  · exact nextWf_execAdd h
  · exact nextWf_execSub h
  · exact nextWf_execAnd h
  · exact nextWf_execOr h
  · exact nextWf_execXor h
  · exact nextWf_execSll h
  · exact nextWf_execSrl h
  · exact nextWf_execSra h
  · exact nextWf_execMul h
  · exact nextWf_execMulh h
  · exact nextWf_execSlt h
  · exact nextWf_execSltu h
  · exact nextWf_execMin h
  · exact nextWf_execMax h
  · exact nextWf_execAddi h
  · exact nextWf_execAndi h
  · exact nextWf_execOri h
  · exact nextWf_execXori h
  · exact nextWf_execSlli h
  · exact nextWf_execSrli h
  · exact nextWf_execSrai h
  · exact nextWf_execLi h
  · exact nextWf_execLih h
  · exact nextWf_execLd h
  · exact nextWf_execLdw h
  · exact nextWf_execSt h
  · exact nextWf_execStw h
  · exact nextWf_execDld h
  · exact nextWf_execDst h
  · exact nextWf_execDset h
  · exact nextWf_execDget h
  · exact nextWf_execBeq h
  · exact nextWf_execBne h
  · exact nextWf_execBlt h
  · exact nextWf_execBge h
  · exact nextWf_execBltu h
  · exact nextWf_execBgeu h
  · exact nextWf_execJmp h
  · exact nextWf_execCall h
  · exact nextWf_execJr h
  · exact nextWf_execCallr h
  · exact nextWf_execRet h
  · exact nextWf_execLoop h
  · exact nextWf_execBranchResolve h
  · exact nextWf_execTpost h
  · exact nextWf_execTpostRelease h
  · exact nextWf_execTwait h
  · exact nextWf_execTwaitSatisfy h
  · exact nextWf_execTtest h
  · exact nextWf_execTset h
  · exact nextWf_execBarArrive h
  · exact nextWf_execBarArriveSignal h
  · exact nextWf_execBarWait h
  · exact nextWf_execBarWaitRelease h
  · exact nextWf_execEpochAdvance h
  · exact nextWf_execWaitTimeout h
  · exact nextWf_execDmaCopy h
  · exact nextWf_execDmaGather h
  · exact nextWf_execDmaScatter h
  · exact nextWf_execDmaFill h
  · exact nextWf_execDmaMark h
  · exact nextWf_execDmaOpComplete h
  · exact nextWf_execCsrr h
  · exact nextWf_execCsrw h
  · exact nextWf_execCsrs h
  · exact nextWf_execCsrc h
  · exact nextWf_execFence h
  · exact nextWf_execFenceComplete h
  · exact nextWf_execTrap h
  · exact nextWf_execRett h
  · exact nextWf_execHalt h
  · exact nextWf_execHaltComplete h
  · exact nextWf_execAsyncTrapDelivery h
  · exact nextWf_execMma h
  · exact nextWf_execMmaAr h
  · exact nextWf_execMmaBr h
  · exact nextWf_execMmaArbr h
  · exact nextWf_execMatrixPassStart h
  · exact nextWf_execGrpOpen h
  · exact nextWf_execGrpClose h
  · exact nextWf_execAccSend h
  · exact nextWf_execGrpAbort h
  · exact nextWf_execGrpStatus h
  · exact nextWf_execGrpPrefetch h
  · exact nextWf_execGroupSpillDone h
  · exact nextWf_execGroupFillDone h
  · exact nextWf_execGroupCloseDone h
  · exact nextWf_execAccSendAccepted h
  · exact nextWf_execVadd h
  · exact nextWf_execVsub h
  · exact nextWf_execVmul h
  · exact nextWf_execVfma h
  · exact nextWf_execVmin h
  · exact nextWf_execVmax h
  · exact nextWf_execVcmp h
  · exact nextWf_execVsel h
  · exact nextWf_execVlogic h
  · exact nextWf_execVcvt h
  · exact nextWf_execVsf h
  · exact nextWf_execVred h
  · exact nextWf_execVscan h
  · exact nextWf_execVsort h
  · exact nextWf_execVbcast h
  · exact nextWf_execVextr h
  · exact nextWf_execVld h
  · exact nextWf_execVst h
  · exact nextWf_execRngGen h
  · exact nextWf_execVmxq h
  · exact nextWf_execSpStarvationGrant h
  · exact nextWf_execCmemScrubTick h
  · exact nextWf_execRcLineFill h
  · exact nextWf_execRcEpochClearDone h
  · exact nextWf_execRcEpochAdvanceWrite h
  · exact nextWf_execCdCmemPartWrite h
  · exact nextWf_execHbmRefresh h
  · exact nextWf_execMpdRefreshModeWrite h
  · exact nextWf_execHbmPatrolScrub h
  · exact nextWf_execHbmEcsRead h
  · exact nextWf_execHbmTempRead h
  · exact nextWf_execStackLost h
  · exact nextWf_execTpeStart h
  · exact nextWf_execTpeRunDone h
  · exact nextWf_execHbmMapApply h
  · exact nextWf_execHbmMapLoadDone h
  · exact nextWf_execRouterPacketReceive h
  · exact nextWf_execPktRd h
  · exact nextWf_execPktWr h
  · exact nextWf_execPktTpost h
  · exact nextWf_execPktRdData h
  · exact nextWf_execPktWrAck h
  · exact nextWf_execPktTpostAck h
  · exact nextWf_execPktNak h
  · exact nextWf_execMrd h
  · exact nextWf_execMwr h
  · exact nextWf_execMrdData h
  · exact nextWf_execMwrAck h
  · exact nextWf_execMnak h
  · exact nextWf_execNetworkOpTimeout h
  · exact nextWf_execLinkDown h
  · exact nextWf_execDrainPause h
  · exact nextWf_execDrainRoutersEmpty h
  · exact nextWf_execDrainTimeout h
  · exact nextWf_execMcHoldExpire h
  · exact nextWf_execMcGroupApply h
  · exact nextWf_execAccContrib h
  · exact nextWf_execAccordCombineDone h
  · exact nextWf_execAccordOutputAcked h
  · exact nextWf_execAccordDeliveryEnd h
  · exact nextWf_execAccordForwardAccepted h
  · exact nextWf_execAccordTimeout h
  · exact nextWf_execAccDescWrite h
  · exact nextWf_execStepForm h
  · exact nextWf_execColdMoveFinish h
  · exact nextWf_execStepStart h
  · exact nextWf_execDonePoll h
  · exact nextWf_execStepTimeout h
  · exact nextWf_execAbortedWaitTimeout h
  · exact nextWf_execStepCommit h
  · exact nextWf_execJournalRecord h
  · exact nextWf_execJournalAck h
  · exact nextWf_execHeartbeat h
  · exact nextWf_execHeartbeatMiss h
  · exact nextWf_execRqeEnable h
  · exact nextWf_execRqeDrain h
  · exact nextWf_execRqeRetry h
  · exact nextWf_execRqeTakeover h
  · exact nextWf_execRqeIlogStreamWrite h
  · exact nextWf_execSqTailDoorbell h
  · exact nextWf_execSubmit h
  · exact nextWf_execPromptReadComplete h
  · exact nextWf_execCancel h
  · exact nextWf_execCqHeadDoorbell h
  · exact nextWf_execCqEnable h
  · exact nextWf_execLeaseAcquire h
  · exact nextWf_execLeaseRenew h
  · exact nextWf_execLeaseRelease h
  · exact nextWf_execLeaseExpire h
  · exact nextWf_execPcieLinkReset h
  · exact nextWf_execPcieLinkReturn h
  · exact nextWf_execHostLossTimeout h
  · exact nextWf_execBar0ReadTlp h
  · exact nextWf_execBar0WriteTlp h
  · exact nextWf_execBar2ReadTlp h
  · exact nextWf_execBar2WriteTlp h
  · exact nextWf_execRegisterWrite h
  · exact nextWf_execCoreAbortQueues h
  · exact nextWf_execCoreHaltReq h
  · exact nextWf_execCoreAttention h
  · exact nextWf_execCoreStart h
  · exact nextWf_execCoreTokenWrite h
  · exact nextWf_execBarrierApply h
  · exact nextWf_execBarrierAbort h
  · exact nextWf_execFabricBarArrive h
  · exact nextWf_execBarRelease h
  · exact nextWf_execBarReleaseDelayExpire h
  · exact nextWf_execExtBarrierTimeout h
  · exact nextWf_execBarAbort h
  · exact nextWf_execExtBarrierSelfAbort h
  · exact nextWf_execBarJoin h
  · exact nextWf_execCalProbe h
  · exact nextWf_execCalEcho h
  · exact nextWf_execCalDelay h
  · exact nextWf_execCalibrationTimer h
  · exact nextWf_execClkPointWrite h
  · exact nextWf_execPointChangeDone h
  · exact nextWf_execDroopStretch h
  · exact nextWf_execStretchRecover h
  · exact nextWf_execMarginSample h
  · exact nextWf_execMarginAlarmRelease h
  · exact nextWf_execZoneTempSample h
  · exact nextWf_execZoneShutdownTimeout h
  · exact nextWf_execThrottleTokenGrant h
  · exact nextWf_execCeilingChangeDone h
  · exact nextWf_execPowerCapSample h
  · exact nextWf_execEfuseOpen h
  · exact nextWf_execStage0 h
  · exact nextWf_execStage1 h
  · exact nextWf_execStage2 h
  · exact nextWf_execStage3 h
  · exact nextWf_execStage4 h
  · exact nextWf_execStage5 h
  · exact nextWf_execStage6 h
  · exact nextWf_execStage7 h
  · exact nextWf_execStage8 h
  · exact nextWf_execStage9 h
  · exact nextWf_execStageBoundExpire h
  · exact nextWf_execBringupRetry h
  · exact nextWf_execFflClear h
  · exact nextWf_execErrorReport h
  · exact nextWf_execErrorHandlingStart h
  · exact nextWf_execSpareCheckDone h
  · exact nextWf_execClusterHaltTimeout h
  · exact nextWf_execPmcWatchdogTrip h
  · exact nextWf_execPmcResume h
  · exact nextWf_execPredictMarginCross h
  · exact nextWf_execServiceDrydown h
  · exact nextWf_execServiceReturn h
  · exact nextWf_execServiceRestart h
  · exact nextWf_execPairingAttempt h
  · exact nextWf_execMirrorWr h
  · exact nextWf_execMirrorDelta h
  · exact nextWf_execMirrorAck h
  · exact nextWf_execMirrorCtrl h
  · exact nextWf_execMirrorAckTimeout h
  · exact nextWf_execMirrorSyncDone h
  · exact nextWf_execHandoffAck h
  · exact nextWf_execHandoffAckTimeout h
  · exact nextWf_execReturnRetry h
  · exact nextWf_execFabricPacketReceive h
  · exact nextWf_execFabricRd h
  · exact nextWf_execFabricWr h
  · exact nextWf_execFpost h
  · exact nextWf_execFabricRdData h
  · exact nextWf_execFabricWrAck h
  · exact nextWf_execFabricNak h
  · exact nextWf_execFabricRequestTimeout h
  · exact nextWf_execSillageRecover h
  · exact nextWf_execFqProducerWrite h
  · exact nextWf_execFqPoll h
  · exact nextWf_execFabricGet h
  · exact nextWf_execFabricPut h
  · exact nextWf_execFabricPutPost h
  · exact nextWf_execRouteApply h
  · exact nextWf_execPortQueueEmpty h
  · exact nextWf_execPortDrainTimeout h
  · exact nextWf_execHjfDetach h
  · exact nextWf_execDetach h
  · exact nextWf_execDetachAck h
  · exact nextWf_execDetachTimeout h
  · exact nextWf_execFabricPortDown h
  · exact nextWf_execLaneDegraded h
  · exact nextWf_execFabricPortUp h
  · exact nextWf_execOwnerProgram h
  · exact nextWf_execOwnerRevoke h
  · exact nextWf_execFlaconFloor h
  · exact nextWf_execFwFloor h
  · exact nextWf_execDebugUnlock h
  · exact nextWf_execDebugRelock h
  · exact nextWf_execDebugWindowExpire h
  · exact nextWf_execEntropyFail h
  · exact nextWf_execGuestTransaction h
  · exact nextWf_execOeReading h
  · exact nextWf_execGetVersion h
  · exact nextWf_execGetCapabilities h
  · exact nextWf_execNegotiateAlgorithms h
  · exact nextWf_execGetDigests h
  · exact nextWf_execGetCertificate h
  · exact nextWf_execChallenge h
  · exact nextWf_execGetMeasurements h
  · exact nextWf_execSetEndpointId h
  · exact nextWf_execGetEndpointId h
  · exact nextWf_execGetMctpVersionSupport h
  · exact nextWf_execGetMessageTypeSupport h
  · exact nextWf_execGetVendorDefinedMessageSupport h
  · exact nextWf_execEntdaa h
  · exact nextWf_execSetdasa h
  · exact nextWf_execRstdaa h
  · exact nextWf_execRequestUpdate h
  · exact nextWf_execVerifyComplete h
  · exact nextWf_execActivateFirmware h
  · exact nextWf_execPldmSensorRefresh h
  · exact nextWf_execPowerApplied h
  · exact nextWf_execBrownOutSustained h
  · exact nextWf_execBrownOutRailsOff h
  · exact nextWf_execInputUnderVoltage h
  · exact nextWf_execInputOverVoltage h
  · exact nextWf_execPowerRemoved h
  · exact nextWf_execPanelResetAssert h
  · exact nextWf_execPanelResetDeassert h
  · exact nextWf_execMatrixPassDone h
  · exact nextWf_execVectorOpDone h
  · exact nextWf_execStandbySnapshot h
  · exact nextWf_execFrefLoss h
  · exact nextWf_execDoeDiscovery h
  · exact nextWf_execSetEventReceiver h
  · exact nextWf_execPldmType5Transfer h
  · exact nextWf_execConfigurationWrite h
  · exact nextWf_execJtagInstruction h

/-! ### Tick.lean -/

theorem Panel.wf_reservedWord (h : p.wf) {c} : (p.reservedWord c).wf := wf_issue h trivial

theorem Panel.wf_runWord (h : p.wf) {c} : (p.runWord c).wf := by
  unfold Panel.runWord
  refine wf_ite h ?_
  split
  · rename_i i _
    have hn : NextWf (exec i ⟨p, []⟩) := nextWf_exec h
    split
    · rename_i e
      rw [e] at hn
      exact hn
    · exact h
  · exact wf_reservedWord h

theorem Panel.wf_countCycle (h : p.wf) {c} : (p.countCycle c).wf := by
  unfold Panel.countCycle
  extract_lets _ p1 p2
  have h1 : p1.wf := wf_addWrap h ..
  have h2 : p2.wf := wf_ite h1 (wf_addWrap h1 ..)
  exact wf_ite (wf_addWrap h2 ..) h2

theorem Panel.wf_dmaTick (h : p.wf) {c} : (p.dmaTick c).wf := by
  unfold Panel.dmaTick
  dsimp -zeta only
  exact wf_ite h (wf_readAhead (wf_draw h ..))

theorem Panel.wf_coreTick (h : p.wf) {c} : (p.coreTick c).wf := wf_ite (wf_runWord (wf_dmaTick (wf_countCycle h))) h

theorem Panel.wf_tick (h : p.wf) : p.tick.wf := wf_ite (wf_foldl (fun _ _ h1 => wf_coreTick h1) h) h

theorem Panel.wf_flipBit (h : p.wf) {home b} : (p.flipBit home b).wf := h.frame

theorem Panel.wf_strayBlock (h : p.wf) {home sl} : (p.strayBlock home sl).wf := h.frame

theorem Panel.wf_flipLine (h : p.wf) {i b} : (p.flipLine i b).wf := by
  unfold Panel.flipLine
  split
  · exact h.frame
  · exact h

theorem Panel.wf_upset (h : p.wf) : p.upset.wf := by
  unfold Panel.upset
  dsimp -zeta only
  split
  · split
    · exact wf_flipBit (wf_draw (wf_draw (wf_draw h ..) ..) ..)
    · exact wf_flipBit (wf_draw (wf_draw (wf_draw h ..) ..) ..)
    · exact wf_draw (wf_draw (wf_draw h ..) ..) ..
  · split
    · exact wf_strayBlock (wf_draw (wf_draw (wf_draw h ..) ..) ..)
    · exact wf_draw (wf_draw (wf_draw h ..) ..) ..
  · exact wf_flipLine (wf_draw (wf_draw (wf_draw h ..) ..) ..)
  · exact wf_draw (wf_draw (wf_draw h ..) ..) ..

theorem Panel.wf_idleTick (h : p.wf) : p.idleTick.wf := by
  unfold Panel.idleTick
  extract_lets p1 p2 p3
  have h1 : p1.wf := wf_upset (wf_tick h)
  have h2 : p2.wf := wf_foldl (fun _ _ h4 => wf_tpeAdvance h4) h1
  have h3 : p3.wf := wf_foldl (fun _ _ h4 => wf_guestTick h4) h2
  exact wf_foldl (fun _ _ h4 => wf_checkDetach h4) (wf_mirTick (wf_fTick h3))

/-! ### Step.lean -/

theorem wf_idle (h : s.p.wf) : (idle s).p.wf := wf_idleTick h

theorem nextWf_step (h : s.p.wf) : NextWf (step s) := by
  unfold step
  split
  · exact wf_idle h
  · rename_i rest _
    exact nextWf_exec (s := { s with pending := rest }) h

end

/-- Settles O59: by a lemma per command (`nextWf_exec`), from one per function of the model. -/
theorem stepsKeepTheCanonicalForm : Obligations.StepsKeepTheCanonicalForm := by
  unfold Obligations.StepsKeepTheCanonicalForm
  intro s t h e
  have hn : NextWf (step s) := nextWf_step h
  rw [e] at hn
  exact hn

end Sys2Proof.Machine
end

section
/-! Reset and the panel's power boundary: a command that changes the panel alone acts as its change (`acts_of_exec`), and what
lost rails and a reset leave. -/

namespace Sys2Proof.Machine

/-! ### What reset leaves -/

theorem Panel.get_of_regs_nil {p : Panel} (h : p.regs = []) (r : Reg) (u i j : Nat) : p.get r u i j = r.info.reset := by
  simp [Panel.get, h, smGetD, smGet]

theorem Panel.core_of_cores_nil {p : Panel} (h : p.cores = []) (c : Nat) : p.core c = Core.zero := by
  simp [Panel.core, h, smGetD, smGet]

theorem Panel.hubUp_of_rails_off {p : Panel} (hw : p.pwr.railW = false) (he : p.pwr.railE = false) (h : Nat) :
    p.hubUp h = false := by
  simp [Panel.hubUp, hw, he]

/-- Settles O60: reset lists no register and no core, and the rest of it is read off. -/
theorem resetIsAsGiven : Obligations.ResetIsAsGiven := by
  unfold Obligations.ResetIsAsGiven
  exact ⟨rfl, State.reset_wf, Panel.get_of_regs_nil rfl, Panel.core_of_cores_nil rfl, rfl, rfl,
    Panel.hubUp_of_rails_off rfl rfl, rfl⟩

/-! ### What a command acts as -/

/-- A command whose text changes the panel alone acts as that change. -/
theorem acts_of_exec {i : Instr} {s : State} {f : Panel → Panel} {q : Panel} (he : exec i s = .next (s.upd f))
    (hf : f s.p = q) : Acts i s q := by
  rw [Acts, he, ← hf]
  rfl

/-! ### Power at the panel's boundary -/

section
variable {s : State}

theorem acts_powerApplied_off (h : s.p.pwr.in44 = false) :
    let on : Panel := { s.p with pwr := { s.p.pwr with in44 := true, convStopped := s.p.pwr.overVolt } }
    (s.p.pwr.overVolt = false → s.p.pwr.resetHeld = false → Acts .powerApplied s (on.beginBringup 0)) ∧
      (s.p.pwr.overVolt = true ∨ s.p.pwr.resetHeld = true → Acts .powerApplied s on) := by
  refine ⟨fun hv hr => acts_of_exec rfl ?_, fun hh => acts_of_exec rfl ?_⟩
  · simp [h, hv, hr]
  · simp [h, hh]

theorem acts_powerApplied_on (h : s.p.pwr.in44 = true) : Acts .powerApplied s s.p := acts_of_exec rfl (if_pos h)

theorem acts_inputUnderVoltage_on (h : s.p.pwr.in44 = true) : Acts .inputUnderVoltage s s.p.railsLost :=
  acts_of_exec rfl (if_pos h)

theorem acts_inputOverVoltage_on (h : s.p.pwr.in44 = true) :
    Acts .inputOverVoltage s { s.p.railsLost with pwr := { s.p.railsLost.pwr with
      in44 := true, convStopped := true, overVolt := true } } := acts_of_exec rfl (if_pos h)

theorem acts_inputUnderVoltage_off (h : s.p.pwr.in44 = false) : Acts .inputUnderVoltage s s.p :=
  acts_of_exec rfl (by simp [h])

theorem acts_inputOverVoltage_off (h : s.p.pwr.in44 = false) : Acts .inputOverVoltage s s.p :=
  acts_of_exec rfl (by simp [h])

theorem acts_brownOutSustained (h44 : s.p.pwr.in44 = true) (hc : s.p.pwr.convStopped = false)
    (hb : s.p.pwr.brownOut = false) : Acts .brownOutSustained s
      ((({ s.p with pwr := { s.p.pwr with brownOut := true } } : Panel).logPanel 0x0407 clsPF).startDry .safe) :=
  acts_of_exec rfl (by simp [h44, hc, hb])

theorem acts_brownOutRailsOff (hb : s.p.pwr.brownOut = true) :
    let p' := if s.p.serving = servDrying ∧ s.p.hasPrimary = true then s.p.dryFail else s.p
    Acts .brownOutRailsOff s (({ p' with pwr := { p'.pwr with brownOut := false } } : Panel).goSafe 3) :=
  acts_of_exec rfl (by simp [hb])

theorem acts_panelResetAssert_ignored {w : Nat} (h : w < 500 ∨ s.p.pwr.trip = true) : Acts (.panelResetAssert w) s s.p :=
  acts_of_exec rfl (if_pos h)

theorem acts_panelResetAssert {w : Nat} (hw : 500 ≤ w) (ht : s.p.pwr.trip = false) :
    Acts (.panelResetAssert w) s s.p.hubsReset :=
  acts_of_exec rfl (if_neg (by simp [ht, Nat.not_lt.2 hw]))

theorem acts_panelResetDeassert (h : s.p.pwr.resetHeld = true) :
    let out : Panel := { s.p with pwr := { s.p.pwr with resetHeld := false } }
    Acts .panelResetDeassert s (if s.p.pwr.in44 = true ∧ s.p.pwr.convStopped = false then out.beginBringup 0 else out) :=
  acts_of_exec rfl (by simp [h])

end

section
variable (p : Panel)

/-- Dropping the links only sends words out. -/
theorem Panel.linksDown_keeps {α : Type} (f : Panel → α) (hf : ∀ q o, f (q.emit o) = f q) : f p.linksDown = f p := by
  refine foldl_keeps (fun q => f q = f p) _ (fun q n hq => ?_) _ p rfl
  split
  · rw [hf, hq]
  · exact hq

@[simp] theorem Panel.linksDown_fab : p.linksDown.fab = p.fab := linksDown_keeps p _ fun _ _ => rfl
@[simp] theorem Panel.linksDown_nvmA : p.linksDown.nvmA = p.nvmA := linksDown_keeps p _ fun _ _ => rfl
@[simp] theorem Panel.linksDown_nvmB : p.linksDown.nvmB = p.nvmB := linksDown_keeps p _ fun _ _ => rfl
@[simp] theorem Panel.linksDown_pwr : p.linksDown.pwr = p.pwr := linksDown_keeps p _ fun _ _ => rfl

/-- With every rail lost: what is fused or in NVM stays, the rest is as out of reset (R485). -/
theorem Panel.railsLost_leaves : let q := p.railsLost
    q.fab = p.fab ∧ q.nvmA = p.nvmA ∧ q.nvmB = p.nvmB ∧ (∀ r u i j, q.get r u i j = r.info.reset) ∧ q.st = Store.empty ∧
      (∀ c, q.core c = Core.zero) ∧ q.pwr.in44 = false ∧ q.pwr.efuse = p.pwr.efuse := by
  refine ⟨?_, ?_, ?_, get_of_regs_nil rfl, rfl, core_of_cores_nil rfl, rfl, ?_⟩ <;> simp [railsLost]

/-- PANEL_RESET_N does the same to the hubs, with the power kept (R487). -/
theorem Panel.hubsReset_leaves : let q := p.hubsReset
    q.fab = p.fab ∧ q.nvmA = p.nvmA ∧ q.nvmB = p.nvmB ∧ q.pwr.resetHeld = true ∧ q.st.mem = [] ∧
      (∀ c, q.core c = Core.zero) ∧ (∀ r u i j, q.get r u i j = r.info.reset) := by
  refine ⟨?_, ?_, ?_, rfl, rfl, core_of_cores_nil rfl, get_of_regs_nil rfl⟩ <;> simp [hubsReset, railsLost]

/-- The pins of a side: PWR_GOOD follows its rail, the trip pin the trip; the others are driven while the rail is up and the
panel out of reset. -/
theorem Panel.pins_show (j2 : Bool) :
    let rail := if j2 = true then p.pwr.railE else p.pwr.railW
    let x := p.pins j2
    x.pwrGood = rail ∧ x.tripLow = p.pwr.trip ∧
      (rail = true → p.pwr.resetHeld = false → x.stage = p.fget F.PMC_STAGE_stage ∧ x.state = p.fget F.PMC_STAGE_state ∧
        (x.faultLow = true ↔ p.fget F.PMC_STAGE_stage = stageSafe)) ∧
      (rail = false ∨ p.pwr.resetHeld = true → x.stage = 0 ∧ x.state = servDown ∧ x.faultLow = false) := by
  refine ⟨rfl, rfl, fun hr hh => ?_, fun hh => ?_⟩
  · simp [pins, stage, serving, hr, hh]
  · have hd : ((if j2 = true then p.pwr.railE else p.pwr.railW) && !p.pwr.resetHeld) = false := by
      rcases hh with hr | hr <;> simp [hr]
    simp [pins, hd]

end

/-- Settles O42: a lemma per command of the boundary, what lost rails and a reset leave, and the pins. -/
theorem powerBoundary : Obligations.PowerBoundary := by
  unfold Obligations.PowerBoundary
  intro s
  exact ⟨acts_powerApplied_off, fun h => ⟨acts_powerApplied_on h, acts_inputUnderVoltage_on h, acts_inputOverVoltage_on h⟩,
    fun h => ⟨acts_inputUnderVoltage_off h, acts_inputOverVoltage_off h⟩, acts_of_exec rfl rfl, acts_brownOutSustained,
    acts_brownOutRailsOff, fun _ => ⟨acts_panelResetAssert_ignored, acts_panelResetAssert⟩, acts_panelResetDeassert,
    Panel.railsLost_leaves s.p, Panel.hubsReset_leaves s.p, Panel.pins_show s.p⟩

end Sys2Proof.Machine
end

section
/-! Register accesses: what each management packet, BAR0 request and register write acts as, and what a core's control
register does to the core. -/

namespace Sys2Proof.Machine

/-! ### Management packets -/

section
variable {s : State} {k : Packet}

/-- A response that reaches a node that is down, or ahead of its turn, is not looked at. -/
theorem Panel.response_ignored {p : Panel} {f : Panel → Waiting → Option Panel}
    (h : p.nodeUp k.dstNode.toNat = false ∨ p.early k = true) : p.response k f = p :=
  if_pos (by simpa using h)

theorem acts_management_ignored (h : s.p.nodeUp k.dstNode.toNat = false ∨ s.p.early k = true) :
    ∀ i ∈ ([.mrd k, .mwr k, .mrdData k, .mwrAck k, .mnak k] : List Instr), Acts i s s.p := by
  have hc : (!s.p.nodeUp k.dstNode.toNat || s.p.early k) = true := by simpa using h
  simp only [List.forall_mem_cons]
  refine ⟨acts_of_exec rfl (if_pos hc), acts_of_exec rfl (if_pos hc), acts_of_exec rfl (Panel.response_ignored h),
    acts_of_exec rfl (Panel.response_ignored h), acts_of_exec rfl (Panel.response_ignored h), by simp⟩

/-- The response a waiting requester takes. -/
theorem Panel.response_taken {p : Panel} {f : Panel → Waiting → Option Panel} {w : Waiting} {q : Panel}
    (hup : p.nodeUp k.dstNode.toNat = true) (he : p.early k = false)
    (hw : (p.takePacket k).net.waiting.find? (fun w => w.node == k.dstNode.toNat && w.unit == k.srcUnit.toNat && w.tag == k.tag) =
      some w)
    (hc : ∀ c, responseCore k = some c → (p.takePacket k).isFenced c = false) (hq : f (p.takePacket k) w = some q) :
    p.response k f = q := by
  simp only [response, hup, he, hw, hq]
  cases h : responseCore k with
  | none => simp
  | some c => simp [hc c h]

/-- The response nobody waits for, or for a fenced core, is late. -/
theorem Panel.response_late {p : Panel} {f : Panel → Waiting → Option Panel}
    (hup : p.nodeUp k.dstNode.toNat = true) (he : p.early k = false)
    (h : (p.takePacket k).net.waiting.find? (fun w => w.node == k.dstNode.toNat && w.unit == k.srcUnit.toNat && w.tag == k.tag) =
      none ∨ ∃ c, responseCore k = some c ∧ (p.takePacket k).isFenced c = true) :
    p.response k f = (p.takePacket k).lateResponse k := by
  simp only [response, hup, he]
  rcases h with hn | ⟨c, hc, hf⟩
  · simp [hn]
  · cases (p.takePacket k).net.waiting.find?
        (fun w => w.node == k.dstNode.toNat && w.unit == k.srcUnit.toNat && w.tag == k.tag) <;> simp [hc, hf]

theorem acts_mgmtAnswer {q : Panel} (h : s.p.mgmtAnswer k = q) :
    ∀ i ∈ ([.mrdData k, .mwrAck k, .mnak k] : List Instr), Acts i s q := by
  simp only [List.forall_mem_cons]
  exact ⟨acts_of_exec rfl h, acts_of_exec rfl h, acts_of_exec rfl h, by simp⟩

section
variable (hup : s.p.nodeUp k.dstNode.toNat = true) (he : s.p.early k = false)
include hup he

theorem acts_mrd_known {src : Writer} {off : Nat} (hs : unitWriter k.srcUnit.toNat = some src)
    (ho : regOffset k.addr.toNat = some off) :
    (∀ x p2, (s.p.takePacket k).readTarget ((s.p.takePacket k).locate off) = some (x, p2) →
      Acts (.mrd k) s (p2.answer k 0x1A 0 (toBytes 8 x.toNat))) ∧
    ((s.p.takePacket k).readTarget ((s.p.takePacket k).locate off) = none →
      Acts (.mrd k) s ((s.p.takePacket k).answer k 0x1C 1)) :=
  ⟨fun _ _ hr => acts_of_exec rfl (by simp [hup, he, hs, ho, hr]), fun hr => acts_of_exec rfl (by simp [hup, he, hs, ho, hr])⟩

theorem acts_mwr_known {src : Writer} {off : Nat} (hs : unitWriter k.srcUnit.toNat = some src)
    (ho : regOffset k.addr.toNat = some off) :
    let w := (s.p.takePacket k).writeTarget src ((s.p.takePacket k).locate off) (BitVec.ofNat 64 (ofBytes (k.payload.take 8)))
    (∀ p2, w = some p2 → Acts (.mwr k) s (p2.answer k 0x1B 0)) ∧
    (w = none → Acts (.mwr k) s ((s.p.takePacket k).answer k 0x1C 1)) :=
  ⟨fun _ hr => acts_of_exec rfl (by simp [hup, he, hs, ho, hr]), fun hr => acts_of_exec rfl (by simp [hup, he, hs, ho, hr])⟩

theorem acts_management_unknown (h : unitWriter k.srcUnit.toNat = none ∨ regOffset k.addr.toNat = none) :
    Acts (.mrd k) s ((s.p.takePacket k).answer k 0x1C 1) ∧ Acts (.mwr k) s ((s.p.takePacket k).answer k 0x1C 1) := by
  have hn {α : Type} (f : Writer → Nat → Option α) :
      ((unitWriter k.srcUnit.toNat).bind fun src => (regOffset k.addr.toNat).bind fun o => f src o) = none := by
    rcases h with h | h <;> simp [h]
  exact ⟨acts_of_exec rfl (by simp [hup, he, hn]), acts_of_exec rfl (by simp [hup, he, hn])⟩

theorem acts_mgmt_response :
    let p1 := s.p.takePacket k
    let found := p1.net.waiting.find? fun w => w.node == k.dstNode.toNat && w.unit == k.srcUnit.toNat && w.tag == k.tag
    ∀ i ∈ ([.mrdData k, .mwrAck k, .mnak k] : List Instr),
      (∀ w, found = some w → (∀ c, responseCore k = some c → p1.isFenced c = false) → w.kind = .hub → Acts i s (p1.endWait w)) ∧
      (found = none ∨ (∃ c, responseCore k = some c ∧ p1.isFenced c = true) → Acts i s (p1.lateResponse k)) :=
  fun i hi => ⟨fun _ hw hc hk => acts_mgmtAnswer (Panel.response_taken hup he hw hc (by simp [hk])) i hi,
    fun h => acts_mgmtAnswer (Panel.response_late hup he h) i hi⟩

end

end

/-! ### BAR0 -/

section
variable {s : State} {host : Bool} {off len : Nat} {v : W64}

theorem Panel.orHeld_held {p q : Panel} {a : HeldAccess}
    (h : p.flag F.PNW_DRAIN_STATUS_in_progress = true ∨ (p.net.held.any fun x => heldHost x == heldHost a) = true) :
    p.orHeld a true q = { p with net := { p.net with held := p.net.held ++ [a] } } :=
  if_pos (by simpa only [Bool.true_and, Bool.or_eq_true] using h)

theorem Panel.orHeld_now {p q : Panel} {a : HeldAccess} (hd : p.flag F.PNW_DRAIN_STATUS_in_progress = false)
    (hh : (p.net.held.any fun x => heldHost x == heldHost a) = false) : p.orHeld a true q = q :=
  if_neg (by simp only [Bool.true_and, Bool.or_eq_true, hd, hh]; decide)

theorem Panel.onBar_dead {p : Panel} {size most : Nat} {f : Panel → Panel} (h : p.barLive host off len size = false) :
    p.onBar host off len size most f = p :=
  if_pos (by simp [h])

theorem Panel.onBar_live {p : Panel} {size most : Nat} {f : Panel → Panel} (h : p.barLive host off len size = true) :
    p.onBar host off len size most f = if most < len then p.fatalError host else f p :=
  if_neg (by simp [h])

theorem acts_bar0_held
    (h : s.p.flag F.PNW_DRAIN_STATUS_in_progress = true ∨ (s.p.net.held.any fun x => heldHost x == host) = true) :
    Acts (.bar0ReadTlp host off len) s { s.p with net := { s.p.net with held := s.p.net.held ++ [.bar0Read host off len] } } ∧
    Acts (.bar0WriteTlp host off len v) s
      { s.p with net := { s.p.net with held := s.p.net.held ++ [.bar0Write host off len v] } } :=
  ⟨acts_of_exec rfl (Panel.orHeld_held h), acts_of_exec rfl (Panel.orHeld_held h)⟩

section
variable (hd : s.p.flag F.PNW_DRAIN_STATUS_in_progress = false)
  (hh : (s.p.net.held.any fun x => heldHost x == host) = false)
include hd hh

theorem acts_bar0Read {q : Panel} (h : s.p.bar0Read host off len = q) : Acts (.bar0ReadTlp host off len) s q :=
  acts_of_exec rfl ((Panel.orHeld_now (a := .bar0Read host off len) hd hh).trans h)

theorem acts_bar0Write {q : Panel} (h : s.p.bar0Write host off len v = q) : Acts (.bar0WriteTlp host off len v) s q :=
  acts_of_exec rfl ((Panel.orHeld_now (a := .bar0Write host off len v) hd hh).trans h)

theorem acts_bar0_dead (h : s.p.barLive host off len (2 ^ 28) = false) :
    Acts (.bar0ReadTlp host off len) s s.p ∧ Acts (.bar0WriteTlp host off len v) s s.p :=
  ⟨acts_bar0Read hd hh (Panel.onBar_dead h), acts_bar0Write hd hh (Panel.onBar_dead h)⟩

end
end

/-- The reads R501 serves are of 64 B at most. -/
theorem le_of_bar0ReadOk {off len : Nat} (h : bar0ReadOk off len = true) : len ≤ 4096 := by
  simp only [bar0ReadOk, Bool.or_eq_true, Bool.and_eq_true, beq_iff_eq, decide_eq_true_eq] at h
  omega

section
variable {p : Panel} {host : Bool} {off len : Nat} {v : W64} (hl : p.barLive host off len (2 ^ 28) = true)
include hl

theorem Panel.bar0Read_refused (h : bar0ReadOk off len = false) : p.bar0Read host off len =
    if 4096 < len then p.fatalError host else
      (p.modPort host fun x => { x with aerUr := x.aerUr + 1 }).emit (.unsupported host) := by
  rw [bar0Read, onBar_live hl]
  simp [h]

theorem Panel.bar0Read_some (h : bar0ReadOk off len = true) {bs : List Byte} {p1 : Panel}
    (hr : (p.readLost host off).1 = false)
    (hb : (p.readLost host off).2.readRegs (off / 8 * 8) ((len + 7) / 8) = some (bs, p1)) :
    p.bar0Read host off len = p1.emit (.readData host ((bs.drop (off % 8)).take len) false) := by
  rw [bar0Read, onBar_live hl, if_neg (Nat.not_lt.2 (le_of_bar0ReadOk h))]
  simp [h, hr, hb]

theorem Panel.bar0Read_none (h : bar0ReadOk off len = true) (hr : (p.readLost host off).1 = true ∨
      (p.readLost host off).2.readRegs (off / 8 * 8) ((len + 7) / 8) = none) :
    p.bar0Read host off len =
      ((p.readLost host off).2.modPort host fun x => { x with aerCa := x.aerCa + 1 }).emit (.completerAbort host) := by
  rw [bar0Read, onBar_live hl, if_neg (Nat.not_lt.2 (le_of_bar0ReadOk h))]
  rcases hr with hr | hr <;> simp [h, hr]

theorem Panel.bar0Write_word (hn : len = 8) (ho : off % 8 = 0) : p.bar0Write host off len v =
    (p.writeTarget (if host then .hostB else .hostA) (p.locate off) v).getD p := by
  rw [bar0Write, onBar_live hl, if_neg (by omega)]
  simp [hn, ho, hostWriter]

theorem Panel.bar0Write_other (h : len ≠ 8 ∨ off % 8 ≠ 0) : p.bar0Write host off len v =
    if 512 < len then p.fatalError host else p.modPort host fun x => { x with aerUr := x.aerUr + 1 } := by
  rw [bar0Write, onBar_live hl, if_pos h]

end

/-! ### Register writes and their writers -/

section
variable {p : Panel} {src : Writer} {f : Panel → Panel}

/-- A host without the lease is counted, whatever it asks. -/
theorem Panel.asWriter_denied {h : Bool} (hs : writerHost src = some h) (hl : p.holdsLease h = false) :
    p.asWriter src f = p.addHold F.PCI_PORT_STATUS_lease_denied 1 (portHub h) := by
  cases src <;> cases hs <;> simp [asWriter, writerHost, hl]

theorem Panel.asManager_denied {h : Bool} (hs : writerHost src = some h) (hl : p.holdsLease h = false) :
    p.asManager src f = p.addHold F.PCI_PORT_STATUS_lease_denied 1 (portHub h) := by
  have ha : p.asManager src f = p.asWriter src f := by
    cases src with
    | bmc => cases hs
    | _ => rfl
  rw [ha, asWriter_denied hs hl]

end

section
variable {s : State} {src : Writer}

theorem acts_registerWrite_nowhere {off : Nat} {v : W64}
    (h : off % 8 ≠ 0 ∨ s.p.locate off = .absent ∨ s.p.locate off = .zero) : Acts (.registerWrite src off v) s s.p := by
  refine acts_of_exec rfl ?_
  by_cases ho : off % 8 = 0
  · rcases h with h | h | h
    · exact absurd ho h
    · simp [ho, h, Panel.writeTarget]
    · simp [ho, h, Panel.writeTarget]
  · exact if_neg ho

theorem acts_registerWrite {off i j : Nat} {v : W64} {w : Win} {r : Reg} (ho : off % 8 = 0)
    (hl : s.p.locate off = .reg w r i j) :
    (s.p.mayWrite src w r = .take → Acts (.registerWrite src off v) s (s.p.regWrite src w r i j v)) ∧
    (s.p.mayWrite src w r = .ignore → Acts (.registerWrite src off v) s s.p) ∧
    (∀ h, writerHost src = some h → s.p.mayWrite src w r = .deny →
      Acts (.registerWrite src off v) s (s.p.addHold F.PCI_PORT_STATUS_lease_denied 1 (portHub h))) := by
  refine ⟨fun hm => acts_of_exec rfl ?_, fun hm => acts_of_exec rfl ?_, fun h hh hm => acts_of_exec rfl ?_⟩
  · simp [ho, hl, hm, Panel.writeTarget]
  · simp [ho, hl, hm, Panel.writeTarget]
  · simp [ho, hl, hm, hh, Panel.writeTarget, Panel.leaseDenied]

/-- The commands a host needs the lease for: those the board management controller may also give, and those it may not. -/
theorem acts_denied {v : W64} {h : Bool} (hs : writerHost src = some h) (hl : s.p.holdsLease h = false) :
    let managed : List Instr := [.bringupRetry src v, .fflClear src v, .serviceDrydown src]
    let leased : List Instr := [.mcGroupApply src v, .barrierApply src v, .barrierAbort src v, .hbmMapApply src v,
      .rqeEnable 0 src v, .rqeDrain 0 src v, .rqeRetry 0 src v, .rqeTakeover 0 src v, .serviceReturn src, .serviceRestart src v]
    ∀ i ∈ managed ++ leased,
      Acts i s (s.p.addHold F.PCI_PORT_STATUS_lease_denied 1 (portHub h)) := by
  have hm (f : Panel → Panel) := Panel.asManager_denied (f := f) hs hl
  have hw (f : Panel → Panel) := Panel.asWriter_denied (f := f) hs hl
  simp only [List.cons_append, List.nil_append, List.forall_mem_cons]
  exact ⟨acts_of_exec rfl (hm _), acts_of_exec rfl (hm _), acts_of_exec rfl (hm _), acts_of_exec rfl (hw _),
    acts_of_exec rfl (hw _), acts_of_exec rfl (hw _), acts_of_exec rfl (hw _), acts_of_exec rfl (hw _),
    acts_of_exec rfl (hw _), acts_of_exec rfl (hw _), acts_of_exec rfl (hw _), acts_of_exec rfl (hw _),
    acts_of_exec rfl (hw _), by simp⟩

theorem acts_leased_bmc {v : W64} :
    ∀ i ∈ ([.mcGroupApply .bmc v, .barrierApply .bmc v, .barrierAbort .bmc v, .hbmMapApply .bmc v, .rqeEnable 0 .bmc v,
      .rqeDrain 0 .bmc v, .rqeRetry 0 .bmc v, .rqeTakeover 0 .bmc v, .serviceReturn .bmc, .serviceRestart .bmc v] : List Instr),
      Acts i s s.p := by
  simp only [List.forall_mem_cons]
  exact ⟨acts_of_exec rfl rfl, acts_of_exec rfl rfl, acts_of_exec rfl rfl, acts_of_exec rfl rfl, acts_of_exec rfl rfl,
    acts_of_exec rfl rfl, acts_of_exec rfl rfl, acts_of_exec rfl rfl, acts_of_exec rfl rfl, acts_of_exec rfl rfl, by simp⟩

end

/-! ### A core's control register -/

section
variable {s : State} {c : Nat}

theorem acts_core_absent (h : s.p.coreUp c = false) (n : Nat) (v : W64) :
    ∀ i ∈ ([.coreAbortQueues c, .coreHaltReq c, .coreAttention c, .coreStart c v, .coreTokenWrite c n v] : List Instr),
      Acts i s s.p := by
  have hn : ¬ s.p.coreUp c = true := by simp [h]
  simp only [List.forall_mem_cons]
  exact ⟨acts_of_exec rfl (if_neg hn), acts_of_exec rfl (if_neg hn), acts_of_exec rfl (if_neg hn),
    acts_of_exec rfl (if_neg hn), acts_of_exec rfl (if_neg (by simp [h])), by simp⟩

theorem acts_coreTokenWrite_absent {n : Nat} {v : W64} (h : 32 ≤ n) : Acts (.coreTokenWrite c n v) s s.p :=
  acts_of_exec rfl (if_neg (by simp [Nat.not_lt.2 h]))

/-- A start of a core has the start bit set, so it takes the last step of the control register's when the core was halted. -/
theorem Panel.coreControl_start {p : Panel} {v : W64} (hv : bit v.toNat F.CORE_CONTROL_start.lo = true) :
    p.coreControl c v =
      (let q := p.store .CORE_CONTROL false v c
       let q := if bit v.toNat F.CORE_CONTROL_abort_queues.lo then q.abortQueues c else q
       let q := if bit v.toNat F.CORE_CONTROL_halt_req.lo then q.haltReq c else q
       let q := if bit v.toNat F.CORE_CONTROL_attention.lo then q.attention c else q
       if p.halted c then q.startCore c (F.CORE_CONTROL_start_pc.read v) (bit v.toNat F.CORE_CONTROL_clear_state.lo) else q) := by
  simp only [coreControl, hv, Bool.true_and]

theorem bit_eq_testBit (w k : Nat) : bit w k = w.testBit k := by
  rw [Nat.testBit_eq_decide_div_mod_eq, bit, Nat.shiftRight_eq_div_pow]
  rfl

/-- The start bit is already set in what the command of a start carries. -/
theorem or_start (v : W64) : v ||| 0x10000 ||| maskOf 16 16 = v ||| 0x10000 := by
  have h : maskOf 16 16 = 0x10000 := by decide
  rw [h, BitVec.or_assoc, BitVec.or_self]

theorem bit_start (v : W64) : bit (v ||| 0x10000).toNat F.CORE_CONTROL_start.lo = true := by
  have h : (0x10000 : W64).toNat.testBit F.CORE_CONTROL_start.lo = true := by decide
  rw [bit_eq_testBit, BitVec.toNat_or, Nat.testBit_or, h, Bool.or_true]

end

@[simp] theorem Panel.fget_modCore {p : Panel} (c : Nat) (f : Core → Core) (g : RField) (u i j : Nat) :
    (p.modCore c f).fget g u i j = p.fget g u i j := fget_congr rfl g u i j

/-- The tokens a clear writes read zero. -/
theorem Panel.get_clearTokens {c n : Nat} (hc : c < 1024) (hn : n < 32) {l : List Nat} (hl : ∀ m ∈ l, m < 32) {p : Panel}
    (h : smSorted p.regs = true) (h0 : n ∈ l ∨ p.get .CORE_TOKEN c n = 0) :
    (l.foldl (fun p m => p.put .CORE_TOKEN 0 c m) p).get .CORE_TOKEN c n = 0 := by
  induction l generalizing p with
  | nil => simpa using h0
  | cons m l ih =>
    have hm : m < 32 := hl m (by simp)
    refine ih (fun m hm => hl m (by simp [hm])) (sorted_put h _ _ _ _ _) ?_
    by_cases he : n = m
    · exact .inr (by rw [he, get_put h])
    · rw [get_put_ne h]
      · simpa [he] using h0
      · intro hk
        obtain ⟨-, -, hk, -⟩ := rkey_inj (show c < 2048 by omega) (by omega) (by decide) (show c < 2048 by omega) (by omega)
          (by decide) hk
        exact he hk

section
variable {p : Panel} (hr : smSorted p.regs = true) (hc : smSorted p.cores = true) (c : Nat)

section
include hr

theorem Panel.sorted_clearState : smSorted (p.clearState c).regs = true := by
  rw [clearState, modCore_regs]
  exact foldl_keeps (fun q : Panel => smSorted q.regs = true) _ (fun _ _ h => sorted_put h _ _ _ _ _) _ p hr

theorem Panel.fget_clearState_token (h : c < 1024) {n : Nat} (hn : n < 32) : (p.clearState c).fget F.CORE_TOKEN_value c n = 0 := by
  have hg := get_clearTokens h hn (l := List.range 32) (by simp) hr (.inl (by simpa using hn))
  rw [clearState, fget_modCore, fget, hg]
  rfl

/-- The flags a start sets: running in firmware mode, not halted. -/
theorem Panel.start_flags :
    let q := (((p.fput F.CORE_STATUS_double_trap 0 c).fput F.CORE_STATUS_mode 1 c).fput F.CORE_STATUS_halted 0 c).fput
      F.CORE_STATUS_running 1 c
    q.running c = true ∧ q.halted c = false ∧ q.fwMode c = true := by
  have h1 := sorted_fput hr F.CORE_STATUS_double_trap 0 c 0 0
  have h2 := sorted_fput h1 F.CORE_STATUS_mode 1 c 0 0
  have h3 := sorted_fput h2 F.CORE_STATUS_halted 0 c 0 0
  refine ⟨?_, ?_, ?_⟩
  · rw [running, flag, fget_fput h3 _ _ _ _ _ (by decide)]
    rfl
  · rw [halted, flag,
      fget_fput_field h3 F.CORE_STATUS_running F.CORE_STATUS_halted _ _ _ _ rfl (by decide) (by decide) (by decide),
      fget_fput h2 _ _ _ _ _ (by decide)]
    rfl
  · rw [fwMode, flag,
      fget_fput_field h3 F.CORE_STATUS_running F.CORE_STATUS_mode _ _ _ _ rfl (by decide) (by decide) (by decide),
      fget_fput_field h2 F.CORE_STATUS_halted F.CORE_STATUS_mode _ _ _ _ rfl (by decide) (by decide) (by decide),
      fget_fput h1 _ _ _ _ _ (by decide)]
    rfl

/-- A write to a core's status leaves its tokens. -/
theorem Panel.fget_token_fput_status (h : c < 1024) {n : Nat} (hn : n < 32) (f : RField) (hf : f.reg = .CORE_STATUS) (v : Nat) :
    (p.fput f v c).fget F.CORE_TOKEN_value c n = p.fget F.CORE_TOKEN_value c n := by
  refine fget_fput_ne hr _ _ _ fun hk => ?_
  rw [hf] at hk
  obtain ⟨hk, -⟩ := rkey_inj (show c < 2048 by omega) (by omega) (by decide) (show c < 2048 by omega) (by decide) (by decide) hk
  exact absurd hk (by decide)

end

section
include hc

theorem Panel.sorted_clearTokens (l : List Nat) : smSorted (l.foldl (fun p n => p.put .CORE_TOKEN 0 c n) p).cores = true :=
  foldl_keeps (fun q : Panel => smSorted q.cores = true) _ (fun q n h => by rwa [put_cores]) l p hc

theorem Panel.sorted_clearState_cores : smSorted (p.clearState c).cores = true :=
  sorted_setCore (sorted_clearTokens hc c _) _ _

/-- A cleared core holds no register, no loop and no vector, and no position of its matrix engine is taken. -/
theorem Panel.core_clearState :
    let k := (p.clearState c).core c
    k.q.sregs = [] ∧ k.q.dregs = [] ∧ k.q.loopsP = [] ∧ k.q.loopsF = [] ∧ k.vregs = [] ∧ k.pos0 = none ∧ k.pos1 = none := by
  rw [clearState, core_modCore (sorted_clearTokens hc c _)]
  exact ⟨rfl, rfl, rfl, rfl, rfl, rfl, rfl⟩

end

/-- The start itself: a core that was halted, cleared or not, runs from the entry in firmware mode. -/
def Panel.started (p : Panel) (c pc : Nat) : Panel :=
  ((((p.fput F.CORE_STATUS_double_trap 0 c).fput F.CORE_STATUS_mode 1 c).fput F.CORE_STATUS_halted 0 c).fput
    F.CORE_STATUS_running 1 c).modCore c fun k => { k with q := { k.q with pc := pc }, blocked := none }

theorem Panel.startCore_of_halted {pc : Nat} {clear : Bool} (h : p.halted c = true) :
    p.startCore c pc clear = (if clear then p.clearState c else p).started c pc := by
  simp [startCore, started, h]

include hr in
theorem Panel.started_flags (pc : Nat) :
    (p.started c pc).running c = true ∧ (p.started c pc).halted c = false ∧ (p.started c pc).fwMode c = true := by
  simpa only [started, running, halted, fwMode, flag, fget_modCore] using start_flags hr c

include hc in
theorem Panel.core_started (pc : Nat) :
    (p.started c pc).core c = { p.core c with q := { (p.core c).q with pc := pc }, blocked := none } := by
  rw [started, core_modCore (by exact hc)]
  rfl

include hr in
theorem Panel.fget_started_token (h : c < 1024) {n : Nat} (hn : n < 32) (pc : Nat) :
    (p.started c pc).fget F.CORE_TOKEN_value c n = p.fget F.CORE_TOKEN_value c n := by
  have h1 := sorted_fput hr F.CORE_STATUS_double_trap 0 c 0 0
  have h2 := sorted_fput h1 F.CORE_STATUS_mode 1 c 0 0
  have h3 := sorted_fput h2 F.CORE_STATUS_halted 0 c 0 0
  rw [started, fget_modCore, fget_token_fput_status h3 c h hn _ rfl, fget_token_fput_status h2 c h hn _ rfl,
    fget_token_fput_status h1 c h hn _ rfl, fget_token_fput_status hr c h hn _ rfl]

include hr hc in
/-- What a start leaves in a core: it runs from the entry in firmware mode, and with clear_state its registers, loops, vectors
and tokens are empty. -/
theorem Panel.startCore_starts {pc : Nat} {clear : Bool} (h : c < 1024) (hh : p.halted c = true) :
    let q := p.startCore c pc clear
    q.running c = true ∧ q.halted c = false ∧ q.fwMode c = true ∧ (q.core c).q.pc = pc ∧ (q.core c).blocked = none ∧
      (clear = true → (q.core c).q.sregs = [] ∧ (q.core c).q.dregs = [] ∧ (q.core c).q.loopsP = [] ∧ (q.core c).q.loopsF = [] ∧
        (q.core c).vregs = [] ∧ (q.core c).pos0 = none ∧ (q.core c).pos1 = none ∧
        ∀ n, n < 32 → q.fget F.CORE_TOKEN_value c n = 0) := by
  rw [startCore_of_halted c hh]
  cases clear with
  | false =>
    obtain ⟨hrun, hhalt, hmode⟩ := started_flags hr c pc
    simp [hrun, hhalt, hmode, core_started hc]
  | true =>
    obtain ⟨hrun, hhalt, hmode⟩ := started_flags (sorted_clearState hr c) c pc
    have hk := core_started (sorted_clearState_cores hc c) c pc
    obtain ⟨hs, hd, hp, hf, hv, h0, h1⟩ := core_clearState hc c
    have ht {n : Nat} (hn : n < 32) : ((p.clearState c).started c pc).fget F.CORE_TOKEN_value c n = 0 := by
      rw [fget_started_token (sorted_clearState hr c) c h hn, fget_clearState_token hr c h hn]
    simp only [if_true, hrun, hhalt, hmode, hk, hs, hd, hp, hf, hv, h0, h1, true_and]
    exact fun _ _ hn => ht hn

include hr hc in
theorem Panel.haltReq_halts (h : p.running c = true) :
    (p.haltReq c).running c = false ∧ ((p.haltReq c).core c).blocked = some .halting := by
  simp only [haltReq, h, if_true]
  refine ⟨?_, by rw [core_modCore (by exact hc)]⟩
  have hf := fget_fput hr F.CORE_STATUS_running 0 c 0 0 (by decide)
  rw [running, flag, fget_modCore, hf]
  rfl

end

/-- Settles O49: the packets, BAR0, the register writes and their writers, and a core's control register, a lemma for each. -/
theorem registerAccessesAct : Obligations.RegisterAccessesAct := by
  unfold Obligations.RegisterAccessesAct
  intro s
  refine ⟨fun _ h => acts_management_ignored h, fun k hup he => ⟨fun _ _ hs ho => ?_, acts_management_unknown hup he,
      acts_mgmt_response hup he⟩,
    fun host off len v => ⟨acts_bar0_held, fun hd hh h => acts_bar0_dead hd hh h, fun hd hh hl => ?_⟩,
    fun _ _ _ h => acts_registerWrite_nowhere h, fun _ _ _ _ _ _ _ ho hl => acts_registerWrite ho hl,
    fun src v => ⟨fun _ hs hl => acts_denied hs hl, ?_⟩, fun _ h n v => acts_core_absent h n v,
    fun _ _ _ h => acts_coreTokenWrite_absent h, fun c h => ⟨acts_of_exec rfl (if_pos h), acts_of_exec rfl (if_pos h),
      acts_of_exec rfl (if_pos h), fun v => ?_, fun n v hn => ?_⟩,
    fun c _ _ h hh hr hc => Panel.startCore_starts hr hc c h hh, fun c h hr hc => Panel.haltReq_halts hr hc c h⟩
  · obtain ⟨hr, hr'⟩ := acts_mrd_known hup he hs ho
    exact ⟨hr, hr', acts_mwr_known hup he hs ho⟩
  · exact ⟨fun h => ⟨fun ho => if_pos ho, fun _ _ hr hb => acts_bar0Read hd hh (Panel.bar0Read_some hl h hr hb),
        fun hr => acts_bar0Read hd hh (Panel.bar0Read_none hl h hr)⟩,
      fun h => acts_bar0Read hd hh (Panel.bar0Read_refused hl h),
      fun hn ho => acts_bar0Write hd hh (Panel.bar0Write_word hl hn ho),
      fun h => acts_bar0Write hd hh (Panel.bar0Write_other hl h)⟩
  · rintro rfl
    exact acts_leased_bmc
  · refine acts_of_exec rfl ((if_pos h).trans ?_)
    rw [or_start]
    exact Panel.coreControl_start (bit_start v)
  · exact acts_of_exec rfl (if_pos (by simp [h, hn]))

end Sys2Proof.Machine
end

section
/-! Bring-up: what the stages' parts leave of its results and of the power, and how each stage ends (R351 to R366). -/

namespace Sys2Proof.Machine

/-! ### Lists of sites -/

@[simp] theorem mem_insertAsc {l : List Nat} {x y : Nat} : x ∈ insertAsc l y ↔ x ∈ l ∨ x = y := by
  induction l with
  | nil => simp [insertAsc]
  | cons z l ih =>
    simp only [insertAsc]
    split
    · next h => subst h; simp; tauto
    · split
      · simp; tauto
      · simp [ih, or_assoc]

@[simp] theorem mem_addAll {l m : List Nat} {x : Nat} : x ∈ addAll m l ↔ x ∈ m ∨ x ∈ l := by
  induction l generalizing m with
  | nil => simp [addAll]
  | cons y l ih =>
    have h : addAll m (y :: l) = addAll (insertAsc m y) l := rfl
    simp [h, ih, or_assoc]

@[simp] theorem mem_upTo {n k : Nat} {f : Nat → Bool} : k ∈ upTo n f ↔ k < n ∧ f k = true := by
  simp [upTo]

/-! ### What the stages' parts leave -/

/-- A fold leaves what each of its steps leaves. -/
theorem foldl_leaves {α β γ : Type} (g : α → γ) {f : α → β → α} (h : ∀ a b, g (f a b) = g a) (l : List β) (a : α) :
    g (l.foldl f a) = g a :=
  foldl_keeps (fun x => g x = g a) f (fun x b hx => (h x b).trans hx) l a rfl

section
variable (p : Panel)

@[simp] theorem Panel.ite_pwr (c : Prop) [Decidable c] (q : Panel) :
    (if c then p else q).pwr = if c then p.pwr else q.pwr := apply_ite Panel.pwr c p q

@[simp] theorem Panel.drawBits_pwr (n : Nat) : (p.drawBits n).2.pwr = p.pwr := rfl

@[simp] theorem Panel.readNvm_pwr (h : Nat) (l : List (Nat × Byte)) : (p.readNvm h l).pwr = p.pwr := by
  simp [readNvm, setNvm]

@[simp] theorem Panel.endDomain_pwr (h : Nat) : (p.endDomain h).pwr = p.pwr := by
  simp only [endDomain, fput_pwr]
  exact foldl_leaves Panel.pwr (fun q i => by simp) _ p

@[simp] theorem Panel.showDeviceId_pwr (h : Nat) : (p.showDeviceId h).pwr = p.pwr :=
  foldl_leaves Panel.pwr (fun _ _ => put_pwr ..) _ p

@[simp] theorem Panel.drawNonce_pwr (h : Nat) : (p.drawNonce h).pwr = p.pwr :=
  foldl_leaves Panel.pwr (fun q _ => (put_pwr ..).trans (q.drawBits_pwr 64)) _ p

@[simp] theorem Panel.closeDebug_pwr (h : Nat) : (p.closeDebug h).pwr = p.pwr := rfl

@[simp] theorem Panel.secRestart_pwr (h : Nat) : (p.secRestart h).pwr = p.pwr := by simp [secRestart]

@[simp] theorem Panel.reportHubEdge_pwr (h : Nat) (ev : BitVec 16) (c : BitVec 3) (d : Option Nat) :
    (p.reportHubEdge h ev c d).pwr = p.pwr := by
  cases d <;> rfl

@[simp] theorem Panel.ite_bring (c : Prop) [Decidable c] (q : Panel) :
    (if c then p else q).bring = if c then p.bring else q.bring := apply_ite Panel.bring c p q

@[simp] theorem Panel.draw_bring (n : Nat) : (p.draw n).2.bring = p.bring := rfl

@[simp] theorem Panel.reportHubEdge_bring (h : Nat) (ev : BitVec 16) (c : BitVec 3) (d : Option Nat) :
    (p.reportHubEdge h ev c d).bring = p.bring := by
  cases d <;> rfl

@[simp] theorem Panel.loadHub_bring (x : Flacon) (h : Nat) : (p.loadHub x h).bring = p.bring := by
  rw [loadHub, loadWindow, foldl_leaves Panel.bring, foldl_leaves Panel.bring]
  · exact fun q r => foldl_leaves Panel.bring (fun q i => by simp) _ q
  · intro q e
    split <;> simp

/-- A hub that boots is recorded with the flacon it runs. -/
theorem Panel.bootHub_bring (h : Nat) (x : Flacon) :
    (p.bootHub h x).bring = { p.bring with own := smSet p.bring.own h x } := rfl

@[simp] theorem Panel.showFfl_bring : p.showFfl.bring = p.bring := by simp [showFfl]

@[simp] theorem Panel.loadFfl_bring : p.loadFfl.bring = p.bring := by simp [loadFfl]

@[simp] theorem Panel.showFlacon_bring : p.showFlacon.bring = p.bring := by
  unfold showFlacon
  split <;> simp

@[simp] theorem Panel.repairFuses_bring : p.repairFuses.bring = p.bring := by simp [repairFuses]

@[simp] theorem Panel.logWords_bring (ws : List W64) : (p.logWords ws).bring = p.bring :=
  (addWrap_bring ..).trans (foldl_leaves Panel.bring (fun _ _ => put_bring ..) _ p)

@[simp] theorem Panel.stageRecord_bring (n r d : Nat) (ws : List Nat) : (p.stageRecord n r d ws).bring = p.bring := by
  unfold stageRecord
  dsimp only
  rw [logWords_bring, foldl_leaves Panel.bring (fun _ _ => put_bring ..), draw_bring]

@[simp] theorem Panel.writeRoutes_bring (b : Bool) : (p.writeRoutes b).bring = p.bring := by
  unfold writeRoutes
  extract_lets reg none' _ _ _ q
  have hq : q.bring = p.bring :=
    foldl_leaves Panel.bring (fun q _ => foldl_leaves Panel.bring (fun _ _ => put_bring ..) _ q) _ p
  rw [← hq]
  refine foldl_leaves Panel.bring (fun q _ => ?_) _ q
  exact (foldl_leaves Panel.bring (fun _ _ => put_bring ..) _ _).trans (put_bring ..)

@[simp] theorem Panel.writePorts_bring : p.writePorts.bring = p.bring :=
  foldl_leaves Panel.bring (fun q _ => foldl_leaves Panel.bring (fun _ _ => by simp) _ q) _ p

@[simp] theorem Panel.writeTopo_bring : p.writeTopo.bring = p.bring :=
  foldl_leaves Panel.bring (fun _ _ => put_bring ..) _ p

@[simp] theorem Panel.clearGroup_bring (g : Nat) : (p.clearGroup g).bring = p.bring :=
  foldl_leaves Panel.bring (fun _ _ => resetReg_bring ..) _ p

@[simp] theorem Panel.writeGroup_bring (g : Nat) : (p.writeGroup g).bring = p.bring := by
  rw [writeGroup, foldl_leaves Panel.bring, clearGroup_bring]
  simp

@[simp] theorem Panel.rewriteGroups_bring : p.rewriteGroups.bring = p.bring :=
  foldl_leaves Panel.bring (fun q g => by simp) _ p

@[simp] theorem Panel.installRoutes_bring : p.installRoutes.bring = p.bring := by
  simp [installRoutes, divideShares]

/-! ### Convergence -/

/-- What stage 3 found of the links, and the row pairs kept. -/
def Bringup.links (b : Bringup) : List (Nat × Nat) × List Nat := (b.linksFailed, b.rowPairs)

theorem Bringup.links_eq {b : Bringup} {l : List (Nat × Nat)} {m : List Nat} :
    b.links = (l, m) ↔ b.linksFailed = l ∧ b.rowPairs = m := Prod.mk_inj

/-- Convergence changes what the hubs run and what they passed, and neither links nor row pairs (R353). -/
theorem Panel.converge_links (l : List Nat) : (p.converge l).bring.links = p.bring.links := by
  unfold converge
  extract_lets pick
  clear_value pick
  split
  · rfl
  · extract_lets _ _ again _ p1 p2 _ _ _ _ p3 p4
    have h2 : p2.bring.links = p.bring.links := by
      refine foldl_leaves (fun q => q.bring.links) (fun q h => ?_) again p1
      rfl
    rw [ite_bring]
    split
    · rwa [showFlacon_bring]
    · rwa [showFlacon_bring, loadHub_bring, stageRecord_bring]

theorem Panel.oneZone_links : p.oneZone.bring.links = p.bring.links := by
  rw [oneZone, showFlacon_bring]
  rfl

end

/-! ### Stages 0 to 3 -/

section
variable {s : State}

/-- In its stage, a stage command does what its text says to the panel. -/
theorem acts_of_stage {i : Instr} {n : Nat} {f : Panel → Panel} (he : exec i s = whenStage n s f)
    (hs : s.p.inStage n = true) : Acts i s (f s.p) :=
  acts_of_exec he (if_pos hs)

/-- What a command acts as may be rewritten. -/
theorem Acts.congr {i : Instr} {q q' : Panel} (h : Acts i s q) (e : q = q') : Acts i s q' := e ▸ h

theorem acts_stage0 (hs : s.p.inStage 0 = true) :
    let q := s.p.edgeRailsUp
    (q.pwr.railW = true ∨ q.pwr.railE = true → Acts .stage0 s (q.passStage 0 (!(q.pwr.railW && q.pwr.railE)) [])) ∧
      (q.pwr.railW = false → q.pwr.railE = false → Acts .stage0 s q) := by
  intro q
  have ha : Acts .stage0 s _ := acts_of_stage rfl hs
  refine ⟨fun h => ?_, fun hw he => ?_⟩
  · rwa [if_neg (by rcases h with h | h <;> simp [q, h])] at ha
  · rwa [if_pos (by simp [q, hw, he])] at ha

theorem acts_stage1_waits {a b : List (Nat × Byte)} {selfOk : List Nat} (hs : s.p.inStage 1 = true)
    (h : ∃ h, h < 4 ∧ s.p.detachWaits h = true) : Acts (.stage1 a b selfOk) s s.p := by
  have ha : Acts (.stage1 a b selfOk) s _ := acts_of_stage rfl hs
  rwa [if_pos (by simpa using h)] at ha

/-- Of the hubs of the edge zones that run a copy, HD0 is one where ZW runs it, and HD3 where ZE does. -/
theorem zero_mem_hubs (okA okB : Bool) :
    0 ∈ (if okA then [0, 1] else []) ++ (if okB then [2, 3] else []) ↔ okA = true := by
  cases okA <;> cases okB <;> decide

theorem three_mem_hubs (okA okB : Bool) :
    3 ∈ (if okA then [0, 1] else []) ++ (if okB then [2, 3] else []) ↔ okB = true := by
  cases okA <;> cases okB <;> decide

/-- The panel whose stage ends has the choice of copies in its results; with a copy, hubs boot from it first (R347). -/
theorem acts_stage1 {a b : List (Nat × Byte)} {selfOk : List Nat} (hs : s.p.inStage 1 = true)
    (h : ∀ h, h < 4 → s.p.detachWaits h = false) :
    let p := s.p
    let okA := p.hubUp 0 && selfOk.contains 0 && p.candidate 0 (p.readCopy 0 a)
    let okB := p.hubUp 3 && selfOk.contains 3 && p.candidate 3 (p.readCopy 3 b)
    ∃ (q : Panel) (ws : List Nat),
      q.bring.flacon = (if okA then some (p.readCopy 0 a) else if okB then some (p.readCopy 3 b) else none) ∧
      (0 ∈ q.bring.running ↔ okA = true) ∧ (3 ∈ q.bring.running ↔ okB = true) ∧
      (okA = true ∨ okB = true → Acts (.stage1 a b selfOk) s (q.passStage 1 false ws)) ∧
      (okA = false → okB = false → Acts (.stage1 a b selfOk) s (q.failStage 1 detNoFlacon ws)) := by
  intro p okA okB
  have ha : Acts (.stage1 a b selfOk) s _ := acts_of_stage rfl hs
  rw [if_neg (by simpa using h)] at ha
  extract_lets ca cb ra rb oa ob p2 p3 p4 p5 p6 p7 a8 b8 p8 run x b9 m9 p9 ws at ha
  have hpwr : p8.pwr = s.p.pwr := by
    have h4 : p4.pwr = p3.pwr := foldl_leaves Panel.pwr (fun q h => q.endDomain_pwr h) _ p3
    simp [p8, p7, p6, p5, h4, p3, p2]
  have hup (h : Nat) : p8.hubUp h = s.p.hubUp h := by rw [Panel.hubUp, hpwr, Panel.hubUp]
  have hf : p9.bring.flacon = x := rfl
  have hx : x = if okA then some ca else if okB then some cb else none := rfl
  have hr (h : Nat) : h ∈ p9.bring.running ↔ h ∈ run ∧ s.p.hubUp h = true := by
    rw [← hup]
    exact List.mem_filter
  have h0 : 0 ∈ p9.bring.running ↔ okA = true := by
    rw [hr, zero_mem_hubs oa ob]
    exact and_iff_left_of_imp fun hA => by simp_all [oa, ra]
  have h3 : 3 ∈ p9.bring.running ↔ okB = true := by
    rw [hr, three_mem_hubs oa ob]
    exact and_iff_left_of_imp fun hB => by simp_all [ob, rb]
  clear_value ws p9 x
  cases x with
  | none =>
    have hno : okA = false ∧ okB = false := by revert hx; cases okA <;> cases okB <;> simp
    exact ⟨p9, ws, hf.trans hx, h0, h3, by simp [hno.1, hno.2], fun _ _ => ha⟩
  | some x =>
    dsimp -zeta only at ha
    extract_lets q1 q2 q3 at ha
    have hok : okA = true ∨ okB = true := by revert hx; cases okA <;> cases okB <;> simp
    have hb : (q3.loadFfl.showFlacon).bring.flacon = p9.bring.flacon ∧
        (q3.loadFfl.showFlacon).bring.running = p9.bring.running := by
      simp [q3, q2, q1, Panel.bootHub_bring, apply_ite Bringup.flacon, apply_ite Bringup.running]
    refine ⟨_, ws, hb.1.trans (hf.trans hx), ?_, ?_, fun _ => ha, fun hA hB => by simp [hA, hB] at hok⟩
    · rw [hb.2, h0]
    · rw [hb.2, h3]

/-- An edge hub that passed and runs a copy carries the bring-up on (R351). -/
theorem acts_stage2 {i : Stage2In} (hs : s.p.inStage 2 = true) :
    let p := s.p
    let passed := upTo 4 fun h => p.hubUp h && i.hubsPassed.contains h
    let failed := upTo 4 fun h => p.hubUp h && !i.hubsPassed.contains h
    let ws := [siteMask passed + siteMask failed * 16]
    ∃ q : Panel, q.bring = { p.bring with hubsPassed := passed } ∧
      ((∃ h, (h = 0 ∨ h = 3) ∧ h ∈ passed ∧ h ∈ p.bring.running) →
        Acts (.stage2 i) s (q.passStage 2 (!failed.isEmpty) ws)) ∧
      ((∀ h, h = 0 ∨ h = 3 → h ∈ passed → h ∉ p.bring.running) → Acts (.stage2 i) s (q.failStage 2 detHubSelftest ws)) := by
  intro p passed failed ws
  have ha : Acts (.stage2 i) s _ := acts_of_stage rfl hs
  extract_lets _ _ p2 p3 b3 p4 _ at ha
  have hb : p3.bring = p.bring :=
    (foldl_leaves Panel.bring (fun _ _ => Panel.fput_bring ..) _ p2).trans p.repairFuses_bring
  have hq : p4.bring = { p.bring with hubsPassed := passed } := by rw [← hb]
  have hrun : p4.bring.running = p.bring.running := by rw [hq]
  refine ⟨p4, hq, fun ⟨h, hh, hp, hr⟩ => ?_, fun hno => ?_⟩
  · have hany : [0, 3].any fun h => passed.contains h && p4.bring.running.contains h :=
      List.any_eq_true.2 ⟨h, by simpa using hh, by simp [hp, hrun, hr]⟩
    exact ha.congr (if_pos hany)
  · have hany : ¬ [0, 3].any fun h => passed.contains h && p4.bring.running.contains h := fun hany => by
      obtain ⟨h, hh, hc⟩ := List.any_eq_true.1 hany
      rw [hrun, Bool.and_eq_true, List.contains_iff_mem, List.contains_iff_mem] at hc
      exact hno h (by simpa using hh) hc.1 hc.2
    exact ha.congr (if_neg hany)

/-- Convergence, or one zone alone, comes behind the findings on links and leaves them (R353). -/
theorem acts_stage3 {i : Stage3In} (hs : s.p.inStage 3 = true) : ∃ (q : Panel) (d : Bool) (ws : List Nat),
    q.bring.rowPairs = [] ∧ (∀ l ∈ i.linksFailed, linkName l.1 l.2 ∈ q.bring.linksFailed) ∧
    ((∀ e, e < 72 → q.siteUp e = false) → Acts (.stage3 i) s (q.failStage 3 detNoMesh ws)) ∧
    ((∃ e, e < 72 ∧ q.siteUp e = true) → Acts (.stage3 i) s (q.passStage 3 d ws)) := by
  have ha : Acts (.stage3 i) s _ := acts_of_stage rfl hs
  extract_lets p2 links b2 p3 p4 m4 p5 p6 ws at ha
  have hl : p6.bring.links = (links, []) := by
    have h6 : p6.bring = p4.bring := p5.installRoutes_bring
    have h4 : p4.bring.links = p3.bring.links := by
      unfold p4
      split
      · exact p3.converge_links _
      · exact p3.oneZone_links
    rw [h6, h4]
    rfl
  have hm (l : Nat × Nat) (h : l ∈ i.linksFailed) : linkName l.1 l.2 ∈ links :=
    List.mem_eraseDups.2 (List.mem_append_left _ (List.mem_map_of_mem h))
  obtain ⟨d, hd⟩ : ∃ d, Acts (.stage3 i) s (if (upTo 72 p6.siteUp).isEmpty then p6.failStage 3 detNoMesh ws
    else p6.passStage 3 d ws) := ⟨_, ha⟩
  clear_value ws p6 links
  obtain ⟨hlinks, hpairs⟩ := Bringup.links_eq.1 hl
  refine ⟨p6, d, ws, hpairs, fun l h => hlinks ▸ hm l h, fun hno => ?_, fun ⟨e, he, hup⟩ => ?_⟩
  · rwa [if_pos (by simpa [upTo] using hno)] at hd
  · rwa [if_neg (by simpa [upTo] using ⟨e, he, hup⟩)] at hd

/-! ### Stages 4 and 5 -/

theorem acts_stage4 {i : Stage4In} {x : Flacon} (hx : s.p.bring.flacon = some x) (hs : s.p.inStage 4 = true) :
    let p := s.p
    let q := { p with bring := { p.bring with failed4 := p.findings4 i, rowPairs := [], unused := [] } }
    (q.offenders x ≠ [] → Acts (.stage4 i) s (q.failStage 4 detLevel (q.words4 (q.offenders x)))) ∧
    (q.offenders x = [] →
      (q.selectShape x = none → Acts (.stage4 i) s (q.failStage 4 detNoShape (q.words4 []))) ∧
      (∀ k, q.selectShape x = some k → ∃ (d : Bool) (ws : List Nat),
        Acts (.stage4 i) s (((q.setPick k).closePairs x).passStage 4 d ws))) := by
  intro p q
  have ha : Acts (.stage4 i) s _ := acts_of_stage rfl hs
  extract_lets _ q' at ha
  rw [show q'.bring.flacon = some x from hx] at ha
  dsimp -zeta only at ha
  extract_lets off at ha
  refine ⟨fun h => ?_, fun h => ⟨fun hn => ?_, fun k hk => ?_⟩⟩
  · rwa [if_pos (by simpa using h)] at ha
  · rw [if_neg (by simpa using h), show q'.selectShape x = none from hn] at ha
    exact ha
  · rw [if_neg (by simpa using h), show q'.selectShape x = some k from hk] at ha
    exact ⟨_, _, ha⟩

/-- New results join those of sites already tested (R357, R360). -/
theorem acts_stage5 {i : Stage5In} {x : Flacon} (hx : s.p.bring.flacon = some x) (hs : s.p.inStage 5 = true) :
    let p := s.p
    ∃ (t : List Nat) (f : FailSet) (r : Nat) (ws : List Nat),
      let q : Panel := { p with bring := { p.bring with sitesTested := t, failed5 := f } }
      (∀ e ∈ i.computeFailed, e ∈ p.sramSites x → e ∉ p.bring.sitesTested → e ∈ f.compute) ∧
      (∀ e ∈ p.bring.failed5.compute, e ∈ f.compute) ∧ (∀ e ∈ p.sramSites x, e ∈ t) ∧
      let pick := if q.shapeKey x = p.shapeKey x then some q.heldPick else q.selectShape x
      (pick = none → Acts (.stage5 i) s (q.failStage 5 detNoShape ws)) ∧
      (∀ k, pick = some k → ∃ ws', Acts (.stage5 i) s
        ((((((q.setPick k).applyShape x).dropZones).installRoutes).endStage 5 r ws').startRuns x)) := by
  intro p
  have ha : Acts (.stage5 i) s _ := acts_of_stage rfl hs
  rw [hx] at ha
  dsimp -zeta only at ha
  extract_lets new sites cores mpds was key b q lost m at ha
  have hnew (e : Nat) : e ∈ new ↔ e ∈ p.sramSites x ∧ e ∉ p.bring.sitesTested := List.mem_filter.trans (by simp [p])
  refine ⟨q.bring.sitesTested, q.bring.failed5, testResult new (!lost.isEmpty || !cores.isEmpty || !mpds.isEmpty),
    [m % 2 ^ 64, m / 2 ^ 64, i.rowsRepaired % 2 ^ 32], fun e he hin hout => ?_, fun e he => mem_addAll.2 (.inl he),
    fun e he => ?_, ?_⟩
  · have hs : e ∈ sites :=
      List.mem_filter.2 ⟨List.mem_append_left _ he, List.contains_iff_mem.2 ((hnew e).2 ⟨hin, hout⟩)⟩
    exact mem_addAll.2 (.inr hs)
  · refine mem_addAll.2 ?_
    by_cases ht : e ∈ p.bring.sitesTested
    · exact .inl ht
    · exact .inr ((hnew e).2 ⟨he, ht⟩)
  · intro pick
    refine ⟨fun h => ?_, fun k h => ?_⟩
    · rw [show (if q.shapeKey x = key then some q.heldPick else q.selectShape x) = none from h] at ha
      exact ha
    · rw [show (if q.shapeKey x = key then some q.heldPick else q.selectShape x) = some k from h] at ha
      exact ⟨_, ha⟩

end

/-! ### Rails and runs of stage 6 -/

section
variable {p : Panel}

theorem Panel.railsUp_setRails (h : smSorted p.pwr.rails = true) (z k : Nat) : (p.setRails z k).railsUp z = k :=
  smGetD_smPut_same h 0 z k

theorem Panel.railsUp_setRails_ne (h : smSorted p.pwr.rails = true) {z y : Nat} (k : Nat) (hy : y ≠ z) :
    (p.setRails z k).railsUp y = p.railsUp y :=
  smGetD_smPut_other h 0 0 k hy

/-- Zones whose rails come up together each have the rails asked for. -/
theorem Panel.railsUp_foldl_setRails (h : smSorted p.pwr.rails = true) {z k : Nat} {l : List Nat}
    (hz : z ∈ l ∨ p.railsUp z = k) : (l.foldl (fun (p : Panel) z => p.setRails z k) p).railsUp z = k := by
  induction l generalizing p with
  | nil => simpa using hz
  | cons y l ih =>
    refine ih (smSorted_smPut h 0 y k) ?_
    by_cases hy : z = y
    · exact .inr (hy ▸ railsUp_setRails h z k)
    · rw [railsUp_setRails_ne h k hy]
      simpa [hy] using hz

/-- The HBM rails of a kept strip rise (R325). -/
theorem Panel.hbmRailsUp_railsUp (h : smSorted p.pwr.rails = true) {z : Nat} (hz : z < 12)
    (hk : p.bring.rowPairs.contains (z / 3) = true) (hr : p.railsUp z = 3) : p.hbmRailsUp.railsUp z = 4 :=
  railsUp_foldl_setRails h (.inl (mem_upTo.2 ⟨hz, by simpa [hr] using hk⟩))

/-- The run of a site's engine has ended in a failure. -/
def Panel.runFailed (p : Panel) (site : Nat) : Prop := ∃ r, smGet p.bring.runs site = some r ∧ r.result = 2

variable {quick : Bool} {failed : List Nat} {site k : Nat}

theorem Panel.stageRuns_cons (l : List Nat) :
    p.stageRuns quick (k :: l) failed = (p.stageRuns quick [k] failed).stageRuns quick l failed := rfl

/-- A site whose run has failed is passed over. -/
theorem Panel.stageRuns_one_failed (h : p.runFailed k) : p.stageRuns quick [k] failed = p := by
  obtain ⟨r, hr, h2⟩ := h
  simp [stageRuns, hr, h2]

theorem Panel.stageRuns_one_none (h : smGet p.bring.runs k = none) :
    p.stageRuns quick [k] failed = p.stageRun quick k (failed.contains k) := by
  simp [stageRuns, h]

/-- The run of one site leaves those of the others. -/
theorem Panel.stageRuns_one_ne (h : site ≠ k) :
    smGet (p.stageRuns quick [k] failed).bring.runs site = smGet p.bring.runs site := by
  have hr : smGet (p.stageRun quick k (failed.contains k)).bring.runs site = smGet p.bring.runs site :=
    smGet_smSet_other _ _ h
  simp only [stageRuns, List.foldl_cons, List.foldl_nil]
  split
  · split
    · exact hr
    · rfl
  · exact hr

theorem Panel.stageRun_fails : (p.stageRun quick site true).runFailed site := ⟨_, smGet_smSet_same _ _ _, rfl⟩

/-- A failed run stays so. -/
theorem Panel.stageRuns_keeps_failed (h : p.runFailed site) (l : List Nat) :
    (p.stageRuns quick l failed).runFailed site := by
  induction l generalizing p with
  | nil => exact h
  | cons k l ih =>
    rw [stageRuns_cons]
    refine ih ?_
    by_cases hk : site = k
    · rwa [← hk, stageRuns_one_failed h]
    · rwa [runFailed, stageRuns_one_ne hk]

/-- A stack that had no run and is found failed has a run that failed (R198). -/
theorem Panel.stageRuns_fails {l : List Nat} (hl : site ∈ l) (hn : smGet p.bring.runs site = none) (hf : site ∈ failed) :
    (p.stageRuns quick l failed).runFailed site := by
  induction l generalizing p with
  | nil => simp at hl
  | cons k l ih =>
    rw [stageRuns_cons]
    by_cases hk : site = k
    · rw [← hk, stageRuns_one_none hn, List.contains_iff_mem.2 hf]
      exact stageRuns_keeps_failed stageRun_fails l
    · exact ih ((List.mem_cons.1 hl).resolve_left hk) (by rwa [stageRuns_one_ne hk])

@[simp] theorem Panel.stageRuns_pwr (l : List Nat) : (p.stageRuns quick l failed).pwr = p.pwr := by
  refine foldl_leaves Panel.pwr (fun q k => ?_) l p
  split
  · split <;> rfl
  · rfl

@[simp] theorem Panel.hbmRailsUp_bring : p.hbmRailsUp.bring = p.bring := by
  unfold hbmRailsUp
  refine foldl_leaves Panel.bring (fun q z => ?_) _ p
  rfl

end

/-! ### Stages 6 to 9 -/

section
variable {s : State}

/-- Rails rise before the runs, and a run that failed is what fails a stack (R187, R197). -/
theorem acts_stage6 {i : Stage6In} {x : Flacon} (hx : s.p.bring.flacon = some x) (hs : s.p.inStage 6 = true) :
    let p := s.p
    ∃ (q : Panel) (r : Nat) (ws : List Nat),
      let good := p.stackSites.filter fun k => !q.bring.stackFailed.contains k
      (∀ z, z < 12 → p.bring.rowPairs.contains (z / 3) = true → p.railsUp z = 3 → smSorted p.pwr.rails = true →
        q.railsUp z = 4) ∧
      (∀ k ∈ p.stackSites, k ∉ p.bring.stacksTested → smGet p.bring.runs k = none → k ∈ i.stackFailed →
        k ∈ q.bring.stackFailed) ∧
      (good = [] → Acts (.stage6 i) s (q.failStage 6 detNoStack ws)) ∧
      (good ≠ [] → Acts (.stage6 i) s (((q.applyStacks x good).installRoutes).endStage 6 r ws)) := by
  intro p
  have ha : Acts (.stage6 i) s _ := acts_of_stage rfl hs
  rw [hx] at ha
  dsimp -zeta only at ha
  extract_lets sites new p2 failed b p3 words good at ha
  refine ⟨p3, testResult new (decide (good.length < sites.length)), words, fun z hz hk hr h => ?_,
    fun k hk ht hn hf => ?_, fun h => ?_, fun h => ?_⟩
  · have hp : p3.pwr = p.hbmRailsUp.pwr := Panel.stageRuns_pwr new
    rw [Panel.railsUp, hp]
    exact Panel.hbmRailsUp_railsUp h hz hk hr
  · have hnew : k ∈ new := List.mem_filter.2 ⟨hk, by simpa [p] using ht⟩
    obtain ⟨r, hr, h2⟩ : p2.runFailed k := Panel.stageRuns_fails hnew (by rwa [Panel.hbmRailsUp_bring]) hf
    exact mem_addAll.2 (.inr (List.mem_filter.2 ⟨hnew, by simp [hr, h2]⟩))
  · rwa [if_pos (List.isEmpty_iff.2 h)] at ha
  · rwa [if_neg (fun he => h (List.isEmpty_iff.1 he))] at ha

theorem acts_stage7 {i : Stage7In} {x : Flacon} (hx : s.p.bring.flacon = some x) (hs : s.p.inStage 7 = true) :
    let p1 := s.p.loadCores x
    let bad := upTo p1.nCores fun c => i.mismatched.contains c || !p1.checkOk x c
    let r := bad.foldl (fun (acc : Panel × List Nat × Nat) c => acc.1.mendCore x i c acc.2.1 acc.2.2) (p1, [], 0)
    let ws := [p1.nCores + bad.length * 2 ^ 16 + r.2.2 * 2 ^ 32]
    (r.2.1 = [] → Acts (.stage7 i) s (r.1.passStage 7 (!bad.isEmpty) ws)) ∧
    (r.2.1 ≠ [] → Acts (.stage7 i) s (((r.1.addFailed r.2.1 []).stageRecord 7 resDegraded 0 ws).restart4)) := by
  intro p1 bad r ws
  have ha : Acts (.stage7 i) s _ := acts_of_stage rfl hs
  rw [hx] at ha
  exact ⟨fun h => ha.congr (if_pos (List.isEmpty_iff.2 h)),
    fun h => ha.congr (if_neg fun he => h (List.isEmpty_iff.1 he))⟩

theorem acts_stage8 {i : Stage8In} (hs : s.p.inStage 8 = true) :
    let p := s.p
    (i.cannotHold = true → Acts (.stage8 i) s (p.failStage 8 detCalibration (p.words8 p.islandsInUse))) ∧
    (i.cannotHold = false →
      let l := i.margins.filter fun m => p.calibrated.hasIsland m.1 m.2.1
      let q := l.foldl (fun (p : Panel) m => p.baseline m.1 m.2.1 m.2.2) p.calibrated
      ∃ ws : List Nat, Acts (.stage8 i) s (q.passStage 8 false ws)) := by
  have ha : Acts (.stage8 i) s _ := acts_of_stage rfl hs
  refine ⟨fun h => ?_, fun h => ?_⟩
  · rwa [if_pos h] at ha
  · rw [if_neg (by simp [h])] at ha
    exact ⟨_, ha⟩

theorem acts_stage9 {i : Stage9In} {x : Flacon} (hx : s.p.bring.flacon = some x) (hs : s.p.inStage 9 = true) :
    ∃ (q : Panel) (pairs : Bool) (ws : List Nat),
      let open' := (q.stageRecord 9 resPass 0 ws).openService
      Acts (.stage9 i) s (if pairs then open'.tryPair i.peer else open') := by
  have ha : Acts (.stage9 i) s _ := acts_of_stage rfl hs
  rw [hx] at ha
  dsimp -zeta only at ha
  extract_lets p2 pairs p3 p4 ups adm paired w p5 at ha
  exact ⟨p4, pairs, [w], ha⟩

/-! ### Bounds, retries and the field fault list -/

theorem acts_stageBoundExpire (h : s.p.stage ≤ 9) (hs : s.p.inStage s.p.stage = true) :
    Acts .stageBoundExpire s (s.p.failStage s.p.stage detBound (s.p.wordsNow s.p.stage)) :=
  acts_of_exec rfl (if_pos ⟨h, hs⟩)

/-- A writer that may manage the panel does what it asks (R364, R439). -/
theorem Panel.asManager_of_mayManage {p : Panel} {src : Writer} (h : MayManage p src) (f : Panel → Panel) :
    p.asManager src f = f p := by
  rcases h with rfl | ⟨hb, hl⟩
  · rfl
  · cases src <;> simp_all [asManager, asWriter, writerHost]

theorem acts_bringupControl {src : Writer} (h : MayManage s.p src) (v : W64) :
    Acts (.bringupRetry src v) s (s.p.bringupControl (v ||| 0x10000)) ∧
      Acts (.fflClear src v) s (s.p.bringupControl (v ||| 0x20000)) :=
  ⟨acts_of_exec rfl (Panel.asManager_of_mayManage h _), acts_of_exec rfl (Panel.asManager_of_mayManage h _)⟩

end

/-- Settles O43: a lemma for each stage, the bound, and the writes of PMC_BRINGUP_CONTROL. -/
theorem bringupStagesRun : Obligations.BringupStagesRun := by
  unfold Obligations.BringupStagesRun
  intro s
  exact ⟨acts_stage0, fun _ _ _ hs => ⟨acts_stage1_waits hs, acts_stage1 hs⟩, fun _ => acts_stage2, fun _ => acts_stage3,
    fun _ hx => ⟨fun _ => acts_stage4 hx, fun _ => acts_stage5 hx, fun _ => acts_stage6 hx, fun _ => acts_stage7 hx,
      fun _ => acts_stage9 hx⟩,
    fun _ => acts_stage8, rfl, acts_stageBoundExpire, fun _ v h => acts_bringupControl h v⟩

end Sys2Proof.Machine
end

section
/-! The instruction word (R46): what a form reads from a word that the same form wrote, what it writes back of a word it read, and
that a core instruction changes the panel alone. -/

namespace Sys2Proof.Machine

open BitVec

section
variable {cls : BitVec 3} {op : BitVec 5} {x : BitVec 56} {w : W64}

/-! ### Fields of a written word -/

@[simp] theorem field_wordOf_cls : field (wordOf cls op x) 61 3 = cls := by
  simp (disch := decide) only [field, wordOf, extractLsb'_append_eq_of_le, Nat.reduceSub, extractLsb'_eq_self]

@[simp] theorem field_wordOf_op : field (wordOf cls op x) 56 5 = op := by
  simp (disch := decide) only [field, wordOf, extractLsb'_append_eq_of_le, extractLsb'_append_eq_of_add_le,
    Nat.reduceSub, extractLsb'_eq_self]

@[simp] theorem field_wordOf {lo n : Nat} (h : lo + n ≤ 56) : field (wordOf cls op x) lo n = x.extractLsb' lo n :=
  extractLsb'_append_eq_of_add_le h

@[simp] theorem bitOf_beq_one (b : Bool) : (bitOf b == 1#1) = b := by cases b <;> rfl

theorem bit_of_one : ∀ b : BitVec 1, b.getLsbD 0 = (b == 1#1) ∧ bitOf (b.getLsbD 0) = b := by decide

@[simp] theorem bitOf_flagAt (k : Nat) : bitOf (flagAt w k) = w.extractLsb' k 1 := by
  simpa [flagAt] using (bit_of_one (w.extractLsb' k 1)).2

@[simp] theorem flagAt_wordOf {k : Nat} (h : k + 1 ≤ 56) : flagAt (wordOf cls op x) k = (x.extractLsb' k 1 == 1#1) := by
  rw [← (bit_of_one _).1, ← field_wordOf h (cls := cls) (op := op)]
  simp [flagAt, field]

/-- A word is written from its class, its op and the fields below them. -/
theorem wordOf_fields : wordOf (field w 61 3) (field w 56 5) (field w 0 56) = w := by
  simp (disch := decide) only [field, wordOf, extractLsb'_append_extractLsb'_eq_extractLsb', extractLsb'_eq_self]

/-! ### Reading what a form wrote -/

@[simp] theorem allForm_wordOf : allForm (wordOf cls op x) = x := by simp [allForm]

@[simp] theorem regForm_ofReg (f : RegForm) : regForm (wordOf cls op (ofReg f)) = f := by
  simp (disch := decide) [regForm, ofReg, extractLsb'_append_eq_of_le, extractLsb'_append_eq_of_add_le, -Nat.reduceAdd]
@[simp] theorem immForm_ofImm (f : ImmForm) : immForm (wordOf cls op (ofImm f)) = f := by
  simp (disch := decide) [immForm, ofImm, extractLsb'_append_eq_of_le, extractLsb'_append_eq_of_add_le, -Nat.reduceAdd]
@[simp] theorem dMemForm_ofDMem (f : DMemForm) : dMemForm (wordOf cls op (ofDMem f)) = f := by
  simp (disch := decide) [dMemForm, ofDMem, extractLsb'_append_eq_of_le, extractLsb'_append_eq_of_add_le, -Nat.reduceAdd]
@[simp] theorem dFldForm_ofDFld (f : DFldForm) : dFldForm (wordOf cls op (ofDFld f)) = f := by
  simp (disch := decide) [dFldForm, ofDFld, extractLsb'_append_eq_of_le, extractLsb'_append_eq_of_add_le, -Nat.reduceAdd]
@[simp] theorem branchForm_ofBranch (f : BranchForm) : branchForm (wordOf cls op (ofBranch f)) = f := by
  simp (disch := decide) [branchForm, ofBranch, extractLsb'_append_eq_of_le, extractLsb'_append_eq_of_add_le, -Nat.reduceAdd]
@[simp] theorem jumpForm_ofJump (f : JumpForm) : jumpForm (wordOf cls op (ofJump f)) = f := by
  simp (disch := decide) [jumpForm, ofJump, extractLsb'_append_eq_of_le, extractLsb'_append_eq_of_add_le, -Nat.reduceAdd]
@[simp] theorem rJumpForm_ofRJump (f : RJumpForm) : rJumpForm (wordOf cls op (ofRJump f)) = f := by
  simp (disch := decide) [rJumpForm, ofRJump, extractLsb'_append_eq_of_le, extractLsb'_append_eq_of_add_le, -Nat.reduceAdd]
@[simp] theorem loopForm_ofLoop (f : LoopForm) : loopForm (wordOf cls op (ofLoop f)) = f := by
  simp (disch := decide) [loopForm, ofLoop, extractLsb'_append_eq_of_le, extractLsb'_append_eq_of_add_le, -Nat.reduceAdd]
@[simp] theorem tpostForm_ofTpost (f : TpostForm) : tpostForm (wordOf cls op (ofTpost f)) = f := by
  simp (disch := decide) [tpostForm, ofTpost, extractLsb'_append_eq_of_le, extractLsb'_append_eq_of_add_le, -Nat.reduceAdd]
@[simp] theorem twaitForm_ofTwait (f : TwaitForm) : twaitForm (wordOf cls op (ofTwait f)) = f := by
  simp (disch := decide) [twaitForm, ofTwait, extractLsb'_append_eq_of_le, extractLsb'_append_eq_of_add_le, -Nat.reduceAdd]
@[simp] theorem twoForm_ofTwo (f : TwoForm) : twoForm (wordOf cls op (ofTwo f)) = f := by
  simp (disch := decide) [twoForm, ofTwo, extractLsb'_append_eq_of_le, extractLsb'_append_eq_of_add_le, -Nat.reduceAdd]
@[simp] theorem barForm_ofBar (f : BarForm) : barForm (wordOf cls op (ofBar f)) = f := by
  simp (disch := decide) [barForm, ofBar, extractLsb'_append_eq_of_le, extractLsb'_append_eq_of_add_le, -Nat.reduceAdd]
@[simp] theorem dmaCopyForm_ofDmaCopy (f : DmaCopyForm) : dmaCopyForm (wordOf cls op (ofDmaCopy f)) = f := by
  simp (disch := decide) [dmaCopyForm, ofDmaCopy, extractLsb'_append_eq_of_le, extractLsb'_append_eq_of_add_le, -Nat.reduceAdd]
@[simp] theorem dmaListForm_ofDmaList (f : DmaListForm) : dmaListForm (wordOf cls op (ofDmaList f)) = f := by
  simp (disch := decide) [dmaListForm, ofDmaList, extractLsb'_append_eq_of_le, extractLsb'_append_eq_of_add_le, -Nat.reduceAdd]
@[simp] theorem dmaFillForm_ofDmaFill (f : DmaFillForm) : dmaFillForm (wordOf cls op (ofDmaFill f)) = f := by
  simp (disch := decide) [dmaFillForm, ofDmaFill, extractLsb'_append_eq_of_le, extractLsb'_append_eq_of_add_le, -Nat.reduceAdd]
@[simp] theorem dmaMarkForm_ofDmaMark (f : DmaMarkForm) : dmaMarkForm (wordOf cls op (ofDmaMark f)) = f := by
  simp (disch := decide) [dmaMarkForm, ofDmaMark, extractLsb'_append_eq_of_le, extractLsb'_append_eq_of_add_le, -Nat.reduceAdd]
@[simp] theorem csrForm_ofCsr (f : CsrForm) : csrForm (wordOf cls op (ofCsr f)) = f := by
  simp (disch := decide) [csrForm, ofCsr, extractLsb'_append_eq_of_le, extractLsb'_append_eq_of_add_le, -Nat.reduceAdd]
@[simp] theorem fenceForm_ofFence (f : FenceForm) : fenceForm (wordOf cls op (ofFence f)) = f := by
  simp (disch := decide) [fenceForm, ofFence, extractLsb'_append_eq_of_le, extractLsb'_append_eq_of_add_le, -Nat.reduceAdd]
@[simp] theorem trapForm_ofTrap (f : TrapForm) : trapForm (wordOf cls op (ofTrap f)) = f := by
  simp (disch := decide) [trapForm, ofTrap, extractLsb'_append_eq_of_le, extractLsb'_append_eq_of_add_le, -Nat.reduceAdd]
@[simp] theorem mmaForm_ofMma (f : MmaForm) : mmaForm (wordOf cls op (ofMma f)) = f := by
  simp (disch := decide) [mmaForm, ofMma, extractLsb'_append_eq_of_le, extractLsb'_append_eq_of_add_le, -Nat.reduceAdd]
@[simp] theorem grpRegForm_ofGrpReg (f : GrpRegForm) : grpRegForm (wordOf cls op (ofGrpReg f)) = f := by
  simp (disch := decide) [grpRegForm, ofGrpReg, extractLsb'_append_eq_of_le, extractLsb'_append_eq_of_add_le, -Nat.reduceAdd]
@[simp] theorem grpCloseForm_ofGrpClose (f : GrpCloseForm) : grpCloseForm (wordOf cls op (ofGrpClose f)) = f := by
  simp (disch := decide) [grpCloseForm, ofGrpClose, extractLsb'_append_eq_of_le, extractLsb'_append_eq_of_add_le, -Nat.reduceAdd]
@[simp] theorem accSendForm_ofAccSend (f : AccSendForm) : accSendForm (wordOf cls op (ofAccSend f)) = f := by
  simp (disch := decide) [accSendForm, ofAccSend, extractLsb'_append_eq_of_le, extractLsb'_append_eq_of_add_le, -Nat.reduceAdd]
@[simp] theorem grpForm_ofGrp (f : GrpForm) : grpForm (wordOf cls op (ofGrp f)) = f := by
  simp (disch := decide) [grpForm, ofGrp, extractLsb'_append_eq_of_le, extractLsb'_append_eq_of_add_le, -Nat.reduceAdd]
@[simp] theorem vecForm_ofVec (f : VecForm) : vecForm (wordOf cls op (ofVec f)) = f := by
  simp (disch := decide) [vecForm, ofVec, extractLsb'_append_eq_of_le, extractLsb'_append_eq_of_add_le, -Nat.reduceAdd]

/-! ### Writing what a form read -/

@[simp] theorem ofReg_regForm : ofReg (regForm w) = field w 0 56 := by
  simp (disch := decide) [regForm, ofReg, field, extractLsb'_append_extractLsb'_eq_extractLsb', -Nat.reduceAdd]
@[simp] theorem ofImm_immForm : ofImm (immForm w) = field w 0 56 := by
  simp (disch := decide) [immForm, ofImm, field, extractLsb'_append_extractLsb'_eq_extractLsb', -Nat.reduceAdd]
@[simp] theorem ofDMem_dMemForm : ofDMem (dMemForm w) = field w 0 56 := by
  simp (disch := decide) [dMemForm, ofDMem, field, extractLsb'_append_extractLsb'_eq_extractLsb', -Nat.reduceAdd]
@[simp] theorem ofDFld_dFldForm : ofDFld (dFldForm w) = field w 0 56 := by
  simp (disch := decide) [dFldForm, ofDFld, field, extractLsb'_append_extractLsb'_eq_extractLsb', -Nat.reduceAdd]
@[simp] theorem ofBranch_branchForm : ofBranch (branchForm w) = field w 0 56 := by
  simp (disch := decide) [branchForm, ofBranch, field, extractLsb'_append_extractLsb'_eq_extractLsb', -Nat.reduceAdd]
@[simp] theorem ofJump_jumpForm : ofJump (jumpForm w) = field w 0 56 := by
  simp (disch := decide) [jumpForm, ofJump, field, extractLsb'_append_extractLsb'_eq_extractLsb', -Nat.reduceAdd]
@[simp] theorem ofRJump_rJumpForm : ofRJump (rJumpForm w) = field w 0 56 := by
  simp (disch := decide) [rJumpForm, ofRJump, field, extractLsb'_append_extractLsb'_eq_extractLsb', -Nat.reduceAdd]
@[simp] theorem ofLoop_loopForm : ofLoop (loopForm w) = field w 0 56 := by
  simp (disch := decide) [loopForm, ofLoop, field, extractLsb'_append_extractLsb'_eq_extractLsb', -Nat.reduceAdd]
@[simp] theorem ofTpost_tpostForm : ofTpost (tpostForm w) = field w 0 56 := by
  simp (disch := decide) [tpostForm, ofTpost, field, extractLsb'_append_extractLsb'_eq_extractLsb', -Nat.reduceAdd]
@[simp] theorem ofTwait_twaitForm : ofTwait (twaitForm w) = field w 0 56 := by
  simp (disch := decide) [twaitForm, ofTwait, field, extractLsb'_append_extractLsb'_eq_extractLsb', -Nat.reduceAdd]
@[simp] theorem ofTwo_twoForm : ofTwo (twoForm w) = field w 0 56 := by
  simp (disch := decide) [twoForm, ofTwo, field, extractLsb'_append_extractLsb'_eq_extractLsb', -Nat.reduceAdd]
@[simp] theorem ofBar_barForm : ofBar (barForm w) = field w 0 56 := by
  simp (disch := decide) [barForm, ofBar, field, extractLsb'_append_extractLsb'_eq_extractLsb', -Nat.reduceAdd]
@[simp] theorem ofDmaCopy_dmaCopyForm : ofDmaCopy (dmaCopyForm w) = field w 0 56 := by
  simp (disch := decide) [dmaCopyForm, ofDmaCopy, field, extractLsb'_append_extractLsb'_eq_extractLsb', -Nat.reduceAdd]
@[simp] theorem ofDmaList_dmaListForm : ofDmaList (dmaListForm w) = field w 0 56 := by
  simp (disch := decide) [dmaListForm, ofDmaList, field, extractLsb'_append_extractLsb'_eq_extractLsb', -Nat.reduceAdd]
@[simp] theorem ofDmaFill_dmaFillForm : ofDmaFill (dmaFillForm w) = field w 0 56 := by
  simp (disch := decide) [dmaFillForm, ofDmaFill, field, extractLsb'_append_extractLsb'_eq_extractLsb', -Nat.reduceAdd]
@[simp] theorem ofDmaMark_dmaMarkForm : ofDmaMark (dmaMarkForm w) = field w 0 56 := by
  simp (disch := decide) [dmaMarkForm, ofDmaMark, field, extractLsb'_append_extractLsb'_eq_extractLsb', -Nat.reduceAdd]
@[simp] theorem ofCsr_csrForm : ofCsr (csrForm w) = field w 0 56 := by
  simp (disch := decide) [csrForm, ofCsr, field, extractLsb'_append_extractLsb'_eq_extractLsb', -Nat.reduceAdd]
@[simp] theorem ofFence_fenceForm : ofFence (fenceForm w) = field w 0 56 := by
  simp (disch := decide) [fenceForm, ofFence, field, extractLsb'_append_extractLsb'_eq_extractLsb', -Nat.reduceAdd]
@[simp] theorem ofTrap_trapForm : ofTrap (trapForm w) = field w 0 56 := by
  simp (disch := decide) [trapForm, ofTrap, field, extractLsb'_append_extractLsb'_eq_extractLsb', -Nat.reduceAdd]
@[simp] theorem ofMma_mmaForm : ofMma (mmaForm w) = field w 0 56 := by
  simp (disch := decide) [mmaForm, ofMma, field, extractLsb'_append_extractLsb'_eq_extractLsb', -Nat.reduceAdd]
@[simp] theorem ofGrpReg_grpRegForm : ofGrpReg (grpRegForm w) = field w 0 56 := by
  simp (disch := decide) [grpRegForm, ofGrpReg, field, extractLsb'_append_extractLsb'_eq_extractLsb', -Nat.reduceAdd]
@[simp] theorem ofGrpClose_grpCloseForm : ofGrpClose (grpCloseForm w) = field w 0 56 := by
  simp (disch := decide) [grpCloseForm, ofGrpClose, field, extractLsb'_append_extractLsb'_eq_extractLsb', -Nat.reduceAdd]
@[simp] theorem ofAccSend_accSendForm : ofAccSend (accSendForm w) = field w 0 56 := by
  simp (disch := decide) [accSendForm, ofAccSend, field, extractLsb'_append_extractLsb'_eq_extractLsb', -Nat.reduceAdd]
@[simp] theorem ofGrp_grpForm : ofGrp (grpForm w) = field w 0 56 := by
  simp (disch := decide) [grpForm, ofGrp, field, extractLsb'_append_extractLsb'_eq_extractLsb', -Nat.reduceAdd]
@[simp] theorem ofVec_vecForm : ofVec (vecForm w) = field w 0 56 := by
  simp (disch := decide) [vecForm, ofVec, field, extractLsb'_append_extractLsb'_eq_extractLsb', -Nat.reduceAdd]


/-! ### Reading and writing a word (R46) -/

/-- What `coreWord` writes, `coreInstr` reads. -/
theorem coreInstr_of_coreWord {i : Instr} {c : Nat} (h : coreWord i = some (c, w)) : coreInstr c w = some i := by
  unfold coreWord at h
  split at h <;> cases h
  all_goals simp [coreInstr, scalarInstr, controlInstr, syncInstr, dmaInstr, matrixInstr, vectorInstr, groupInstr, systemInstr]

/-- A class and an op read from a word, and the fields below them, are the word. -/
theorem wordOf_eq {k o : Nat} (hk : (field w 61 3).toNat = k) (ho : (field w 56 5).toNat = o) :
    wordOf (BitVec.ofNat 3 k) (BitVec.ofNat 5 o) (field w 0 56) = w := by
  subst hk ho
  simp [wordOf_fields]

/-- What `coreInstr` reads, `coreWord` writes. -/
theorem coreWord_of_coreInstr {i : Instr} {c : Nat} (h : coreInstr c w = some i) : coreWord i = some (c, w) := by
  have key : ∀ k o, (field w 61 3).toNat = k → (field w 56 5).toNat = o →
      some (c, wordOf (BitVec.ofNat 3 k) (BitVec.ofNat 5 o) (field w 0 56)) = some (c, w) :=
    fun k o hk ho => by rw [wordOf_eq hk ho]
  simp only [coreInstr, scalarInstr, controlInstr, syncInstr, dmaInstr, matrixInstr, vectorInstr, groupInstr, systemInstr] at h
  split at h
  case h_8 h0 h1 h2 h3 h4 h5 h6 =>
    have hk : (field w 61 3).toNat = 7 := by
      have hlt := (field w 61 3).isLt
      simp only [imp_false] at h0 h1 h2 h3 h4 h5 h6
      omega
    split at h <;> cases h <;> rename_i ho <;> simp [coreWord, allForm, ← key 7 _ hk ho]
  all_goals
    rename_i hk
    split at h <;> cases h <;> rename_i ho <;> simp [coreWord, allForm, ← key _ _ hk ho]

theorem coreWord_iff_coreInstr (i : Instr) (c : Nat) (w : W64) : coreWord i = some (c, w) ↔ coreInstr c w = some i :=
  ⟨coreInstr_of_coreWord, coreWord_of_coreInstr⟩
end
end Sys2Proof.Machine
end

section
/-! How a core runs its program: a core instruction changes the panel alone, and what a completion leaves (R46, R53, R54, R71). -/

namespace Sys2Proof.Machine

/-- A core instruction changes the panel alone: the queue of commands is neither read nor written. -/
theorem exec_of_coreWord {i : Instr} {x : Nat × W64} (h : coreWord i = some x) :
    ∃ f : Panel → Panel, ∀ s : State, exec i s = .next (s.upd f) := by
  unfold coreWord at h
  split at h <;> first | exact ⟨_, fun _ => rfl⟩ | cases h

theorem exec_of_nextInstr {p : Panel} {c : Nat} {i : Instr} (hi : p.canIssue c .issues = true)
    (h : p.nextInstr c = some i) : exec i ⟨p, []⟩ = .next ⟨p.runWord c, []⟩ := by
  obtain ⟨f, hf⟩ := exec_of_coreWord (coreWord_of_coreInstr h)
  rw [hf]
  simp [Panel.runWord, hi, h, hf, State.upd]

theorem runWord_reserved {p : Panel} {c : Nat} (hi : p.canIssue c .issues = true) (h : p.nextInstr c = none) :
    p.runWord c = p.foundTrap c ⟨trapIllegal, none⟩ := by
  rw [← issue_bad hi (body := fun _ _ => .stall)]
  simp [Panel.runWord, hi, h, Panel.reservedWord]

/-! ### Loop levels of a mode -/

section
variable (q : SeqState) (fw : Bool) (l : List Loop)

@[simp] theorem SeqState.setLoops_loops : (q.setLoops fw l).loops fw = l := by cases fw <;> rfl
@[simp] theorem SeqState.setLoops_loops_not : (q.setLoops fw l).loops (!fw) = q.loops (!fw) := by cases fw <;> rfl
@[simp] theorem SeqState.setLoops_pc : (q.setLoops fw l).pc = q.pc := by cases fw <;> rfl
@[simp] theorem SeqState.setLoops_seq : (q.setLoops fw l).seq = q.seq := by cases fw <;> rfl
@[simp] theorem SeqState.setLoops_sregs : (q.setLoops fw l).sregs = q.sregs := by cases fw <;> rfl
@[simp] theorem SeqState.setLoops_dregs : (q.setLoops fw l).dregs = q.dregs := by cases fw <;> rfl

end

theorem SeqState.loops_congr {q q' : SeqState} (hp : q.loopsP = q'.loopsP) (hf : q.loopsF = q'.loopsF) (fw : Bool) :
    q.loops fw = q'.loops fw := by
  simp [SeqState.loops, hp, hf]

@[simp] theorem Core.complete_loops (k : Core) (pc : Nat) (fw : Bool) : (k.complete pc).q.loops fw = k.q.loops fw :=
  SeqState.loops_congr rfl rfl fw

/-- Settles O10: words and commands by `coreWord_iff_coreInstr`, a run of the word at the index by what a core instruction may
change, a completion by `completeAt_some`. -/
theorem completionMovesPastTheInstruction : Obligations.CompletionMovesPastTheInstruction := by
  unfold Obligations.CompletionMovesPastTheInstruction
  refine ⟨coreWord_iff_coreInstr, fun p c hi => ⟨fun i => exec_of_nextInstr hi, runWord_reserved hi⟩, fun p q c hp hq => ?_⟩
  obtain ⟨hlt, rfl⟩ := completeAt_some hq
  have hk := Panel.core_setCore hp.2.1 c
  refine ⟨?_, ?_, ?_, ?_, ?_, ?_, ?_, ?_, ?_, ?_, ?_, ?_, ?_, ?_, rfl, rfl, rfl, rfl⟩
  case refine_2 => rw [hk]; exact hlt
  case refine_14 => exact fun c' hc => Panel.core_setCore_ne hp.2.1 _ hc
  all_goals rw [hk]
  case refine_4 | refine_5 => simp
  all_goals simp [Core.complete]

end Sys2Proof.Machine
end

section
/-! The scalar class (R48 to R51): what each register, immediate, memory and descriptor-field instruction acts as. -/

namespace Sys2Proof.Machine

section
variable {p q : Panel} {c : Nat}

/-! ### Register and immediate forms -/

theorem regOp_done {f : RegForm} {op : W64 → W64 → W64} (hi : p.canIssue c .issues = true) (hf : f.rsvd = 0)
    (hr : ∀ r ∈ [f.ra, f.rb, f.rd], (p.core c).unready r = false)
    (hq : Completes p c (p.setS c f.rd (op ((p.core c).sreg f.ra) ((p.core c).sreg f.rb))) q) : p.regOp c f op = q := by
  have hb : (f.rsvd != 0) = false := by simp [hf]
  rw [Panel.regOp, hb]
  exact issue_done hi (if_neg (by simp_all)) hq

theorem regOp_reserved {f : RegForm} (op : W64 → W64 → W64) (hi : p.canIssue c .issues = true) (hf : f.rsvd ≠ 0) :
    p.regOp c f op = p.foundTrap c ⟨0x01, none⟩ := by
  have hb : (f.rsvd != 0) = true := bne_iff_ne.2 hf
  rw [Panel.regOp, hb]
  exact issue_bad hi

theorem immOp_done {f : ImmForm} {op : W64 → W64 → W64} {bad : Bool} {v : W64} (hi : p.canIssue c .issues = true)
    (hf : bad = false) (hr : ∀ r ∈ [f.ra, f.rd], (p.core c).unready r = false)
    (hv : op ((p.core c).sreg f.ra) (immVal f) = v) (hq : Completes p c (p.setS c f.rd v) q) : p.immOp c f bad op = q := by
  subst hf hv
  exact issue_done hi (if_neg (by simp_all)) hq

/-- A shift immediate below 64 is its own low six bits, sign-extended or not. -/
theorem shiftAmount {f : ImmForm} (h : f.imm.toNat < 64) : shiftOk f = true ∧ (immVal f).toNat % 64 = f.imm.toNat := by
  have hm : f.imm.msb = false := by
    rw [BitVec.msb_eq_decide]
    simp
    omega
  constructor
  · simp [shiftOk]
    omega
  · rw [immVal, BitVec.signExtend_eq_setWidth_of_msb_false hm]
    simp
    omega

theorem high_append_low (imm : BitVec 46) (v : W64) (h : imm.toNat < 2 ^ 32) :
    (imm.setWidth 32 ++ v.setWidth 32 : BitVec 64) = BitVec.ofNat 64 (imm.toNat * 2 ^ 32 + v.toNat % 2 ^ 32) := by
  apply BitVec.eq_of_toNat_eq
  simp only [BitVec.toNat_append, BitVec.toNat_setWidth, BitVec.toNat_ofNat, Nat.mod_eq_of_lt h]
  rw [Nat.shiftLeft_eq, Nat.mul_comm, ← Nat.two_pow_add_eq_or_of_lt (Nat.mod_lt _ (by decide))]
  omega

end

/-! ### Minimum and maximum, whose comparison the model writes the other way -/

theorem execMin_regOp (c : Nat) (f : RegForm) (s : State) :
    exec (.min_ c f) s = .next (s.upd fun p => p.regOp c f fun a b => if b.toInt < a.toInt then b else a) := by
  have h : (fun a b : W64 => if a.toInt ≤ b.toInt then a else b) = fun a b => if b.toInt < a.toInt then b else a := by
    funext a b
    simp only [← Int.not_lt, ite_not]
  rw [← h]
  rfl

theorem execMax_regOp (c : Nat) (f : RegForm) (s : State) :
    exec (.max_ c f) s = .next (s.upd fun p => p.regOp c f fun a b => if a.toInt < b.toInt then b else a) := by
  have h : (fun a b : W64 => if a.toInt ≤ b.toInt then b else a) = fun a b => if a.toInt < b.toInt then b else a := by
    funext a b
    by_cases he : a = b
    · simp [he]
    · have := BitVec.toInt_inj.not.2 he
      simp only [show a.toInt ≤ b.toInt ↔ a.toInt < b.toInt by omega]
  rw [← h]
  rfl

/-- Settles O2: each register form is `Panel.regOp` of its function. -/
theorem registerFormsWriteTheirResult : Obligations.RegisterFormsWriteTheirResult := by
  unfold Obligations.RegisterFormsWriteTheirResult
  intro s c f q i op hmem hi
  have he : exec i s = .next (s.upd fun p => p.regOp c f op) := by
    simp only [List.mem_cons, List.not_mem_nil, or_false, Prod.mk.injEq] at hmem
    rcases hmem with h | h | h | h | h | h | h | h | h | h | h | h | h | h <;> obtain ⟨rfl, rfl⟩ := h
    iterate 12 · rfl
    · exact execMin_regOp c f s
    · exact execMax_regOp c f s
  exact ⟨fun hf hr hq => acts_of_exec he (regOp_done hi hf hr hq), fun hf => acts_of_exec he (regOp_reserved op hi hf)⟩

/-- Settles O3: each immediate form is `Panel.immOp` of its function; a shift's immediate below 64 is the amount, and LIH appends
its immediate to the low half. -/
theorem immediateFormsWriteTheirResult : Obligations.ImmediateFormsWriteTheirResult := by
  unfold Obligations.ImmediateFormsWriteTheirResult
  intro s c f q hi hr
  have hrd : (s.p.core c).unready f.rd = false := hr _ (by simp)
  refine ⟨fun i op hmem hq => ?_, fun i op hmem hs hq => ?_, fun hra hq => ?_, fun hra hm hq => ?_⟩
  · simp only [List.mem_cons, List.not_mem_nil, or_false, Prod.mk.injEq] at hmem
    rcases hmem with h | h | h | h <;> obtain ⟨rfl, rfl⟩ := h
    all_goals exact acts_of_exec rfl (immOp_done hi rfl hr rfl hq)
  · obtain ⟨hok, hamt⟩ := shiftAmount hs
    simp only [List.mem_cons, List.not_mem_nil, or_false, Prod.mk.injEq] at hmem
    rcases hmem with h | h | h <;> obtain ⟨rfl, rfl⟩ := h
    all_goals exact acts_of_exec rfl (immOp_done hi (by simp [hok]) hr (by rw [hamt]) hq)
  · exact acts_of_exec rfl (immOp_done hi (by simp [hra]) hr rfl hq)
  · have hb : (f.ra != 0 || f.imm.toNat / 2 ^ 32 != 0) = false := by simp [hra]; omega
    refine acts_of_exec (f := fun p => p.issue c .issues (f.ra != 0 || f.imm.toNat / 2 ^ 32 != 0) _) rfl ?_
    rw [hb]
    exact issue_done hi ((if_neg (by simp [hrd])).trans (by rw [high_append_low _ _ hm])) hq

end Sys2Proof.Machine
end

section
/-! Descriptor fields (R40, R49), and the control class (R52 to R54). -/

namespace Sys2Proof.Machine

/-! ### Parts of a number -/

/-- A number is its bits below lo, the w bits at lo, and the bits above. -/
theorem nat_eq_of_parts {a b lo w : Nat} (h1 : a % 2 ^ lo = b % 2 ^ lo) (h2 : a / 2 ^ lo % 2 ^ w = b / 2 ^ lo % 2 ^ w)
    (h3 : a / 2 ^ (lo + w) = b / 2 ^ (lo + w)) : a = b := by
  have h4 : a / 2 ^ lo = b / 2 ^ lo := by
    rw [Nat.pow_add, ← Nat.div_div_eq_div_mul, ← Nat.div_div_eq_div_mul] at h3
    rw [← Nat.div_add_mod (a / 2 ^ lo) (2 ^ w), ← Nat.div_add_mod (b / 2 ^ lo) (2 ^ w), h2, h3]
  rw [← Nat.div_add_mod a (2 ^ lo), ← Nat.div_add_mod b (2 ^ lo), h1, h4]

theorem bits_eq (n hi lo : Nat) : bits n hi lo = n / 2 ^ lo % 2 ^ (hi + 1 - lo) := by
  rw [bits, Nat.shiftRight_eq_div_pow]

/-- Replacing w bits at lo: the parts of the result. -/
theorem replace_parts (n x lo w : Nat) : let r := n - n / 2 ^ lo % 2 ^ w * 2 ^ lo + x % 2 ^ w * 2 ^ lo
    r % 2 ^ lo = n % 2 ^ lo ∧ r / 2 ^ lo % 2 ^ w = x % 2 ^ w ∧ r / 2 ^ (lo + w) = n / 2 ^ (lo + w) := by
  have hn : n = (n / 2 ^ lo / 2 ^ w * 2 ^ w + n / 2 ^ lo % 2 ^ w) * 2 ^ lo + n % 2 ^ lo := by
    rw [Nat.div_add_mod', Nat.div_add_mod']
  have hl : n % 2 ^ lo < 2 ^ lo := Nat.mod_lt _ (by positivity)
  have hx : x % 2 ^ w < 2 ^ w := Nat.mod_lt _ (by positivity)
  generalize x % 2 ^ w = x' at *
  have hr : n - n / 2 ^ lo % 2 ^ w * 2 ^ lo + x' * 2 ^ lo = n % 2 ^ lo + 2 ^ lo * (x' + 2 ^ w * (n / 2 ^ lo / 2 ^ w)) := by
    generalize n / 2 ^ lo % 2 ^ w = f, n / 2 ^ lo / 2 ^ w = b, n % 2 ^ lo = l at hn
    rw [show n = l + 2 ^ lo * (2 ^ w * b) + f * 2 ^ lo by rw [hn]; ring, Nat.add_sub_cancel]
    ring
  intro r
  rw [show r = _ from hr]
  refine ⟨?_, ?_, ?_⟩
  · rw [Nat.add_mul_mod_self_left, Nat.mod_mod]
  · rw [Nat.add_mul_div_left _ _ (by positivity), Nat.div_eq_of_lt hl, Nat.zero_add, Nat.add_mul_mod_self_left,
      Nat.mod_eq_of_lt hx]
  · rw [Nat.pow_add, ← Nat.div_div_eq_div_mul, ← Nat.div_div_eq_div_mul, Nat.add_mul_div_left _ _ (by positivity), Nat.div_eq_of_lt hl, Nat.zero_add, Nat.add_mul_div_left _ _ (by positivity),
      Nat.div_eq_of_lt hx, Nat.zero_add]

/-- The word that DSET leaves is the one whose field holds the value and whose other bits are as they were. -/
theorem putBits256_eq {d d' : W256} {hi lo x : Nat}
    (h1 : d'.toNat % 2 ^ lo = d.toNat % 2 ^ lo)
    (h2 : d'.toNat / 2 ^ (lo + (hi + 1 - lo)) = d.toNat / 2 ^ (lo + (hi + 1 - lo)))
    (h3 : d'.toNat / 2 ^ lo % 2 ^ (hi + 1 - lo) = x % 2 ^ (hi + 1 - lo)) : putBits256 d hi lo x = d' := by
  obtain ⟨r1, r2, r3⟩ := replace_parts d.toNat x lo (hi + 1 - lo)
  have hr := nat_eq_of_parts (h1.trans r1.symm) (h3.trans r2.symm) (h2.trans r3.symm)
  rw [putBits256, bits_eq, ← hr]
  simp

/-- A field of w bits read with its sign. -/
theorem signed_field (w v : Nat) (hv : v < 2 ^ w) :
    wrap64 (signed w v) = if 2 ^ w ≤ 2 * v then BitVec.ofInt 64 ((v : Int) - 2 ^ w) else BitVec.ofNat 64 v := by
  simp only [signed, Nat.mod_eq_of_lt hv, wrap64]
  split <;> rename_i h
  · rw [if_neg (Nat.not_le.2 h), BitVec.ofInt_natCast]
  · rw [if_pos (Nat.not_lt.1 h)]
    push_cast
    rfl

/-! ### DSET and DGET -/

/-- The fields of R40 by their sel: lowest bit, width, and whether DGET extends the sign. -/
def descFields : List (Nat × Nat × Nat × Bool) :=
  [(0, 0, 56, false), (1, 56, 4, false), (2, 60, 2, false), (3, 64, 32, true), (4, 96, 32, true), (5, 128, 32, true),
    (6, 160, 20, false), (7, 192, 20, false), (8, 212, 20, false), (9, 232, 24, false)]

theorem selField_of_mem {sel : BitVec 4} {lo w : Nat} {sx : Bool} (h : (sel.toNat, lo, w, sx) ∈ descFields) :
    ∃ hi, selField sel = some (hi, lo, sx) ∧ hi + 1 - lo = w := by
  simp only [descFields, List.mem_cons, List.not_mem_nil, or_false, Prod.mk.injEq] at h
  rcases h with h | h | h | h | h | h | h | h | h | h <;> obtain ⟨hs, rfl, rfl, rfl⟩ := h
  all_goals rw [selField, hs]; exact ⟨_, rfl, rfl⟩

theorem selField_of_gt {sel : BitVec 4} (h : 9 < sel.toNat) : selField sel = none := by
  unfold selField
  split
  case h_11 => rfl
  all_goals omega

section
variable {s : State} {q : Panel} {c : Nat} {f : DFldForm}

theorem acts_descField_reserved (hi : Issues s.p c .issues) (hf : f.rsvd ≠ 0 ∨ 9 < f.sel.toNat) :
    ∀ i ∈ ([.dset c f, .dget c f] : List Instr), Acts i s (s.p.foundTrap c ⟨0x01, none⟩) := by
  have hb : (f.rsvd != 0 || (selField f.sel).isNone) = true := by
    rcases hf with h | h
    · rw [bne_iff_ne.2 h, Bool.true_or]
    · simp [selField_of_gt h]
  have ht : ∀ body, s.p.issue c .issues (f.rsvd != 0 || (selField f.sel).isNone) body = s.p.foundTrap c ⟨0x01, none⟩ :=
    fun body => by rw [hb]; exact issue_bad hi
  simp only [List.mem_cons, List.not_mem_nil, or_false]
  rintro i (rfl | rfl) <;> exact acts_of_exec rfl (ht _)

variable {hi lo : Nat} {sx : Bool} (hi' : Issues s.p c .issues) (hf : f.rsvd = 0)
  (hs : selField f.sel = some (hi, lo, sx))
include hi' hf hs

/-- A well-formed DSET or DGET that completes as its body says. -/
theorem issue_descField {body : Panel → Core → Issued} {p' : Panel} (hb : body s.p (s.p.core c) = .done p')
    (hq : Completes s.p c p' q) : s.p.issue c .issues (f.rsvd != 0 || (selField f.sel).isNone) body = q := by
  rw [show (f.rsvd != 0 || (selField f.sel).isNone) = false by simp [hf, hs]]
  exact issue_done hi' hb hq

variable (hr : (s.p.core c).unready f.r = false)
include hr

theorem acts_dset (hq : Completes s.p c (s.p.modCore c fun k => k.setD f.dn
    (putBits256 (k.dreg f.dn) hi lo (k.sreg f.r).toNat)) q) : Acts (.dset c f) s q :=
  acts_of_exec rfl (issue_descField hi' hf hs (by simp only [hr, hs]; rfl) hq)

theorem acts_dget (hq : Completes s.p c (s.p.setS c f.r
    (let v := bits ((s.p.core c).dreg f.dn).toNat hi lo
     if sx then wrap64 (signed (hi + 1 - lo) v) else BitVec.ofNat 64 v)) q) : Acts (.dget c f) s q :=
  acts_of_exec rfl (issue_descField hi' hf hs (by simp only [hr, hs]; rfl) hq)

end

/-- Settles O5: the field that sel names has its place and width, DSET's word is the only one with that field replaced
(`putBits256_eq`), and DGET's value is the field or its signed reading (`signed_field`). -/
theorem descriptorFieldsMove : Obligations.DescriptorFieldsMove := by
  unfold Obligations.DescriptorFieldsMove
  intro s c f q lo w sx hmem hi hf hr
  obtain ⟨hib, hs, rfl⟩ := selField_of_mem hmem
  refine ⟨fun f' hf' => acts_descField_reserved hi hf', fun d' h1 h2 h3 hq => ?_, fun hq => ?_⟩
  · refine acts_dset hi hf hs hr ?_
    rwa [Panel.modCore, putBits256_eq h1 h2 h3]
  · refine acts_dget hi hf hs hr ?_
    rw [← bits_eq] at hq
    have hv : bits ((s.p.core c).dreg f.dn).toNat hib lo < 2 ^ (hib + 1 - lo) := Nat.mod_lt _ (by positivity)
    cases sx
    · simpa using hq
    · simpa [signed_field _ _ hv] using hq

end Sys2Proof.Machine
end

section
/-! The control class (R52 to R54): branches, jumps and LOOP. -/

namespace Sys2Proof.Machine

theorem issue_ok {p : Panel} {c : Nat} {cls : SpecClass} {bad : Bool} {body : Panel → Core → Issued} (hb : bad = false) :
    p.issue c cls bad body = p.issue c cls false body := by rw [hb]

theorem targetOk_iff {t : Int} : targetOk t = true ↔ 0 ≤ t ∧ t < 32768 := by
  unfold targetOk
  rw [Bool.and_eq_true, decide_eq_true_iff, decide_eq_true_iff]
  rfl

theorem targetOk_nat {n : Nat} (h : n < 32768) : targetOk (n : Int) = true := targetOk_iff.2 (by omega)

/-! ### Conditional branches -/

theorem branchOp_opens {p : Panel} {c : Nat} {f : BranchForm} {cmp : W64 → W64 → Bool} (hi : p.canIssue c .waits = true)
    (hf : f.rsvd = 0) (hr : ∀ r ∈ [f.ra, f.rb], (p.core c).unready r = false)
    (ht : cmp ((p.core c).sreg f.ra) ((p.core c).sreg f.rb) = true →
      0 ≤ (p.core c).q.pc + f.off.toInt ∧ (p.core c).q.pc + f.off.toInt < 32768)
    (hn : cmp ((p.core c).sreg f.ra) ((p.core c).sreg f.rb) = false → ∃ q, Completes p c p q) :
    p.branchOp c f cmp =
      p.openBranch c (cmp ((p.core c).sreg f.ra) ((p.core c).sreg f.rb)) ((p.core c).q.pc + f.off.toInt) := by
  rw [Panel.branchOp, issue_ok (by simp [hf])]
  refine issue_branch hi (if_neg (by simp_all)) (fun h => ?_) (fun h => ?_)
  · exact targetOk_iff.2 (ht h)
  · obtain ⟨q, hq⟩ := hn h
    exact Option.isSome_of_eq_some hq

/-- Settles O6: each conditional branch is `Panel.branchOp` of its comparison. -/
theorem branchesCompareAndOpen : Obligations.BranchesCompareAndOpen := by
  unfold Obligations.BranchesCompareAndOpen
  intro s c f i cmp hmem hi hf hr k t taken ht hn
  have he : exec i s = .next (s.upd fun p => p.branchOp c f cmp) := by
    simp only [List.mem_cons, List.not_mem_nil, or_false, Prod.mk.injEq] at hmem
    rcases hmem with h | h | h | h | h | h <;> obtain ⟨rfl, rfl⟩ := h
    case inr.inl =>
      rw [show (fun a b : W64 => decide (a ≠ b)) = fun a b => a != b by funext a b; simp [bne, BEq.beq]]
      rfl
    all_goals rfl
  exact acts_of_exec he (branchOp_opens hi hf hr ht hn)

/-! ### Jumps -/

section
variable {s : State} {c : Nat}

section
variable {f : JumpForm} (hf : f.rsvd = 0) (hi : Issues s.p c .issues)
  (ht : 0 ≤ (s.p.core c).q.pc + f.off.toInt ∧ (s.p.core c).q.pc + f.off.toInt < 32768)
include hf hi ht

theorem acts_jmp : Acts (.jmp c f) s (s.p.setCore c
    ((s.p.core c).goTo (s.p.fwMode c) ((s.p.core c).q.pc + f.off.toInt).toNat true)) :=
  acts_of_exec rfl ((issue_ok (by simp [hf])).trans (issue_jump hi rfl (targetOk_iff.2 ht)))

theorem acts_call (hr : (s.p.core c).unready 31 = false) :
    let linked := s.p.setS c 31 (BitVec.ofNat 64 ((s.p.core c).q.pc + 1))
    Acts (.call c f) s (linked.setCore c
      ((linked.core c).goTo (s.p.fwMode c) ((s.p.core c).q.pc + f.off.toInt).toNat false)) :=
  acts_of_exec rfl ((issue_ok (by simp [hf])).trans (issue_jump hi (if_neg (by rw [hr]; decide)) (targetOk_iff.2 ht)))

end

section
variable {f : RJumpForm} (hh : f.rsvdHi = 0) (hl : f.rsvdLo = 0) (hi : Issues s.p c .waits)
  (ht : ((s.p.core c).sreg f.ra).toNat < 32768) (hr : (s.p.core c).unready f.ra = false)
include hh hl hi ht hr

theorem acts_jr : Acts (.jr c f) s (s.p.setCore c
    ((s.p.core c).goTo (s.p.fwMode c) ((s.p.core c).sreg f.ra).toNat true)) :=
  acts_of_exec rfl ((issue_ok (by simp [hh, hl])).trans (issue_jump hi (if_neg (by rw [hr]; decide)) (targetOk_nat ht)))

theorem acts_callr (hr31 : (s.p.core c).unready 31 = false) :
    let linked := s.p.setS c 31 (BitVec.ofNat 64 ((s.p.core c).q.pc + 1))
    Acts (.callr c f) s (linked.setCore c ((linked.core c).goTo (s.p.fwMode c) ((s.p.core c).sreg f.ra).toNat false)) :=
  acts_of_exec rfl ((issue_ok (by simp [hh, hl])).trans
    (issue_jump hi (if_neg (by rw [hr, hr31]; decide)) (targetOk_nat ht)))

end

theorem acts_ret (hi : Issues s.p c .waits) (ht : ((s.p.core c).sreg 31).toNat < 32768)
    (hr : (s.p.core c).unready 31 = false) : Acts (.ret c 0) s (s.p.setCore c
      ((s.p.core c).goTo (s.p.fwMode c) ((s.p.core c).sreg 31).toNat false)) :=
  acts_of_exec rfl ((issue_ok rfl).trans (issue_jump hi (if_neg (by rw [hr]; decide)) (targetOk_nat ht)))

end

/-- Settles O7: each jump's body is a taken transfer to its target. -/
theorem jumpsGoToTheirTarget : Obligations.JumpsGoToTheirTarget := by
  unfold Obligations.JumpsGoToTheirTarget
  intro s c
  exact ⟨fun f hf hi h0 h1 => ⟨acts_jmp hf hi ⟨h0, h1⟩, acts_call hf hi ⟨h0, h1⟩⟩,
    fun f hh hl hi ht hr => ⟨acts_jr hh hl hi ht hr, acts_callr hh hl hi ht hr⟩, acts_ret⟩

/-! ### LOOP -/

theorem issue_skip {p p' q : Panel} {c n : Nat} {cls : SpecClass} {body : Panel → Core → Issued} (hi : p.canIssue c cls = true)
    (hb : body p (p.core c) = .skip p' n) (hq : p'.completeAt c n = some q) : p.issue c cls false body = q := by
  simp [Panel.issue, hi, hb, hq]

theorem issue_enter {p p' : Panel} {c : Nat} {cls : SpecClass} {body : Panel → Core → Issued} {l : Loop}
    (hi : p.canIssue c cls = true) (hb : body p (p.core c) = .enter p' l) :
    p.issue c cls false body = p'.setCore c (({ p'.core c with
      q := (p'.core c).q.setLoops (p.fwMode c) (l :: (p'.core c).q.loops (p.fwMode c)) }).complete ((p.core c).q.pc + 1)) := by
  simp [Panel.issue, hi, hb]

/-- Settles O8: the cases of LOOP's body in its order. -/
theorem loopOpensALevel : Obligations.LoopOpensALevel := by
  unfold Obligations.LoopOpensALevel
  intro s c f hf hbody hra hi hr k fw e n
  have hb : (f.rsvd != 0 || f.body == 0 || (f.ra != 0 && f.count != 0)) = false := by
    rw [beq_false_of_ne hbody]
    rcases hra with h | h <;> simp [hf, h]
  have hu : ¬((s.p.core c).unready f.ra = true) := by simp [hr]
  have nest : ∀ ls : List Loop, (match ls with | l :: _ => decide (l.last < e) | [] => false) = true ↔
      ∃ l, ls.head? = some l ∧ l.last < e := by
    intro ls
    cases ls <;> simp
  refine ⟨fun h1 => ?_, fun h1 h2 => ?_, fun h1 h2 => ?_⟩
  · exact acts_of_exec rfl ((issue_ok hb).trans (issue_trap hi ((if_neg hu).trans (if_pos h1))))
  · exact acts_of_exec rfl ((issue_ok hb).trans (issue_trap hi
      ((if_neg hu).trans ((if_neg (Nat.not_lt.2 h1)).trans (if_pos ((nest _).2 h2))))))
  · have hn := mt (nest (k.q.loops fw)).1 fun ⟨l, hl, hlt⟩ => Nat.not_lt.2 (h2 l hl) hlt
    refine ⟨fun h3 q hq => ?_, fun h3 h4 => ?_, fun h3 h4 => ?_⟩
    · exact acts_of_exec rfl ((issue_ok hb).trans (issue_skip hi
        ((if_neg hu).trans ((if_neg (Nat.not_lt.2 h1)).trans ((if_neg hn).trans (if_pos h3)))) hq))
    · exact acts_of_exec rfl ((issue_ok hb).trans (issue_enter hi
        ((if_neg hu).trans ((if_neg (Nat.not_lt.2 h1)).trans ((if_neg hn).trans ((if_neg h3).trans
          (if_neg (Nat.not_le.2 h4))))))))
    · exact acts_of_exec rfl ((issue_ok hb).trans (issue_trap hi
        ((if_neg hu).trans ((if_neg (Nat.not_lt.2 h1)).trans ((if_neg hn).trans ((if_neg h3).trans (if_pos h4)))))))

end Sys2Proof.Machine
end

section
/-! Scalar registers (R37), and the sync and system classes (R55 to R63, R69). -/

namespace Sys2Proof.Machine

/-! ### Scalar registers -/

/-- What a scalar register holds rests on the listed registers alone. -/
theorem Core.sreg_congr {k k' : Core} (h : k.q.sregs = k'.q.sregs) (r : BitVec 5) : k.sreg r = k'.sreg r := by
  rw [Core.sreg, Core.sreg, h]

theorem Core.sreg_setS {k : Core} (hs : smSorted k.q.sregs = true) (r t : BitVec 5) (v : W64) :
    (k.setS r v).sreg t = if t = 0 then 0 else if t = r then v else k.sreg t := by
  unfold Core.sreg Core.setS setSreg
  by_cases ht : t = 0
  · simp [ht]
  by_cases hr : r = 0
  · subst hr
    simp only [ht, if_true, if_false]
  by_cases htr : t = r
  · subst htr
    simp only [ht, if_false, if_true]
    exact smGetD_smPut_same hs _ _ _
  · simp only [ht, hr, htr, if_false]
    exact smGetD_smPut_other hs _ _ _ fun h => htr (BitVec.eq_of_toNat_eq h)

/-- A call leaves the index after its own in s31. -/
theorem linked_s31 {p : Panel} (hp : p.wf) {c : Nat} (hs : smSorted (p.core c).q.sregs = true) (fw : Bool) (v : W64) (t : Nat) :
    (((p.setS c 31 v).setCore c (((p.setS c 31 v).core c).goTo fw t false)).core c).sreg 31 = v := by
  rw [Panel.core_setCore (Panel.wf_setS hp c 31 v).2.1, Panel.setS, Panel.core_modCore hp.2.1]
  exact (Core.sreg_congr rfl 31).trans (Core.sreg_setS hs 31 31 v)

/-- Settles O11: `Core.sreg_setS` for the registers, `linked_s31` for the calls. -/
theorem scalarRegistersHoldWhatIsWritten : Obligations.ScalarRegistersHoldWhatIsWritten := by
  unfold Obligations.ScalarRegistersHoldWhatIsWritten
  refine ⟨fun p c r t v hp hs => ⟨?_, fun c' hc => Panel.core_setCore_ne hp.2.1 _ hc⟩, fun s c hp hs h31 => ⟨?_, ?_⟩⟩
  · rw [Panel.setS, Panel.core_modCore hp.2.1]
    exact Core.sreg_setS hs r t v
  · exact fun f hf hi h0 h1 => ⟨_, acts_call hf hi ⟨h0, h1⟩ h31, linked_s31 hp hs _ _ _⟩
  · exact fun f hh hl hi ht hr => ⟨_, acts_callr hh hl hi ht hr h31, linked_s31 hp hs _ _ _⟩

/-! ### Tokens, fences and epochs -/

section
variable {s : State} {q : Panel} {c : Nat}

theorem acts_tpost {f : TpostForm} (hi : Issues s.p c .issues) (hf : f.rsvd = 0) (hn : f.inc ≠ 0)
    (ht : f.remote = true ∨ f.target = 0) (hp : f.remote = true → (s.p.core c).remotePosts < 16)
    (hq : Completes s.p c (s.p.setCore c { s.p.core c with posts := (s.p.core c).posts ++
      [⟨f.tn, f.remote, f.target, f.inc, f.mask, (s.p.core c).q.seq, (s.p.core c).spec.isSome⟩] }) q) :
    Acts (.tpost c f) s q := by
  have hb : (f.rsvd != 0 || f.inc == 0 || (!f.remote && f.target != 0)) = false := by
    rw [beq_false_of_ne hn]
    rcases ht with h | h <;> simp [hf, h]
  refine acts_of_exec rfl ((issue_ok hb).trans (issue_done hi (if_neg ?_) hq))
  simpa using hp

theorem acts_ttest {f : TwoForm} (hi : Issues s.p c .waits) (hf : f.rsvd = 0) (hr : (s.p.core c).unready f.a = false)
    (hq : Completes s.p c (s.p.setS c f.a (BitVec.ofNat 64 (s.p.fget F.CORE_TOKEN_value c f.b.toNat))) q) :
    Acts (.ttest c f) s q :=
  acts_of_exec rfl ((issue_ok (by simp [hf])).trans (issue_done hi (if_neg (by rw [hr]; decide)) hq))

theorem acts_tset {f : TwoForm} (hi : Issues s.p c .waits) (hf : f.rsvd = 0) (hr : (s.p.core c).unready f.b = false)
    (hq : Completes s.p c (s.p.fput F.CORE_TOKEN_value ((s.p.core c).sreg f.b).toNat c f.a.toNat) q) :
    Acts (.tset c f) s q :=
  acts_of_exec rfl ((issue_ok (by simp [hf])).trans (issue_done hi (if_neg (by rw [hr]; decide)) hq))

theorem acts_twait {f : TwaitForm} (hi : Issues s.p c .waits) (hf : f.rsvd = 0) (ht : f.ra = 0 ∨ f.threshold = 0)
    (hr : (s.p.core c).unready f.ra = false) :
    let t := if f.ra = 0 then f.threshold.toNat else ((s.p.core c).sreg f.ra).toNat % 2 ^ 32
    let v := s.p.fget F.CORE_TOKEN_value c f.tn.toNat
    (t ≤ v → Completes s.p c (s.p.fput F.CORE_TOKEN_value (v - t) c f.tn.toNat) q → Acts (.twait c f) s q) ∧
      (v < t → Acts (.twait c f) s (s.p.setCore c { s.p.core c with blocked := some (.twait f.tn t) })) := by
  intro t v
  have hb : (f.rsvd != 0 || (f.ra != 0 && f.threshold != 0)) = false := by rcases ht with h | h <;> simp [hf, h]
  have hu : ¬((s.p.core c).unready f.ra = true) := by rw [hr]; decide
  exact ⟨fun h hq => acts_of_exec rfl ((issue_ok hb).trans (issue_done hi ((if_neg hu).trans (if_pos h)) hq)),
    fun h => acts_of_exec rfl ((issue_ok hb).trans (issue_block hi ((if_neg hu).trans (if_neg (Nat.not_le.2 h)))))⟩

theorem acts_fence {f : FenceForm} (hi : Issues s.p c .waits) (hf : f.rsvd = 0) :
    ((s.p.core c).classesDone f.mask (s.p.core c).q.seq = true → Completes s.p c s.p q → Acts (.fence c f) s q) ∧
      ((s.p.core c).classesDone f.mask (s.p.core c).q.seq = false →
        Acts (.fence c f) s (s.p.setCore c { s.p.core c with blocked := some (.fence f.mask) })) :=
  ⟨fun h hq => acts_of_exec rfl ((issue_ok (by simp [hf])).trans (issue_done hi (if_pos h) hq)),
    fun h => acts_of_exec rfl ((issue_ok (by simp [hf])).trans (issue_block hi (if_neg (by rw [h]; decide))))⟩

theorem acts_epochAdvance (hi : Issues s.p c .waits) :
    ((s.p.core c).classesDone 0b0010 (s.p.core c).q.seq = true → Completes s.p c (s.p.coreEpoch c) q →
        Acts (.epochAdvance c 0) s q) ∧
      ((s.p.core c).classesDone 0b0010 (s.p.core c).q.seq = false →
        Acts (.epochAdvance c 0) s (s.p.setCore c { s.p.core c with blocked := some .epochAdvance })) :=
  ⟨fun h hq => acts_of_exec rfl ((issue_ok rfl).trans (issue_done hi (if_pos h) hq)),
    fun h => acts_of_exec rfl ((issue_ok rfl).trans (issue_block hi (if_neg (by rw [h]; decide))))⟩

end

/-- Settles O12: a lemma per instruction. -/
theorem syncInstructionsActOnTokens : Obligations.SyncInstructionsActOnTokens := by
  unfold Obligations.SyncInstructionsActOnTokens
  intro s c q
  exact ⟨fun f => acts_tpost, fun hi => ⟨fun f hf hr => acts_ttest hi hf hr, fun f hf hr => acts_tset hi hf hr,
    fun f => acts_twait hi, fun f => acts_fence hi, acts_epochAdvance hi⟩⟩

/-! ### Barriers -/

/-- Settles O13: the cases of the two bodies, by whether an arrival is outstanding and whether it is released. -/
theorem barrierInstructionsPair : Obligations.BarrierInstructionsPair := by
  unfold Obligations.BarrierInstructionsPair
  intro s c f q hi hf k ch
  have hb : (f.rsvd != 0) = false := by simp [hf]
  refine ⟨fun h => ⟨?_, ?_⟩, fun h => ⟨?_, fun hr => ?_, fun hr hq => ?_⟩⟩
  · exact acts_of_exec rfl ((issue_ok hb).trans (issue_block hi (if_neg (by simp [k, ch, h]))))
  · exact acts_of_exec rfl ((issue_ok hb).trans (issue_trap hi (if_pos (by rw [h]; rfl))))
  · exact acts_of_exec rfl ((issue_ok hb).trans (issue_trap hi (if_pos h)))
  · exact acts_of_exec rfl ((issue_ok hb).trans (issue_block hi ((if_neg (by rw [h]; decide)).trans (if_neg (by rw [hr]; decide)))))
  · exact acts_of_exec rfl ((issue_ok hb).trans (issue_done hi ((if_neg (by rw [h]; decide)).trans (if_pos hr)) hq))

/-! ### Ends of waits -/

/-- A blocked instruction completes with its effect where no cause is to be delivered first (R77). -/
theorem unblock_completes {p q : Panel} {c : Nat} {f : Panel → Panel} (ha : p.asyncDue c = false)
    (hq : Completes p c ((f p).modCore c fun k => { k with blocked := none }) q) : p.unblock c f = q := by
  unfold Panel.unblock
  rw [ha]
  simp only [Completes] at hq
  simp [hq]

/-- While a cause is to be delivered first, a blocked instruction does not complete. -/
theorem unblock_waits {p : Panel} {c : Nat} {f : Panel → Panel} (ha : p.asyncDue c = true) : p.unblock c f = p := by
  simp [Panel.unblock, ha]

section
variable {s : State} {q : Panel} {c : Nat}

theorem acts_waitEnd_waits (ha : s.p.asyncDue c = true) :
    ∀ i ∈ ([.twaitSatisfy c, .barWaitRelease c, .fenceComplete c, .waitTimeout c] : List Instr), Acts i s s.p := by
  simp only [List.mem_cons, List.not_mem_nil, or_false]
  rintro i (rfl | rfl | rfl | rfl) <;> refine acts_of_exec rfl ?_
  · split
    · exact (ite_congr rfl (fun _ => unblock_waits ha) fun _ => rfl).trans (ite_self _)
    · rfl
  · split
    · exact (ite_congr rfl (fun _ => unblock_waits ha) fun _ => rfl).trans (ite_self _)
    · rfl
  · dsimp only
    split
    · exact (ite_congr rfl (fun _ => unblock_waits ha) fun _ => rfl).trans (ite_self _)
    · exact (ite_congr rfl (fun _ => unblock_waits ha) fun _ => rfl).trans (ite_self _)
    · rfl
  · simp only [ha, Bool.or_true, if_true]
    split <;> rfl

variable (ha : s.p.asyncDue c = false)
include ha

theorem acts_twaitSatisfy {tn : BitVec 5} {t : Nat} (hb : (s.p.core c).blocked = some (.twait tn t))
    (ht : t ≤ s.p.fget F.CORE_TOKEN_value c tn.toNat)
    (hq : Completes s.p c ((s.p.fput F.CORE_TOKEN_value (s.p.fget F.CORE_TOKEN_value c tn.toNat - t) c tn.toNat).modCore c
      fun k => { k with blocked := none }) q) : Acts (.twaitSatisfy c) s q :=
  acts_of_exec rfl (by rw [hb]; exact (if_pos ht).trans (unblock_completes ha hq))

theorem acts_barWaitRelease {ch : Nat} (hb : (s.p.core c).blocked = some (.barWait ch))
    (hr : smHas (s.p.core c).released ch = true)
    (hq : Completes s.p c ((s.p.modCore c fun k => { k with
      arrivals := smDel k.arrivals ch, released := smDel k.released ch }).modCore c fun k => { k with blocked := none }) q) :
    Acts (.barWaitRelease c) s q :=
  acts_of_exec rfl (by rw [hb]; exact (if_pos hr).trans (unblock_completes ha hq))

theorem acts_fenceComplete {m : BitVec 4} (hb : (s.p.core c).blocked = some (.fence m))
    (hd : (s.p.core c).classesDone m (s.p.core c).q.seq = true)
    (hq : Completes s.p c (s.p.modCore c fun k => { k with blocked := none }) q) : Acts (.fenceComplete c) s q :=
  acts_of_exec rfl (by dsimp only; rw [hb]; exact (if_pos hd).trans (unblock_completes ha hq))

theorem acts_epochComplete (hb : (s.p.core c).blocked = some .epochAdvance)
    (hd : (s.p.core c).classesDone 0b0010 (s.p.core c).q.seq = true)
    (hq : Completes s.p c ((s.p.coreEpoch c).modCore c fun k => { k with blocked := none }) q) :
    Acts (.fenceComplete c) s q :=
  acts_of_exec rfl (by dsimp only; rw [hb]; exact (if_pos hd).trans (unblock_completes ha hq))

theorem acts_waitTimeout (hb : (∃ tn t, (s.p.core c).blocked = some (.twait tn t)) ∨
    ∃ ch, (s.p.core c).blocked = some (.barWait ch)) (hl : s.p.fget F.CORE_WAIT_LIMIT_limit c ≠ 0) :
    Acts (.waitTimeout c) s ((s.p.setCore c { s.p.core c with blocked := none }).syncTrap c (s.p.core c).q.pc 9 none) := by
  refine acts_of_exec rfl ?_
  rcases hb with ⟨tn, t, hb⟩ | ⟨ch, hb⟩ <;> dsimp only <;> rw [hb] <;> exact if_neg (by simp [hl, ha])

end

/-- Settles O14: a lemma per event. -/
theorem waitsEnd : Obligations.WaitsEnd := by
  unfold Obligations.WaitsEnd
  intro s c q
  exact ⟨acts_waitEnd_waits, fun ha => ⟨fun _ _ => acts_twaitSatisfy ha, fun _ => acts_barWaitRelease ha,
    fun _ => acts_fenceComplete ha, acts_epochComplete ha, acts_waitTimeout ha⟩⟩

end Sys2Proof.Machine
end

section
/-! The register file under writes: what a write leaves at every other register, and what posts, traps and asynchronous causes write
(R57, R76 to R79). -/

namespace Sys2Proof.Machine

/-! ### Reading another register -/

theorem homeUnit_le (r : Reg) (u : Nat) : homeUnit r u ≤ u := by
  unfold homeUnit
  split
  case h_3 => split <;> omega
  all_goals omega

theorem homeUnit_own {r : Reg} (h : r.info.share = .own) (u : Nat) : homeUnit r u = u := by
  unfold homeUnit
  rw [h]

theorem Reg.ctorIdx_inj {r r' : Reg} (h : r.ctorIdx = r'.ctorIdx) : r = r' := by
  rw [← Reg.ofNat_ctorIdx r, h, Reg.ofNat_ctorIdx]

/-- The indices of a register lie in the register file. -/
def InFile (u i j : Nat) : Prop := u < 2048 ∧ i < 8192 ∧ j < 128

theorem InFile.ofCore {c : Nat} (h : c < 1024) {i : Nat} (hi : i < 8192) : InFile c i 0 := ⟨by omega, hi, by decide⟩

/-- A write of a register leaves every register of another name, unit or index. -/
theorem Panel.get_put_far {p : Panel} (h : smSorted p.regs = true) {r r' : Reg} (v : W64) {u i j u' i' j' : Nat}
    (ha : InFile u i j) (hb : InFile u' i' j') (hne : r' = r → homeUnit r u' = homeUnit r u → i' = i → j' ≠ j) :
    (p.put r v u i j).get r' u' i' j' = p.get r' u' i' j' := by
  obtain ⟨hu, hi, hj⟩ := ha
  obtain ⟨hu', hi', hj'⟩ := hb
  refine get_put_ne h v fun hk => ?_
  obtain ⟨h1, h2, h3, h4⟩ := rkey_inj ((homeUnit_le r' u').trans_lt hu') hi' hj' ((homeUnit_le r u).trans_lt hu) hi hj hk
  obtain rfl := Reg.ctorIdx_inj h1
  exact hne rfl h2 h3 h4

theorem Panel.get_put_reg {p : Panel} (h : smSorted p.regs = true) {r r' : Reg} (v : W64) {u i j u' i' j' : Nat}
    (hr : r' ≠ r) (ha : InFile u i j) (hb : InFile u' i' j') : (p.put r v u i j).get r' u' i' j' = p.get r' u' i' j' :=
  get_put_far h v ha hb fun he => absurd he hr

theorem Panel.fget_put_reg {p : Panel} (h : smSorted p.regs = true) {r : Reg} {g : RField} (v : W64) {u i j u' i' j' : Nat}
    (hr : g.reg ≠ r) (ha : InFile u i j) (hb : InFile u' i' j') : (p.put r v u i j).fget g u' i' j' = p.fget g u' i' j' := by
  rw [fget, get_put_reg h v hr ha hb, fget]

theorem Panel.fget_fput_reg {p : Panel} (h : smSorted p.regs = true) {f g : RField} (v : Nat) {u i j u' i' j' : Nat}
    (hr : g.reg ≠ f.reg) (ha : InFile u i j) (hb : InFile u' i' j') : (p.fput f v u i j).fget g u' i' j' = p.fget g u' i' j' :=
  fget_put_reg h _ hr ha hb

theorem Panel.fget_lt (p : Panel) (f : RField) (u i j : Nat) : p.fget f u i j < 2 ^ (f.hi + 1 - f.lo) :=
  Nat.mod_lt _ (by positivity)

/-! ### All registers but a few of one core -/

/-- Every register of the file reads in q as in p, but those of the list at core c. -/
def SameRegs (c : Nat) (l : List Reg) (p q : Panel) : Prop :=
  ∀ r u i j, InFile u i j → ¬(u = c ∧ r ∈ l) → q.get r u i j = p.get r u i j

section
variable {c : Nat} {l : List Reg} {p q r : Panel}

theorem SameRegs.of_regs (h : q.regs = p.regs) : SameRegs c l p q := fun _ _ _ _ _ _ => Panel.get_congr h _ _ _ _

theorem SameRegs.trans (h : SameRegs c l p q) (h' : SameRegs c l q r) : SameRegs c l p r :=
  fun x u i j hf hx => (h' x u i j hf hx).trans (h x u i j hf hx)

theorem SameRegs.mono {l' : List Reg} (h : SameRegs c l p q) (hl : l ⊆ l') : SameRegs c l' p q :=
  fun x u i j hf hx => h x u i j hf fun hn => hx ⟨hn.1, hl hn.2⟩

theorem SameRegs.put (hp : smSorted p.regs = true) {x : Reg} (hx : x ∈ l) (ho : x.info.share = .own) (v : W64) {i j : Nat}
    (hf : InFile c i j) : SameRegs c l p (p.put x v c i j) := fun x' u i' j' hf' hn =>
  Panel.get_put_far hp v hf hf' fun he hu _ _ => hn ⟨by rwa [homeUnit_own ho, homeUnit_own ho] at hu, he ▸ hx⟩

theorem SameRegs.fput (hp : smSorted p.regs = true) (f : RField) (hx : f.reg ∈ l) (ho : f.reg.info.share = .own) (v : Nat)
    {i j : Nat} (hf : InFile c i j) : SameRegs c l p (p.fput f v c i j) := .put hp hx ho _ hf

theorem SameRegs.fget (h : SameRegs c l p q) {f : RField} {u i j : Nat} (hf : InFile u i j) (hx : f.reg ∉ l) :
    q.fget f u i j = p.fget f u i j := by
  rw [Panel.fget, h _ _ _ _ hf fun hn => hx hn.2, Panel.fget]

end

/-! ### Tokens -/

section
variable {p : Panel} (hp : p.wf) {c : Nat}
include hp

/-- Raising a cause sets its pending bit and leaves the others (R77). -/
theorem Panel.pending_raiseAsync (n info : Nat) {m : Nat} (hm : m < 32) :
    bit ((p.raiseAsync c n info).fget F.CORE_TRAP_PENDING_pending c) m =
      (decide (m = n) || bit (p.fget F.CORE_TRAP_PENDING_pending c) m) := by
  rw [raiseAsync, fget_modCore, fget_fput hp.1 _ _ _ _ _ (by decide), bit_eq_testBit, bit_eq_testBit, Nat.testBit_mod_two_pow,
    Nat.testBit_or, Nat.testBit_two_pow, decide_eq_true (show m < 31 + 1 - 0 from hm), Bool.true_and, Bool.or_comm]
  simp only [eq_comm]

theorem Panel.tokenAdd_counts (hc : c < 1024) {n inc : Nat} (hn : n < 32) :
    let v := p.fget F.CORE_TOKEN_value c n + inc
    (p.tokenAdd c n inc).fget F.CORE_TOKEN_value c n = min v 0xFFFFFFFF ∧
      (0xFFFFFFFF < v →
        bit ((p.tokenAdd c n inc).fget F.CORE_TOKEN_STATUS_overflow c) n = true ∧
        bit ((p.tokenAdd c n inc).fget F.CORE_TRAP_PENDING_pending c) 0x13 = true) ∧
      (v ≤ 0xFFFFFFFF → (p.tokenAdd c n inc).cores = p.cores) := by
  intro v
  have hb : InFile c n 0 := .ofCore hc (by omega)
  have h0 : InFile c 0 0 := .ofCore hc (by decide)
  by_cases hv : v ≤ 0xFFFFFFFF
  · have ht : p.tokenAdd c n inc = p.fput F.CORE_TOKEN_value v c n := if_pos hv
    rw [ht, fget_fput hp.1 _ _ _ _ _ (by decide)]
    refine ⟨?_, fun h => absurd hv (Nat.not_le.2 h), fun _ => rfl⟩
    rw [Nat.min_eq_left hv]
    exact Nat.mod_eq_of_lt (Nat.lt_succ_of_le hv)
  · have ht : p.tokenAdd c n inc = ((p.fput F.CORE_TOKEN_value 0xFFFFFFFF c n).fput F.CORE_TOKEN_STATUS_overflow
        ((p.fput F.CORE_TOKEN_value 0xFFFFFFFF c n).fget F.CORE_TOKEN_STATUS_overflow c ||| 2 ^ n) c).raiseAsync c 0x13 0 :=
      if_neg hv
    have h1 := wf_fput hp F.CORE_TOKEN_value 0xFFFFFFFF c n 0
    have h2 := wf_fput h1 F.CORE_TOKEN_STATUS_overflow
      ((p.fput F.CORE_TOKEN_value 0xFFFFFFFF c n).fget F.CORE_TOKEN_STATUS_overflow c ||| 2 ^ n) c 0 0
    rw [ht]
    refine ⟨?_, fun _ => ⟨?_, ?_⟩, fun h => absurd h hv⟩
    · rw [raiseAsync, fget_modCore, fget_fput_reg h2.1 _ (by decide) h0 hb, fget_fput_reg h1.1 _ (by decide) h0 hb,
        fget_fput hp.1 _ _ _ _ _ (by decide), Nat.min_eq_right (Nat.le_of_not_le hv)]
      rfl
    · rw [raiseAsync, fget_modCore, fget_fput_reg h2.1 _ (by decide) h0 h0, fget_fput h1.1 _ _ _ _ _ (by decide),
        bit_eq_testBit, Nat.testBit_mod_two_pow, Nat.testBit_or, Nat.testBit_two_pow_self,
        decide_eq_true (show n < 31 + 1 - 0 from hn), Bool.or_true, Bool.true_and]
    · rw [pending_raiseAsync h2 0x13 0 (by decide), decide_eq_true rfl, Bool.true_or]

end

theorem acts_tpostRelease {s : State} {c n : Nat} {o : Post} (ho : (s.p.core c).posts[n]? = some o) (hs : o.spec = false)
    (hd : (s.p.core c).classesDone o.mask o.seq = true) :
    let p' := s.p.setCore c { s.p.core c with posts := (s.p.core c).posts.eraseIdx n }
    (o.remote = false → Acts (.tpostRelease c n) s (p'.tokenAdd c o.tn.toNat o.inc.toNat)) ∧
      (o.remote = true → Acts (.tpostRelease c n) s (p'.sendPost c o)) :=
  ⟨fun h => acts_of_exec rfl (by simp [ho, hs, hd, h]), fun h => acts_of_exec rfl (by simp [ho, hs, hd, h])⟩

/-- Settles O15: the two ways a post is released, and `Panel.tokenAdd_counts`. -/
theorem postsAreReleasedAndCounted : Obligations.PostsAreReleasedAndCounted := by
  unfold Obligations.PostsAreReleasedAndCounted
  exact ⟨fun s c n o => acts_tpostRelease, fun p c n inc hp hc hn => Panel.tokenAdd_counts hp hc hn⟩

/-! ### Traps -/

/-- The registers a trap writes (R76). -/
def trapRegs : List Reg := [.CORE_STATUS, .CORE_TRAP_PC, .CORE_TRAP_CAUSE, .CORE_TRAP_INFO]

section
variable {p : Panel} (hp : p.wf) {c : Nat}
include hp

/-- The three fields of a saved cause are written side by side. -/
theorem Panel.fget_trapCause (cause a m : Nat) :
    let q := ((p.fput F.CORE_TRAP_CAUSE_cause cause c).fput F.CORE_TRAP_CAUSE_async a c).fput F.CORE_TRAP_CAUSE_prev_mode m c
    q.fget F.CORE_TRAP_CAUSE_cause c = cause % 256 ∧ q.fget F.CORE_TRAP_CAUSE_async c = a % 2 ∧
      q.fget F.CORE_TRAP_CAUSE_prev_mode c = m % 2 := by
  have h1 := sorted_fput hp.1 F.CORE_TRAP_CAUSE_cause cause c 0 0
  have h2 := sorted_fput h1 F.CORE_TRAP_CAUSE_async a c 0 0
  refine ⟨?_, ?_, ?_⟩
  · rw [fget_fput_field h2 F.CORE_TRAP_CAUSE_prev_mode F.CORE_TRAP_CAUSE_cause _ _ _ _ rfl (by decide) (by decide) (by decide),
      fget_fput_field h1 F.CORE_TRAP_CAUSE_async F.CORE_TRAP_CAUSE_cause _ _ _ _ rfl (by decide) (by decide) (by decide),
      fget_fput hp.1 _ _ _ _ _ (by decide)]
    rfl
  · rw [fget_fput_field h2 F.CORE_TRAP_CAUSE_prev_mode F.CORE_TRAP_CAUSE_async _ _ _ _ rfl (by decide) (by decide) (by decide),
      fget_fput h1 _ _ _ _ _ (by decide)]
    rfl
  · rw [fget_fput h2 _ _ _ _ _ (by decide)]
    rfl

/-- The register file along a trap's entry, in the order of its writes. -/
theorem Panel.enterTrap_writes (hc : c < 1024) (pc cause : Nat) (async : Bool) (info : W64) :
    let q := p.enterTrap c pc cause async info
    let p1 := p.fput F.CORE_TRAP_PC_pc pc c
    let p4 := ((p1.fput F.CORE_TRAP_CAUSE_cause cause c).fput F.CORE_TRAP_CAUSE_async (b2n async) c).fput
      F.CORE_TRAP_CAUSE_prev_mode (p.fget F.CORE_STATUS_mode c) c
    let p5 := p4.put .CORE_TRAP_INFO info c
    SameRegs c [.CORE_TRAP_PC] p p1 ∧ SameRegs c [.CORE_TRAP_CAUSE] p1 p4 ∧ SameRegs c [.CORE_TRAP_INFO] p4 p5 ∧
      SameRegs c [.CORE_STATUS] p5 q ∧ p1.wf ∧ p4.wf ∧ p5.wf ∧ q.regs = (p5.fput F.CORE_STATUS_mode 1 c).regs := by
  have h0 : InFile c 0 0 := .ofCore hc (by decide)
  have h1 := wf_fput hp F.CORE_TRAP_PC_pc pc c 0 0
  have h2 := wf_fput h1 F.CORE_TRAP_CAUSE_cause cause c 0 0
  have h3 := wf_fput h2 F.CORE_TRAP_CAUSE_async (b2n async) c 0 0
  have h4 := wf_fput h3 F.CORE_TRAP_CAUSE_prev_mode (p.fget F.CORE_STATUS_mode c) c 0 0
  have h5 := wf_put h4 .CORE_TRAP_INFO info c 0 0
  have m {r : Reg} : r ∈ [r] := List.mem_singleton.2 rfl
  exact ⟨.fput hp.1 F.CORE_TRAP_PC_pc m rfl _ h0, ((SameRegs.fput h1.1 F.CORE_TRAP_CAUSE_cause m rfl _ h0).trans
    (.fput h2.1 F.CORE_TRAP_CAUSE_async m rfl _ h0)).trans (.fput h3.1 F.CORE_TRAP_CAUSE_prev_mode m rfl _ h0),
    .put h4.1 m rfl _ h0, (SameRegs.fput h5.1 F.CORE_STATUS_mode m rfl 1 h0).trans (.of_regs rfl), h1, h4, h5, rfl⟩

theorem Panel.sameRegs_enterTrap (hc : c < 1024) (pc cause : Nat) (async : Bool) (info : W64) :
    SameRegs c trapRegs p (p.enterTrap c pc cause async info) := by
  obtain ⟨s1, s2, s3, s4, -⟩ := enterTrap_writes hp hc pc cause async info
  exact (((s1.mono (by simp [trapRegs])).trans (s2.mono (by simp [trapRegs]))).trans (s3.mono (by simp [trapRegs]))).trans
    (s4.mono (by simp [trapRegs]))

/-- What taking a trap leaves in the core. -/
theorem Panel.core_enterTrap (pc cause : Nat) (async : Bool) (info : W64) :
    (p.enterTrap c pc cause async info).core c = { p.core c with
      q := { (p.core c).q with pc := ((p.enterTrap c pc cause async info).fget F.CORE_TRAP_VECTOR_vector c) }
      blocked := none } :=
  core_modCore (by exact hp.2.1) _ _

/-- What taking a trap leaves in the registers it saves to, in the mode, in the core and in the rest (R76, R77). -/
theorem Panel.enterTrap_saves (hc : c < 1024) {pc cause : Nat} (async : Bool) (info : W64) (hpc : pc < 32768)
    (hcause : cause < 256) :
    let q := p.enterTrap c pc cause async info
    q.fget F.CORE_TRAP_PC_pc c = pc ∧ q.fget F.CORE_TRAP_CAUSE_cause c = cause ∧
      q.fget F.CORE_TRAP_CAUSE_async c = (if async then 1 else 0) ∧
      q.fget F.CORE_TRAP_CAUSE_prev_mode c = p.fget F.CORE_STATUS_mode c ∧ q.get .CORE_TRAP_INFO c = info ∧
      q.fwMode c = true ∧ (q.core c).q.pc = p.fget F.CORE_TRAP_VECTOR_vector c ∧
      (q.core c).q.sregs = (p.core c).q.sregs ∧ (q.core c).q.dregs = (p.core c).q.dregs ∧
      (q.core c).q.loopsP = (p.core c).q.loopsP ∧ (∀ n, n < 32 → q.get .CORE_TOKEN c n = p.get .CORE_TOKEN c n) ∧
      q.st = p.st ∧ (∀ c', c' ≠ c → q.core c' = p.core c') := by
  have h0 : InFile c 0 0 := .ofCore hc (by decide)
  have all := sameRegs_enterTrap hp hc pc cause async info
  obtain ⟨-, s2, s3, s4, h1, h4, h5, hq⟩ := enterTrap_writes hp hc pc cause async info
  obtain ⟨hca, has, hpm⟩ := fget_trapCause h1 (c := c) cause (b2n async) (p.fget F.CORE_STATUS_mode c)
  have hm : p.fget F.CORE_STATUS_mode c % 2 = p.fget F.CORE_STATUS_mode c := Nat.mod_eq_of_lt (fget_lt ..)
  intro q
  have hk := core_enterTrap hp (c := c) pc cause async info
  refine ⟨?_, ?_, ?_, ?_, ?_, ?_, ?_, ?_, ?_, ?_, fun n hn => ?_, rfl, fun c' hc' => core_setCore_ne hp.2.1 _ hc'⟩
  · rw [s4.fget h0 (by decide), s3.fget h0 (by decide), s2.fget h0 (by decide), fget_fput hp.1 _ _ _ _ _ (by decide)]
    exact Nat.mod_eq_of_lt hpc
  · rw [s4.fget h0 (by decide), s3.fget h0 (by decide), hca, Nat.mod_eq_of_lt hcause]
  · rw [s4.fget h0 (by decide), s3.fget h0 (by decide), has]
    cases async <;> rfl
  · rw [s4.fget h0 (by decide), s3.fget h0 (by decide), hpm, hm]
  · rw [s4 _ _ _ _ h0 fun hn => absurd hn.2 (by decide), get_put h4.1]
  · rw [fwMode, flag, fget_congr hq, fget_fput h5.1 _ _ _ _ _ (by decide)]
    rfl
  · rw [hk]
    exact all.fget h0 (by decide)
  · rw [hk]
  · rw [hk]
  · rw [hk]
  · exact all _ _ _ _ (.ofCore hc (by omega)) (by simp [trapRegs])

/-- A double trap stops issue, shows in the status and is reported as an uncorrected error of the core (R78). -/
theorem Panel.doubleTrap_stops :
    let q := p.doubleTrap c
    q.fget F.CORE_STATUS_double_trap c = 1 ∧ q.running c = false ∧ q.halted c = true ∧
      ∃ h r, q.reports = p.reports ++ [(h, r)] ∧ r.cls = clsUC ∧ r.level = lvCore := by
  have h1 := sorted_fput hp.1 F.CORE_STATUS_double_trap 1 c 0 0
  have h2 := sorted_fput h1 F.CORE_STATUS_running 0 c 0 0
  have hq : (p.doubleTrap c).regs = (((p.fput F.CORE_STATUS_double_trap 1 c).fput F.CORE_STATUS_running 0 c).fput
    F.CORE_STATUS_halted 1 c).regs := rfl
  refine ⟨?_, ?_, ?_, _, _, rfl, rfl, rfl⟩
  · rw [fget_congr hq,
      fget_fput_field h2 F.CORE_STATUS_halted F.CORE_STATUS_double_trap _ _ _ _ rfl (by decide) (by decide) (by decide),
      fget_fput_field h1 F.CORE_STATUS_running F.CORE_STATUS_double_trap _ _ _ _ rfl (by decide) (by decide) (by decide),
      fget_fput hp.1 _ _ _ _ _ (by decide)]
    rfl
  · rw [running, flag, fget_congr hq,
      fget_fput_field h2 F.CORE_STATUS_halted F.CORE_STATUS_running _ _ _ _ rfl (by decide) (by decide) (by decide),
      fget_fput h1 _ _ _ _ _ (by decide)]
    rfl
  · rw [halted, flag, fget_congr hq, fget_fput h2 _ _ _ _ _ (by decide)]
    rfl

end

/-- Settles O18: `Panel.enterTrap_saves` for a trap taken, `Panel.doubleTrap_stops` for one in firmware mode. -/
theorem trapEntrySaves : Obligations.TrapEntrySaves := by
  unfold Obligations.TrapEntrySaves
  refine ⟨fun p c pc cause async info hp hc hpc hcause => Panel.enterTrap_saves hp hc async info hpc hcause,
    fun p c pc cause info hp hc => ⟨fun hf => ?_, fun hf => syncTrap_program hf pc cause info⟩⟩
  rw [syncTrap_firmware hf]
  exact Panel.doubleTrap_stops hp

end Sys2Proof.Machine
end

section
/-! The system class (R69): core CSRs, software traps, RETT and HALT, and the delivery of asynchronous causes (R77). -/

namespace Sys2Proof.Machine

/-! ### Core CSRs -/

section
variable {s : State} {p p' q : Panel} {c n : Nat} {f : CsrForm} {r : Reg} {v : W64}

theorem acts_csrr (hi : Issues s.p c .waits) (hf : f.rsvd = 0) (hb : f.b = 0) (hu : (s.p.core c).unready f.a = false) :
    (∀ r n v p', csrReg f.csr.toNat = some (r, n) → s.p.coreRead c r n = (v, p') → Completes s.p c (p'.setS c f.a v) q →
      Acts (.csrr c f) s q) ∧
    (csrReg f.csr.toNat = none → Acts (.csrr c f) s (s.p.foundTrap c ⟨0x0A, none⟩)) := by
  have hz : (f.b != 0 || f.rsvd != 0) = false := by simp [hb, hf]
  have hn : ¬ (s.p.core c).unready f.a = true := by simp [hu]
  refine ⟨fun r n v p' hr hv hq => acts_of_exec rfl ((issue_ok hz).trans (issue_done hi ((if_neg hn).trans ?_) hq)),
    fun hr => acts_of_exec rfl ((issue_ok hz).trans (issue_trap hi ((if_neg hn).trans ?_)))⟩
  · simp only [hr, hv]
  · simp only [hr]
    rfl

section
variable (hi : p.canIssue c .waits = true) (hf : f.rsvd = 0) (ha : f.a = 0) (hu : (p.core c).unready f.b = false)
  {value : W64 → W64 → W64}
include hi hf ha hu

/-- CSRW, CSRS and CSRC write where program mode may and no read-only bit would change, and trap elsewhere (R39, R69). -/
theorem csrOp_register (hr : csrReg f.csr.toNat = some (r, n)) (hv : p.coreRead c r n = (v, p')) :
    let w := value v ((p.core c).sreg f.b)
    (r.info.fwOnly = false ∨ p'.fwMode c = true → (v ^^^ w) &&& r.roMask = 0 → Completes p c (p'.coreWrite c r n w) q →
      p.csrOp c f value = q) ∧
    ((r.info.fwOnly = true ∧ p'.fwMode c = false) ∨ (v ^^^ w) &&& r.roMask ≠ 0 →
      p.csrOp c f value = p.foundTrap c ⟨0x0A, none⟩) := by
  intro w
  have hz : (f.a != 0 || f.rsvd != 0) = false := by simp [ha, hf]
  have hn : ¬ (p.core c).unready f.b = true := by simp [hu]
  refine ⟨fun hm hro hq => (issue_ok hz).trans (issue_done hi ((if_neg hn).trans ?_) hq),
    fun h => (issue_ok hz).trans (issue_trap hi ((if_neg hn).trans ?_))⟩
  · simp only [hr, hv]
    rw [if_neg (by rcases hm with h | h <;> simp [h]), if_neg (by rw [bne_iff_ne]; exact not_not.2 hro)]
  · simp only [hr, hv]
    rcases h with ⟨h1, h2⟩ | h
    · exact if_pos (by simp [h1, h2])
    · exact (ite_congr rfl (fun _ => rfl) fun _ => if_pos (bne_iff_ne.2 h)).trans (ite_self _)

theorem csrOp_none (hr : csrReg f.csr.toNat = none) : p.csrOp c f value = p.foundTrap c ⟨0x0A, none⟩ := by
  have hz : (f.a != 0 || f.rsvd != 0) = false := by simp [ha, hf]
  have hn : ¬ (p.core c).unready f.b = true := by simp [hu]
  refine (issue_ok hz).trans (issue_trap hi ((if_neg hn).trans ?_))
  simp only [hr]
  rfl

end

end

/-- Settles O16: CSRR by its two cases, the three writes by those of `Panel.csrOp`. -/
theorem csrInstructionsReachTheRegisters : Obligations.CsrInstructionsReachTheRegisters := by
  unfold Obligations.CsrInstructionsReachTheRegisters
  intro s c f q hi hf k
  refine ⟨fun r n v p' hr hv => ⟨fun hb hu => (acts_csrr hi hf hb hu).1 r n v p' hr hv, fun ha hu i w hmem => ?_⟩,
    fun hr => ⟨fun hb hu => (acts_csrr (q := q) hi hf hb hu).2 hr, fun ha hu i hmem => ?_⟩⟩
  · have hw {value : W64 → W64 → W64} := csrOp_register (q := q) (value := value) hi hf ha hu hr hv
    simp only [List.mem_cons, List.not_mem_nil, or_false, Prod.mk.injEq] at hmem
    rcases hmem with h | h | h <;> obtain ⟨rfl, rfl⟩ := h
    all_goals exact ⟨fun hm hro hq => acts_of_exec rfl (hw.1 hm hro hq), fun h => acts_of_exec rfl (hw.2 h)⟩
  · simp only [List.mem_cons, List.not_mem_nil, or_false] at hmem
    rcases hmem with rfl | rfl | rfl
    all_goals exact acts_of_exec rfl (csrOp_none hi hf ha hu hr)

/-! ### TRAP, RETT and HALT -/

section
variable {s : State} {c : Nat} (hi : Issues s.p c .waits)
include hi

theorem acts_trap (hs : (s.p.core c).spec = none) {f : TrapForm} (hf : f.rsvd = 0) (hm : s.p.fwMode c = false) :
    Acts (.trap c f) s (s.p.enterTrap c (s.p.core c).q.pc 0x0C false (f.code.setWidth 64)) := by
  refine acts_of_exec rfl ((issue_ok (by simp [hf])).trans ((issue_trap hi rfl).trans ?_))
  exact (foundTrap_now hs _).trans (syncTrap_program hm _ _ _)

omit hi in
theorem issue_rett {cls : SpecClass} {p : Panel} {body : Panel → Core → Issued} (hi : p.canIssue c cls = true)
    (hb : body p (p.core c) = .rett) : p.issue c cls false body =
      (p.fput F.CORE_STATUS_mode (p.fget F.CORE_TRAP_CAUSE_prev_mode c) c).setCore c
        ((p.core c).complete (p.fget F.CORE_TRAP_PC_pc c)) := by
  simp [Panel.issue, hi, hb]

theorem acts_rett_halt_firmware (hm : s.p.fwMode c = true) :
    Acts (.rett c 0) s ((s.p.fput F.CORE_STATUS_mode (s.p.fget F.CORE_TRAP_CAUSE_prev_mode c) c).setCore c
        ((s.p.core c).complete (s.p.fget F.CORE_TRAP_PC_pc c))) ∧
      Acts (.halt c 0) s (s.p.setCore c { s.p.core c with blocked := some .halting }) :=
  ⟨acts_of_exec rfl ((issue_ok rfl).trans (issue_rett hi (if_pos hm))),
    acts_of_exec rfl ((issue_ok rfl).trans (issue_block hi (if_pos hm)))⟩

theorem acts_rett_halt_program (hm : s.p.fwMode c = false) :
    ∀ i ∈ ([.rett c 0, .halt c 0] : List Instr), Acts i s (s.p.foundTrap c ⟨0x01, none⟩) := by
  have hn : ¬ s.p.fwMode c = true := by simp [hm]
  simp only [List.mem_cons, List.not_mem_nil, or_false]
  rintro i (rfl | rfl) <;> exact acts_of_exec rfl ((issue_ok rfl).trans (issue_trap hi (if_neg hn)))

end

/-- Settles O17: a lemma per instruction and mode. -/
theorem trapReturnAndHalt : Obligations.TrapReturnAndHalt := by
  unfold Obligations.TrapReturnAndHalt
  intro s c hi hs
  exact ⟨fun f => acts_trap hi hs, acts_rett_halt_firmware hi, acts_rett_halt_program hi⟩

/-! ### The last core of a cluster under restart -/

/-- A panel whose core 0 stops issue with nothing in its engines, and whose hub 0 waits for the cores of core 0's cluster to halt
in order to restart them (R382 steps 1 and 2). The other registers are as reset leaves them: the cluster's other cores are halted. -/
def haltingCluster : Panel :=
  { Panel.reset with
    errs := [(0, ⟨[], some ⟨⟨0x0110, clsUC, lvCluster, 1, 0, 0, 0, 0⟩, lvCluster, false, false, 1, .halting 0 0⟩⟩)]
    cores := [(0, { Core.zero with blocked := some .halting })] }

/-- What HALT_COMPLETE of core 0 leaves of a panel, as its text says. -/
def haltedCore0 (p : Panel) : Panel :=
  (List.range 4).foldl (fun (p : Panel) hub => p.clusterHalted hub)
    (((p.setCore 0 { p.core 0 with blocked := none }).fput F.CORE_STATUS_running 0 0).fput F.CORE_STATUS_halted 1 0)

theorem acts_haltComplete_haltingCluster : Acts (.haltComplete 0) ⟨haltingCluster, []⟩ (haltedCore0 haltingCluster) :=
  acts_of_exec rfl (if_pos (by decide))

/-- The restart has started core 0 again (R382 step 3). -/
theorem running_haltedCore0 : (haltedCore0 haltingCluster).running 0 = true := by decide +kernel

/-- A command acts as one panel only. -/
theorem acts_unique {i : Instr} {s : State} {q q' : Panel} (h : Acts i s q) (h' : Acts i s q') : q = q' := by
  rw [Acts, h] at h'
  exact congrArg State.p (Host.Outcome.next.inj h')

/-- Refutes O19: where the core that halts is the last of a cluster under restart, HALT_COMPLETE goes on to restart the cluster and
starts that core again (R382), so the core runs: `haltingCluster`, whose core 0 is blocked halting with its engines drained. -/
theorem not_asyncCausesAndHaltsComplete : ¬ Obligations.AsyncCausesAndHaltsComplete := by
  unfold Obligations.AsyncCausesAndHaltsComplete
  intro h
  obtain ⟨q, hq, hstop⟩ := (h.1 ⟨haltingCluster, []⟩ 0 rfl).2 rfl rfl
  obtain ⟨hrun, -, -⟩ := hstop ⟨rfl, rfl, rfl⟩ (by decide)
  rw [acts_unique hq acts_haltComplete_haltingCluster, running_haltedCore0] at hrun
  exact absurd hrun (by decide)

end Sys2Proof.Machine
end

section
/-! What reading and writing memory leave alone (R161 to R165): a step of a memory changes the store, the register file, the margins'
counts, the reports and the count of free values, and nothing else; a scratchpad's changes two registers of its core alone. -/

namespace Sys2Proof.Machine

/-- The registers in which a scratchpad counts (R163, R164). -/
def spRegs : List Reg := [.CORE_SP_ERR, .CORE_SP_STATUS]

/-- q differs from p at most in what memories change. -/
def MemFrame (p q : Panel) : Prop :=
  q = { p with st := q.st, regs := q.regs, pmc := q.pmc, reports := q.reports, freeCtr := q.freeCtr }

section
variable {p q r : Panel}

theorem MemFrame.trans (h : MemFrame p q) (h' : MemFrame q r) : MemFrame p r := by
  unfold MemFrame at *
  rw [h', h]

theorem MemFrame.cores (h : MemFrame p q) : q.cores = p.cores := by rw [h]

theorem MemFrame.net (h : MemFrame p q) : q.net = p.net := by rw [h]

theorem MemFrame.core (h : MemFrame p q) (c : Nat) : q.core c = p.core c := Panel.core_congr h.cores c

end

/-- q differs from p at most in what the memory k changes. -/
structure MemStep (k : MemKind) (p q : Panel) : Prop where
  frame : MemFrame p q
  wf : p.wf → q.wf
  regs : ∀ c, k = .scratch c → c < 1024 → p.wf → SameRegs c spRegs p q

namespace MemStep

variable {k : MemKind} {p q r : Panel}

theorem refl (k : MemKind) (p : Panel) : MemStep k p p := ⟨rfl, id, fun _ _ _ _ => .of_regs rfl⟩

theorem trans (h : MemStep k p q) (h' : MemStep k q r) : MemStep k p r :=
  ⟨h.frame.trans h'.frame, h'.wf ∘ h.wf, fun c hk hc hp => (h.regs c hk hc hp).trans (h'.regs c hk hc (h.wf hp))⟩

/-- A step that writes no register and no byte. -/
theorem of_frame (hq : q = { p with st := q.st, pmc := q.pmc, reports := q.reports, freeCtr := q.freeCtr })
    (hm : q.st.mem = p.st.mem) : MemStep k p q := by
  have hr : q.regs = p.regs := by rw [hq]
  have hf : MemFrame p q := by rw [MemFrame, hr]; exact hq
  exact ⟨hf, Panel.wf_congr hr hf.cores hm, fun _ _ _ _ => .of_regs hr⟩

theorem ite {c : Prop} [Decidable c] {q r : Panel} (hq : MemStep k p q) (hr : MemStep k p r) :
    MemStep k p (if c then q else r) := by
  split <;> assumption

theorem foldl {α : Type} {f : Panel → α → Panel} (hf : ∀ q a, MemStep k q (f q a)) (l : List α) (p : Panel) :
    MemStep k p (l.foldl f p) :=
  foldl_keeps (MemStep k p) f (fun q a h => h.trans (hf q a)) l p (refl k p)

end MemStep

section
variable (p : Panel) (k : MemKind)

/-! ### Parts of a word's write -/

theorem memStep_drawBytes (n : Nat) : MemStep k p (p.drawBytes n).2 := .of_frame rfl rfl

theorem memStep_draw (n : Nat) : MemStep k p (p.draw n).2 := .of_frame rfl rfl

theorem memStep_setPoison (ws : List Nat) (on : Bool) : MemStep k p (p.setPoison ws on) := .of_frame rfl rfl

theorem memStep_clearLatent (ws : List Nat) : MemStep k p (p.clearLatent ws) := .of_frame rfl rfl

theorem memStep_putBytes (home : Nat) (bs : List Byte) : MemStep k p (p.putBytes home bs) :=
  ⟨rfl, fun h => Panel.wf_putBytes h _ _, fun _ _ _ _ => .of_regs rfl⟩

theorem memStep_encode (w : Bool) (ws : List Nat) : MemStep k p (p.encode k w ws) := by
  unfold Panel.encode
  split
  · exact .refl k p
  · exact .of_frame rfl rfl

theorem memStep_activate64 (home : Nat) : MemStep k p (p.activate64 k home) := by
  unfold Panel.activate64
  split
  · exact .ite (.refl _ p) (.ite (.of_frame rfl rfl) (.of_frame rfl rfl))
  · exact .refl _ p

theorem memStep_findWord (w : Bool) (ks : List Nat) : MemStep k p (p.findWord k w ks).2 := by
  have h : MemStep k p (if (p.badBits ks).length < 3 then (0, p) else p.draw 3).2 := by
    split
    · exact .refl k p
    · exact memStep_draw p k 3
  unfold Panel.findWord
  dsimp only
  split <;> exact h

/-- An error is counted in the register of its scratchpad and reported. -/
theorem memStep_countErr (home : Nat) (uc : Bool) : MemStep k p (p.countErr k home uc) := by
  refine ⟨?_, fun h => Panel.wf_countErr h k home uc, ?_⟩
  · unfold Panel.countErr Panel.countUnit
    cases k <;> cases uc <;> rfl
  · rintro c rfl hc hp
    have h0 : InFile c 0 0 := .ofCore hc (by decide)
    have m : Reg.CORE_SP_ERR ∈ spRegs := by decide
    have counted : ∀ (f : RField) (q : Panel), f.reg = .CORE_SP_ERR → q.wf →
        ∀ v, SameRegs c spRegs q (q.fput f v c) ∧ (q.fput f v c).wf := fun f q hf hq v =>
      ⟨.fput hq.1 f (by rw [hf]; exact m) (by rw [hf]; rfl) v h0, Panel.wf_fput hq _ _ _ _ _⟩
    have fields : ∀ q : Panel, q.wf → ∀ (f : RField) (v a b o : Nat), f.reg = .CORE_SP_ERR →
        SameRegs c spRegs q ((((q.fput f v c).fput F.CORE_SP_ERR_last_class a c).fput F.CORE_SP_ERR_last_uc b c).fput
          F.CORE_SP_ERR_last_offset o c) := fun q hq f v a b o hf =>
      have h1 := counted f q hf hq v
      have h2 := counted F.CORE_SP_ERR_last_class _ rfl h1.2 a
      have h3 := counted F.CORE_SP_ERR_last_uc _ rfl h2.2 b
      ((h1.1.trans h2.1).trans h3.1).trans (counted F.CORE_SP_ERR_last_offset _ rfl h3.2 o).1
    have hu : (p.countUnit (.scratch c) (home / 64 * 64) uc).wf := Panel.wf_countUnit hp _ _ _
    have hs : SameRegs c spRegs p (p.countUnit (.scratch c) (home / 64 * 64) uc) := .of_regs (by cases uc <;> rfl)
    cases uc
    · exact (hs.trans (fields _ hu F.CORE_SP_ERR_ce_count _ _ _ _ rfl)).trans (.of_regs rfl)
    · exact (hs.trans (fields _ hu F.CORE_SP_ERR_uc_count _ _ _ _ rfl)).trans (.of_regs rfl)

theorem memStep_asFound (w : Nat) (raw : List Byte) (x : Found) : MemStep k p (p.asFound k w raw x) := by
  cases x with
  | clean => exact .refl k p
  | ce => exact memStep_countErr p k _ _
  | ue => exact (memStep_countErr p k _ _).trans (memStep_putBytes _ k _ _)
  | other corrected =>
    have h1 : MemStep k p (if corrected then p.countErr k w false else p) := .ite (memStep_countErr p k w false) (.refl k p)
    exact (h1.trans (memStep_drawBytes _ k _)).trans (memStep_putBytes _ k _ _)

/-! ### A word's write -/

/-- The 8 B words of the code word at w. -/
def wordsAt (k : MemKind) (weight : Bool) (w : Nat) : List Nat := (List.range (wordBytes k weight / 8)).map (w / 8 + ·)

/-- A read-modify-write as it begins: counted, in a scratchpad. -/
def Panel.rmwBegun (p : Panel) (k : MemKind) (home : Nat) : Panel :=
  match k with
  | .scratch c => (p.activate64 k home).addWrap F.CORE_SP_STATUS_rmw_count 1 c
  | _ => p.activate64 k home

/-- What a read-modify-write finds in a code word: with contents undefined, free bytes and a free outcome, else what decoding gives.
The number says whether the word will be poisoned: 2 or more. -/
def Panel.rmwFound (p : Panel) (k : MemKind) (weight : Bool) (w : Nat) : Nat × Panel :=
  let ws := wordsAt k weight w
  if p.undefWords k w ws then
    let d := (p.draw 4).2.drawBytes (wordBytes k weight)
    let q := if (p.draw 4).1 = 1 then d.2.countErr k w false else if (p.draw 4).1 = 2 then d.2.countErr k w true else d.2
    ((p.draw 4).1, q.putBytes w d.1)
  else
    let was := ws.any fun x => smHas p.st.poison x
    let raw := (p.bytesAt w (wordBytes k weight)).zipIdx (w % 64) |>.map fun e =>
      flipByte (smGetD p.st.latent (w / 64) []) e.2 e.1
    let x := if was then (Found.clean, p) else p.findWord k weight ws
    (if was || x.1 == .ue then 2 else 0, x.2.asFound k w raw x.1)

/-- A code word takes bytes, with its poison and fresh check bits. -/
def Panel.wordStored (p : Panel) (home : Nat) (bs : List (Byte × Bool)) (ws : List Nat) (poison : Bool) : Panel :=
  ((p.putBytes home (bs.map (·.1))).setPoison ws poison).clearLatent ws

theorem writeWord_whole {weight : Bool} {w home : Nat} {bs : List (Byte × Bool)} (h : home = w ∧ bs.length = wordBytes k weight) :
    p.writeWord k weight w home bs =
      ((p.activate64 k home).wordStored home bs (wordsAt k weight w) (bs.any (·.2))).encode k weight (wordsAt k weight w) := by
  unfold Panel.writeWord
  exact if_pos h

theorem writeWord_part {weight : Bool} {w home : Nat} {bs : List (Byte × Bool)}
    (h : ¬(home = w ∧ bs.length = wordBytes k weight)) :
    let p2 := p.rmwBegun k home
    let x := p2.rmwFound k weight w
    let q := x.2.wordStored home bs (wordsAt k weight w) (bs.any (·.2) || decide (2 ≤ x.1))
    p.writeWord k weight w home bs =
      if p2.undefWords k w (wordsAt k weight w) then q.encode k weight (wordsAt k weight w) else q := by
  intro p2 x q
  have two : ∀ b : Bool, decide (2 ≤ if b = true then 2 else 0) = b := by decide
  have hx : x = if p2.undefWords k w (wordsAt k weight w) then _ else _ := rfl
  unfold Panel.writeWord
  refine (if_neg h).trans ?_
  by_cases hu : p2.undefWords k w (wordsAt k weight w) = true
  · rw [if_pos hu] at hx ⊢
    simp only [q, hx]
    cases k <;> exact if_pos hu
  · rw [if_neg hu] at hx ⊢
    simp only [q, hx, two, ← Bool.or_assoc]
    cases k <;> exact if_neg hu

theorem memStep_rmwBegun (home : Nat) : MemStep k p (p.rmwBegun k home) := by
  unfold Panel.rmwBegun
  have h := memStep_activate64 p k home
  cases k with
  | scratch c =>
    refine h.trans ⟨rfl, fun hw => Panel.wf_addWrap hw _ _ _ _ _, ?_⟩
    rintro c' hk hc hp
    cases hk
    exact .fput hp.1 F.CORE_SP_STATUS_rmw_count (by decide) rfl _ (.ofCore hc (by decide))
  | _ => exact h

theorem memStep_rmwFound (weight : Bool) (w : Nat) : MemStep k p (p.rmwFound k weight w).2 := by
  unfold Panel.rmwFound
  extract_lets ws d q was raw x
  split
  · have hd : MemStep k p d.2 := (memStep_draw p k 4).trans (memStep_drawBytes _ k _)
    exact (hd.trans (.ite (memStep_countErr _ k _ _) (.ite (memStep_countErr _ k _ _) (.refl k _)))).trans
      (memStep_putBytes _ k _ _)
  · refine MemStep.trans ?_ (memStep_asFound _ k _ _ _)
    show MemStep k p (if was then (Found.clean, p) else p.findWord k weight ws).2
    split
    · exact .refl k p
    · exact memStep_findWord p k _ _

theorem memStep_wordStored (home : Nat) (bs : List (Byte × Bool)) (ws : List Nat) (poison : Bool) :
    MemStep k p (p.wordStored home bs ws poison) :=
  ((memStep_putBytes p k _ _).trans (memStep_setPoison _ k _ _)).trans (memStep_clearLatent _ k _)

theorem memStep_writeWord (weight : Bool) (w home : Nat) (bs : List (Byte × Bool)) :
    MemStep k p (p.writeWord k weight w home bs) := by
  by_cases h : home = w ∧ bs.length = wordBytes k weight
  · rw [writeWord_whole p k h]
    exact ((memStep_activate64 p k home).trans (memStep_wordStored _ k _ _ _ _)).trans (memStep_encode _ k _ _)
  · rw [writeWord_part p k h]
    have hs := ((memStep_rmwBegun p k home).trans (memStep_rmwFound _ k weight w)).trans
      (memStep_wordStored _ k home bs (wordsAt k weight w)
        (bs.any (·.2) || decide (2 ≤ ((p.rmwBegun k home).rmwFound k weight w).1)))
    exact .ite (hs.trans (memStep_encode _ k _ _)) hs

/-! ### Blocks and ranges -/

theorem memStep_writeBlock (home : Nat) (bs : List (Byte × Bool)) : MemStep k p (p.writeBlock k home bs) := by
  unfold Panel.writeBlock
  refine MemStep.foldl (fun q i => ?_) _ p
  dsimp only
  split
  · exact .refl k q
  · exact memStep_writeWord q k _ _ _ _

theorem memFrame_writeTagged (pa : Nat) (bs : List (Byte × Bool)) : MemFrame p (p.writeTagged pa bs) := by
  unfold Panel.writeTagged
  refine foldl_keeps (fun a : Panel × List (Byte × Bool) => MemFrame p a.1) _ (fun a e h => ?_) _ _ rfl
  split
  · exact h
  · exact h.trans (memStep_writeBlock _ _ _ _).frame

/-- Decoding a block only draws free values. -/
theorem memStep_decodeBlock (home : Nat) : MemStep k p (p.decodeBlock k home).2.2.2 := by
  unfold Panel.decodeBlock
  refine foldl_keeps (fun a : List Byte × Bool × List Nat × Panel => MemStep k p a.2.2.2) _ (fun a ks h => ?_) _ _ (.refl k p)
  obtain ⟨d, ce, ue, q⟩ := a
  dsimp only
  split
  · exact h
  · have hf := h.trans (memStep_findWord q k (p.isWeight k home) ks)
    split <;> simp_all only
    exact hf.trans (memStep_drawBytes _ k _)

end

end Sys2Proof.Machine
end

section
/-! The resolution of a conditional branch (R72 to R75): what a commit and a squash leave of the core. -/

namespace Sys2Proof.Machine

/-! ### Commit -/

@[simp] theorem Core.setPos_q (k : Core) (i : Nat) (g : Option Nat) : (k.setPos i g).q = k.q := by
  unfold Core.setPos
  split <;> rfl

@[simp] theorem Core.freePos_q (k : Core) (g : Nat) : (k.freePos g).q = k.q := by
  unfold Core.freePos
  dsimp only
  split <;> split <;> rfl

/-- A copy that becomes a group's tile leaves the scalar side. -/
@[simp] theorem Core.adoptCopy_q (k : Core) (r : Running) : (k.adoptCopy r).q = k.q := by
  unfold Core.adoptCopy
  split
  · split
    · rfl
    · simp [Core.setGroup]
  · rfl

theorem Core.adoptCopies_q (l : List Running) (k : Core) : (l.foldl Core.adoptCopy k).q = k.q :=
  foldl_keeps (fun k' : Core => k'.q = k.q) _ (fun k' r h => (k'.adoptCopy_q r).trans h) l k rfl

/-- The core as a right prediction leaves it: nothing is held any more. -/
def Core.committed (k : Core) : Core :=
  { k.running.foldl Core.adoptCopy k with
    spec := none
    mxQ := k.mxQ.map fun o => { o with spec := false }
    running := k.running.map fun r => { r with op := { r.op with spec := false } }
    dmaQ := k.dmaQ.map fun o => { o with spec := false }
    vecQ := k.vecQ.map fun o => { o with spec := false }
    posts := k.posts.map fun o => { o with spec := false } }

theorem dmaHeldFault_none {p : Panel} {c : Nat} (h : ∀ o ∈ (p.core c).dmaQ, o.failed = false) : p.dmaHeldFault c = p := by
  have hn : (p.core c).dmaQ.find? (fun o => o.failed && !o.spec) = none :=
    List.find?_eq_none.2 fun o ho => by simp [h o ho]
  simp [Panel.dmaHeldFault, hn]

/-- Stores done in order change memories only. -/
theorem memFrame_stores (c : Nat) (l : List (Nat × List Byte)) (p : Panel) :
    MemFrame p (l.foldl (fun (p : Panel) e => p.writeTagged (scratchPa c e.1) (tagged e.2)) p) :=
  foldl_keeps (MemFrame p) _ (fun q _ h => h.trans (memFrame_writeTagged q _ _)) l p rfl

/-- With no trap and no failed operation held, a commit is the core's, then the stores. -/
theorem commitSpec_eq {p : Panel} (hp : p.wf) {c : Nat} {sp : Spec} (ht : sp.heldTrap = none)
    (hd : ∀ o ∈ (p.core c).dmaQ, o.failed = false) :
    p.commitSpec c sp = sp.held.foldl (fun (p : Panel) e => p.writeTagged (scratchPa c e.1) (tagged e.2))
      (p.modCore c Core.committed) := by
  have hk : ((sp.held.foldl (fun (p : Panel) e => p.writeTagged (scratchPa c e.1) (tagged e.2))
      (p.modCore c Core.committed)).core c) = (p.core c).committed := by
    rw [(memFrame_stores c sp.held _).core c, Panel.core_modCore hp.2.1]
  unfold Panel.commitSpec
  rw [ht]
  refine dmaHeldFault_none fun o ho => ?_
  have ho' : o ∈ (p.core c).committed.dmaQ := by rwa [← hk]
  obtain ⟨o', h', rfl⟩ := List.mem_map.1 ho'
  exact hd o' h'

/-! ### Squash -/

/-- The core as a misprediction leaves it, before issue goes on: what the branch saved, and nothing held. -/
def Core.squashed (k : Core) (sp : Spec) : Core :=
  { k with
    q := sp.saved
    spec := none
    mxQ := k.mxQ.filter fun o => !o.spec
    running := k.running.filter fun r => !r.op.spec
    active := match k.running.find? fun r => r.op.spec with | some r => r.wasActive | none => k.active
    dmaQ := k.dmaQ.filter fun o => !o.spec
    vecQ := k.vecQ.filter fun o => !o.spec
    posts := k.posts.filter fun o => !o.spec }

/-- Where issue goes on changes the index, the loops and the sequence number alone. -/
def OnlyIssue (k k' : Core) : Prop :=
  k'.q.sregs = k.q.sregs ∧ k'.q.dregs = k.q.dregs ∧ (k.spec = none → k'.spec = none) ∧ k'.mxQ = k.mxQ ∧ k'.dmaQ = k.dmaQ ∧
    k'.vecQ = k.vecQ ∧ k'.posts = k.posts ∧ k'.running = k.running

theorem Core.goTo_onlyIssue (k : Core) (fw : Bool) (t : Nat) (ends : Bool) : OnlyIssue k (k.goTo fw t ends) := by
  cases ends <;> simp +contextual [Core.goTo, Core.complete, OnlyIssue]

theorem completeAt_onlyIssue {p q : Panel} (hp : p.wf) {c i : Nat} (h : p.completeAt c i = some q) :
    OnlyIssue (p.core c) (q.core c) := by
  obtain ⟨-, rfl⟩ := completeAt_some h
  rw [Panel.core_setCore hp.2.1]
  simp +contextual [Core.complete, OnlyIssue]

theorem squashSpec_leaves {p : Panel} (hp : p.wf) {c : Nat} (sp : Spec) :
    OnlyIssue ((p.core c).squashed sp) ((p.squashSpec c sp).core c) ∧
      (p.squashSpec c sp).regs = (p.addWrap F.CORE_MISPREDICT_COUNT_count 1 c).regs := by
  have h1 : (p.addWrap F.CORE_MISPREDICT_COUNT_count 1 c).wf := Panel.wf_addWrap hp _ _ _ _ _
  have h2 := Panel.wf_modCore h1 c fun k => k.squashed sp
  have hk : ((p.addWrap F.CORE_MISPREDICT_COUNT_count 1 c).modCore c fun k => k.squashed sp).core c =
      (p.core c).squashed sp := Panel.core_modCore h1.2.1 _ _
  have he : p.squashSpec c sp = if sp.taken
      then ((p.addWrap F.CORE_MISPREDICT_COUNT_count 1 c).modCore c fun k => k.squashed sp).modCore c fun k =>
        k.goTo (p.fwMode c) sp.target.toNat true
      else (((p.addWrap F.CORE_MISPREDICT_COUNT_count 1 c).modCore c fun k => k.squashed sp).completeAt c sp.brPc).getD
        ((p.addWrap F.CORE_MISPREDICT_COUNT_count 1 c).modCore c fun k => k.squashed sp) := rfl
  rw [he]
  split
  · refine ⟨?_, rfl⟩
    rw [Panel.core_modCore h2.2.1, hk]
    exact Core.goTo_onlyIssue _ _ _ _
  · rcases hq : Panel.completeAt _ c sp.brPc with _ | q
    · rw [Option.getD_none, hk]
      exact ⟨⟨rfl, rfl, id, rfl, rfl, rfl, rfl, rfl⟩, rfl⟩
    · rw [Option.getD_some, ← hk]
      refine ⟨completeAt_onlyIssue h2 hq, ?_⟩
      obtain ⟨-, rfl⟩ := completeAt_some hq
      rfl

/-- Settles O9: the two outcomes as the command's text has them, a commit by `commitSpec_eq`, a squash by `squashSpec_leaves`. -/
theorem branchResolveCommitsOrSquashes : Obligations.BranchResolveCommitsOrSquashes := by
  unfold Obligations.BranchResolveCommitsOrSquashes
  refine ⟨fun s c sp hs => ⟨fun ht => ?_, fun ht => ?_⟩, fun s c hs => ?_, fun p c sp hp ht hd => ?_, fun p c sp hp hc => ?_⟩
  · exact acts_of_exec rfl (by simp only [hs, ht, if_true])
  · exact acts_of_exec rfl (by simp only [hs, ht, if_false])
  · exact acts_of_exec rfl (by simp only [hs])
  · rw [commitSpec_eq hp ht hd]
    have hk := (memFrame_stores c sp.held (p.modCore c Core.committed)).core c
    rw [Panel.core_modCore hp.2.1] at hk
    dsimp only
    rw [hk]
    exact ⟨rfl, Core.adoptCopies_q _ _, rfl, rfl, rfl, rfl, rfl, p.modCore c Core.committed, rfl, rfl, rfl⟩
  · obtain ⟨⟨hs, hd, hsp, hm, hq, hv, hposts, hr⟩, hregs⟩ := squashSpec_leaves hp (c := c) sp
    have held {α : Type} {l : List α} {f : α → Bool} : ∀ o ∈ l.filter fun o => !f o, f o = false :=
      fun o ho => by simpa using (List.mem_filter.1 ho).2
    refine ⟨hs, hd, hsp rfl, hm ▸ held, hq ▸ held, hv ▸ held, hposts ▸ held, hr ▸ held (f := fun r : Running => r.op.spec), ?_⟩
    rw [Panel.fget_congr hregs, Panel.addWrap, Panel.fget_fput hp.1 _ _ _ _ _ (by decide)]
    rfl

end Sys2Proof.Machine
end

section
/-! The DMA class (R64 to R68): its instructions join the queue, and an operation completes or fails. -/

namespace Sys2Proof.Machine

/-! ### Issue -/

section
variable {p p' q : Panel} {c : Nat}

/-- What joining the queue changes: the queue, and for an operation that leaves the scratchpad what waits on the network. -/
theorem dmaPut_joins (hp : p.wf) {op : DmaKind} {tn : BitVec 5} {inc : BitVec 16} (h : p.dmaPut c op tn inc = .done p') :
    (p'.core c).dmaQ = (p.core c).dmaQ ++ [⟨op, tn, inc, (p.core c).q.seq,
        BitVec.ofNat 16 (p.fget F.CD_RC_EPOCH_epoch (c / 16) (c / 8 % 2)), (p.core c).spec.isSome, false, none⟩] ∧
      p'.st = p.st ∧ p'.regs = p.regs := by
  unfold Panel.dmaPut at h
  extract_lets k ep p1 at h
  obtain rfl := Issued.done.inj h
  have hk : (p1.core c).dmaQ = k.dmaQ ++ [⟨op, tn, inc, k.q.seq, ep, k.spec.isSome, false, none⟩] := by
    rw [Panel.core_setCore hp.2.1]
  split
  · exact ⟨hk, rfl, rfl⟩
  · exact ⟨hk, rfl, rfl⟩

end

/-- Settles O20: each instruction's checks pass, and `dmaPut_joins`. -/
theorem dmaInstructionsQueue : Obligations.DmaInstructionsQueue := by
  unfold Obligations.DmaInstructionsQueue
  intro s c q hi hl
  have hfull : ¬ dmaFull (s.p.core c) = true := by simpa [dmaFull] using hl
  refine ⟨fun f hf h1 h2 h3 h4 h5 h6 h7 p' hp hq => ?_, fun f hf h1 h2 h3 => ⟨fun h4 h5 h6 h7 h8 h9 h10 h11 p' hp hq => ?_,
    fun h4 h5 h6 h7 h8 h9 h10 h11 p' hp hq => ?_⟩, fun f hf hu h1 h2 p' hp hq => ?_, fun f hh hlo p' hp hq => ?_,
    fun op tn inc p' hw hp => dmaPut_joins hw hp⟩
  · exact acts_of_exec rfl ((issue_ok (by simp [hf])).trans (issue_done hi ((if_neg hfull).trans
      ((if_neg (by simp [h1, h2, h3, h4, h5])).trans ((if_neg (by simp [h6, h7])).trans hp))) hq))
  · exact acts_of_exec rfl ((issue_ok (by simp [hf])).trans (issue_done hi ((if_neg hfull).trans
      ((if_neg (by simp [h1, h2, h3, h4, h5, h6, h7, h8, h9])).trans ((if_neg (by simp [h10, h11])).trans hp))) hq))
  · exact acts_of_exec rfl ((issue_ok (by simp [hf])).trans (issue_done hi ((if_neg hfull).trans
      ((if_neg (by simp [h1, h2, h3, h4, h5, h6, h7, h8, h9])).trans ((if_neg (by simp [h10, h11])).trans hp))) hq))
  · exact acts_of_exec rfl ((issue_ok (by simp [hf])).trans (issue_done hi ((if_neg (by simp [hu, hfull])).trans
      ((if_neg (by simp [h1])).trans ((if_neg (by simp [h2])).trans hp))) hq))
  · exact acts_of_exec rfl ((issue_ok (by simp [hh, hlo])).trans (issue_done hi ((if_neg hfull).trans hp) hq))

/-! ### Completion and failure -/

theorem acts_dmaOpComplete {s : State} {c : Nat} {o : DmaOp} {rest : List DmaOp} (hq : (s.p.core c).dmaQ = o :: rest)
    (ho : o.spec = false) :
    let x := s.p.dmaRun c o
    let p1 := ((x.2.2.modCore c fun k => { k with dmaQ := rest }).pruneDma c).addWrap F.CORE_DMA_BYTES_bytes x.2.1 c
    (x.1 = true → Acts (.dmaOpComplete c) s (if o.inc = 0 then p1 else p1.tokenAdd c o.tn.toNat o.inc.toNat)) ∧
      (x.1 = false → Acts (.dmaOpComplete c) s (x.2.2.dmaFault c o.seq)) := by
  intro x p1
  rcases hx : s.p.dmaRun c o with ⟨ok, n, p'⟩
  refine ⟨fun h => acts_of_exec rfl ?_, fun h => acts_of_exec rfl ?_⟩
  all_goals
    simp only [x, p1, hx] at h ⊢
    subst h
    simp only [hq, ho, hx, Bool.false_eq_true, if_false]

/-- A MARK that read nothing ahead writes nothing. -/
theorem dmaRun_mark (p : Panel) (c : Nat) {o : DmaOp} (ho : o.op = .mark) (hs : o.staged = none) :
    p.dmaRun c o = (true, 0, p) := by
  simp [Panel.dmaRun, Panel.dmaReads, Panel.dmaWrites, ho, hs]

/-- Raising a cause changes of its core the detail alone. -/
theorem core_raiseAsync {p : Panel} (h : smSorted p.cores = true) (c cause info : Nat) :
    (p.raiseAsync c cause info).core c =
      { p.core c with asyncInfo := smSet (p.core c).asyncInfo cause (BitVec.ofNat 64 info) } :=
  Panel.core_modCore h c fun k => { k with asyncInfo := smSet k.asyncInfo cause (BitVec.ofNat 64 info) }

/-- A failed operation leaves the queue with those after it, and its fault waits with its sequence number (R68). -/
theorem dmaFault_raises {p : Panel} (hp : p.wf) (c n : Nat) :
    let q := p.dmaFault c n
    bit (q.fget F.CORE_TRAP_PENDING_pending c) 0x10 = true ∧ smGetD (q.core c).asyncInfo 0x10 0 = BitVec.ofNat 64 n ∧
      (q.core c).dmaQ = (p.core c).dmaQ.filter (fun o => decide (o.seq < n)) ∧ q.st = p.st := by
  have h1 := Panel.wf_modCore hp c fun k => { k with dmaQ := k.dmaQ.filter fun o => decide (o.seq < n) }
  have hk := core_raiseAsync h1.2.1 c asyncDma n
  refine ⟨?_, ?_, ?_, rfl⟩
  · rw [Panel.dmaFault, Panel.pending_raiseAsync (by exact h1) _ _ (by decide), asyncDma, decide_eq_true rfl, Bool.true_or]
  · refine (congrArg (fun k => smGetD k.asyncInfo 0x10 0) hk).trans ?_
    simp [smGetD, asyncDma]
  · refine (congrArg Core.dmaQ hk).trans ?_
    rw [Panel.core_modCore hp.2.1]

/-- Settles O21: the two ends of the head of the queue, a MARK's run, and `dmaFault_raises`. -/
theorem dmaOperationsComplete : Obligations.DmaOperationsComplete := by
  unfold Obligations.DmaOperationsComplete
  refine ⟨fun s c o rest hq ho => ?_, fun p c n hp _ _ => dmaFault_raises hp c n⟩
  obtain ⟨hdone, hfail⟩ := acts_dmaOpComplete hq ho
  exact ⟨hdone, hfail, dmaRun_mark s.p c⟩

end Sys2Proof.Machine
end

section
/-! Frames of issue (R71 to R78): an instruction changes its core's scalar side, what is held behind a branch and what the core is
blocked on, and of the register file at most what a trap writes. -/

namespace Sys2Proof.Machine

/-! ### Frames -/

/-- Between k and k' the scalar side changes outside the registers, those of the two lists apart, and what is held or blocked. -/
structure CoreFrame (dst : List (BitVec 5)) (ddst : List (BitVec 4)) (k k' : Core) : Prop where
  rest : k' = { k with q := k'.q, spec := k'.spec, blocked := k'.blocked }
  sreg : ∀ r, r ∉ dst → k'.sreg r = k.sreg r
  dreg : ∀ d, d ∉ ddst → k'.dreg d = k.dreg d

/-- Between p and q core c changes as in `CoreFrame`, no other core and nothing of the network, and of the registers at most those of l at
the core. -/
structure IssueFrame (c : Nat) (l : List Reg) (dst : List (BitVec 5)) (ddst : List (BitVec 4)) (p q : Panel) : Prop where
  net : q.net = p.net
  others : ∀ c', c' ≠ c → q.core c' = p.core c'
  core : CoreFrame dst ddst (p.core c) (q.core c)
  regs : SameRegs c l p q

section
variable {dst : List (BitVec 5)} {ddst : List (BitVec 4)} {k k' k'' : Core}

theorem CoreFrame.trans (h : CoreFrame dst ddst k k') (h' : CoreFrame [] [] k' k'') : CoreFrame dst ddst k k'' := by
  refine ⟨?_, fun r hr => ?_, fun d hd => ?_⟩
  · rw [h'.rest, h.rest]
  · rw [h'.sreg r (List.not_mem_nil), h.sreg r hr]
  · rw [h'.dreg d (List.not_mem_nil), h.dreg d hd]

/-- A core whose registers are as before. -/
theorem CoreFrame.of_regs (hr : k' = { k with q := k'.q, spec := k'.spec, blocked := k'.blocked }) (hs : k'.q.sregs = k.q.sregs)
    (hd : k'.q.dregs = k.q.dregs) : CoreFrame dst ddst k k' :=
  ⟨hr, fun r _ => Core.sreg_congr hs r, fun d _ => by rw [Core.dreg, Core.dreg, hd]⟩

theorem CoreFrame.refl (k : Core) : CoreFrame dst ddst k k := .of_regs rfl rfl rfl

theorem CoreFrame.setS (hs : smSorted k.q.sregs = true) (r : BitVec 5) (v : W64) : CoreFrame [r] [] k (k.setS r v) := by
  refine ⟨rfl, fun t ht => ?_, fun _ _ => rfl⟩
  rw [Core.sreg_setS hs, if_neg (List.ne_of_not_mem_cons ht)]
  split
  · rename_i h0
    rw [Core.sreg, if_pos h0]
  · rfl

theorem CoreFrame.setD (hs : smSorted k.q.dregs = true) (d : BitVec 4) (v : W256) : CoreFrame [] [d] k (k.setD d v) :=
  ⟨rfl, fun _ _ => rfl, fun _ ht =>
    smGetD_smPut_other hs _ _ _ fun h => List.ne_of_not_mem_cons ht (BitVec.eq_of_toNat_eq h)⟩

end

section
variable {c : Nat} {l l' : List Reg} {dst : List (BitVec 5)} {ddst : List (BitVec 4)} {p q r : Panel}

theorem IssueFrame.trans (h : IssueFrame c l dst ddst p q) (h' : IssueFrame c l [] [] q r) : IssueFrame c l dst ddst p r :=
  ⟨h'.net.trans h.net, fun c' hc => (h'.others c' hc).trans (h.others c' hc), h.core.trans h'.core, h.regs.trans h'.regs⟩

theorem IssueFrame.mono (h : IssueFrame c l dst ddst p q) (hl : l ⊆ l') : IssueFrame c l' dst ddst p q :=
  ⟨h.net, h.others, h.core, h.regs.mono hl⟩

theorem IssueFrame.refl (p : Panel) : IssueFrame c l dst ddst p p := ⟨rfl, fun _ _ => rfl, .refl _, .of_regs rfl⟩

/-- A change of the core alone. -/
theorem IssueFrame.setCore (hp : p.wf) {k : Core} (h : CoreFrame dst ddst (p.core c) k) :
    IssueFrame c l dst ddst p (p.setCore c k) :=
  ⟨rfl, fun _ hc => Panel.core_setCore_ne hp.2.1 _ hc, by rwa [Panel.core_setCore hp.2.1], .of_regs rfl⟩

end

/-! ### Traps -/

section
variable {p q : Panel} {c : Nat}

theorem enterTrap_frame (hp : p.wf) (hc : c < 1024) (pc cause : Nat) (a : Bool) (i : W64) :
    IssueFrame c trapRegs [] [] p (p.enterTrap c pc cause a i) :=
  ⟨rfl, fun _ h => Panel.core_setCore_ne hp.2.1 _ h,
    (Panel.core_enterTrap hp pc cause a i).symm ▸ .of_regs rfl rfl rfl, Panel.sameRegs_enterTrap hp hc pc cause a i⟩

theorem doubleTrap_frame (hp : p.wf) (hc : c < 1024) : IssueFrame c trapRegs [] [] p (p.doubleTrap c) := by
  have h0 : InFile c 0 0 := .ofCore hc (by decide)
  have m : Reg.CORE_STATUS ∈ trapRegs := by decide
  have h1 := Panel.sorted_fput hp.1 F.CORE_STATUS_double_trap 1 c 0 0
  have h2 := Panel.sorted_fput h1 F.CORE_STATUS_running 0 c 0 0
  have hk : (p.doubleTrap c).core c = { p.core c with blocked := none } := Panel.core_modCore hp.2.1 c fun k => { k with blocked := none }
  exact ⟨rfl, fun _ h => Panel.core_setCore_ne hp.2.1 _ h, hk ▸ .of_regs rfl rfl rfl,
    (((SameRegs.fput hp.1 F.CORE_STATUS_double_trap m rfl 1 h0).trans (.fput h1 F.CORE_STATUS_running m rfl 0 h0)).trans
      (.fput h2 F.CORE_STATUS_halted m rfl 1 h0)).trans (.of_regs rfl)⟩

/-- From p an instruction ends in q: the frame of a trap, and no byte of memory changed. -/
def EndsFrom (c : Nat) (p q : Panel) : Prop := IssueFrame c trapRegs [] [] p q ∧ q.st = p.st

theorem syncTrap_frame (hp : p.wf) (hc : c < 1024) (pc cause : Nat) (i : Option W64) :
    EndsFrom c p (p.syncTrap c pc cause i) := by
  unfold Panel.syncTrap
  split
  · exact ⟨doubleTrap_frame hp hc, rfl⟩
  · cases i with
    | none =>
      have h : IssueFrame c trapRegs [] [] p (p.drawBits 64).2 :=
        ⟨rfl, fun _ _ => rfl, .of_regs rfl rfl rfl, .of_regs rfl⟩
      exact ⟨h.trans (enterTrap_frame (Panel.wf_drawBits hp 64) hc _ _ _ _), rfl⟩
    | some i => exact ⟨enterTrap_frame hp hc _ _ _ _, rfl⟩

theorem foundTrap_frame (hp : p.wf) (hc : c < 1024) (t : TrapInfo) : EndsFrom c p (p.foundTrap c t) := by
  unfold Panel.foundTrap
  dsimp only
  split
  · exact ⟨.setCore hp (.of_regs rfl rfl rfl), rfl⟩
  · exact syncTrap_frame hp hc _ _ _

/-! ### Endings -/

theorem Core.complete_frame (k : Core) (pc : Nat) : CoreFrame [] [] k (k.complete pc) := .of_regs rfl rfl rfl

theorem Core.setLoops_frame (k : Core) (fw : Bool) (ls : List Loop) : CoreFrame [] [] k { k with q := k.q.setLoops fw ls } :=
  .of_regs rfl (by simp) (by simp)

theorem Core.goTo_frame (k : Core) (fw : Bool) (t : Nat) (ends : Bool) : CoreFrame [] [] k (k.goTo fw t ends) := by
  cases ends
  · exact k.complete_frame t
  · exact (k.setLoops_frame fw _).trans (Core.complete_frame _ t)

theorem completeAt_frame (hp : p.wf) {i : Nat} (h : p.completeAt c i = some q) : EndsFrom c p q := by
  obtain ⟨-, rfl⟩ := completeAt_some h
  exact ⟨.setCore hp ((Core.setLoops_frame _ _ _).trans (Core.complete_frame _ _)), rfl⟩

theorem openBranch_frame (hp : p.wf) (taken : Bool) (t : Int) : EndsFrom c p (p.openBranch c taken t) := by
  unfold Panel.openBranch
  extract_lets k pc fw pred off sp go
  have hgo : ∀ k', CoreFrame [] [] k' (go k') := fun k' => .of_regs rfl rfl rfl
  split
  · refine ⟨.setCore hp ?_, rfl⟩
    split
    · exact (Core.goTo_frame _ _ _ _).trans (hgo _)
    · exact .of_regs rfl rfl rfl
  · split
    · rename_i p' hq
      have h := completeAt_frame hp hq
      exact ⟨h.1.trans (.setCore (Panel.wf_completeAt hp hq) (hgo _)), h.2⟩
    · exact ⟨.setCore hp (.of_regs rfl rfl rfl), rfl⟩

/-- An instruction's body goes on only from panels with P. RETT, which writes the mode, is apart. -/
def Issued.Only (P : Panel → Prop) : Issued → Prop
  | .done p => P p
  | .jump p _ _ => P p
  | .skip p _ => P p
  | .enter p _ => P p
  | .rett => False
  | _ => True

theorem issue_skip_end {cls : SpecClass} {body : Panel → Core → Issued} {p' : Panel} {n : Nat} (hi : p.canIssue c cls = true)
    (hb : body p (p.core c) = .skip p' n) (hq : p'.completeAt c n = none) :
    p.issue c cls false body = p.foundTrap c ⟨trapImem, some (wrap64 imemWords)⟩ := by
  simp [Panel.issue, hi, hb, hq]

/-- A branch that cannot follow one of its directions raises IMEM_RANGE, else it is opened (R53, R72). -/
theorem issue_branch_cases {cls : SpecClass} {body : Panel → Core → Issued} {taken : Bool} {t : Int}
    (hi : p.canIssue c cls = true) (hb : body p (p.core c) = .branch taken t) :
    (∃ i, p.issue c cls false body = p.foundTrap c i) ∨ p.issue c cls false body = p.openBranch c taken t := by
  unfold Panel.issue
  simp only [hi, hb, Bool.not_true, Bool.false_eq_true, if_false]
  split
  · exact .inl ⟨_, rfl⟩
  · split
    · exact .inl ⟨_, rfl⟩
    · exact .inr rfl

/-- Issue ends from the panel it began with, or from one of the body's. -/
theorem issue_ends (hp : p.wf) (hc : c < 1024) {cls : SpecClass} (bad : Bool) {body : Panel → Core → Issued}
    {P : Panel → Prop} (hP : ∀ p', P p' → p'.wf) (hb : (body p (p.core c)).Only P) :
    EndsFrom c p (p.issue c cls bad body) ∨ ∃ p0, P p0 ∧ EndsFrom c p0 (p.issue c cls bad body) := by
  have same : EndsFrom c p p := ⟨.refl p, rfl⟩
  by_cases hi : p.canIssue c cls = true
  swap
  · rw [issue_not bad (by simpa using hi)]
    exact .inl same
  cases bad with
  | true => exact .inl (issue_bad hi ▸ foundTrap_frame hp hc _)
  | false =>
    generalize h : body p (p.core c) = b at hb
    cases b with
    | stall => exact .inl ((issue_stall hi h).symm ▸ same)
    | trap t => exact .inl (issue_trap hi h ▸ foundTrap_frame hp hc t)
    | done p1 =>
      rcases hq : p1.completeAt c (p.core c).q.pc with _ | q
      · exact .inl (issue_done_end hi h hq ▸ foundTrap_frame hp hc _)
      · exact .inr ⟨p1, hb, issue_done hi h hq ▸ completeAt_frame (hP p1 hb) hq⟩
    | jump p1 t e =>
      by_cases ht : targetOk t = true
      · exact .inr ⟨p1, hb, issue_jump hi h ht ▸ ⟨.setCore (hP p1 hb) (Core.goTo_frame _ _ _ _), rfl⟩⟩
      · exact .inl (issue_jump_range hi h (by simpa using ht) ▸ foundTrap_frame hp hc _)
    | skip p1 i =>
      rcases hq : p1.completeAt c i with _ | q
      · exact .inl (issue_skip_end hi h hq ▸ foundTrap_frame hp hc _)
      · exact .inr ⟨p1, hb, issue_skip hi h hq ▸ completeAt_frame (hP p1 hb) hq⟩
    | enter p1 l =>
      exact .inr ⟨p1, hb, issue_enter hi h ▸
        ⟨.setCore (hP p1 hb) ((Core.setLoops_frame _ _ _).trans (Core.complete_frame _ _)), rfl⟩⟩
    | block b => exact .inl (issue_block hi h ▸ ⟨.setCore hp (.of_regs rfl rfl rfl), rfl⟩)
    | branch tk t =>
      rcases issue_branch_cases hi h with ⟨i, hq⟩ | hq
      · exact .inl (hq ▸ foundTrap_frame hp hc i)
      · exact .inl (hq ▸ openBranch_frame hp tk t)
    | rett => exact hb.elim

end

end Sys2Proof.Machine
end

section
/-! What the scalar, control and vector instructions leave alone (R49, R52, R71, R142): each is an issue whose body writes its
destination, or joins the vector queue. -/

namespace Sys2Proof.Machine

/-! ### Instructions that write registers -/

section
variable {p : Panel} {c : Nat} {dst : List (BitVec 5)} {ddst : List (BitVec 4)}

/-- An instruction's own work: the panel as it is, or with its core changed within the frame. -/
def Writes (c : Nat) (dst : List (BitVec 5)) (ddst : List (BitVec 4)) (p p' : Panel) : Prop :=
  p' = p ∨ ∃ k, CoreFrame dst ddst (p.core c) k ∧ p' = p.setCore c k

theorem Writes.setS (hs : smSorted (p.core c).q.sregs = true) (r : BitVec 5) (v : W64) :
    Writes c [r] [] p (p.setS c r v) := .inr ⟨_, .setS hs r v, rfl⟩

theorem Writes.setD (hs : smSorted (p.core c).q.dregs = true) (d : BitVec 4) (f : Core → W256) :
    Writes c [] [d] p (p.modCore c fun k => k.setD d (f k)) := .inr ⟨_, .setD hs d _, rfl⟩

theorem Issued.Only.ite {P : Panel → Prop} {b : Prop} [Decidable b] {x y : Issued} (hx : x.Only P) (hy : y.Only P) :
    (if b then x else y).Only P := by
  split <;> assumption

/-- An instruction whose body writes as above leaves the rest. -/
theorem issue_writes (hp : p.wf) (hc : c < 1024) {cls : SpecClass} {bad : Bool} {body : Panel → Core → Issued}
    (hb : (body p (p.core c)).Only (Writes c dst ddst p)) :
    IssueFrame c trapRegs dst ddst p (p.issue c cls bad body) ∧ (p.issue c cls bad body).st = p.st := by
  have hw : ∀ p', Writes c dst ddst p p' → p'.wf ∧ IssueFrame c trapRegs dst ddst p p' ∧ p'.st = p.st := by
    rintro p' (rfl | ⟨k, hk, rfl⟩)
    · exact ⟨hp, .refl _, rfl⟩
    · exact ⟨Panel.wf_setCore hp c k, .setCore hp hk, rfl⟩
  rcases issue_ends hp hc bad (fun p' h => (hw p' h).1) hb with h | ⟨p', h', h⟩
  · exact ⟨(IssueFrame.refl p).trans h.1, h.2⟩
  · exact ⟨(hw p' h').2.1.trans h.1, h.2.trans (hw p' h').2.2⟩

/-- One whose body only stalls, raises traps or goes on from the panel as it is. -/
theorem issue_onlySame (hp : p.wf) (hc : c < 1024) {cls : SpecClass} {bad : Bool} {body : Panel → Core → Issued}
    (hb : (body p (p.core c)).Only (· = p)) :
    IssueFrame c trapRegs [] [] p (p.issue c cls bad body) ∧ (p.issue c cls bad body).st = p.st := by
  refine issue_writes hp hc ?_
  generalize body p (p.core c) = b at hb ⊢
  cases b <;> first | exact .inl hb | exact hb

end

/-! ### The instructions -/

/-- t follows s by an instruction that leaves memory and all that `IssueFrame` keeps. -/
structure Leaves (c : Nat) (dst : List (BitVec 5)) (ddst : List (BitVec 4)) (s t : State) : Prop where
  pending : t.pending = s.pending
  frame : IssueFrame c trapRegs dst ddst s.p t.p
  st : t.p.st = s.p.st

section
variable {s t : State} {c : Nat} {dst : List (BitVec 5)} {ddst : List (BitVec 4)}

/-- An instruction that is its form's issue leaves what that leaves. -/
theorem leaves_of_exec {i : Instr} {f : Panel → Panel} (ht : exec i s = .next t) (he : exec i s = .next (s.upd f))
    (hf : IssueFrame c trapRegs dst ddst s.p (f s.p) ∧ (f s.p).st = s.p.st) : Leaves c dst ddst s t := by
  obtain rfl : s.upd f = t := by rw [he] at ht; cases ht; rfl
  exact ⟨rfl, hf.1, hf.2⟩

variable (hp : s.p.wf) (hc : c < 1024)
include hp hc

section
variable (hs : smSorted (s.p.core c).q.sregs = true)
include hs

theorem regForm_leaves (f : RegForm) (i : Instr) (hi : i ∈ ([.add c f, .sub c f, .and_ c f, .or_ c f, .xor c f, .sll c f, .srl c f,
    .sra c f, .mul c f, .mulh c f, .slt c f, .sltu c f, .min_ c f, .max_ c f] : List Instr)) (ht : exec i s = .next t) :
    Leaves c [f.rd] [] s t := by
  obtain ⟨op, he⟩ : ∃ op, exec i s = .next (s.upd fun p => p.regOp c f op) := by
    simp only [List.mem_cons, List.not_mem_nil, or_false] at hi
    rcases hi with rfl | rfl | rfl | rfl | rfl | rfl | rfl | rfl | rfl | rfl | rfl | rfl | rfl | rfl <;> exact ⟨_, rfl⟩
  exact leaves_of_exec ht he (issue_writes hp hc (.ite trivial (Writes.setS hs _ _)))

theorem immForm_leaves (f : ImmForm) (i : Instr) (hi : i ∈ ([.addi c f, .andi c f, .ori c f, .xori c f, .slli c f, .srli c f,
    .srai c f, .li c f, .lih c f] : List Instr)) (ht : exec i s = .next t) : Leaves c [f.rd] [] s t := by
  have imm : ∀ bad op, exec i s = .next (s.upd fun p => p.immOp c f bad op) → Leaves c [f.rd] [] s t := fun bad op he =>
    leaves_of_exec ht he (issue_writes hp hc (.ite trivial (Writes.setS hs _ _)))
  simp only [List.mem_cons, List.not_mem_nil, or_false] at hi
  rcases hi with rfl | rfl | rfl | rfl | rfl | rfl | rfl | rfl | rfl
  case inr.inr.inr.inr.inr.inr.inr.inr =>
    exact leaves_of_exec ht rfl (issue_writes hp hc (.ite trivial (Writes.setS hs _ _)))
  all_goals exact imm _ _ rfl

theorem dget_leaves (f : DFldForm) (ht : exec (.dget c f) s = .next t) : Leaves c [f.r] [] s t := by
  refine leaves_of_exec ht rfl (issue_writes hp hc (.ite trivial ?_))
  cases selField f.sel with
  | none => trivial
  | some x => exact Writes.setS hs _ _

theorem call_leaves (f : JumpForm) (ht : exec (.call c f) s = .next t) : Leaves c [31] [] s t :=
  leaves_of_exec ht rfl (issue_writes hp hc (.ite trivial (Writes.setS hs _ _)))

theorem callr_leaves (f : RJumpForm) (ht : exec (.callr c f) s = .next t) : Leaves c [31] [] s t :=
  leaves_of_exec ht rfl (issue_writes hp hc (.ite trivial (Writes.setS hs _ _)))

end

theorem dset_leaves (hs : smSorted (s.p.core c).q.dregs = true) (f : DFldForm) (ht : exec (.dset c f) s = .next t) :
    Leaves c [] [f.dn] s t := by
  refine leaves_of_exec ht rfl (issue_writes hp hc (.ite trivial ?_))
  cases selField f.sel with
  | none => trivial
  | some x => exact Writes.setD hs _ _

theorem branchForm_leaves (f : BranchForm) (i : Instr) (hi : i ∈ ([.beq c f, .bne c f, .blt c f, .bge c f, .bltu c f,
    .bgeu c f] : List Instr)) (ht : exec i s = .next t) : Leaves c [] [] s t := by
  obtain ⟨cmp, he⟩ : ∃ cmp, exec i s = .next (s.upd fun p => p.branchOp c f cmp) := by
    simp only [List.mem_cons, List.not_mem_nil, or_false] at hi
    rcases hi with rfl | rfl | rfl | rfl | rfl | rfl <;> exact ⟨_, rfl⟩
  exact leaves_of_exec ht he (issue_onlySame hp hc (.ite trivial trivial))

theorem jmp_leaves (f : JumpForm) (ht : exec (.jmp c f) s = .next t) : Leaves c [] [] s t :=
  leaves_of_exec ht rfl (issue_onlySame hp hc rfl)

theorem jr_leaves (f : RJumpForm) (ht : exec (.jr c f) s = .next t) : Leaves c [] [] s t :=
  leaves_of_exec ht rfl (issue_onlySame hp hc (.ite trivial rfl))

theorem ret_leaves (n : BitVec 56) (ht : exec (.ret c n) s = .next t) : Leaves c [] [] s t :=
  leaves_of_exec ht rfl (issue_onlySame hp hc (.ite trivial rfl))

theorem loop_leaves (f : LoopForm) (ht : exec (.loop c f) s = .next t) : Leaves c [] [] s t :=
  leaves_of_exec ht rfl (issue_onlySame hp hc
    (.ite trivial (.ite trivial (.ite trivial (.ite rfl (.ite trivial rfl))))))

end

/-! ### Vector instructions -/

section
variable {p : Panel} {c : Nat}

theorem vecPlace_trap {f : VecForm} {d : Desc} {i1 i2 : Nat} {i : Issued} (h : p.vecPlace c f d i1 i2 = .inr i) :
    ∃ t, i = .trap t := by
  unfold Panel.vecPlace at h
  extract_lets _ _ _ _ place _ _ at h
  split at h
  · exact ⟨_, (Sum.inr.inj h).symm⟩
  · split at h
    · exact ⟨_, (Sum.inr.inj h).symm⟩
    · split at h
      · exact ⟨_, (Sum.inr.inj h).symm⟩
      · cases h

/-- A vector instruction ends from the panel it found, or from one that differs in the vector queue alone. -/
theorem vecIssue_ends (hp : p.wf) (hc : c < 1024) (o : VOp) (f : VecForm) :
    EndsFrom c p (p.vecIssue c o f) ∨
      ∃ l, EndsFrom c (p.setCore c { p.core c with vecQ := l }) (p.vecIssue c o f) := by
  have joins : EndsFrom c p (p.vecIssue c o f) ∨
      ∃ p', (∃ l, p' = p.setCore c { p.core c with vecQ := l }) ∧ EndsFrom c p' (p.vecIssue c o f) := by
    refine issue_ends hp hc _ (fun p' ⟨l, h⟩ => h ▸ Panel.wf_setCore hp c _) (.ite trivial ?_)
    extract_lets _ dn go
    have hgo : go.Only fun p' => ∃ l, p' = p.setCore c { p.core c with vecQ := l } := ⟨_, rfl⟩
    refine .ite ?_ hgo
    split
    · rename_i h
      obtain ⟨t, rfl⟩ := vecPlace_trap h
      trivial
    · exact hgo
  rcases joins with h | ⟨_, ⟨l, rfl⟩, h⟩
  · exact .inl h
  · exact .inr ⟨l, h⟩

theorem vecForm_ends {s t : State} (hp : s.p.wf) (hc : c < 1024) (f : VecForm) (i : Instr) (hi : i ∈ ([.vadd c f, .vsub c f,
    .vmul c f, .vfma c f, .vmin c f, .vmax c f, .vcmp c f, .vsel c f, .vlogic c f, .vcvt c f, .vsf c f, .vred c f, .vscan c f,
    .vsort c f, .vbcast c f, .vextr c f, .vld c f, .vst c f, .rngGen c f, .vmxq c f] : List Instr)) (ht : exec i s = .next t) :
    t.pending = s.pending ∧
      (EndsFrom c s.p t.p ∨ ∃ l, EndsFrom c (s.p.setCore c { s.p.core c with vecQ := l }) t.p) := by
  obtain ⟨o, he⟩ : ∃ o, exec i s = .next (s.upd fun p => p.vecIssue c o f) := by
    simp only [List.mem_cons, List.not_mem_nil, or_false] at hi
    rcases hi with rfl | rfl | rfl | rfl | rfl | rfl | rfl | rfl | rfl | rfl | rfl | rfl | rfl | rfl | rfl | rfl | rfl | rfl |
      rfl | rfl <;> exact ⟨_, rfl⟩
  rw [he] at ht
  cases ht
  exact ⟨rfl, vecIssue_ends hp hc o f⟩

end

/-- Settles O57: each instruction's frame, read off field by field; a vector instruction's from the panel its operation has joined. -/
theorem registerInstructionsLeaveTheRest : Obligations.RegisterInstructionsLeaveTheRest := by
  unfold Obligations.RegisterInstructionsLeaveTheRest
  intro s t c hp hc hs hd k k' kept
  have reads : ∀ {dst ddst v}, t.pending = s.pending → t.p.st = s.p.st → t.p.net = s.p.net →
      (∀ c', c' ≠ c → t.p.core c' = s.p.core c') → CoreFrame dst ddst { k with vecQ := v } k' → SameRegs c trapRegs s.p t.p →
      kept dst ddst := fun hpend hst hnet hco hk hr =>
    ⟨hpend, hst, hnet, hco, (congrArg Core.vregs hk.rest).trans rfl, (congrArg Core.vpoison hk.rest).trans rfl, (congrArg Core.groups hk.rest).trans rfl,
      (congrArg Core.mxQ hk.rest).trans rfl, (congrArg Core.running hk.rest).trans rfl, (congrArg Core.dmaQ hk.rest).trans rfl, (congrArg Core.posts hk.rest).trans rfl,
      hk.sreg, hk.dreg, fun r u i j hu hi hj => hr r u i j ⟨hu, hi, hj⟩⟩
  have all : ∀ {dst ddst}, Leaves c dst ddst s t → kept dst ddst ∧ k'.vecQ = k.vecQ := fun h =>
    ⟨reads h.pending h.st h.frame.net h.frame.others h.frame.core h.frame.regs, (congrArg Core.vecQ h.frame.core.rest).trans rfl⟩
  refine ⟨fun f i hi ht => all (regForm_leaves hp hc hs f i hi ht), fun f i hi ht => all (immForm_leaves hp hc hs f i hi ht),
    fun f => ⟨fun ht => all (dset_leaves hp hc hd f ht), fun ht => all (dget_leaves hp hc hs f ht)⟩,
    fun f i hi ht => all (branchForm_leaves hp hc f i hi ht),
    fun f => ⟨fun ht => all (jmp_leaves hp hc f ht), fun ht => all (call_leaves hp hc hs f ht)⟩,
    fun f => ⟨fun ht => all (jr_leaves hp hc f ht), fun ht => all (callr_leaves hp hc hs f ht)⟩,
    fun n ht => all (ret_leaves hp hc n ht), fun f ht => all (loop_leaves hp hc f ht), fun f i hi ht => ?_⟩
  obtain ⟨hpend, h | ⟨l, h⟩⟩ := vecForm_ends hp hc f i hi ht
  · exact (all ⟨hpend, h.1, h.2⟩).1
  · have hk := h.1.core
    rw [Panel.core_setCore hp.2.1] at hk
    exact reads hpend h.2 h.1.net (fun c' hc' => (h.1.others c' hc').trans (Panel.core_setCore_ne hp.2.1 _ hc')) hk
      (SameRegs.trans (.of_regs rfl) h.1.regs)

end Sys2Proof.Machine
end

section
/-! What a write to memory stores and which bytes it leaves (R163, R165): a code word takes its part of the bytes, and no byte of another
word changes. -/

namespace Sys2Proof.Machine

/-! ### Stored bytes -/

section
variable {p : Panel}

theorem putAll_at (bs : List Byte) (home : Nat) (m : SMap Byte) (hs : smSorted m = true) {i : Nat} (hi : i < bs.length) :
    smGetD ((bs.zipIdx home).foldl (fun m e => smPut m 0 e.2 e.1) m) (home + i) 0 = bs.getD i 0 := by
  induction bs generalizing home m i with
  | nil => exact absurd hi (by simp)
  | cons b bs ih =>
    rw [List.zipIdx_cons, List.foldl_cons]
    have hs' := smSorted_smPut hs 0 home b
    cases i with
    | zero =>
      rw [Nat.add_zero, putAll_other _ _ hs' _ fun e he => ?_]
      · exact smGetD_smPut_same hs 0 home b
      · have := List.mem_zipIdx (x := e.1) (i := e.2) he
        omega
    | succ i =>
      have h := ih (home + 1) _ hs' (i := i) (by simpa using hi)
      rwa [show home + 1 + i = home + (i + 1) by omega] at h

/-- The bytes written are read back. -/
theorem Panel.putBytes_at (h : p.wf) (home : Nat) (bs : List Byte) {i : Nat} (hi : i < bs.length) :
    smGetD (p.putBytes home bs).st.mem (home + i) 0 = bs.getD i 0 := putAll_at bs home _ (smWf_sorted h.2.2) hi

/-- q lists the same bytes as p outside n bytes at lo. -/
def SameBytesBut (lo n : Nat) (p q : Panel) : Prop :=
  ∀ a, a < lo ∨ lo + n ≤ a → smGetD q.st.mem a 0 = smGetD p.st.mem a 0

theorem SameBytesBut.of_mem {lo n : Nat} {p q : Panel} (h : q.st.mem = p.st.mem) : SameBytesBut lo n p q :=
  fun a _ => by rw [h]

theorem SameBytesBut.trans {lo n : Nat} {p q r : Panel} (h : SameBytesBut lo n p q) (h' : SameBytesBut lo n q r) :
    SameBytesBut lo n p r := fun a ha => (h' a ha).trans (h a ha)

theorem SameBytesBut.mono {lo n lo' n' : Nat} {p q : Panel} (h : SameBytesBut lo n p q) (hlo : lo' ≤ lo)
    (hhi : lo + n ≤ lo' + n') : SameBytesBut lo' n' p q := fun a ha => h a (by omega)

theorem Panel.putBytes_but (h : p.wf) (home : Nat) (bs : List Byte) : SameBytesBut home bs.length p (p.putBytes home bs) :=
  fun a ha => putBytes_other h home bs a ha

end

/-! ### One code word -/

section
variable (p : Panel) (k : MemKind)

@[simp] theorem Panel.countErr_mem (home : Nat) (uc : Bool) : (p.countErr k home uc).st.mem = p.st.mem := by
  cases k <;> cases uc <;> rfl

@[simp] theorem Panel.encode_mem (w : Bool) (ws : List Nat) : (p.encode k w ws).st.mem = p.st.mem := by
  unfold Panel.encode
  split <;> rfl

@[simp] theorem Panel.activate64_mem (home : Nat) : (p.activate64 k home).st.mem = p.st.mem := by
  unfold Panel.activate64
  split
  · split
    · rfl
    · dsimp only
      split <;> rfl
  · rfl

@[simp] theorem Panel.findWord_st (w : Bool) (ks : List Nat) : (p.findWord k w ks).2.st = p.st := by
  unfold Panel.findWord
  dsimp only
  split <;> (dsimp only; split <;> rfl)

@[simp] theorem toBytes_length (n v : Nat) : (toBytes n v).length = n := by
  induction n generalizing v with
  | zero => rfl
  | succ n ih => simp [toBytes, ih]

theorem asFound_but (hp : p.wf) (w : Nat) (raw : List Byte) (x : Found) : SameBytesBut w raw.length p (p.asFound k w raw x) := by
  cases x with
  | clean => exact .of_mem rfl
  | ce => exact .of_mem (by simp [Panel.asFound])
  | ue =>
    exact (SameBytesBut.of_mem (by simp)).trans (Panel.putBytes_but (Panel.wf_countErr hp k w true) w raw)
  | other corrected =>
    have hq : (if corrected then p.countErr k w false else p).wf := Panel.wf_ite (Panel.wf_countErr hp k w false) hp
    have hm : (if corrected then p.countErr k w false else p).st.mem = p.st.mem := by split <;> simp
    have h := Panel.putBytes_but (Panel.wf_drawBytes hq raw.length) w (p.drawBytes raw.length).1
    rw [show (p.drawBytes raw.length).1.length = raw.length from toBytes_length _ _] at h
    exact (SameBytesBut.of_mem hm).trans h

theorem rmwBegun_mem (home : Nat) : (p.rmwBegun k home).st.mem = p.st.mem := by
  unfold Panel.rmwBegun
  cases k <;> exact p.activate64_mem _ home

theorem rmwFound_but (hp : p.wf) (weight : Bool) (w : Nat) :
    SameBytesBut w (wordBytes k weight) p (p.rmwFound k weight w).2 := by
  unfold Panel.rmwFound
  extract_lets ws d q was raw x
  split
  · have hd : d.2.wf := Panel.wf_drawBytes (Panel.wf_draw hp 4) _
    have hq : q.wf := Panel.wf_ite (Panel.wf_countErr hd k w false) (Panel.wf_ite (Panel.wf_countErr hd k w true) hd)
    have hm : q.st.mem = p.st.mem := by
      simp only [q]
      split
      · simp [d, Panel.drawBytes, Panel.draw]
      · split <;> simp [d, Panel.drawBytes, Panel.draw]
    have h := Panel.putBytes_but hq w d.1
    rw [show d.1.length = wordBytes k weight from toBytes_length _ _] at h
    exact (SameBytesBut.of_mem hm).trans h
  · have hx : x.2.wf ∧ x.2.st.mem = p.st.mem := by
      simp only [x]
      split
      · exact ⟨hp, rfl⟩
      · exact ⟨Panel.wf_findWord hp k weight ws, by simp⟩
    have h := asFound_but x.2 k hx.1 w raw x.1
    rw [show raw.length = wordBytes k weight by simp [raw, Panel.bytesAt]] at h
    exact (SameBytesBut.of_mem hx.2).trans h

/-- The contents of the 64 B block of a scratchpad at home are defined and hold no bad bit. -/
structure DefinedBlock (c home : Nat) : Prop where
  coded : p.misCoded (.scratch c) home = false
  latent : smGetD p.st.latent (home / 64) [] = []
  kept : ∀ w, w / 8 = home / 64 → p.lostWord (.scratch c) w = false

theorem mem_wordsAt {weight : Bool} {w x : Nat} (hw : w % 64 + wordBytes k weight ≤ 64) (h : x ∈ wordsAt k weight w) :
    x / 8 = w / 64 := by
  obtain ⟨i, hi, rfl⟩ := List.mem_map.1 h
  have := List.mem_range.1 hi
  omega

theorem findWord_clean {c : Nat} {weight : Bool} {ks : List Nat} (h : p.badBits ks = []) :
    p.findWord (.scratch c) weight ks = (.clean, p) := by
  cases weight <;> simp [Panel.findWord, h, foundRS, foundSD, badBytes]

theorem badBits_nil {ks : List Nat} (h : smGetD p.st.latent (ks.headD 0 / 8) [] = []) : p.badBits ks = [] := by
  unfold Panel.badBits
  dsimp only
  rw [h, List.filter_nil, ite_self]

theorem wordsAt_headD {c : Nat} {weight : Bool} {w : Nat} : (wordsAt (.scratch c) weight w).headD 0 = w / 8 := by
  cases weight <;> simp [wordsAt, wordBytes, List.range_succ]

/-- In such a block a read-modify-write finds the word as it is. -/
theorem rmwFound_defined {c : Nat} {weight : Bool} {w : Nat} (h : DefinedBlock p c w)
    (hw : w % 64 + wordBytes (.scratch c) weight ≤ 64) : (p.rmwFound (.scratch c) weight w).2.st.mem = p.st.mem := by
  have hu : p.undefWords (.scratch c) w (wordsAt (.scratch c) weight w) = false := by
    rw [Panel.undefWords, h.coded, Bool.false_or, List.any_eq_false]
    intro x hx
    rw [h.kept x (mem_wordsAt _ hw hx)]
    decide
  have hb : p.badBits (wordsAt (.scratch c) weight w) = [] := badBits_nil p (by rw [wordsAt_headD, Nat.div_div_eq_div_mul]; exact h.latent)
  unfold Panel.rmwFound
  extract_lets ws d q was raw x
  have hx : x = (.clean, p) := (ite_congr rfl (fun _ => rfl) fun _ => findWord_clean p hb).trans (ite_self _)
  rw [if_neg (by rw [hu]; decide), hx]
  rfl

/-! ### The class of a block -/

/-- An enabled entry of a protection map, of a defined class, covers the unit (R162). -/
def mapCovers (lastHi lastLo firstHi u : Nat) (w : W64) : Bool :=
  bit w.toNat 63 && (bits w.toNat 49 48 == 1 || bits w.toNat 49 48 == 2) && decide (bits w.toNat firstHi 0 ≤ u) &&
    decide (u ≤ bits w.toNat lastHi lastLo)

theorem mapClass_eq (g : Nat → W64) (lastHi lastLo firstHi u : Nat) : mapClass g lastHi lastLo firstHi u =
    ((List.range 16).find? fun n => mapCovers lastHi lastLo firstHi u (g n)).any fun n => bits (g n).toNat 49 48 == 1 := by
  unfold mapClass mapCovers
  dsimp only
  generalize List.find? _ _ = o
  cases o <;> rfl

/-- The class rests on the map's 16 entries. -/
theorem mapClass_congr {g g' : Nat → W64} (h : ∀ n, n < 16 → g n = g' n) (lastHi lastLo firstHi u : Nat) :
    mapClass g lastHi lastLo firstHi u = mapClass g' lastHi lastLo firstHi u := by
  rw [mapClass_eq, mapClass_eq, List.find?_congr (p₂ := fun n => mapCovers lastHi lastLo firstHi u (g' n))
    fun n hn => by rw [h n (List.mem_range.1 hn)]]
  rcases hf : (List.range 16).find? _ with _ | n
  · rfl
  · rw [Option.any_some, Option.any_some, h n (List.mem_range.1 (List.mem_of_find?_eq_some hf))]

theorem isWeight_congr {p q : Panel} {c : Nat} (hc : c < 1024) (h : SameRegs c spRegs p q) (home : Nat) :
    q.isWeight (.scratch c) home = p.isWeight (.scratch c) home :=
  mapClass_congr (fun n hn => h _ _ _ _ (.ofCore hc (by omega)) fun hx => absurd hx.2 (by decide)) _ _ _ _

theorem isWeight_block {c home home' : Nat} (h : home / 64 = home' / 64) :
    p.isWeight (.scratch c) home = p.isWeight (.scratch c) home' := by
  have : home % 0x400000 / 4096 = home' % 0x400000 / 4096 := by omega
  simp only [Panel.isWeight, this]

theorem misCoded_congr {p q : Panel} {c home home' : Nat} (he : q.st.enc = p.st.enc) (hb : home / 64 = home' / 64)
    (hw : q.isWeight (.scratch c) home = p.isWeight (.scratch c) home') :
    q.misCoded (.scratch c) home = p.misCoded (.scratch c) home' := by
  simp only [Panel.misCoded, undefKey, he, hb, hw]

/-- Defined contents are those of the whole block, and rest on the store and the protection map alone. -/
theorem DefinedBlock.congr {p q : Panel} {c home home' : Nat} (h : DefinedBlock p c home') (hc : c < 1024) (hs : q.st = p.st)
    (hr : SameRegs c spRegs p q) (hb : home / 64 = home' / 64) : DefinedBlock q c home := by
  refine ⟨?_, ?_, fun w hw => ?_⟩
  · rw [misCoded_congr (by rw [hs]) hb ((isWeight_congr hc hr home).trans (isWeight_block p hb)), h.coded]
  · rw [hs, hb, h.latent]
  · rw [← h.kept w (hw.trans hb)]
    unfold Panel.lostWord
    rw [hs]

/-- What the write of a part leaves in memory: the part, over a panel that differs in the word at most, and not at all where the part is the
whole word or the block's contents are defined. -/
theorem writeWord_mem (hp : p.wf) {weight : Bool} {w home : Nat} {bs : List (Byte × Bool)} :
    ∃ q : Panel, q.wf ∧ SameBytesBut w (wordBytes k weight) p q ∧
      (p.writeWord k weight w home bs).st.mem = (q.putBytes home (bs.map (·.1))).st.mem ∧
      (home = w ∧ bs.length = wordBytes k weight → q.st.mem = p.st.mem) ∧
      ∀ c, c < 1024 → k = .scratch c → DefinedBlock p c w → w % 64 + wordBytes k weight ≤ 64 → q.st.mem = p.st.mem := by
  by_cases h : home = w ∧ bs.length = wordBytes k weight
  · rw [writeWord_whole p k h]
    exact ⟨p.activate64 k home, Panel.wf_activate64 hp k home, .of_mem (by simp),
      by simp [Panel.wordStored, Panel.setPoison, Panel.clearLatent], fun _ => by simp, fun _ _ _ _ _ => by simp⟩
  · have hb := (memStep_rmwBegun p k home).wf hp
    refine ⟨((p.rmwBegun k home).rmwFound k weight w).2, (memStep_rmwFound _ k weight w).wf hb,
      (SameBytesBut.of_mem (rmwBegun_mem p k home)).trans (rmwFound_but _ k hb weight w), ?_, fun h' => absurd h' h, ?_⟩
    · rw [writeWord_part p k h]
      split
      · simp [Panel.wordStored, Panel.setPoison, Panel.clearLatent]
      · rfl
    · rintro c hc rfl hd hw
      have hd' : DefinedBlock (p.rmwBegun (.scratch c) home) c w := hd.congr hc rfl ((memStep_rmwBegun p _ home).regs c rfl hc hp) rfl
      exact rmwFound_defined _ hd' hw

end

end Sys2Proof.Machine
end

section
/-! A range inside one 64 B block of a scratchpad: what writing stores and leaves, what reading sound contents gives (R50, R163 to R165). -/

namespace Sys2Proof.Machine

/-! ### The parts of a write -/

/-- The bytes of a write at home that fall into n bytes at w. -/
def partOf {α : Type} (bs : List α) (home w n : Nat) : List α := (bs.drop (w - home)).take (w + n - max w home)

theorem zipIdx_filter_range {α : Type} (bs : List α) (home w n : Nat) :
    (bs.zipIdx home).filter (fun e => decide (w ≤ e.2) && decide (e.2 < w + n)) =
      (partOf bs home w n).zipIdx (max w home) := by
  unfold partOf
  induction bs generalizing home with
  | nil => simp
  | cons b bs ih =>
    rw [List.zipIdx_cons, List.filter_cons]
    by_cases h1 : w ≤ home
    · rw [show w - home = 0 by omega, Nat.max_eq_right h1, List.drop_zero]
      have ih := ih (home + 1)
      rw [show w - (home + 1) = 0 by omega, Nat.max_eq_right (by omega), List.drop_zero] at ih
      by_cases h2 : home < w + n
      · rw [if_pos (by simp [h1, h2]), ih, show w + n - home = w + n - (home + 1) + 1 by omega, List.take_succ_cons,
          List.zipIdx_cons]
      · rw [if_neg (by simp [h2]), ih, show w + n - home = 0 by omega, show w + n - (home + 1) = 0 by omega]
        simp
    · rw [if_neg (by simp [h1]), ih, show w - home = w - (home + 1) + 1 by omega, List.drop_succ_cons,
        Nat.max_eq_left (by omega), Nat.max_eq_left (by omega)]

section
variable (p : Panel) (k : MemKind)

/-- The write of the part of one code word, if there is any. -/
def Panel.writePart (weight : Bool) (home : Nat) (bs : List (Byte × Bool)) (w : Nat) : Panel :=
  if partOf bs home w (wordBytes k weight) = [] then p
  else p.writeWord k weight w (max w home) (partOf bs home w (wordBytes k weight))

theorem writeBlock_eq (home : Nat) (bs : List (Byte × Bool)) :
    p.writeBlock k home bs = (List.range (64 / wordBytes k (p.isWeight k home))).foldl (fun q i =>
      q.writePart k (p.isWeight k home) home bs (home / 64 * 64 + i * wordBytes k (p.isWeight k home))) p := by
  unfold Panel.writeBlock
  dsimp only
  congr 1
  funext q i
  rw [zipIdx_filter_range, Panel.writePart]
  generalize partOf bs home _ _ = l
  cases l with
  | nil => rfl
  | cons b l =>
    rw [if_neg (List.cons_ne_nil b l)]
    simp [List.zipIdx_cons, List.zipIdx_map_fst]

variable {p k}

/-- What the write of a part does to memory, with the cases of `writeWord_mem`. -/
theorem writePart_mem (hp : p.wf) {weight : Bool} {home w : Nat} {bs : List (Byte × Bool)} :
    let n := wordBytes k weight
    let part := partOf bs home w n
    (p.writePart k weight home bs w).wf ∧
      SameBytesBut w n p (p.writePart k weight home bs w) ∧
      (∀ i, i < part.length →
        smGetD (p.writePart k weight home bs w).st.mem (max w home + i) 0 = (part.map (·.1)).getD i 0) ∧
      (part = [] ∨ (max w home = w ∧ part.length = n) ∨
          (∃ c, c < 1024 ∧ k = .scratch c ∧ DefinedBlock p c w ∧ w % 64 + n ≤ 64) →
        SameBytesBut home bs.length p (p.writePart k weight home bs w)) := by
  intro n part
  have hlen : part.length ≤ bs.length - (w - home) ∧ part.length ≤ w + n - max w home := by
    simp [part, partOf]
  unfold Panel.writePart
  by_cases h : part = []
  · rw [if_pos h]
    exact ⟨hp, fun _ _ => rfl, fun i hi => absurd hi (by simp [h]), fun _ _ _ => rfl⟩
  · rw [if_neg h]
    have hpos : 0 < part.length := List.length_pos_iff.2 h
    obtain ⟨q, hq, hbut, hmem, hwhole, hdef⟩ := writeWord_mem p k hp (weight := weight) (w := w) (home := max w home) (bs := part)
    have hput := Panel.putBytes_but hq (max w home) (part.map (·.1))
    rw [List.length_map] at hput
    refine ⟨(memStep_writeWord p k _ _ _ _).wf hp, ?_, fun i hi => ?_, fun hc => ?_⟩
    · exact (hbut.trans (hput.mono (by omega) (by omega))).trans (.of_mem hmem)
    · rw [hmem, Panel.putBytes_at hq _ _ (by simpa using hi)]
    · have hqm : q.st.mem = p.st.mem := by
        rcases hc with hc | hc | ⟨c, hc, hk, hd, hw⟩
        · exact absurd hc h
        · exact hwhole hc
        · exact hdef c hc hk hd hw
      exact ((SameBytesBut.of_mem hqm).trans (hput.mono (by omega) (by omega))).trans (.of_mem hmem)

/-! ### Writing a block -/

/-- What one step of a list establishes and no other step undoes holds after the list. -/
theorem foldl_establishes {α β : Type} {I P : α → Prop} {f : α → β → α} {b : β} {l : List β}
    (hI : ∀ a x, I a → I (f a x)) (hb : ∀ a, I a → P (f a b)) (hk : ∀ a, ∀ x ∈ l, x ≠ b → I a → P a → P (f a x)) {a : α}
    (ha : I a) (h : P a ∨ b ∈ l) : P (l.foldl f a) := by
  induction l generalizing a with
  | nil => exact h.resolve_right List.not_mem_nil
  | cons x l ih =>
    refine ih (fun a y hy => hk a y (List.mem_cons_of_mem x hy)) (hI a x ha) ?_
    by_cases hx : x = b
    · exact .inl (hx ▸ hb a ha)
    · exact h.imp (hk a x List.mem_cons_self hx ha) fun hm => (List.mem_cons.1 hm).resolve_left (Ne.symm hx)

theorem wordBytes_dvd (weight : Bool) : wordBytes k weight = 8 ∨ wordBytes k weight = 64 := by
  cases k <;> cases weight <;> simp [wordBytes]

variable (hp : p.wf) {home : Nat} {bs : List (Byte × Bool)}
include hp

/-- A write inside a block leaves every byte of other blocks. -/
theorem writeBlock_but : SameBytesBut (home / 64 * 64) 64 p (p.writeBlock k home bs) := by
  rw [writeBlock_eq]
  generalize p.isWeight k home = weight
  have hw := wordBytes_dvd (k := k) weight
  refine (List.foldlRecOn (motive := fun q : Panel => q.wf ∧ SameBytesBut (home / 64 * 64) 64 p q) _ _
    ⟨hp, fun _ _ => rfl⟩ fun q hq i hi => ?_).2
  have hi := List.mem_range.1 hi
  obtain ⟨h1, h2, -⟩ := writePart_mem (k := k) hq.1 (weight := weight) (home := home) (bs := bs)
    (w := home / 64 * 64 + i * wordBytes k weight)
  refine ⟨h1, hq.2.trans (h2.mono ?_ ?_)⟩
  all_goals rcases hw with hw | hw <;> rw [hw] at hi ⊢ <;> omega

/-- The bytes written are stored. -/
theorem writeBlock_at (hfit : home % 64 + bs.length ≤ 64) {i : Nat} (hi : i < bs.length) :
    smGetD (p.writeBlock k home bs).st.mem (home + i) 0 = (bs.map (·.1)).getD i 0 := by
  rw [writeBlock_eq]
  generalize p.isWeight k home = weight
  have hw := wordBytes_dvd (k := k) weight
  generalize hn : wordBytes k weight = n at hw ⊢
  have hstep := fun (q : Panel) (hq : q.wf) (j : Nat) =>
    writePart_mem (k := k) hq (weight := weight) (home := home) (bs := bs) (w := home / 64 * 64 + j * n)
  rw [hn] at hstep
  refine foldl_establishes (I := Panel.wf) (P := fun q => smGetD q.st.mem (home + i) 0 = (bs.map (·.1)).getD i 0)
    (b := (home + i - home / 64 * 64) / n) (fun q j hq => (hstep q hq j).1)
    (fun q hq => ?_) (fun q j _ hj hq ha => ?_) hp (.inr (List.mem_range.2 ?_))
  · set w := home / 64 * 64 + (home + i - home / 64 * 64) / n * n with hwdef
    have hlo : w ≤ home + i ∧ home + i < w + n := by
      rcases hw with rfl | rfl <;> omega
    have h := (hstep q hq ((home + i - home / 64 * 64) / n)).2.2.1 (home + i - max w home)
      (by rw [partOf, List.length_take, List.length_drop]; omega)
    rw [← hwdef, show max w home + (home + i - max w home) = home + i by omega, partOf] at h
    rw [h]
    simp only [List.getD_eq_getElem?_getD, List.getElem?_map, List.getElem?_take, List.getElem?_drop]
    rw [if_pos (by omega), show w - home + (home + i - max w home) = i by omega]
  · have h := (hstep q hq j).2.1 (home + i)
    rw [h ?_, ha]
    rcases hw with rfl | rfl <;> omega
  · rcases hw with rfl | rfl <;> omega

omit hp in
theorem foldl_single {α β : Type} {f : α → β → α} {b : β} (h : ∀ a x, x ≠ b → f a x = a) {l : List β} (hl : l.Nodup)
    (hm : b ∈ l) (a : α) : l.foldl f a = f a b := by
  have skip : ∀ (l : List β) (a : α), b ∉ l → l.foldl f a = a := fun l a hb =>
    List.foldlRecOn (motive := (· = a)) l f rfl fun _ ha x hx => (h _ x fun he => hb (he ▸ hx)).trans ha
  induction l generalizing a with
  | nil => exact absurd hm List.not_mem_nil
  | cons x l ih =>
    obtain ⟨hx, hl⟩ := List.nodup_cons.1 hl
    rw [List.foldl_cons]
    by_cases hxb : x = b
    · subst hxb
      exact skip l _ hx
    · rw [h a x hxb]
      exact ih hl ((List.mem_cons.1 hm).resolve_left (Ne.symm hxb)) a

/-- An aligned write of 4, 8 or 32 bytes into a block of defined contents changes no other byte. -/
theorem writeBlock_defined {c : Nat} (hc : c < 1024) (hd : DefinedBlock p c home) (hlen : bs.length ∈ [4, 8, 32])
    (ha : home % bs.length = 0) : SameBytesBut home bs.length p (p.writeBlock (.scratch c) home bs) := by
  have hal : bs.length = 4 ∧ home % 4 = 0 ∨ bs.length = 8 ∧ home % 8 = 0 ∨ bs.length = 32 ∧ home % 32 = 0 := by
    simp only [List.mem_cons, List.not_mem_nil, or_false] at hlen
    rcases hlen with h | h | h <;> rw [h] at ha <;> simp [h, ha]
  rw [writeBlock_eq]
  generalize p.isWeight (.scratch c) home = weight
  generalize hn : wordBytes (.scratch c) weight = n
  have hw : n = 8 ∨ n = 64 := hn ▸ wordBytes_dvd weight
  have hpart : ∀ w, (partOf bs home w n).length = min (w + n - max w home) (bs.length - (w - home)) := fun w => by
    rw [partOf, List.length_take, List.length_drop]
  by_cases hone : home % n + bs.length ≤ n
  · have hskip : ∀ (q : Panel) (j : Nat), j ≠ home % 64 / n →
        q.writePart (.scratch c) weight home bs (home / 64 * 64 + j * n) = q := by
      intro q j hj
      refine if_pos (List.eq_nil_of_length_eq_zero ?_)
      rw [hn, hpart]
      rcases hw with rfl | rfl <;> omega
    rw [foldl_single hskip List.nodup_range (List.mem_range.2 (by rcases hw with rfl | rfl <;> omega))]
    refine (writePart_mem hp).2.2.2 (.inr (.inr ⟨c, hc, rfl, hd.congr hc rfl (.of_regs rfl) ?_, ?_⟩))
    · rcases hw with rfl | rfl <;> omega
    · rw [hn]
      rcases hw with rfl | rfl <;> omega
  · obtain rfl : n = 8 := hw.resolve_right fun h => hone (by rw [h]; omega)
    refine (List.foldlRecOn (motive := fun q : Panel => q.wf ∧ SameBytesBut home bs.length p q) _ _ ⟨hp, fun _ _ => rfl⟩
      fun q hq j _ => ?_).2
    have h := writePart_mem (k := .scratch c) hq.1 (weight := weight) (home := home) (bs := bs) (w := home / 64 * 64 + j * 8)
    refine ⟨h.1, hq.2.trans (h.2.2.2 ?_)⟩
    rw [hn]
    by_cases he : (partOf bs home (home / 64 * 64 + j * 8) 8).length = 0
    · exact .inl (List.eq_nil_of_length_eq_zero he)
    · rw [hpart] at he
      refine .inr (.inl ⟨?_, ?_⟩)
      · omega
      · rw [hpart]
        omega

end

end Sys2Proof.Machine
end

section
/-! The loads and stores of the sequencer (R50, R51, R73): where a scratchpad offset leads, what reading sound contents gives, and the
frame of loads and stores. -/

namespace Sys2Proof.Machine

/-! ### Places -/

theorem decode_scratchPa (p : Panel) {c o : Nat} (hc : c < 1024) (ho : o ≤ 0x3FFFFF) :
    p.decode (scratchPa c o) = if p.hasCore c then some (.scratch c, scratchPa c o) else none := by
  have hpa : scratchPa c o - scratchBase = c * 0x1000000 + o := by unfold scratchPa; omega
  have h1 : ¬ scratchPa c o < 2 ^ 41 := by unfold scratchPa scratchBase; omega
  have h2 : ¬ (cmemBase ≤ scratchPa c o ∧ scratchPa c o < cmemBase + 0x4000000000) := by
    unfold scratchPa scratchBase cmemBase; omega
  have h3 : scratchBase ≤ scratchPa c o ∧ scratchPa c o < scratchBase + 0x400000000 := by
    unfold scratchPa scratchBase; omega
  unfold Panel.decode
  rw [if_neg h1, if_neg h2, if_pos h3, hpa, show (c * 0x1000000 + o) / 0x1000000 = c by omega]
  dsimp only
  rw [decide_eq_true (show (c * 0x1000000 + o) % 0x1000000 < 0x400000 by omega), Bool.and_true]

/-- A range inside one block is one piece. -/
theorem piecesOf_inside {pa n : Nat} (hn : 0 < n) (hfit : pa % 64 + n ≤ 64) : piecesOf pa n = [(pa, n)] := by
  have hm : min n (64 - pa % 64) = n := by omega
  have hn0 : n ≠ 0 := by omega
  simp [piecesOf, pieces, hm, hn0]

/-- A range of a scratchpad inside one block: where the offset is not beyond 4 MiB and the length divides it. -/
theorem scratchPa_fits {c o n : Nat} (hn : n ∈ [4, 8, 32]) (ha : o % n = 0) :
    0 < n ∧ scratchPa c o % 64 + n ≤ 64 ∧ scratchPa c o % n = 0 := by
  unfold scratchPa scratchBase
  simp only [List.mem_cons, List.not_mem_nil, or_false] at hn
  rcases hn with rfl | rfl | rfl <;> omega

section
variable {p : Panel} {pa n : Nat} {k : MemKind}

theorem writeTagged_inside {bs : List (Byte × Bool)} (hd : p.decode pa = some (k, pa)) (hn : 0 < bs.length)
    (hfit : pa % 64 + bs.length ≤ 64) : p.writeTagged pa bs = p.writeBlock k pa bs := by
  unfold Panel.writeTagged
  rw [piecesOf_inside hn hfit]
  simp [hd]

theorem writeTagged_nowhere {bs : List (Byte × Bool)} (hd : p.decode pa = none) (hn : 0 < bs.length)
    (hfit : pa % 64 + bs.length ≤ 64) : p.writeTagged pa bs = p := by
  unfold Panel.writeTagged
  rw [piecesOf_inside hn hfit]
  simp [hd]

theorem readRange_inside (hd : p.decode pa = some (k, pa)) (hn : 0 < n) (hfit : pa % 64 + n ≤ 64) :
    p.readRange pa n = ((p.readBlock k pa n).1, !(p.readBlock k pa n).1.isEmpty && (p.readBlock k pa n).2.1,
      (p.readBlock k pa n).2.2) := by
  unfold Panel.readRange Panel.readTagged
  rw [piecesOf_inside hn hfit]
  simp only [List.foldl_cons, List.foldl_nil, hd]
  generalize p.readBlock k pa n = x
  obtain ⟨d, z, q⟩ := x
  have hm : (d.map fun b => (b, z)).map (·.1) = d := by simp [Function.comp_def]
  cases d <;> cases z <;> simp_all

theorem readRange_nowhere (hd : p.decode pa = none) (hn : 0 < n) (hfit : pa % 64 + n ≤ 64) : (p.readRange pa n).2.2 = p := by
  unfold Panel.readRange Panel.readTagged
  rw [piecesOf_inside hn hfit]
  simp [hd]

end

/-! ### Sound contents -/

/-- The bytes of the code word of these 8 B words, as stored. -/
def Panel.bytesOf (p : Panel) (ks : List Nat) : List Byte := p.bytesAt (ks.headD 0 * 8) (8 * ks.length)

/-- The code words of a block hold its 64 bytes in order. -/
theorem bytesOf_codeWords (p : Panel) {wb : Nat} (hwb : wb = 8 ∨ wb = 64) (blk : Nat) :
    (codeWords wb blk).flatMap p.bytesOf = p.bytesAt (blk * 64) 64 := by
  have h8 : List.range 64 = (List.range 8).flatMap fun i => (List.range 8).map fun j => 8 * i + j := by decide
  rcases hwb with rfl | rfl
  · unfold codeWords Panel.bytesOf Panel.bytesAt
    rw [h8, List.map_flatMap, List.flatMap_map]
    refine List.flatMap_congr fun i _ => ?_
    rw [List.map_map]
    refine List.map_congr_left fun j _ => ?_
    simp only [Function.comp]
    congr 1
    show (blk * 8 + i * 1 + 0) * 8 + j = _
    omega
  · show p.bytesAt ((blk * 8 + 0 * 8 + 0) * 8) 64 ++ [] = _
    rw [List.append_nil]
    congr 1
    omega

/-- A fold whose every step appends to the first part and keeps the rest. -/
theorem foldl_appends {α β γ : Type} {f : List α × β → γ → List α × β} {g : γ → List α} {b : β} {l : List γ}
    (h : ∀ d, ∀ x ∈ l, f (d, b) x = (d ++ g x, b)) (d : List α) : l.foldl f (d, b) = (d ++ l.flatMap g, b) := by
  induction l generalizing d with
  | nil => simp
  | cons x l ih =>
    rw [List.foldl_cons, h d x List.mem_cons_self, ih (fun d y hy => h d y (List.mem_cons_of_mem x hy)), List.flatMap_cons,
      List.append_assoc]

section
variable {p : Panel} {c home : Nat}

/-- Decoding code words without poison or bad bits gives their bytes and changes nothing. -/
theorem decodeBlock_clean (hp : ∀ ks ∈ codeWords (wordBytes (.scratch c) (p.isWeight (.scratch c) home)) (home / 64),
      ks.any (smHas p.st.poison) = false ∧ p.badBits ks = []) :
    p.decodeBlock (.scratch c) home = (p.bytesAt (home / 64 * 64) 64, false, [], p) := by
  rw [← bytesOf_codeWords p (wordBytes_dvd (k := .scratch c) (p.isWeight (.scratch c) home))]
  unfold Panel.decodeBlock
  refine foldl_appends (fun d ks hks => ?_) []
  obtain ⟨hz, hb⟩ := hp ks hks
  simp only [hz, findWord_clean p hb]
  rfl

theorem mem_codeWords {wb blk : Nat} (hwb : wb = 8 ∨ wb = 64) {ks : List Nat} (h : ks ∈ codeWords wb blk) :
    ks.headD 0 / 8 = blk ∧ ∀ w ∈ ks, ∃ j, j < 8 ∧ w = blk * 8 + j := by
  obtain ⟨i, hi, rfl⟩ := List.mem_map.1 h
  have hi := List.mem_range.1 hi
  refine ⟨?_, fun w hw => ?_⟩
  · have h0 : ((List.range (wb / 8)).map fun j => blk * 8 + i * (wb / 8) + j).headD 0 = blk * 8 + i * (wb / 8) := by
      rcases hwb with rfl | rfl <;> rfl
    rw [h0]
    rcases hwb with rfl | rfl <;> omega
  · obtain ⟨j, hj, rfl⟩ := List.mem_map.1 hw
    have hj := List.mem_range.1 hj
    refine ⟨i * (wb / 8) + j, ?_, by omega⟩
    rcases hwb with rfl | rfl <;> omega

/-- Reading sound contents gives the bytes stored, with no poison, and changes nothing. -/
theorem readBlock_sound (h : SoundBlock p (.scratch c) home) {n : Nat} (hfit : home % 64 + n ≤ 64) :
    p.readBlock (.scratch c) home n = (p.bytesAt home n, false, p) := by
  obtain ⟨hl, hm, hw⟩ := h
  have hd : p.decodeBlock (.scratch c) home = _ := decodeBlock_clean fun ks hks => by
    obtain ⟨hb, hk⟩ := mem_codeWords (wordBytes_dvd (k := .scratch c) _) hks
    refine ⟨List.any_eq_false.2 fun w hw' => ?_, badBits_nil p (by rw [hb]; exact hl)⟩
    obtain ⟨j, hj, rfl⟩ := hk w hw'
    rw [(hw j hj).1]
    decide
  have hbytes : ((p.bytesAt (home / 64 * 64) 64).drop (home % 64)).take n = p.bytesAt home n := by
    refine List.ext_getElem (by simp [Panel.bytesAt]; omega) fun i h1 h2 => ?_
    simp only [Panel.bytesAt, List.getElem_take, List.getElem_drop, List.getElem_map, List.getElem_range]
    congr 1
    omega
  have hlost : ∀ w ∈ (List.range 8).map (home / 64 * 8 + ·), smHas p.st.poison w = false ∧ p.lostWord (.scratch c) w = false := by
    intro w h
    obtain ⟨j, hj, rfl⟩ := List.mem_map.1 h
    exact hw j (List.mem_range.1 hj)
  unfold Panel.readBlock
  rw [show p.activate64 (.scratch c) home = p from rfl, hd, hm]
  generalize (List.range 8).map (home / 64 * 8 + ·) = ws at hlost ⊢
  have h1 : (ws.any fun w => !(false || p.lostWord (.scratch c) w) && smHas p.st.poison w) = false :=
    List.any_eq_false.2 fun w h => by simp [hlost w h]
  have h2 : (ws.any fun w => false || p.lostWord (.scratch c) w) = false :=
    List.any_eq_false.2 fun w h => by simp [hlost w h]
  simp only [h1, h2, hbytes]
  rfl

end

/-! ### Loads and stores -/

section
variable {p : Panel} {c o n : Nat} (hn : n ∈ [4, 8, 32]) (hc : c < 1024) (ho : o ≤ 0x3FFFFF) (ha : o % n = 0)
include hn hc ho ha

/-- With no branch unresolved a load of sound contents gives the bytes stored, with no poison, and changes nothing. -/
theorem spLoad_sound (hk : p.hasCore c = true) (hs : (p.core c).spec = none)
    (h : SoundBlock p (.scratch c) (scratchPa c o)) : p.spLoad c o n = (p.bytesAt (scratchPa c o) n, false, p) := by
  obtain ⟨hpos, hfit, -⟩ := scratchPa_fits (c := c) hn ha
  have hd : p.decode (scratchPa c o) = some (.scratch c, scratchPa c o) := (decode_scratchPa p hc ho).trans (if_pos hk)
  have hr : p.readRange (scratchPa c o) n = (p.bytesAt (scratchPa c o) n, false, p) := by
    rw [readRange_inside hd hpos hfit, readBlock_sound h hfit]
    simp
  have hw : p.withHeld c = p := by simp [Panel.withHeld, hs]
  have hh : (p.core c).holdsStores = false := by simp [Core.holdsStores, hs]
  simp [Panel.spLoad, hw, hr, hh]

/-- With no branch unresolved a store leaves its bytes in the scratchpad. -/
theorem spStore_at (hk : p.hasCore c = true) (hs : (p.core c).spec = none) (hp : p.wf) {bs : List Byte} (hl : bs.length = n)
    {i : Nat} (hi : i < n) : smGetD (p.spStore c o bs).st.mem (scratchPa c o + i) 0 = bs.getD i 0 := by
  subst hl
  obtain ⟨hpos, hfit, -⟩ := scratchPa_fits (c := c) hn ha
  have hd : p.decode (scratchPa c o) = some (.scratch c, scratchPa c o) := (decode_scratchPa p hc ho).trans (if_pos hk)
  have ht : (tagged bs).length = bs.length := List.length_map _
  have hst : p.spStore c o bs = p.writeBlock (.scratch c) (scratchPa c o) (tagged bs) := by
    rw [← writeTagged_inside hd (ht ▸ hpos) (ht ▸ hfit)]
    simp [Panel.spStore, hs]
  rw [hst, writeBlock_at hp (ht ▸ hfit) (ht ▸ hi)]
  simp [tagged, Function.comp_def]

end

section
variable {ra : W64} {imm : BitVec 46} {n : Nat}

theorem offsetOf_range (h : 0x3FFFFF < (ra + imm.signExtend 64).toNat) :
    offsetOf ra imm n = .inr (.trap ⟨0x03, some (BitVec.ofNat 64 (ra + imm.signExtend 64).toNat)⟩) := by
  rw [BitVec.ofNat_toNat, BitVec.setWidth_eq]
  exact if_pos h

theorem offsetOf_misaligned (h : (ra + imm.signExtend 64).toNat ≤ 0x3FFFFF) (ha : (ra + imm.signExtend 64).toNat % n ≠ 0) :
    offsetOf ra imm n = .inr (.trap ⟨0x02, some (BitVec.ofNat 64 (ra + imm.signExtend 64).toNat)⟩) := by
  rw [BitVec.ofNat_toNat, BitVec.setWidth_eq]
  exact (if_neg (Nat.not_lt.2 h)).trans (if_pos ha)

theorem offsetOf_ok (h : (ra + imm.signExtend 64).toNat ≤ 0x3FFFFF) (ha : (ra + imm.signExtend 64).toNat % n = 0) :
    offsetOf ra imm n = .inl (ra + imm.signExtend 64).toNat :=
  (if_neg (Nat.not_lt.2 h)).trans (if_neg (by simpa using ha))

end

/-- What the bodies of the loads and stores share: registers that are not ready stall, a bad offset raises its trap. -/
def accessBody (wait : Core → Bool) (ra : BitVec 5) (imm : BitVec 46) (n : Nat) (access : Panel → Core → Nat → Issued) :
    Panel → Core → Issued := fun p k =>
  if wait k then .stall
  else
    match offsetOf (k.sreg ra) imm n with
    | .inr t => t
    | .inl o => access p k o

/-- What a load makes of what it reads: its bytes, put where they go, or POISON_CONSUMED. -/
def loadEnd (load : Nat → Nat → List Byte × Bool × Panel) (n : Nat) (put : List Byte → Panel → Panel) (o : Nat) : Issued :=
  let (d, pz, p) := load o n
  if pz then trapWith trapPoison (BitVec.ofNat 64 o) else .done (put d p)

def loadAccess (c n : Nat) (put : List Byte → Panel → Panel) : Panel → Core → Nat → Issued := fun p _ =>
  loadEnd (p.spLoad c) n put

def storeAccess (c : Nat) (bytes : Core → List Byte) : Panel → Core → Nat → Issued := fun p k o => .done (p.spStore c o (bytes k))

theorem loadEnd_eq (load : Nat → Nat → List Byte × Bool × Panel) (n : Nat) (put : List Byte → Panel → Panel) (o : Nat) :
    loadEnd load n put o =
      if (load o n).2.1 then trapWith trapPoison (BitVec.ofNat 64 o) else .done (put (load o n).1 (load o n).2.2) := rfl

theorem exec_dld (c : Nat) (f : DMemForm) (s : State) : exec (.dld c f) s = .next (s.upd fun p => p.issue c .issues (f.rsvd != 0)
    (accessBody (fun k => k.unready f.ra) f.ra f.imm 32
      (loadAccess c 32 fun d p => p.modCore c fun k => k.setD f.dn (BitVec.ofNat 256 (ofBytes d))))) := by
  show execDld c f s = _
  rw [execDld]
  refine congrArg Host.Outcome.next (congrArg s.upd (funext fun p => congrArg (p.issue c .issues _) (funext₂ fun p k => ?_)))
  rw [accessBody, loadAccess]
  -- the kernel must not run the load to compare the two sides
  obtain ⟨load, hl⟩ : ∃ load, load = p.spLoad c := ⟨_, rfl⟩
  rw [← hl]
  rfl

theorem exec_dst (c : Nat) (f : DMemForm) (s : State) : exec (.dst c f) s = .next (s.upd fun p => p.issue c .issues (f.rsvd != 0)
    (accessBody (fun k => k.unready f.ra) f.ra f.imm 32 (storeAccess c fun k => toBytes 32 (k.dreg f.dn).toNat))) := rfl

section
variable {p q : Panel} {c n : Nat} {wait : Core → Bool} {ra : BitVec 5} {imm : BitVec 46} (hi : Issues p c .issues)
  (hw : wait (p.core c) = false)
include hi hw

/-- A bad offset raises its trap: beyond 4 MiB first, then no multiple of the size. -/
theorem issue_access_traps (access : Panel → Core → Nat → Issued) :
    let o := ((p.core c).sreg ra + imm.signExtend 64).toNat
    let q := p.issue c .issues false (accessBody wait ra imm n access)
    (0x3FFFFF < o → q = p.foundTrap c ⟨0x03, some (BitVec.ofNat 64 o)⟩) ∧
      (o ≤ 0x3FFFFF → o % n ≠ 0 → q = p.foundTrap c ⟨0x02, some (BitVec.ofNat 64 o)⟩) := by
  refine ⟨fun h => issue_trap hi ?_, fun h ha => issue_trap hi ?_⟩
  · rw [accessBody, if_neg (by rw [hw]; decide), offsetOf_range h]
  · rw [accessBody, if_neg (by rw [hw]; decide), offsetOf_misaligned h ha]

variable (h : ((p.core c).sreg ra + imm.signExtend 64).toNat ≤ 0x3FFFFF)
  (ha : ((p.core c).sreg ra + imm.signExtend 64).toNat % n = 0)
include h ha

omit hi in
theorem accessBody_ok (access : Panel → Core → Nat → Issued) : accessBody wait ra imm n access p (p.core c) =
    access p (p.core c) ((p.core c).sreg ra + imm.signExtend 64).toNat := by
  rw [accessBody, if_neg (by rw [hw]; decide), offsetOf_ok h ha]

theorem issue_load {x : List Byte × Bool × Panel} (hx : p.spLoad c ((p.core c).sreg ra + imm.signExtend 64).toNat n = x)
    (put : List Byte → Panel → Panel) :
    (x.2.1 = false → Completes p c (put x.1 x.2.2) q →
        p.issue c .issues false (accessBody wait ra imm n (loadAccess c n put)) = q) ∧
      (x.2.1 = true → p.issue c .issues false (accessBody wait ra imm n (loadAccess c n put)) =
        p.foundTrap c ⟨0x0B, some (BitVec.ofNat 64 ((p.core c).sreg ra + imm.signExtend 64).toNat)⟩) := by
  have hb := (accessBody_ok hw h ha (loadAccess c n put)).trans (loadEnd_eq ..)
  rw [hx] at hb
  exact ⟨fun hz hq => issue_done hi (hb.trans (if_neg (by rw [hz]; decide))) hq,
    fun hz => issue_trap hi (hb.trans (if_pos hz))⟩

theorem issue_store (bytes : Core → List Byte)
    (hq : Completes p c (p.spStore c ((p.core c).sreg ra + imm.signExtend 64).toNat (bytes (p.core c))) q) :
    p.issue c .issues false (accessBody wait ra imm n (storeAccess c bytes)) = q :=
  issue_done hi (accessBody_ok hw h ha (storeAccess c bytes)) hq

end

section
variable {s : State} {c : Nat} {q : Panel} {f : DMemForm} (hi : Issues s.p c .issues) (hf : f.rsvd = 0)
  (hr : (s.p.core c).unready f.ra = false)
include hi hf hr

theorem acts_dld (h : ((s.p.core c).sreg f.ra + f.imm.signExtend 64).toNat ≤ 0x3FFFFF)
    (ha : ((s.p.core c).sreg f.ra + f.imm.signExtend 64).toNat % 32 = 0) {x : List Byte × Bool × Panel}
    (hx : s.p.spLoad c ((s.p.core c).sreg f.ra + f.imm.signExtend 64).toNat 32 = x) :
    (x.2.1 = false → Completes s.p c (x.2.2.modCore c fun k => k.setD f.dn (BitVec.ofNat 256 (ofBytes x.1))) q →
        Acts (.dld c f) s q) ∧
      (x.2.1 = true → Acts (.dld c f) s
        (s.p.foundTrap c ⟨0x0B, some (BitVec.ofNat 64 ((s.p.core c).sreg f.ra + f.imm.signExtend 64).toNat)⟩)) := by
  obtain ⟨hl, hz⟩ := issue_load (q := q) hi (wait := fun k => k.unready f.ra) hr h ha hx
    fun d p => p.modCore c fun k => k.setD f.dn (BitVec.ofNat 256 (ofBytes d))
  exact ⟨fun h1 h2 => acts_of_exec (exec_dld c f s) ((issue_ok (by simp [hf])).trans (hl h1 h2)),
    fun h1 => acts_of_exec (exec_dld c f s) ((issue_ok (by simp [hf])).trans (hz h1))⟩

theorem acts_dst (h : ((s.p.core c).sreg f.ra + f.imm.signExtend 64).toNat ≤ 0x3FFFFF)
    (ha : ((s.p.core c).sreg f.ra + f.imm.signExtend 64).toNat % 32 = 0) 
    (hq : Completes s.p c (s.p.spStore c ((s.p.core c).sreg f.ra + f.imm.signExtend 64).toNat
      (toBytes 32 ((s.p.core c).dreg f.dn).toNat)) q) : Acts (.dst c f) s q :=
  acts_of_exec (exec_dst c f s) ((issue_ok (by simp [hf])).trans
    (issue_store hi hr h ha (fun k => toBytes 32 (k.dreg f.dn).toNat) hq))

theorem acts_dMem_traps : ∀ i ∈ ([.dld c f, .dst c f] : List Instr),
    let o := ((s.p.core c).sreg f.ra + f.imm.signExtend 64).toNat
    (0x3FFFFF < o → Acts i s (s.p.foundTrap c ⟨0x03, some (BitVec.ofNat 64 o)⟩)) ∧
      (o ≤ 0x3FFFFF → o % 32 ≠ 0 → Acts i s (s.p.foundTrap c ⟨0x02, some (BitVec.ofNat 64 o)⟩)) := by
  intro i hm
  have traps := fun access => issue_access_traps (n := 32) (imm := f.imm) (ra := f.ra) hi
    (wait := fun k => k.unready f.ra) hr access
  have hb : (f.rsvd != 0) = false := by simp [hf]
  rcases List.mem_pair.1 hm with rfl | rfl
  · exact ⟨fun h => acts_of_exec (exec_dld c f s) ((issue_ok hb).trans ((traps _).1 h)),
      fun h ha => acts_of_exec (exec_dld c f s) ((issue_ok hb).trans ((traps _).2 h ha))⟩
  · exact ⟨fun h => acts_of_exec (exec_dst c f s) ((issue_ok hb).trans ((traps _).1 h)),
      fun h ha => acts_of_exec (exec_dst c f s) ((issue_ok hb).trans ((traps _).2 h ha))⟩

end

section
variable {s : State} {c n : Nat} {q : Panel} {f : ImmForm} {ld st : Instr}
  (hm : (n, ld, st) ∈ ([(8, .ld c f, .st c f), (4, .ldw c f, .stw c f)] : List (Nat × Instr × Instr)))
include hm

theorem exec_ld_st : exec ld s = .next (s.upd fun p => p.loadOp c f n) ∧ exec st s = .next (s.upd fun p => p.storeOp c f n) := by
  simp only [List.mem_cons, List.not_mem_nil, or_false, Prod.mk.injEq] at hm
  rcases hm with ⟨rfl, rfl, rfl⟩ | ⟨rfl, rfl, rfl⟩ <;> exact ⟨rfl, rfl⟩

variable (hi : Issues s.p c .issues) (hr : ∀ r ∈ [f.ra, f.rd], (s.p.core c).unready r = false)
include hi hr

theorem acts_ld_st (h : ((s.p.core c).sreg f.ra + f.imm.signExtend 64).toNat ≤ 0x3FFFFF)
    (ha : ((s.p.core c).sreg f.ra + f.imm.signExtend 64).toNat % n = 0) :
    let o := ((s.p.core c).sreg f.ra + f.imm.signExtend 64).toNat
    let x := s.p.spLoad c o n
    (x.2.1 = false → Completes s.p c (x.2.2.setS c f.rd (BitVec.ofNat 64 (ofBytes x.1))) q → Acts ld s q) ∧
      (x.2.1 = true → Acts ld s (s.p.foundTrap c ⟨0x0B, some (BitVec.ofNat 64 o)⟩)) ∧
      (Completes s.p c (s.p.spStore c o (toBytes n ((s.p.core c).sreg f.rd).toNat)) q → Acts st s q) := by
  intro o x
  have hw : ((s.p.core c).unready f.ra || (s.p.core c).unready f.rd) = false := by simp_all
  obtain ⟨he, he'⟩ := exec_ld_st hm (s := s)
  obtain ⟨hl, hz⟩ := issue_load (q := q) hi (wait := fun k => k.unready f.ra || k.unready f.rd) hw h ha rfl
    fun d p => p.setS c f.rd (BitVec.ofNat 64 (ofBytes d))
  exact ⟨fun h1 h2 => acts_of_exec he (hl h1 h2), fun h1 => acts_of_exec he (hz h1),
    fun hq => acts_of_exec he' (issue_store hi hw h ha (fun k => toBytes n (k.sreg f.rd).toNat) hq)⟩

theorem acts_ld_st_traps : ∀ i ∈ [ld, st],
    let o := ((s.p.core c).sreg f.ra + f.imm.signExtend 64).toNat
    (0x3FFFFF < o → Acts i s (s.p.foundTrap c ⟨0x03, some (BitVec.ofNat 64 o)⟩)) ∧
      (o ≤ 0x3FFFFF → o % n ≠ 0 → Acts i s (s.p.foundTrap c ⟨0x02, some (BitVec.ofNat 64 o)⟩)) := by
  intro i hmem
  have hw : ((s.p.core c).unready f.ra || (s.p.core c).unready f.rd) = false := by simp_all
  obtain ⟨he, he'⟩ := exec_ld_st hm (s := s)
  have traps := fun access => issue_access_traps (n := n) (imm := f.imm) (ra := f.ra) hi
    (wait := fun k => k.unready f.ra || k.unready f.rd) hw access
  rcases List.mem_pair.1 hmem with rfl | rfl
  · exact ⟨fun h => acts_of_exec he ((traps _).1 h), fun h ha => acts_of_exec he ((traps _).2 h ha)⟩
  · exact ⟨fun h => acts_of_exec he' ((traps _).1 h), fun h ha => acts_of_exec he' ((traps _).2 h ha)⟩

end

/-- Settles O4: the issue of a load, of a store and of a bad offset for the six forms; `spLoad_sound` and `spStore_at` for what a load
reads and a store leaves. -/
theorem loadsAndStoresMoveBytes : Obligations.LoadsAndStoresMoveBytes := by
  unfold Obligations.LoadsAndStoresMoveBytes
  exact ⟨fun s c q hi => ⟨fun f n ld st hm hr => ⟨acts_ld_st hm hi hr, acts_ld_st_traps hm hi hr⟩,
    fun f hf hr => ⟨fun h ha => ⟨(acts_dld hi hf hr h ha rfl).1, (acts_dld (q := q) hi hf hr h ha rfl).2, acts_dst hi hf hr h ha⟩,
      acts_dMem_traps hi hf hr⟩⟩,
    fun p c o n hn hc hk hs ho ha => ⟨spLoad_sound hn hc ho ha hk hs, fun bs hl hp i => spStore_at hn hc ho ha hk hs hp hl⟩⟩

end Sys2Proof.Machine
end

section
/-! What the loads and stores leave alone (R50, R51, R163, R165). -/

namespace Sys2Proof.Machine

/-! ### Reading -/

/-- A step of a memory that writes no byte. -/
structure ReadStep (k : MemKind) (p q : Panel) : Prop where
  step : MemStep k p q
  mem : q.st.mem = p.st.mem

section
variable {p q r : Panel} {k : MemKind}

theorem ReadStep.refl (k : MemKind) (p : Panel) : ReadStep k p p := ⟨.refl k p, rfl⟩

theorem ReadStep.trans (h : ReadStep k p q) (h' : ReadStep k q r) : ReadStep k p r :=
  ⟨h.step.trans h'.step, h'.mem.trans h.mem⟩

theorem ReadStep.ite {c : Prop} [Decidable c] (hq : ReadStep k p q) (hr : ReadStep k p r) :
    ReadStep k p (if c then q else r) := by
  split <;> assumption

variable (p k)

theorem readStep_countErr (home : Nat) (uc : Bool) : ReadStep k p (p.countErr k home uc) :=
  ⟨memStep_countErr p k home uc, by simp⟩

theorem readStep_decodeBlock (home : Nat) : ReadStep k p (p.decodeBlock k home).2.2.2 := by
  refine ⟨memStep_decodeBlock p k home, ?_⟩
  unfold Panel.decodeBlock
  refine foldl_keeps (fun a : List Byte × Bool × List Nat × Panel => a.2.2.2.st.mem = p.st.mem) _ (fun a ks h => ?_) _ _ rfl
  obtain ⟨d, ce, ue, q⟩ := a
  have hf : (q.findWord k (p.isWeight k home) ks).2.st = q.st := q.findWord_st k _ ks
  dsimp only at h ⊢
  split
  · exact h
  · split <;> simp_all [Panel.drawBytes]

theorem readStep_readBlock (c home n : Nat) : ReadStep (.scratch c) p (p.readBlock (.scratch c) home n).2.2 := by
  have hd := readStep_decodeBlock p (.scratch c) home
  unfold Panel.readBlock
  rw [show p.activate64 (.scratch c) home = p from rfl]
  rcases hx : p.decodeBlock (.scratch c) home with ⟨blk, ce, uw, q⟩
  rw [hx] at hd
  have err : ∀ (q : Panel) (b : Prop) [Decidable b] (uc : Bool), ReadStep (.scratch c) q (if b then q.countErr (.scratch c) home uc else q) :=
    fun q b _ uc => .ite (readStep_countErr q _ home uc) (.refl _ q)
  have drawn : ReadStep (.scratch c) q ((q.draw 4).2.drawBytes n).2 := ⟨.of_frame rfl rfl, rfl⟩
  dsimp only
  split
  · exact ((hd.trans drawn).trans (err _ _ _)).trans (err _ _ _)
  · exact (hd.trans (err _ _ _)).trans (err _ _ _)

end

/-! ### The frame of an access -/

/-- The registers that a load or a store of the sequencer may write (R76, R163, R164). -/
def accessRegs : List Reg := trapRegs ++ spRegs

section
variable {p q : Panel} {c o n : Nat} {dst : List (BitVec 5)} {ddst : List (BitVec 4)} (hc : c < 1024)
include hc

/-- A step of a core's scratchpad keeps the frame of its accesses. -/
theorem MemStep.issueFrame (h : MemStep (.scratch c) p q) (hp : p.wf) : IssueFrame c accessRegs dst ddst p q :=
  ⟨h.frame.net, fun c' _ => h.frame.core c', (h.frame.core c).symm ▸ .refl _,
    (h.regs c rfl hc hp).mono (List.subset_append_right _ _)⟩

variable (hn : n ∈ [4, 8, 32]) (ho : o ≤ 0x3FFFFF) (ha : o % n = 0)
include hn ho ha

theorem readStep_readRange (p : Panel) : ReadStep (.scratch c) p (p.readRange (scratchPa c o) n).2.2 := by
  obtain ⟨hpos, hfit, -⟩ := scratchPa_fits (c := c) hn ha
  by_cases hk : p.hasCore c = true
  · rw [readRange_inside ((decode_scratchPa p hc ho).trans (if_pos hk)) hpos hfit]
    exact readStep_readBlock p c _ n
  · rw [readRange_nowhere ((decode_scratchPa p hc ho).trans (if_neg hk)) hpos hfit]
    exact .refl _ p

/-- A load writes no byte, whatever it sees of stores held behind a branch (R73). -/
theorem readStep_spLoad (p : Panel) : ReadStep (.scratch c) p (p.spLoad c o n).2.2 := by
  have hr := readStep_readRange hc hn ho ha p
  by_cases hh : (p.core c).holdsStores = true
  · have hl : (p.spLoad c o n).2.2 = { (p.readRange (scratchPa c o) n).2.2 with
        freeCtr := max (p.readRange (scratchPa c o) n).2.2.freeCtr ((p.withHeld c).readRange (scratchPa c o) n).2.2.freeCtr } := by
      simp [Panel.spLoad, hh]
    rw [hl]
    exact hr.trans ⟨.of_frame rfl rfl, rfl⟩
  · have hw : p.withHeld c = p := by
      unfold Panel.withHeld
      cases hs : (p.core c).spec with
      | none => rfl
      | some sp =>
        have : sp.held = [] := by simpa [Core.holdsStores, hs] using hh
        simp [this]
    have hl : p.spLoad c o n = p.readRange (scratchPa c o) n := by simp [Panel.spLoad, hh, hw]
    rw [hl]
    exact hr

/-- q differs from p in memory as after a store of n bytes at o: inside the block, and in the bytes stored alone where the block's contents
are defined. -/
def StoresAt (c o n : Nat) (p q : Panel) : Prop :=
  SameBytesBut (scratchPa c o / 64 * 64) 64 p q ∧ (DefinedBlock p c (scratchPa c o) → SameBytesBut (scratchPa c o) n p q)

omit hc hn ho ha in
theorem StoresAt.of_mem (h : q.st.mem = p.st.mem) : StoresAt c o n p q := ⟨.of_mem h, fun _ => .of_mem h⟩

theorem spStore_frame (hp : p.wf) {bs : List Byte} (hl : bs.length = n) :
    (p.spStore c o bs).wf ∧ IssueFrame c accessRegs [] [] p (p.spStore c o bs) ∧ StoresAt c o n p (p.spStore c o bs) := by
  subst hl
  obtain ⟨hpos, hfit, hal⟩ := scratchPa_fits (c := c) hn ha
  have ht : (tagged bs).length = bs.length := List.length_map _
  have hd := decode_scratchPa p hc ho
  unfold Panel.spStore
  dsimp only
  cases (p.core c).spec with
  | some sp => exact ⟨Panel.wf_setCore hp _ _, .setCore hp (.of_regs rfl rfl rfl), .of_mem rfl⟩
  | none =>
    by_cases hk : p.hasCore c = true
    · rw [writeTagged_inside (hd.trans (if_pos hk)) (ht ▸ hpos) (ht ▸ hfit)]
      have hw := memStep_writeBlock p (.scratch c) (scratchPa c o) (tagged bs)
      refine ⟨hw.wf hp, hw.issueFrame hc hp, writeBlock_but hp, fun hdef => ?_⟩
      exact ht ▸ writeBlock_defined hp hc hdef (ht.symm ▸ hn) (ht.symm ▸ hal)
    · rw [writeTagged_nowhere (hd.trans (if_neg hk)) (ht ▸ hpos) (ht ▸ hfit)]
      exact ⟨hp, .refl p, .of_mem rfl⟩

end

/-! ### Issue -/

section
variable {p : Panel} {c n : Nat} {dst : List (BitVec 5)} {ddst : List (BitVec 4)}

theorem IssueFrame.after {l : List Reg} {q r : Panel} (h : IssueFrame c l [] [] p q) (h' : IssueFrame c l dst ddst q r) :
    IssueFrame c l dst ddst p r := by
  refine ⟨h'.net.trans h.net, fun c' hc => (h'.others c' hc).trans (h.others c' hc), ⟨?_, fun r hr => ?_, fun d hd => ?_⟩,
    h.regs.trans h'.regs⟩
  · rw [h'.core.rest, h.core.rest]
  · rw [h'.core.sreg r hr, h.core.sreg r List.not_mem_nil]
  · rw [h'.core.dreg d hd, h.core.dreg d List.not_mem_nil]

theorem EndsFrom.frame {q : Panel} (h : EndsFrom c p q) : IssueFrame c accessRegs [] [] p q :=
  h.1.mono (List.subset_append_left _ _)

/-- The body of a load or store goes on from P where its access does, at an offset that is in range and aligned. -/
theorem accessBody_only {P : Panel → Prop} {wait : Core → Bool} {ra : BitVec 5} {imm : BitVec 46}
    {access : Panel → Core → Nat → Issued} {k : Core}
    (h : (k.sreg ra + imm.signExtend 64).toNat ≤ 0x3FFFFF → (k.sreg ra + imm.signExtend 64).toNat % n = 0 →
      (access p k (k.sreg ra + imm.signExtend 64).toNat).Only P) : (accessBody wait ra imm n access p k).Only P := by
  unfold accessBody
  refine .ite trivial ?_
  by_cases h1 : 0x3FFFFF < (k.sreg ra + imm.signExtend 64).toNat
  · rw [offsetOf_range h1]
    trivial
  · by_cases h2 : (k.sreg ra + imm.signExtend 64).toNat % n = 0
    · rw [offsetOf_ok (Nat.not_lt.1 h1) h2]
      exact h (Nat.not_lt.1 h1) h2
    · rw [offsetOf_misaligned (Nat.not_lt.1 h1) h2]
      trivial

section
variable (hp : p.wf) (hc : c < 1024) (hn : n ∈ [4, 8, 32])
include hp hc hn

theorem issue_load_leaves {bad : Bool} {wait : Core → Bool} {ra : BitVec 5} {imm : BitVec 46} {put : List Byte → Panel → Panel}
    (hput : ∀ d q, q.wf → q.core c = p.core c → Writes c dst ddst q (put d q)) :
    let t := p.issue c .issues bad (accessBody wait ra imm n (loadAccess c n put))
    IssueFrame c accessRegs dst ddst p t ∧ t.st.mem = p.st.mem := by
  intro t
  have put_frame : ∀ q d, q.wf → q.core c = p.core c →
      (put d q).wf ∧ IssueFrame c accessRegs dst ddst q (put d q) ∧ (put d q).st = q.st := by
    intro q d hq hk
    rcases hput d q hq hk with h | ⟨k, hk, h⟩ <;> rw [h]
    · exact ⟨hq, .refl q, rfl⟩
    · exact ⟨Panel.wf_setCore hq c k, .setCore hq hk, rfl⟩
  have ends : EndsFrom c p t ∨ ∃ p', (∃ d q, ReadStep (.scratch c) p q ∧ p' = put d q) ∧ EndsFrom c p' t := by
    refine issue_ends hp hc bad (fun p' ⟨d, q, hq, h⟩ => h ▸ (put_frame q d (hq.step.wf hp) (hq.step.frame.core c)).1) ?_
    refine accessBody_only fun ho ha => ?_
    have hr := readStep_spLoad hc hn ho ha p
    rw [loadAccess, loadEnd_eq]
    exact .ite trivial ⟨_, _, hr, rfl⟩
  rcases ends with h | ⟨_, ⟨d, q, hq, rfl⟩, h⟩
  · exact ⟨(IssueFrame.refl p).trans h.frame, by rw [h.2]⟩
  · obtain ⟨-, hf, hst⟩ := put_frame q d (hq.step.wf hp) (hq.step.frame.core c)
    exact ⟨((hq.step.issueFrame hc hp).after hf).trans h.frame, by rw [h.2, hst, hq.mem]⟩

theorem issue_store_leaves {bad : Bool} {wait : Core → Bool} {ra : BitVec 5} {imm : BitVec 46} {bytes : Core → List Byte}
    (hb : ∀ k, (bytes k).length = n) :
    let t := p.issue c .issues bad (accessBody wait ra imm n (storeAccess c bytes))
    IssueFrame c accessRegs [] [] p t ∧ StoresAt c ((p.core c).sreg ra + imm.signExtend 64).toNat n p t := by
  intro t
  have ends : EndsFrom c p t ∨ ∃ p', (p'.wf ∧ IssueFrame c accessRegs [] [] p p' ∧
      StoresAt c ((p.core c).sreg ra + imm.signExtend 64).toNat n p p') ∧ EndsFrom c p' t :=
    issue_ends hp hc bad (fun _ h => h.1) (accessBody_only fun ho ha => spStore_frame hc hn ho ha hp (hb _))
  rcases ends with h | ⟨p', ⟨-, hf, hb, hd⟩, h⟩
  · exact ⟨h.frame, .of_mem (by rw [h.2])⟩
  · have hm : ∀ {lo m}, SameBytesBut lo m p p' → SameBytesBut lo m p t := fun hs => hs.trans (.of_mem (by rw [h.2]))
    exact ⟨hf.trans h.frame, hm hb, fun hdef => hm (hd hdef)⟩

end

end

/-- Settles O58: `issue_load_leaves` and `issue_store_leaves` for the six forms, read off field by field. -/
theorem memoryInstructionsLeaveTheRest : Obligations.MemoryInstructionsLeaveTheRest := by
  unfold Obligations.MemoryInstructionsLeaveTheRest
  intro s t c hp hc hs hd k k' kept outside
  have all : ∀ {dst ddst}, t.pending = s.pending → IssueFrame c accessRegs dst ddst s.p t.p → kept dst ddst := fun hpend h =>
    ⟨hpend, h.net, h.others, (congrArg Core.vregs h.core.rest).trans rfl, (congrArg Core.groups h.core.rest).trans rfl,
      (congrArg Core.mxQ h.core.rest).trans rfl, (congrArg Core.dmaQ h.core.rest).trans rfl,
      (congrArg Core.vecQ h.core.rest).trans rfl, (congrArg Core.posts h.core.rest).trans rfl, h.core.sreg, h.core.dreg,
      fun r u i j hu hi hj => h.regs r u i j ⟨hu, hi, hj⟩⟩
  have out : ∀ {o n}, StoresAt c o n s.p t.p → outside o n := fun h =>
    ⟨fun a ha => h.1 a (by omega), fun hm hl hw => h.2 ⟨hm, hl, hw⟩⟩
  have next : ∀ {i : Instr} {f : Panel → Panel}, exec i s = .next (s.upd f) → exec i s = .next t → t = s.upd f := by
    intro i f he ht
    rw [he] at ht
    cases ht
    rfl
  refine ⟨fun f n ld st hm => ?_, fun f => ⟨fun ht => ?_, fun ht => ?_⟩⟩
  · have hn : n ∈ [4, 8, 32] := by
      simp only [List.mem_cons, List.not_mem_nil, or_false, Prod.mk.injEq] at hm
      rcases hm with ⟨rfl, -⟩ | ⟨rfl, -⟩ <;> decide
    obtain ⟨he, he'⟩ := exec_ld_st hm (s := s)
    refine ⟨fun ht => ?_, fun ht => ?_⟩
    · obtain ⟨hf, hmem⟩ := issue_load_leaves (dst := [f.rd]) (ddst := []) (bad := false) hp hc hn
        (wait := fun k => k.unready f.ra || k.unready f.rd) (ra := f.ra) (imm := f.imm)
        (put := fun d p => p.setS c f.rd (BitVec.ofNat 64 (ofBytes d))) fun d q _ hk => Writes.setS (hk ▸ hs) _ _
      obtain rfl := next he ht
      exact ⟨all rfl hf, hmem⟩
    · obtain ⟨hf, hst⟩ := issue_store_leaves (bad := false) hp hc hn (wait := fun k => k.unready f.ra || k.unready f.rd)
        (ra := f.ra) (imm := f.imm) (bytes := fun k => toBytes n (k.sreg f.rd).toNat) fun _ => toBytes_length _ _
      obtain rfl := next he' ht
      exact ⟨all rfl hf, out hst⟩
  · obtain ⟨hf, hmem⟩ := issue_load_leaves (n := 32) (dst := []) (ddst := [f.dn]) (bad := f.rsvd != 0) hp hc (by decide)
      (wait := fun k => k.unready f.ra) (ra := f.ra) (imm := f.imm)
      (put := fun d p => p.modCore c fun k => k.setD f.dn (BitVec.ofNat 256 (ofBytes d))) fun d q _ hk =>
        Writes.setD (hk ▸ hd) _ _
    obtain rfl := next (exec_dld c f s) ht
    exact ⟨all rfl hf, hmem⟩
  · obtain ⟨hf, hst⟩ := issue_store_leaves (n := 32) (bad := f.rsvd != 0) hp hc (by decide) (wait := fun k => k.unready f.ra)
      (ra := f.ra) (imm := f.imm) (bytes := fun k => toBytes 32 (k.dreg f.dn).toNat) fun _ => toBytes_length _ _
    obtain rfl := next (exec_dst c f s) ht
    exact ⟨all rfl hf, out hst⟩

end Sys2Proof.Machine
end

section
/-! The barrier channels (R62, R302 to R304): apply, abort, arrival and release. -/

namespace Sys2Proof.Machine

/-! ### Control writes -/

theorem asWriter_may {p : Panel} {src : Writer} (h : MayWrite p src) (f : Panel → Panel) : p.asWriter src f = f p := by
  obtain ⟨hb, hl⟩ := h
  unfold Panel.asWriter
  split
  · exact absurd rfl hb
  · cases hw : writerHost src with
    | none => rfl
    | some n => exact if_pos (hl n hw)

/-! ### A channel -/

section
variable {p : Panel} {ch : Nat}

theorem bar_modBar (hb : smSorted p.bars = true) (f : BarCh → BarCh) : (p.modBar ch f).bar ch = f (p.bar ch) :=
  smGetD_smPut_same hb _ _ _

theorem fget_modBar (f : BarCh → BarCh) (g : RField) (u i j : Nat) : (p.modBar ch f).fget g u i j = p.fget g u i j := rfl

/-- The next generation: counted by one modulo 2^16, with nobody arrived and the members as they were. -/
theorem barNext_starts (hr : smSorted p.regs = true) (hb : smSorted p.bars = true) :
    (p.barNext ch).fget F.HUB_BAR_STATUS_generation 0 ch = (p.fget F.HUB_BAR_STATUS_generation 0 ch + 1) % 65536 ∧
      ((p.barNext ch).bar ch).arrived = [] ∧ ((p.barNext ch).bar ch).members = (p.bar ch).members := by
  have hbar : (p.barNext ch).bar ch = { p.bar ch with arrived := [], panels := [], outside := false, releaseDue := false } :=
    bar_modBar (p := ((p.addWrap F.HUB_BAR_STATUS_generation 1 0 ch).fput F.HUB_BAR_STATUS_arrived 0 0 ch).fput
      F.HUB_BAR_STATUS_ext_wait 0 0 ch) hb _
  have h1 := Panel.sorted_fput hr F.HUB_BAR_STATUS_generation (p.fget F.HUB_BAR_STATUS_generation 0 ch + 1) 0 ch 0
  have h2 := Panel.sorted_fput h1 F.HUB_BAR_STATUS_arrived 0 0 ch 0
  refine ⟨?_, by rw [hbar], by rw [hbar]⟩
  refine (Panel.fget_congr rfl ..).trans ((Panel.fget_fput_field h2 F.HUB_BAR_STATUS_ext_wait F.HUB_BAR_STATUS_generation _ _ _ _ rfl
    (by decide) (by decide) (by decide)).trans ((Panel.fget_fput_field h1 F.HUB_BAR_STATUS_arrived F.HUB_BAR_STATUS_generation
      _ _ _ _ rfl (by decide) (by decide) (by decide)).trans (Panel.fget_fput hr _ _ _ _ _ (by decide))))

theorem smGet_map_val {V : Type} {g : Nat × V → Nat × V} (hg : ∀ e, (g e).1 = e.1) (m : SMap V) (i : Nat) :
    smGet (m.map g) i = (smGet m i).map fun v => (g (i, v)).2 := by
  induction m with
  | nil => rfl
  | cons e m ih =>
    obtain ⟨k, v⟩ := e
    have hk : g (k, v) = (k, (g (k, v)).2) := Prod.ext (hg (k, v)) rfl
    rw [List.map_cons, hk, smGet, smGet]
    split
    · subst_vars
      rfl
    · split
      · rfl
      · exact ih

/-- What a release leaves in a core: with an outstanding arrival, that its generation is released. -/
theorem core_barDone (f : Nat → Bool) (c : Nat) : (p.barDone ch f).core c =
    if smHas (p.core c).arrivals ch && f c then { p.core c with released := smSet (p.core c).released ch () } else p.core c := by
  unfold Panel.core smGetD Panel.barDone
  rw [smGet_map_val (fun e => by split <;> rfl)]
  cases smGet p.cores c with
  | none => simp [Core.zero, smHas, smGet]
  | some k =>
    simp only [Option.map_some, Option.getD_some]
    split <;> rfl

/-- An apply that is not refused: the members of the registers, shown as applied, then a calibration. -/
theorem barApply_applies (hr : smSorted p.regs = true) (hb : smSorted p.bars = true) (hc : ch < 16)
    (ha : (p.bar ch).arrived = []) (ho : (p.bar ch).outside = false)
    (hd : ∀ d ∈ upTo 64 (bit (p.get .HUB_BAR_DIES 0 ch).toNat), p.hasDie d = true) :
    ∃ q : Panel, p.barApply ch = q.calibrate ch ∧ (q.bar ch).members = p.barMembers ch ∧ q.cores = p.cores ∧
      q.flag F.HUB_BAR_STATUS_applied 0 ch = true ∧ q.flag F.HUB_BAR_CONTROL_error = false := by
  have hany : (upTo 64 (bit (p.get .HUB_BAR_DIES 0 ch).toNat)).any (fun d => !p.hasDie d) = false :=
    List.any_eq_false.2 fun d h => by simp [hd d h]
  have hf : InFile 0 ch 0 := ⟨by decide, by omega, by decide⟩
  have h0 : InFile 0 0 0 := ⟨by decide, by decide, by decide⟩
  have h1 := Panel.sorted_fput hr F.HUB_BAR_CONTROL_error 0 0 0 0
  have h2 := Panel.sorted_fput h1 F.HUB_BAR_STATUS_members (p.barMembers ch).length 0 ch 0
  refine ⟨_, if_neg (by rw [ha, ho, hany]; decide), ?_, rfl, ?_, ?_⟩
  · rw [bar_modBar (by exact hb)]
  · rw [Panel.flag, fget_modBar, Panel.fget_fput h2 _ _ _ _ _ (by decide)]
    rfl
  · rw [Panel.flag, fget_modBar,
      Panel.fget_fput_reg h2 _ (by decide) hf h0, Panel.fget_fput_reg h1 _ (by decide) hf h0,
      Panel.fget_fput hr _ _ _ _ _ (by decide)]
    rfl

/-- An outstanding arrival or an absent die refuses the apply. -/
theorem barApply_refuses (h : (p.bar ch).arrived ≠ [] ∨ (p.bar ch).outside = true ∨
    ∃ d ∈ upTo 64 (bit (p.get .HUB_BAR_DIES 0 ch).toNat), p.hasDie d = false) :
    p.barApply ch = p.fput F.HUB_BAR_CONTROL_error 1 := by
  refine if_pos ?_
  rw [Bool.or_eq_true, Bool.or_eq_true, List.any_eq_true, Bool.not_eq_true', List.isEmpty_eq_false_iff]
  rcases h with h | h | ⟨d, hd, h⟩
  · exact .inl (.inl h)
  · exact .inl (.inr h)
  · exact .inr ⟨d, hd, by simp [h]⟩

theorem sorted_barNext (hr : smSorted p.regs = true) : smSorted (p.barNext ch).regs = true := by
  have h1 := Panel.sorted_fput hr F.HUB_BAR_STATUS_generation (p.fget F.HUB_BAR_STATUS_generation 0 ch + 1) 0 ch 0
  exact Panel.sorted_fput (Panel.sorted_fput h1 F.HUB_BAR_STATUS_arrived 0 0 ch 0) F.HUB_BAR_STATUS_ext_wait 0 0 ch 0

/-- An abort and a release start the channel's next generation. -/
theorem barEnds (hr : smSorted p.regs = true) (hb : smSorted p.bars = true) {q : Panel}
    (hq : q = p.barAbortChannel ch ∨ q = p.barReleaseLocal ch) :
    q.fget F.HUB_BAR_STATUS_generation 0 ch = (p.fget F.HUB_BAR_STATUS_generation 0 ch + 1) % 65536 ∧
      (q.bar ch).arrived = [] ∧ (q.bar ch).members = (p.bar ch).members := by
  have next := fun f => barNext_starts (p := p.barDone ch f) (ch := ch) hr hb
  rcases hq with rfl | rfl
  · have h : smSorted ((p.barDone ch fun _ => true).barNext ch).regs = true := sorted_barNext hr
    refine ⟨?_, (next fun _ => true).2⟩
    rw [Panel.barAbortChannel, Panel.fget_fput_field h F.HUB_BAR_STATUS_aborted F.HUB_BAR_STATUS_generation 1 0 ch 0 rfl
      (by decide) (by decide) (by decide)]
    exact (next fun _ => true).1
  · exact next (p.bar ch).members.contains

theorem barAbort_shows (hr : smSorted p.regs = true) : (p.barAbortChannel ch).flag F.HUB_BAR_STATUS_aborted 0 ch = true := by
  have h : smSorted ((p.barDone ch fun _ => true).barNext ch).regs = true := sorted_barNext hr
  rw [Panel.flag, Panel.barAbortChannel, Panel.fget_fput h _ _ _ _ _ (by decide)]
  rfl

/-- A released core sees its generation released. -/
theorem released_barDone {f : Nat → Bool} {c : Nat} (ha : smHas (p.core c).arrivals ch = true) (hf : f c = true) :
    smHas ((p.barDone ch f).core c).released ch = true := by
  rw [core_barDone, if_pos (by rw [ha, hf]; rfl), smHas, smGet_smSet_same]
  rfl

theorem released_barAbort {c : Nat} (ha : smHas (p.core c).arrivals ch = true) :
    smHas ((p.barAbortChannel ch).core c).released ch = true := released_barDone (f := fun _ => true) ha rfl

theorem core_barReleaseLocal_other {c : Nat} (h : (p.bar ch).members.contains c = false) :
    (p.barReleaseLocal ch).core c = p.core c :=
  (core_barDone _ c).trans (if_neg (by rw [h, Bool.and_false]; decide))

end

/-! ### Arrivals -/

section
variable {s : State} {c ch : Nat} (hb : (s.p.core c).blocked = some (.barArrive ch))
include hb

/-- An arrival waits for its engine classes, and behind a cause that is to be delivered first. -/
theorem acts_barArriveSignal_waits (h : s.p.asyncDue c = true ∨ (s.p.core c).classesDone 0b1111 (s.p.core c).q.seq = false) :
    Acts (.barArriveSignal c) s s.p := by
  refine acts_of_exec rfl ?_
  dsimp only
  rw [hb]
  refine if_pos ?_
  rcases h with h | h <;> rw [h]
  · exact Bool.or_true _
  · rfl

variable (ha : s.p.asyncDue c = false) (hd : (s.p.core c).classesDone 0b1111 (s.p.core c).q.seq = true)
  (hs : smSorted s.p.cores = true) {q : Panel}
  (hq : Completes s.p c ((s.p.modCore c fun k => { k with
    arrivals := smSet k.arrivals ch (BitVec.ofNat 16 (s.p.fget F.HUB_BAR_STATUS_generation 0 ch))
    released := smDel k.released ch }).modCore c fun k => { k with blocked := none }) q)
include ha hd hs hq

omit hb hd hs in
/-- The wait of a BAR.ARRIVE ends in its completion. -/
theorem barArrive_unblocks : (s.p.unblock c fun p => p.modCore c fun k => { k with
    arrivals := smSet k.arrivals ch (BitVec.ofNat 16 (s.p.fget F.HUB_BAR_STATUS_generation 0 ch))
    released := smDel k.released ch }) = q := unblock_completes ha hq

omit hb ha hd in
/-- What a completed BAR.ARRIVE leaves: the arrival, with the channels as they were. -/
theorem barArrive_records : smHas (q.core c).arrivals ch = true ∧ q.bars = s.p.bars := by
  obtain ⟨-, rfl⟩ := completeAt_some hq
  refine ⟨?_, rfl⟩
  rw [Panel.core_setCore (by exact Panel.sorted_setCore (Panel.sorted_setCore hs _ _) _ _),
    Panel.core_modCore (by exact Panel.sorted_setCore hs _ _), Panel.core_modCore hs]
  simp [Core.complete, smHas]

/-- The arrival of a member is counted, and the last one completes the generation. -/
theorem acts_barArriveSignal_member (hm : (s.p.bar ch).members.contains c = true) :
    let q' := q.modBar ch fun b => { b with arrived := smSet b.arrived c () }
    let q'' := q'.fput F.HUB_BAR_STATUS_arrived (q'.bar ch).arrived.length 0 ch
    ((q'.bar ch).arrived.length = (q'.bar ch).members.length → Acts (.barArriveSignal c) s (q''.barComplete ch)) ∧
      ((q'.bar ch).arrived.length ≠ (q'.bar ch).members.length → Acts (.barArriveSignal c) s q'') := by
  obtain ⟨hr, hbars⟩ := barArrive_records hs hq
  have hm' : (!(q.bar ch).members.contains c) = false := by rw [Panel.bar, hbars, ← Panel.bar, hm]; rfl
  refine ⟨fun h => acts_of_exec rfl ?_, fun h => acts_of_exec rfl ?_⟩
  all_goals
    dsimp only
    rw [hb]
    dsimp only
    rw [ha, hd, barArrive_unblocks ha hq, hr, hm']
  · exact if_pos h
  · exact if_neg h

/-- The arrival of another core is logged. -/
theorem acts_barArriveSignal_stranger (hm : (s.p.bar ch).members.contains c = false) :
    ∃ (q' : Panel) (h : Nat) (r : Report), Acts (.barArriveSignal c) s q' ∧ q'.reports = q.reports ++ [(h, r)] ∧
      r.event = 0x0506 ∧ q'.bars = q.bars ∧ q'.cores = q.cores := by
  obtain ⟨hr, hbars⟩ := barArrive_records hs hq
  have hm' : (!(q.bar ch).members.contains c) = true := by rw [Panel.bar, hbars, ← Panel.bar, hm]; rfl
  refine ⟨q.sendReport (q.reportHub (c / 16)) 0x0506 clsInfo lvDie 2 (BitVec.ofNat 8 (q.dieSite (c / 16)))
    (BitVec.ofNat 8 (c / 8 % 2 * 9 + q.coreSite c)) none none, _, _, acts_of_exec rfl ?_, rfl, rfl, rfl, rfl⟩
  dsimp only
  rw [hb]
  dsimp only
  rw [ha, hd, barArrive_unblocks ha hq, hr, hm']
  rfl

end

/-- Settles O35: `barApply_applies` and `barApply_refuses`, `barEnds` with what each end releases, and the arrival's cases. -/
theorem barrierChannelsRun : Obligations.BarrierChannelsRun := by
  unfold Obligations.BarrierChannelsRun
  exact ⟨fun s src v hw => ⟨acts_of_exec rfl (asWriter_may hw _), acts_of_exec rfl (asWriter_may hw _)⟩,
    fun p ch hr hb hc => ⟨barApply_applies hr hb hc, barApply_refuses, fun q => barEnds hr hb, barAbort_shows hr,
      fun c ha => ⟨released_barAbort ha, released_barDone ha⟩, fun c => core_barReleaseLocal_other⟩,
    fun s c ch hb => ⟨acts_barArriveSignal_waits hb, fun ha hd hs q hq => ⟨acts_barArriveSignal_member hb ha hd hs hq,
      acts_barArriveSignal_stranger hb ha hd hs hq⟩⟩,
    fun s ch h => acts_of_exec rfl (if_pos h)⟩

end Sys2Proof.Machine
end

section
/-! Packets at their ends (R57 to R60, R212, R213, R219, R223 to R228, R469): requests served at their home, responses at what waits
for them. -/

namespace Sys2Proof.Machine

/-! ### Requests -/

section
variable {s : State} {k : Packet} (hup : s.p.nodeUp k.dstNode.toNat = true) (he : s.p.early k = false)
include hup he

theorem acts_pktRd :
    let p := s.p.takePacket k
    let st := p.accessStatus k.addr.toNat k.length.toNat
    let r := p.readRange k.addr.toNat k.length.toNat
    (st ≠ 0 → Acts (.pktRd k) s (p.answer k 0x0B st)) ∧ (st = 0 → Acts (.pktRd k) s (r.2.2.answer k 0x08 0 r.1 r.2.1)) := by
  intro p st r
  have hc : ¬((!s.p.nodeUp k.dstNode.toNat || s.p.early k) = true) := by rw [hup, he]; decide
  exact ⟨fun h => acts_of_exec rfl ((if_neg hc).trans (if_pos h)),
    fun h => acts_of_exec rfl ((if_neg hc).trans (if_neg (not_not.2 h)))⟩

variable (hm : k.mc = false)
include hm

theorem acts_pktWr :
    let p := s.p.takePacket k
    let st := p.accessStatus k.addr.toNat k.payload.length
    (st ≠ 0 → Acts (.pktWr k) s (p.answer k 0x0B st)) ∧
      (st = 0 → Acts (.pktWr k) s ((p.storePa k.addr.toNat (k.payload.map fun b => (b, k.poison))).answer k 0x09 0)) := by
  intro p st
  have hc : ¬((!s.p.nodeUp k.dstNode.toNat || s.p.early k) = true) := by rw [hup, he]; decide
  have hk : ¬(k.mc = true) := by rw [hm]; decide
  exact ⟨fun h => acts_of_exec rfl ((if_neg hk).trans ((if_neg hc).trans (if_pos h))),
    fun h => acts_of_exec rfl ((if_neg hk).trans ((if_neg hc).trans (if_neg (not_not.2 h))))⟩

theorem acts_pktTpost :
    let p := s.p.takePacket k
    let c := k.w2.toNat % 1024
    (p.hasCore c = false ∨ inRegs k.addr.toNat = true → Acts (.pktTpost k) s (p.answer k 0x0B 1)) ∧
      (p.hasCore c = true → inRegs k.addr.toNat = false → p.isFenced c = true → Acts (.pktTpost k) s (p.answer k 0x0B 2)) ∧
      (p.hasCore c = true → inRegs k.addr.toNat = false → p.isFenced c = false → Acts (.pktTpost k) s
        ((p.tokenAdd c (k.w2.toNat / 2 ^ 10 % 32) (k.w2.toNat / 2 ^ 15 % 65536)).answer k 0x0A 0)) := by
  intro p c
  have hc : ¬((!s.p.nodeUp k.dstNode.toNat || s.p.early k) = true) := by rw [hup, he]; decide
  have hk : ¬(k.mc = true) := by rw [hm]; decide
  have hbits : ∀ hi lo, bits k.w2.toNat hi lo = k.w2.toNat / 2 ^ lo % 2 ^ (hi + 1 - lo) := fun hi lo => by
    rw [bits, Nat.shiftRight_eq_div_pow]
  have h0 : bits k.w2.toNat 9 0 = c := by
    rw [hbits, pow_zero, Nat.div_one]
    rfl
  have h1 : bits k.w2.toNat 14 10 = k.w2.toNat / 2 ^ 10 % 32 := hbits 14 10
  have h2 : bits k.w2.toNat 30 15 = k.w2.toNat / 2 ^ 15 % 65536 := hbits 30 15
  refine ⟨fun h => acts_of_exec rfl ((if_neg hk).trans ((if_neg hc).trans ?_)),
    fun hcore hr hf => acts_of_exec rfl ((if_neg hk).trans ((if_neg hc).trans ?_)),
    fun hcore hr hf => acts_of_exec rfl ((if_neg hk).trans ((if_neg hc).trans ?_))⟩
  all_goals
    dsimp only
    rw [h0]
  · refine if_pos ?_
    rcases h with h | h
    · rw [show (s.p.takePacket k).hasCore c = false from h]
      rfl
    · rw [h, Bool.or_true]
  · exact (if_neg (by rw [hcore, hr]; decide)).trans (if_pos hf)
  · rw [h1, h2]
    exact (if_neg (by rw [hcore, hr]; decide)).trans (if_neg (by rw [hf]; decide))

end

section
variable {s : State} {k : Packet}

theorem acts_multicast (hm : k.mc = true) (ho : mcOk k = true) (hf : s.p.net.flying.any (fun f => f.p == k) = true) :
    let p := s.p.takePacket k
    Acts (.pktWr k) s ((p.mcDies k).foldl (fun p d => p.deliverMc d k) p) ∧
      Acts (.pktTpost k) s ((p.mcDies k).foldl (fun p d => p.deliverMc d k) p) := by
  intro p
  have hd : s.p.deliverAll k = (p.mcDies k).foldl (fun p d => p.deliverMc d k) p := by
    unfold Panel.deliverAll
    rw [if_neg (by rw [ho]; decide), if_pos hf]
  exact ⟨acts_of_exec rfl ((if_pos hm).trans hd), acts_of_exec rfl ((if_pos hm).trans hd)⟩

theorem acts_early (he : s.p.early k = true) : Acts (.pktRd k) s s.p ∧
    (k.mc = false → Acts (.pktWr k) s s.p ∧ Acts (.pktTpost k) s s.p) := by
  have hc : (!s.p.nodeUp k.dstNode.toNat || s.p.early k) = true := by rw [he, Bool.or_true]
  refine ⟨acts_of_exec rfl (if_pos hc), fun hm => ?_⟩
  have hk : ¬(k.mc = true) := by rw [hm]; decide
  exact ⟨acts_of_exec rfl ((if_neg hk).trans (if_pos hc)), acts_of_exec rfl ((if_neg hk).trans (if_pos hc))⟩

end

/-- Settles O29: a lemma per request. -/
theorem requestsAreServedAtTheirHome : Obligations.RequestsAreServedAtTheirHome := by
  unfold Obligations.RequestsAreServedAtTheirHome
  exact fun s k => ⟨fun hup he => ⟨acts_pktRd hup he, fun hm => ⟨acts_pktWr hup he hm, acts_pktTpost hup he hm⟩⟩,
    acts_multicast, acts_early⟩

/-! ### Responses -/

section
variable {s : State} {k : Packet} {w : Waiting}

theorem acts_response_early (h : s.p.nodeUp k.dstNode.toNat = false ∨ s.p.early k = true) :
    ∀ i ∈ ([.pktRdData k, .pktWrAck k, .pktTpostAck k, .pktNak k] : List Instr), Acts i s s.p := by
  have hc : (!s.p.nodeUp k.dstNode.toNat || s.p.early k) = true := by rcases h with h | h <;> rw [h] <;> simp
  simp only [List.mem_cons, List.not_mem_nil, or_false]
  rintro i (rfl | rfl | rfl | rfl) <;> exact acts_of_exec rfl (if_pos hc)

section
variable (hup : s.p.nodeUp k.dstNode.toNat = true) (he : s.p.early k = false)
include hup he

/-- A response that comes in its order meets what waits, or nothing. -/
theorem response_cases (f : Panel → Waiting → Option Panel) :
    let p := s.p.takePacket k
    let found := p.net.waiting.find? fun w => w.node == k.dstNode.toNat && w.unit == k.srcUnit.toNat && w.tag == k.tag
    (∀ w, found = some w → (∀ c, responseCore k = some c → p.isFenced c = false) →
        s.p.response k f = (f p w).getD (p.lateResponse k)) ∧
      (found = none ∨ (∃ c, responseCore k = some c ∧ p.isFenced c = true) → s.p.response k f = p.lateResponse k) := by
  have hc : ¬((!s.p.nodeUp k.dstNode.toNat || s.p.early k) = true) := by rw [hup, he]; decide
  intro p found
  unfold Panel.response
  rw [if_neg hc]
  dsimp only
  refine ⟨fun w hf hfen => ?_, fun h => ?_⟩
  · rw [show List.find? _ _ = some w from hf]
    refine if_neg ?_
    cases hr : responseCore k with
    | none => exact Bool.false_ne_true
    | some c => exact ne_true_of_eq_false (hfen c hr)
  · cases hf : found with
    | none => rw [show List.find? _ _ = none from hf]
    | some w =>
      obtain ⟨c, hr, hfen⟩ := h.resolve_left (by rw [hf]; exact Option.some_ne_none w)
      rw [show List.find? _ _ = some w from hf, hr]
      exact if_pos hfen

/-- A response that nothing waits for, or that is for a fenced core, is discarded and counted. -/
theorem acts_response_late (h : (s.p.takePacket k).net.waiting.find? (fun w => w.node == k.dstNode.toNat &&
      w.unit == k.srcUnit.toNat && w.tag == k.tag) = none ∨
      ∃ c, responseCore k = some c ∧ (s.p.takePacket k).isFenced c = true) :
    ∀ i ∈ ([.pktRdData k, .pktWrAck k, .pktTpostAck k, .pktNak k] : List Instr), Acts i s ((s.p.takePacket k).lateResponse k) := by
  simp only [List.mem_cons, List.not_mem_nil, or_false]
  rintro i (rfl | rfl | rfl | rfl) <;> exact acts_of_exec rfl ((response_cases hup he _).2 h)

variable (hw : (s.p.takePacket k).net.waiting.find? (fun w => w.node == k.dstNode.toNat &&
    w.unit == k.srcUnit.toNat && w.tag == k.tag) = some w)
  (hf : ∀ c, responseCore k = some c → (s.p.takePacket k).isFenced c = false)
include hw hf

/-- A response does to what waits for it what its command says. -/
theorem acts_response {i : Instr} {f : Panel → Waiting → Option Panel} {q : Panel}
    (hi : exec i s = .next (s.upd fun p => p.response k f)) (hq : f (s.p.takePacket k) w = some q) : Acts i s q :=
  acts_of_exec hi (((response_cases hup he f).1 w hw hf).trans (by rw [hq, Option.getD_some]))

theorem acts_response_hub (hk : w.kind = .hub) : ∀ i ∈ ([.pktRdData k, .pktWrAck k, .pktNak k] : List Instr),
    Acts i s ((s.p.takePacket k).endWait w) := by
  have act {i : Instr} {f : Panel → Waiting → Option Panel} {q : Panel} := acts_response hup he hw hf (i := i) (f := f) (q := q)
  simp only [List.mem_cons, List.not_mem_nil, or_false]
  rintro i (rfl | rfl | rfl) <;> exact act rfl (by simp only [hk, Panel.opFailed])

theorem acts_response_post {c t : Nat} (hk : w.kind = .post c t) :
    let q := ((s.p.takePacket k).endWait w).modCore c fun k => { k with postsOut := k.postsOut - 1 }
    Acts (.pktTpostAck k) s q ∧ Acts (.pktNak k) s (q.raiseAsync c 0x11 t) :=
  ⟨acts_response hup he hw hf rfl (by simp only [hk]),
    acts_response hup he hw hf rfl (by simp only [hk, Panel.opFailed, asyncPost])⟩

theorem acts_response_dma {c n : Nat} (hk : w.kind = .dma c n) :
    Acts (.pktRdData k) s (s.p.takePacket k) ∧ Acts (.pktWrAck k) s (s.p.takePacket k) ∧
      Acts (.pktNak k) s ((s.p.takePacket k).dmaFailed c n) :=
  ⟨acts_response hup he hw hf rfl (by simp only [hk]), acts_response hup he hw hf rfl (by simp only [hk]),
    acts_response hup he hw hf rfl (by simp only [hk, Panel.opFailed])⟩

theorem acts_response_send {c n : Nat} {o : MxOp} (hk : w.kind = .send c n)
    (ho : ((s.p.takePacket k).core c).closing.find? (fun o => o.seq == n) = some o) :
    Acts (.pktNak k) s (((s.p.takePacket k).sendFailed c o).mxAdvance c) :=
  acts_response hup he hw hf rfl (by simp only [hk, Panel.opFailed, ho])

theorem acts_response_row {slot row : Nat} (hk : w.kind = .accordRow slot row) :
    Acts (.pktWrAck k) s ((s.p.takePacket k).rowAnswer w slot true) ∧
      Acts (.pktNak k) s ((s.p.takePacket k).rowAnswer w slot false) :=
  ⟨acts_response hup he hw hf rfl (by simp only [hk]), acts_response hup he hw hf rfl (by simp only [hk, Panel.opFailed])⟩

theorem acts_response_accordPost {slot : Nat} (hk : w.kind = .accordPost slot) :
    Acts (.pktTpostAck k) s ((s.p.takePacket k).postAnswer w slot true) ∧
      Acts (.pktNak k) s ((s.p.takePacket k).postAnswer w slot false) :=
  ⟨acts_response hup he hw hf rfl (by simp only [hk]), acts_response hup he hw hf rfl (by simp only [hk, Panel.opFailed])⟩

theorem acts_response_guest {site : Nat} {tag : BitVec 16} (hk : w.kind = .guest site tag) :
    ∀ i ∈ ([.pktRdData k, .pktWrAck k, .pktTpostAck k, .pktNak k] : List Instr),
      Acts i s (((s.p.takePacket k).endWait w).toGuest site { k with tag := tag }) := by
  have act {i : Instr} {f : Panel → Waiting → Option Panel} {q : Panel} := acts_response hup he hw hf (i := i) (f := f) (q := q)
  simp only [List.mem_cons, List.not_mem_nil, or_false]
  rintro i (rfl | rfl | rfl | rfl) <;> exact act rfl (by simp only [hk, Panel.guestAnswer])

theorem acts_response_multicast {n : Nat} (hk : w.kind = .multicast n) :
    ∀ i ∈ ([.pktWrAck k, .pktTpostAck k, .pktNak k] : List Instr), Acts i s ((s.p.takePacket k).mcAnswer w n) := by
  have act {i : Instr} {f : Panel → Waiting → Option Panel} {q : Panel} := acts_response hup he hw hf (i := i) (f := f) (q := q)
  simp only [List.mem_cons, List.not_mem_nil, or_false]
  rintro i (rfl | rfl | rfl) <;> exact act rfl (by simp only [hk, Panel.opFailed])

end

/-- An answer goes to its guest as far as the bucket holds, or waits for it (R469). -/
theorem toGuest_cases (p : Panel) (site : Nat) (k : Packet) :
    let g := p.guestSite site
    let fits := g.back = [] ∧ k.payload.length ≤ g.bucket
    (fits → p.toGuest site k = (p.setGuest site { g with bucket := g.bucket - k.payload.length }).emit (.guest site k)) ∧
      (¬fits → p.toGuest site k = p.setGuest site { g with back := g.back ++ [k] }) := by
  intro g fits
  have hc : (g.back.isEmpty && decide (k.payload.length ≤ g.bucket)) = true ↔ fits := by
    rw [Bool.and_eq_true, List.isEmpty_iff, decide_eq_true_iff]
  exact ⟨fun h => if_pos (hc.2 h), fun h => if_neg (mt hc.1 h)⟩

end

/-- Settles O30: a lemma per kind of waiter. -/
theorem responsesReachTheirRequester : Obligations.ResponsesReachTheirRequester := by
  unfold Obligations.ResponsesReachTheirRequester
  refine ⟨fun s k => acts_response_early, fun s k hup he => ⟨fun w hw hf => ?_, acts_response_late hup he⟩, toGuest_cases⟩
  exact ⟨acts_response_hub hup he hw hf, fun c t => acts_response_post hup he hw hf, fun c n => acts_response_dma hup he hw hf,
    fun c n o => acts_response_send hup he hw hf, fun slot row => acts_response_row hup he hw hf,
    fun slot => acts_response_accordPost hup he hw hf, fun site tag => acts_response_guest hup he hw hf,
    fun n => acts_response_multicast hup he hw hf⟩

end Sys2Proof.Machine
end

section
/-! Failures of the panel network and its drains (R60, R68, R217, R220, R221, R223, R229, R242). -/

namespace Sys2Proof.Machine

/-! ### Timers -/

section
variable {s : State} {node unit : Nat} {tag : BitVec 16}

theorem drain_stops_timers (h : s.p.flag F.PNW_DRAIN_STATUS_in_progress = true) :
    (∀ node unit tag, Acts (.networkOpTimeout node unit tag) s s.p) ∧ (∀ node n, Acts (.mcHoldExpire node n) s s.p) ∧
      Acts .drainPause s s.p :=
  ⟨fun _ _ _ => acts_of_exec rfl (if_pos h), fun _ _ => acts_of_exec rfl (if_pos h),
    acts_of_exec rfl (if_pos (by rw [h]; rfl))⟩

variable (hd : s.p.flag F.PNW_DRAIN_STATUS_in_progress = false)
include hd

/-- Outside a drain an operation that waited too long fails as its kind does. -/
theorem acts_networkOpTimeout {w : Waiting}
    (hw : (s.p.net.waiting.find? fun w => w.node == node && w.unit == unit && w.tag == tag) = some w) :
    (∀ c t, w.kind = .post c t → Acts (.networkOpTimeout node unit tag) s
      (((s.p.endWait w).modCore c fun k => { k with postsOut := k.postsOut - 1 }).raiseAsync c 0x12 t)) ∧
    (∀ c n, w.kind = .dma c n → Acts (.networkOpTimeout node unit tag) s (s.p.dmaFailed c n)) ∧
    (∀ slot row, w.kind = .accordRow slot row → Acts (.networkOpTimeout node unit tag) s (s.p.rowAnswer w slot false)) ∧
    (w.kind = .hub → Acts (.networkOpTimeout node unit tag) s (s.p.endWait w)) ∧
    (∀ n, w.kind = .multicast n → Acts (.networkOpTimeout node unit tag) s (s.p.endWait w)) := by
  have hd' : ¬(s.p.flag F.PNW_DRAIN_STATUS_in_progress = true) := ne_true_of_eq_false hd
  refine ⟨fun c t hk => ?_, fun c n hk => ?_, fun slot row hk => ?_, fun hk => ?_, fun n hk => ?_⟩
  all_goals
    refine acts_of_exec rfl ((if_neg hd').trans ?_)
    simp only [hw, hk, Panel.opFailed]
  rfl

theorem acts_mcHoldExpire {n : Nat} {f : Flying} (hf : (s.p.net.flying.filter fun f => f.inPool node && f.p.mc)[n]? = some f) :
    Acts (.mcHoldExpire node n) s (s.p.abandon node f) :=
  acts_of_exec rfl ((if_neg (ne_true_of_eq_false hd)).trans (by simp only [hf]))

end

/-! ### The pause of a drain -/

section
variable {p q : Panel}

/-- Injection paused at every router (R220 step 2). -/
def Panel.pausedAll (p : Panel) : Panel := p.routers.foldl (fun p n => p.fput F.PNW_POOL_STATUS_paused 1 n) p

/-- The branches of multicasts that are held are abandoned (R221). -/
def Panel.abandonHeld (p : Panel) : Panel := (p.net.flying.filter p.mcBlocked).foldl (fun p f => p.abandon f.holder f) p

/-- A panel with the same network and sites holds the same multicast branches. -/
theorem mcBlocked_congr (hn : q.net = p.net) (he : ∀ n, q.endOf n = p.endOf n) : q.mcBlocked = p.mcBlocked := by
  have hc : q.creditsFor = p.creditsFor := by
    have hpool : q.pool = p.pool := by
      unfold Panel.pool
      rw [hn]
    unfold Panel.creditsFor
    rw [hpool, hn]
  funext f
  simp only [Panel.mcBlocked, hc, he]

theorem pausedAll_net (p : Panel) : p.pausedAll.net = p.net :=
  foldl_leaves Panel.net (f := fun p n => p.fput F.PNW_POOL_STATUS_paused 1 n) (fun _ _ => rfl) _ p

variable (hp : smSorted p.regs = true) (hr : ∀ n ∈ p.routers, n < 256)
include hp hr

/-- A pause writes the routers' pool registers alone. -/
theorem pausedAll_leaves : smSorted p.pausedAll.regs = true ∧
    ∀ g : RField, g.reg ≠ .PNW_POOL_STATUS → ∀ i, i < 8192 → p.pausedAll.fget g 0 i = p.fget g 0 i := by
  refine List.foldlRecOn (motive := fun q : Panel => smSorted q.regs = true ∧
    ∀ g : RField, g.reg ≠ .PNW_POOL_STATUS → ∀ i, i < 8192 → q.fget g 0 i = p.fget g 0 i) _ _ ⟨hp, fun _ _ _ _ => rfl⟩ ?_
  intro q ⟨hq, hg⟩ n hn
  refine ⟨Panel.sorted_fput hq _ _ _ _ _, fun g hne i hi => ?_⟩
  have := hr n hn
  rw [Panel.fget_fput_reg hq _ hne ⟨by omega, by decide, by decide⟩ ⟨by decide, hi, by decide⟩, hg g hne i hi]

theorem pausedAll_endOf (n : Nat) : p.pausedAll.endOf n = p.endOf n := by
  have hg := (pausedAll_leaves hp hr).2
  unfold Panel.endOf Panel.dieSite Panel.stackSite
  split
  · rw [hg F.HUB_L2P_ROW_phys_row (by decide) _ (by omega), hg F.HUB_L2P_ROW_cols (by decide) _ (by omega)]
  · split
    · rw [hg F.HUB_L2P_STACK_sites (by decide) _ (by omega)]
    · rfl

theorem pausedAll_paused {n : Nat} (hn : n ∈ p.routers) : p.pausedAll.flag F.PNW_POOL_STATUS_paused n = true := by
  have h : p.pausedAll.fget F.PNW_POOL_STATUS_paused n = 1 := by
    refine foldl_establishes (I := fun q : Panel => smSorted q.regs = true)
      (P := fun q : Panel => q.fget F.PNW_POOL_STATUS_paused n = 1) (fun q x hq => Panel.sorted_fput hq _ _ _ _ _)
      (fun q hq => Panel.fget_fput hq _ _ _ _ _ (by decide)) (fun q x hx hne hq h => ?_) hp (.inr hn)
    have hx := hr x hx
    have hn := hr n hn
    have file : ∀ n, n < 256 → InFile n 0 0 := fun n h => ⟨by omega, by decide, by decide⟩
    have own : Reg.PNW_POOL_STATUS.info.share = .own := rfl
    rw [Panel.fget, Panel.fput, Panel.get_put_far hq _ (file x hx) (file n hn) fun _ h => ?_, ← Panel.fget, h]
    rw [homeUnit_own own, homeUnit_own own] at h
    exact absurd h.symm hne
  rw [Panel.flag, h]
  rfl

omit hp hr

theorem diff_filter {α : Type} [DecidableEq α] (f : α → Bool) (l : List α) : l.diff (l.filter f) = l.filter fun x => !f x := by
  induction l with
  | nil => rfl
  | cons x l ih =>
    cases h : f x with
    | true => rw [List.filter_cons_of_pos h, List.diff_cons, List.erase_cons_head, ih, List.filter_cons_of_neg (by simp [h])]
    | false =>
      rw [List.filter_cons_of_neg (by simp [h]), List.cons_diff_of_not_mem fun hm => ?_, ih,
        List.filter_cons_of_pos (by simp [h])]
      exact absurd (List.mem_filter.1 hm).2 (by simp [h])

theorem abandon_net (p : Panel) (node : Nat) (f : Flying) : (p.abandon node f).net = { p.net with flying := p.net.flying.erase f } := by
  unfold Panel.abandon
  dsimp only
  split <;> rfl

theorem abandon_regs (p : Panel) (node : Nat) (f : Flying) : (p.abandon node f).regs = p.regs := by
  unfold Panel.abandon
  dsimp only
  split <;> rfl

/-- The branches held leave the network, and no register changes. -/
theorem abandonHeld_leaves (p : Panel) : p.abandonHeld.net.flying = p.net.flying.filter (fun f => !p.mcBlocked f) ∧
    p.abandonHeld.regs = p.regs := by
  unfold Panel.abandonHeld
  refine ⟨?_, foldl_leaves Panel.regs (fun q f => abandon_regs q _ f) _ p⟩
  rw [← diff_filter, List.diff_eq_foldl]
  exact (List.foldl_hom (fun q : Panel => q.net.flying) fun q f => by rw [abandon_net]).symm

end

/-- A drain begins while a primary PMC exists: held branches are abandoned, every router is paused and the drain shows (R220). -/
theorem acts_drainPause {s : State} (hd : s.p.flag F.PNW_DRAIN_STATUS_in_progress = false) (hs : s.p.swapHeld = false) :
    ∃ q : Panel, Acts .drainPause s q ∧ (smSorted s.p.regs = true → (∀ n ∈ s.p.routers, n < 256) →
      q.net.flying = s.p.net.flying.filter (fun f => !s.p.mcBlocked f) ∧ q.flag F.PNW_DRAIN_STATUS_in_progress = true ∧
        ∀ n ∈ s.p.routers, q.flag F.PNW_POOL_STATUS_paused n = true) := by
  have hc : ¬((s.p.flag F.PNW_DRAIN_STATUS_in_progress || s.p.swapHeld) = true) := by rw [hd, hs]; decide
  refine ⟨(s.p.pausedAll.abandonHeld.fput F.PNW_DRAIN_STATUS_in_progress 1).fput F.PNW_DRAIN_STATUS_last_discards 0,
    acts_of_exec rfl (if_neg hc), fun hp hr => ?_⟩
  obtain ⟨hfly, hregs⟩ := abandonHeld_leaves s.p.pausedAll
  have h0 : smSorted s.p.pausedAll.abandonHeld.regs = true := hregs ▸ (pausedAll_leaves hp hr).1
  have h1 := Panel.sorted_fput h0 F.PNW_DRAIN_STATUS_in_progress 1 0 0 0
  refine ⟨?_, ?_, fun n hn => ?_⟩
  · refine hfly.trans ?_
    rw [mcBlocked_congr (pausedAll_net s.p) (pausedAll_endOf hp hr), pausedAll_net]
  · rw [Panel.flag, Panel.fget_fput_field h1 F.PNW_DRAIN_STATUS_last_discards F.PNW_DRAIN_STATUS_in_progress _ _ _ _ rfl
      (by decide) (by decide) (by decide), Panel.fget_fput h0 _ _ _ _ _ (by decide)]
    rfl
  · have := hr n hn
    have file : InFile 0 0 0 := ⟨by decide, by decide, by decide⟩
    have filen : InFile n 0 0 := ⟨by omega, by decide, by decide⟩
    rw [Panel.flag, Panel.fget_fput_reg h1 _ (by decide) file filen, Panel.fget_fput_reg h0 _ (by decide) file filen,
      Panel.fget_congr hregs]
    exact pausedAll_paused hp hr hn

/-! ### The end of a drain, and lost links -/

theorem acts_drainTimeout {s : State} {node : Nat} (hd : s.p.flag F.PNW_DRAIN_STATUS_in_progress = true)
    (he : s.p.poolEmpty node = false) :
    ∃ q, Acts (.drainTimeout node) s q ∧ q.net.flying = s.p.net.flying.filter (fun f => !f.inPool node) ∧
      q.cores = s.p.cores ∧ q.st = s.p.st ∧
      (smSorted s.p.regs = true → q.fget F.PNW_DRAIN_STATUS_last_discards =
        min F.PNW_DRAIN_STATUS_last_discards.max
          (s.p.fget F.PNW_DRAIN_STATUS_last_discards + (s.p.pool node).length)) := by
  have hc : ¬((!s.p.flag F.PNW_DRAIN_STATUS_in_progress || s.p.poolEmpty node) = true) := by rw [hd, he]; decide
  refine ⟨_, acts_of_exec rfl (if_neg hc), rfl, rfl, rfl, fun hp => ?_⟩
  refine (Panel.fget_fput (p := { s.p with net := { s.p.net with flying := s.p.net.flying.filter fun f => !f.inPool node } })
    hp F.PNW_DRAIN_STATUS_last_discards _ 0 0 0 (by decide)).trans (Nat.mod_eq_of_lt ?_)
  exact Nat.lt_of_le_of_lt (min_le_left _ _) (by decide)

/-- A packet crosses the link between two routers. -/
def crossesLink (node m : Nat) (f : Flying) : Bool :=
  f.next != f.holder && ((f.holder == node && f.next == m) || (f.holder == m && f.next == node))

theorem crossesLink_iff {node m : Nat} {f : Flying} : crossesLink node m f = true ↔
    f.next ≠ f.holder ∧ (f.holder = node ∧ f.next = m ∨ f.holder = m ∧ f.next = node) := by
  simp [crossesLink]

/-- The link is down and reported at both ends, and what crossed it is gone; the new routes are still to be written. -/
def Panel.linkLost (p : Panel) (node port m : Nat) : Panel :=
  let p1 := { p with bring := { p.bring with linksFailed := p.bring.linksFailed ++ [(p.endOf node, port)] } }
  let p2 := p1.reportLink node port 0x0305 clsUF
  let p3 := p2.reportLink m (portBack (p.endOf node) (p2.endOf m)) 0x0305 clsUF
  { p3 with net := { p3.net with flying := p3.net.flying.filter fun f => !crossesLink node m f, swapDue := true } }

theorem loseLink_eq {p : Panel} {node port m : Nat} (hm : p.neighbour node port = some m) :
    p.loseLink node port = ((p.linkLost node port m).writePorts).writeRoutes true := by
  unfold Panel.loseLink
  rw [hm]
  rfl

theorem acts_linkDown {s : State} {node port m : Nat} (hm : s.p.neighbour node port = some m)
    (hr : s.p.routers.contains node = true) :
    ∃ (q p' : Panel) (h h' : Nat) (r r' : Report), Acts (.linkDown node port) s q ∧
      q = (p'.writePorts).writeRoutes true ∧ p'.net.swapDue = true ∧ p'.reports = s.p.reports ++ [(h, r), (h', r')] ∧
      r.event = 0x0305 ∧ r'.event = 0x0305 ∧
      p'.bring.linksFailed = s.p.bring.linksFailed ++ [(s.p.endOf node, port)] ∧
      (∀ f, f ∈ p'.net.flying ↔ f ∈ s.p.net.flying ∧
        ¬(f.next ≠ f.holder ∧ (f.holder = node ∧ f.next = m ∨ f.holder = m ∧ f.next = node))) := by
  refine ⟨_, s.p.linkLost node port m, _, _, _, _, acts_of_exec rfl ((if_pos ?_).trans (loseLink_eq hm)), rfl, rfl,
    List.append_assoc _ [_] [_], rfl, rfl, rfl, fun f => ?_⟩
  · rw [hm, hr]
    rfl
  · rw [← crossesLink_iff, Bool.not_eq_true, ← Bool.not_eq_true']
    exact List.mem_filter

/-- Settles O31: the timers, the pause and the timeout of a drain, and a lost link. -/
theorem networkFailuresAndDrains : Obligations.NetworkFailuresAndDrains := by
  unfold Obligations.NetworkFailuresAndDrains
  intro s p
  refine ⟨fun hd => ⟨fun node unit tag w => acts_networkOpTimeout hd, fun node n f => acts_mcHoldExpire hd, acts_drainPause hd,
    fun hs => acts_of_exec rfl (if_pos (by rw [hs, Bool.or_true]))⟩, fun hd => ?_, fun node port m => acts_linkDown⟩
  obtain ⟨h1, h2, h3⟩ := drain_stops_timers hd
  exact ⟨h1, h2, h3, fun node => acts_drainTimeout hd⟩

end Sys2Proof.Machine
end

section
/-! The matrix class at issue (R93 to R101, R107 to R110): an instruction whose checks find nothing joins the queue of 8. -/

namespace Sys2Proof.Machine

section
variable {p p' q : Panel} {c : Nat}

theorem mxPut_joins (op : MxKind) (hl : (p.core c).mxQ.length < 8) : p.mxPut c op =
    .done (p.setCore c { p.core c with mxQ := (p.core c).mxQ ++ [⟨op, (p.core c).q.seq, (p.core c).spec.isSome⟩] }) :=
  if_neg (Nat.not_le.2 hl)

/-- A group instruction whose body ends in the queue completes, and the engine takes what it can. -/
theorem mxIssue_joins {bad : Bool} {body : Panel → Core → Issued} {op : MxKind} (hi : p.canIssue c .issues = true)
    (hbad : bad = false) (hb : body p (p.core c) = p'.mxPut c op) (hl : (p'.core c).mxQ.length < 8)
    (hq : Completes p c (p'.setCore c { p'.core c with
      mxQ := (p'.core c).mxQ ++ [⟨op, (p'.core c).q.seq, (p'.core c).spec.isSome⟩] }) q) :
    p.mxIssue c bad body = q.mxAdvance c :=
  congrArg (Panel.mxAdvance · c) ((issue_ok hbad).trans (issue_done hi (hb.trans (mxPut_joins op hl)) hq))

end

/-- Each of the four matrix instructions is `Panel.mmaIssue` of its operands' orders. -/
theorem acts_mma {s : State} {c : Nat} {f : MmaForm} {i : Instr} {arA brB : Bool} {q : Panel}
    (hm : (i, arA, brB) ∈ ([(.mma c f, false, false), (.mmaAr c f, true, false), (.mmaBr c f, false, true),
      (.mmaArbr c f, true, true)] : List (Instr × Bool × Bool)))
    (hq : s.p.mmaIssue c f arA brB = q) : Acts i s (q.mxAdvance c) := by
  subst hq
  simp only [List.mem_cons, Prod.mk.injEq, List.not_mem_nil, or_false] at hm
  obtain ⟨rfl, rfl, rfl⟩ | ⟨rfl, rfl, rfl⟩ | ⟨rfl, rfl, rfl⟩ | ⟨rfl, rfl, rfl⟩ := hm
  all_goals exact acts_of_exec rfl rfl

/-- An operand or region meets the home of an open group (R89, R110). -/
def homeClash (k : Core) (c : Nat) (x : Desc) : Bool :=
  x.boxes.any fun bx => k.homeMeets none (boxOffset c bx).1 (boxOffset c bx).2

theorem homeClash_eq_false {k : Core} {c : Nat} {x : Desc}
    (h : ∀ bx ∈ x.boxes, k.homeMeets none (boxOffset c bx).1 (boxOffset c bx).2 = false) : homeClash k c x = false :=
  List.any_eq_false.2 fun bx hbx => Bool.eq_false_iff.1 (h bx hbx)

/-- The check of R90 on families finds nothing where an LA96 group has none yet, or that of the pass. -/
theorem family_suits {direct fam : Bool} {kind : Nat} {family : Option Bool}
    (h : direct = false → kind = 0 → family = none ∨ family = some fam) :
    (!direct && kind == kindLA96 && family.isSome && family != some fam) = false := by
  refine Bool.eq_false_iff.2 fun hbad => ?_
  simp only [Bool.and_eq_true, Bool.not_eq_true', beq_iff_eq, bne_iff_ne] at hbad
  obtain ⟨⟨⟨hdirect, hkind⟩, hsome⟩, hne⟩ := hbad
  rcases h hdirect hkind with hnone | hsame
  · simp [hnone] at hsome
  · exact hne hsame

/-- Settles O24: no check of `Panel.mmaIssue` finds anything, one after the other in its order. -/
theorem matrixPassesQueue : Obligations.MatrixPassesQueue := by
  unfold Obligations.MatrixPassesQueue
  intro s c f q i arA brB hm hi hhi hlo hadd p k a b d v steps fa fb kind op hl ha hb hgrp hdir hpa hpb hfa hfb hpair hkind
    hcapA hcapB hmxA hmxB hrowA hrowB hhome hclsA hclsB hq
  have hok : (f.rsvdHi != 0 || f.rsvdLo != 0 || (!f.direct && f.accAdd)) = false := by simpa [hhi, hlo] using hadd
  have hclash : ∀ x ∈ (if f.direct = true then [a, b, d] else [a, b]), homeClash k c x = false :=
    fun x hx => homeClash_eq_false (hhome x hx)
  have hca : homeClash k c a = false := hclash a (by split <;> simp)
  have hcb : homeClash k c b = false := hclash b (by split <;> simp)
  have hcd (h : f.direct = true) : homeClash k c d = false := hclash d (by simp [h])
  refine acts_mma hm ((issue_ok hok).trans (issue_done hi ((if_neg (Nat.not_le.2 hl)).trans ?_) hq))
  have hdesc : ¬ (!p.descOk a || !p.descOk b || (f.direct && !p.descOk d)) = true := by
    simpa [ha, hb] using fun h => (hdir h).1
  have hstate : ¬ (!f.direct && !v.isOpen) = true := by simpa using fun h => (hgrp h).1
  have hplace : ¬ (!operandPlaceOk c a || !operandPlaceOk c b || (f.direct && !directOk c d)) = true := by
    simpa [hpa, hpb] using fun h => (hdir h).2.1
  have hmatch : ¬ (fa ≠ a.fmt ∨ fb ≠ b.fmt) := by simp [hfa, hfb]
  have hfamily : ¬ (!pairOk fa fb || !kindTakes kind fa fb ||
      (!f.direct && kind == kindLA96 && v.family.isSome && v.family != some (fmtFamily fa))) = true := by
    simp [hpair, hkind, family_suits fun h => (hgrp h).2]
  have hsteps : ¬ (opCap a arA < steps ∨ opCap b brB < steps) := by omega
  have hrows : ¬ ((fmtMx fa && arA) || (fmtMx fb && brB) || decide (128 < opRows a arA) ||
      decide (128 < opRows b brB)) = true := by
    simpa [hrowA, hrowB] using And.intro hmxA hmxB
  have hhomes : ¬ (homeClash k c a || homeClash k c b || (f.direct && homeClash k c d)) = true := by simpa [hca, hcb] using hcd
  have hclass : ¬ (!p.passClassOk a arA steps || !p.passClassOk b brB steps || (f.direct && !p.sliceClassOk d)) = true := by
    simpa [hclsA, hclsB] using fun h => (hdir h).2.2
  exact (if_neg hdesc).trans ((if_neg hstate).trans ((if_neg hplace).trans ((if_neg hmatch).trans ((if_neg hfamily).trans
    ((if_neg hsteps).trans ((if_neg hrows).trans ((if_neg hhomes).trans (if_neg hclass))))))))

/-- Word n of a descriptor's bytes (R95). -/
def descWord (bs : List Byte) (n : Nat) : W64 := BitVec.ofNat 64 (ofBytes ((bs.drop (8 * n)).take 8))

/-- The group descriptor in 64 bytes (R95). -/
def GDesc.read (bs : List Byte) : GDesc :=
  ⟨descWord bs 0, descWord bs 1, descWord bs 2, descWord bs 3, descWord bs 4, descWord bs 5⟩

/-- What follows the load of the descriptor: GRP.OPEN's checks of its words and of its home (R98, R100). -/
theorem acts_grpOpen {s : State} {c : Nat} {f : GrpRegForm} {q : Panel} {x : List Byte × Bool × Panel}
    (hi : Issues s.p c .issues) (hf : f.rsvd = 0) (hl : (s.p.core c).mxQ.length < 8) (hu : (s.p.core c).unready f.r = false)
    (ho : ((s.p.core c).view f.gid.toNat).isOpen = false) (halign : ((s.p.core c).sreg f.r).toNat % 64 = 0)
    (hrange : ((s.p.core c).sreg f.r).toNat ≤ 0x3FFFC0) (hx : s.p.spLoad c ((s.p.core c).sreg f.r).toNat 64 = x)
    (hz : x.2.1 = false) (hok : (GDesc.read x.1).ok (descWord x.1 6) (descWord x.1 7) = true)
    (hhome : (s.p.core c).homeMeets (some f.gid.toNat) (GDesc.read x.1).home (homeBytes (GDesc.read x.1).kind) = false)
    (hl' : (x.2.2.core c).mxQ.length < 8)
    (hq : Completes s.p c (x.2.2.setCore c { x.2.2.core c with mxQ := (x.2.2.core c).mxQ ++
      [⟨.grpOpen f.gid.toNat (GDesc.read x.1), (x.2.2.core c).q.seq, (x.2.2.core c).spec.isSome⟩] }) q) :
    Acts (.grpOpen c f) s (q.mxAdvance c) := by
  refine acts_of_exec rfl (mxIssue_joins hi (by simp [hf]) ?_ hl' hq)
  refine (if_neg (by simp [hu, hl])).trans ((if_neg (by simp [ho])).trans ((if_neg (by omega)).trans ?_))
  rw [hx]
  exact (if_neg (Bool.eq_false_iff.1 hz)).trans ((if_neg (Bool.not_not_eq.2 hok)).trans (if_neg (Bool.eq_false_iff.1 hhome)))

/-- Settles O25: each instruction's checks pass, and `mxIssue_joins`. -/
theorem groupInstructionsQueue : Obligations.GroupInstructionsQueue := by
  unfold Obligations.GroupInstructionsQueue
  intro s c q hi hl
  have hroom : ¬ 8 ≤ (s.p.core c).mxQ.length := Nat.not_le.2 hl
  refine ⟨fun f hf hu ho halign hrange hz hd hh hl' hq => ?_, fun f hf ho hfam hout hq => ?_,
    fun f hf hu ho hk hq => ?_, fun f hf => ⟨fun hq => ?_, fun ho hq => ?_⟩, fun f hf hu hq => ?_⟩
  · exact acts_grpOpen hi hf hl hu ho halign hrange rfl hz hd hh hl' hq
  · refine acts_of_exec rfl (mxIssue_joins hi (by simp [hf]) ?_ hl hq)
    refine (if_neg hroom).trans ((if_neg (by simp [ho])).trans ((if_neg ?_).trans (if_neg ?_)))
    · simpa [kindLA96] using hfam
    · simpa using hout
  · refine acts_of_exec rfl (mxIssue_joins hi (by simp [hf]) ?_ hl hq)
    exact (if_neg (by simp [hu, hl])).trans (if_neg (by simp [ho, show ¬ kindF32 < _ from Nat.not_lt.2 hk]))
  · exact acts_of_exec rfl (mxIssue_joins hi (by simp [hf]) rfl hl hq)
  · exact acts_of_exec rfl (mxIssue_joins hi (by simp [hf]) ((if_neg hroom).trans (if_neg (by simp [ho]))) hl hq)
  · exact acts_of_exec rfl (mxIssue_joins hi (by simp [hf]) (if_neg (by simp [hu])) hl hq)

end Sys2Proof.Machine
end

section
/-! The events of the matrix engine (R102, R104, R107, R108, R111, R117), and what a pass that lands leaves (R87, R101, R102,
R114). -/

namespace Sys2Proof.Machine

/-! ### Maps that list no default -/

section
variable {V W : Type} {k : Nat}

theorem smGetD_above {m : SMap V} (h : smAbove k m) {i : Nat} (hi : i ≤ k) (d : V) : smGetD m i d = d := by
  rw [smGetD, smGet_above h hi, Option.getD_none]

theorem smGetD_cons {m : SMap V} (h : smAbove k m) (x d : V) (i : Nat) :
    smGetD ((k, x) :: m) i d = if i = k then x else smGetD m i d := by
  rcases Nat.lt_trichotomy i k with hi | rfl | hi
  · rw [if_neg hi.ne, smGetD_above h hi.le, smGetD, smGet, if_neg hi.ne', if_pos hi, Option.getD_none]
  · simp [smGetD, smGet]
  · rw [if_neg hi.ne', smGetD, smGet, if_neg hi.ne, if_neg hi.asymm, smGetD]

variable [DecidableEq W]

/-- The map under an entry, which is listed only where its value is not the default. -/
def smCons (d : W) (k : Nat) (x : W) (m : SMap W) : SMap W := if x = d then m else (k, x) :: m

theorem smGetD_smCons {m : SMap W} (h : smAbove k m) (x d : W) (i : Nat) :
    smGetD (smCons d k x m) i d = if i = k then x else smGetD m i d := by
  unfold smCons
  split
  case isFalse => exact smGetD_cons h x d i
  case isTrue hx =>
    split
    · rw [smGetD_above h (by omega), hx]
    · rfl

theorem smAbove_smCons {j : Nat} {m : SMap W} (hj : j < k) (h : smAbove j m) (x d : W) : smAbove j (smCons d k x m) := by
  unfold smCons
  split
  · exact h
  · exact List.forall_mem_cons.2 ⟨hj, h⟩

theorem smAbove_foldr_smCons {f : Nat → W} {d : W} {l : List Nat} (h : ∀ i ∈ l, k < i) :
    smAbove k (l.foldr (fun i => smCons d i (f i)) []) := by
  induction l with
  | nil => simp [smAbove]
  | cons i l ih => exact smAbove_smCons (h i (by simp)) (ih fun j hj => h j (List.mem_cons_of_mem _ hj)) _ _

/-- The map listed from a function over ascending keys reads there as the function. -/
theorem smGetD_foldr_smCons {f : Nat → W} {d : W} {l : List Nat} (hl : l.Pairwise (· < ·)) {i : Nat} (hi : i ∈ l) :
    smGetD (l.foldr (fun i => smCons d i (f i)) []) i d = f i := by
  induction l with
  | nil => cases hi
  | cons j l ih =>
    obtain ⟨hj, hl⟩ := List.pairwise_cons.1 hl
    rw [List.foldr_cons, smGetD_smCons (smAbove_foldr_smCons hj)]
    split
    case isTrue h => rw [h]
    case isFalse h => exact ih hl ((List.mem_cons.1 hi).resolve_left h)

/-- The map of a function of the values, listing nothing where it gives the default. -/
def smMap (f : V → W) (d : W) (m : SMap V) : SMap W := m.filterMap fun e => if f e.2 = d then none else some (e.1, f e.2)

theorem smMap_cons (f : V → W) (d : W) (x : V) (m : SMap V) : smMap f d ((k, x) :: m) = smCons d k (f x) (smMap f d m) := by
  by_cases h : f x = d <;> simp [smMap, smCons, h]

theorem smAbove_smMap {m : SMap V} (h : smAbove k m) (f : V → W) (d : W) : smAbove k (smMap f d m) := by
  induction m with
  | nil => simp [smMap, smAbove]
  | cons e m ih =>
    obtain ⟨he, hm⟩ := List.forall_mem_cons.1 h
    rw [smMap_cons]
    exact smAbove_smCons he (ih hm) _ _

/-- Where the function takes default to default it commutes with reading. -/
theorem smGetD_smMap {m : SMap V} (hs : smSorted m = true) {f : V → W} {v : V} {d : W} (hf : f v = d) (i : Nat) :
    smGetD (smMap f d m) i d = f (smGetD m i v) := by
  induction m with
  | nil => exact hf.symm
  | cons e m ih =>
    obtain ⟨k, x⟩ := e
    obtain ⟨hk, hm⟩ := (smSorted_cons k x m).1 hs
    rw [smMap_cons, smGetD_smCons (smAbove_smMap hk f d), smGetD_cons hk, ih hm, apply_ite f]

end

/-! ### A pass that lands -/

@[simp] theorem Core.freePos_groups (k : Core) (g : Nat) : (k.freePos g).groups = k.groups := by
  unfold Core.freePos
  dsimp only
  split <;> split <;> rfl

@[simp] theorem Core.setPos_groups (k : Core) (i : Nat) (g : Option Nat) : (k.setPos i g).groups = k.groups := by
  unfold Core.setPos
  split <;> rfl

theorem Core.group_setGroup {k : Core} (hs : smSorted k.groups = true) (g : Nat) (x : Group) : (k.setGroup g x).group g = x :=
  smGetD_smPut_same hs _ _ _

theorem Core.group_setGroup_ne {k : Core} (hs : smSorted k.groups = true) {g g' : Nat} (x : Group) (h : g' ≠ g) :
    (k.setGroup g x).group g' = k.group g' :=
  smGetD_smPut_other hs _ _ _ h

/-- A pass that lands writes its group and no other, and leaves the scalar side. -/
theorem landPass_leaves {k : Core} (hs : smSorted k.groups = true) (r : Running) (g : Nat) :
    let x := k.group g
    let y := (k.landPass r g).group g
    y.state = .resident ∧ y.tile = r.tile ∧ y.passes = min 0xFFFF (x.passes + 1) ∧ y.fresh = false ∧
      y.poison = (x.poison || r.poison) ∧ y.overflow = (x.overflow || r.overflow) ∧
      y.position = (if x.state = .resident then x.position else r.position) ∧ y.desc = x.desc ∧
      (∀ g', g' ≠ g → (k.landPass r g).group g' = k.group g') ∧ (k.landPass r g).q = k.q := by
  intro x y
  unfold y Core.landPass
  extract_lets _ k1 _ k2
  have hgroups : k1.groups = k.groups := by unfold k1; split <;> simp
  have hq : k1.q = k.q := by unfold k1; split <;> simp
  have hs1 : smSorted k1.groups = true := hgroups ▸ hs
  have hy : k2.group g = _ := Core.group_setGroup hs1 g _
  have hother (g' : Nat) (h : g' ≠ g) : k2.group g' = k.group g' :=
    (Core.group_setGroup_ne hs1 _ h).trans (by rw [Core.group, hgroups]; rfl)
  exact ⟨congrArg Group.state hy, congrArg Group.tile hy, congrArg Group.passes hy, congrArg Group.fresh hy,
    congrArg Group.poison hy, congrArg Group.overflow hy, congrArg Group.position hy, (congrArg Group.desc hy).trans rfl,
    hother, hq⟩

/-! ### Passes start -/

/-- The pass at the head of the queue has started in a position: it leaves the queue for those that run. -/
def PassStarts (p : Panel) (c : Nat) (o : MxOp) (rest : List MxOp) (pos : Nat) (q : Panel) : Prop :=
  ∃ r : Running, r.op = o ∧ r.position = pos ∧
    (p.wf → q.core c = { p.core c with mxQ := rest, running := (p.core c).running ++ [r], active := pos })

section
variable {p : Panel} {c g n pos : Nat} {o : MxOp} {rest : List MxOp} {wa wb wd : W256} {x y add : Bool} {fa fb : BitVec 4}

theorem startPass_pass (ho : o.op = .pass g wa wb x y fa fb n) (hp : (p.core c).passPosition o g = some pos) :
    PassStarts p c o rest pos (p.startPass c [] rest o) := by
  unfold Panel.startPass
  simp only [ho, hp]
  exact ⟨_, rfl, rfl, fun h => Panel.core_setCore (Panel.wf_operand (Panel.wf_operand h)).2.1 c _⟩

theorem startPass_direct (ho : o.op = .direct wd wa wb x y fa fb n add) (hs : o.spec = false)
    (hr : (p.core c).directRuns = false) (hp : (p.core c).pos0 = some directHolder ∨ (p.core c).pos1 = some directHolder) :
    PassStarts p c o rest (if (p.core c).pos0 = some directHolder then 1 else 2) (p.startPass c [] rest o) := by
  have hpos : (if (p.core c).pos0 = some directHolder then 1 else if (p.core c).pos1 = some directHolder then 2 else 0) =
      if (p.core c).pos0 = some directHolder then 1 else 2 := by
    split
    · rfl
    · exact if_pos (hp.resolve_left ‹_›)
  have hne : ¬ (if (p.core c).pos0 = some directHolder then 1 else 2) = 0 := by split <;> decide
  unfold Panel.startPass
  simp only [ho, hs, hr, Bool.or_false, Bool.false_eq_true, if_false, hpos, if_neg hne]
  exact ⟨_, rfl, rfl, fun h => Panel.core_setCore (Panel.wf_operand (Panel.wf_operand
    (Panel.wf_ite_snd_snd (Panel.wf_readRegion h) h))).2.1 c _⟩

end

section
variable {s : State} {c : Nat}

theorem acts_matrixPassStart {pos : Nat} {o : MxOp} {rest : List MxOp} (hq : (s.p.core c).mxQ = o :: rest)
    (hs : splitPass (o :: rest) = some ([], o, rest)) (h : PassStarts s.p c o rest pos (s.p.startPass c [] rest o)) :
    ∃ (q : Panel) (r : Running), Acts (.matrixPassStart c) s (q.mxAdvance c) ∧ r.op = o ∧ r.position = pos ∧
      (s.p.wf → q.core c = { s.p.core c with mxQ := rest, running := (s.p.core c).running ++ [r], active := pos }) := by
  obtain ⟨r, hr, hpos, hk⟩ := h
  refine ⟨_, r, acts_of_exec rfl ?_, hr, hpos, hk⟩
  rw [hq, hs]

/-! ### Passes end -/

section
variable {r : Running} {rest : List Running} (hr : (s.p.core c).running = r :: rest) (hs : r.op.spec = false)
include hr hs

theorem acts_passDone {g n : Nat} {a b : W256} {x y : Bool} {fa fb : BitVec 4} (ho : r.op.op = .pass g a b x y fa fb n) :
    let k := s.p.core c
    Acts (.matrixPassDone c) s ((s.p.setCore c (if (k.group g).state = .closed then { k with running := rest }
      else ({ k with running := rest }).landPass r g)).mxAdvance c) := by
  refine acts_of_exec rfl ?_
  simp only [hr, hs, ho, Bool.false_eq_true, if_false]
  rfl

theorem acts_directDone {n : Nat} {wd a b : W256} {x y add : Bool} {fa fb : BitVec 4}
    (ho : r.op.op = .direct wd a b x y fa fb n add) :
    let k := s.p.core c
    Acts (.matrixPassDone c) s (((List.range 128).foldl (fun (p : Panel) m => p.writeBlocks ((descOf wd).row m 0).toNat
      ((List.range 128).flatMap fun i => toBytes 4 (smGetD r.tile (m * 128 + i) 0).toNat) r.poison)
        (s.p.setCore c (({ k with running := rest }).freePos directHolder))).mxAdvance c) := by
  refine acts_of_exec rfl ?_
  simp only [hr, hs, ho, Bool.false_eq_true, if_false]

end

/-! ### Spill and fill -/

/-- Bits [103:96] of a cell (R104). -/
def guardByte (v : BitVec 104) : BitVec 8 := BitVec.ofNat 8 (v.toNat / 2 ^ 96)

/-- The guard store of a spilled group: the top byte of each LA96 cell (R104). -/
def Group.spilledGuard (x : Group) : SMap (BitVec 8) :=
  if x.desc.kind = kindLA96 then smMap guardByte 0 x.tile else []

theorem Group.smGetD_spilledGuard {x : Group} (hk : x.desc.kind = 0) (hs : smSorted x.tile = true) (i : Nat) :
    smGetD x.spilledGuard i 0 = guardByte (smGetD x.tile i 0) := by
  rw [Group.spilledGuard, if_pos (show x.desc.kind = kindLA96 from hk)]
  exact smGetD_smMap (f := guardByte) (v := 0) (d := 0) hs rfl i

theorem acts_groupSpillDone {g : Nat} (h : ((s.p.core c).group g).state = .spilling) :
    let x := (s.p.core c).group g
    let p' := s.p.writeBlocks (scratchPa c x.desc.home)
      ((List.range 16384).flatMap fun i => toBytes (homeBytes x.desc.kind / 16384) (smGetD x.tile i 0).toNat) false
    Acts (.groupSpillDone c g) s ((p'.modCore c fun k' => (k'.freePos g).setGroup g { x with
      state := .spilled, position := 0, tile := [], guard := x.spilledGuard }).mxAdvance c) :=
  acts_of_exec rfl (if_neg (not_not_intro h))

/-- A cell of a filled group: its bytes at home, cb of them, under its byte of the guard store (R104). -/
def filledCell (cb v : Nat) (guard : SMap (BitVec 8)) (i : Nat) : BitVec 104 :=
  BitVec.ofNat 104 (v / 2 ^ (8 * cb * i) % 2 ^ (8 * cb) + (smGetD guard i 0).toNat * 2 ^ 96)

/-- The tile of a filled group. -/
def filledTile (cb v : Nat) (guard : SMap (BitVec 8)) : SMap (BitVec 104) :=
  (List.range 16384).foldr (fun i => smCons 0 i (filledCell cb v guard i)) []

theorem smGetD_filledTile {cb v i : Nat} {guard : SMap (BitVec 8)} (hi : i < 16384) :
    smGetD (filledTile cb v guard) i 0 = filledCell cb v guard i :=
  smGetD_foldr_smCons List.pairwise_lt_range (List.mem_range.2 hi)

theorem acts_groupFillDone {g : Nat} (h : ((s.p.core c).group g).state = .filling) {y : List Byte × Bool × Panel}
    (hy : s.p.readBlocks (scratchPa c ((s.p.core c).group g).desc.home) (homeBytes ((s.p.core c).group g).desc.kind) = y) :
    let x := (s.p.core c).group g
    Acts (.groupFillDone c g) s ((y.2.2.modCore c fun k' => k'.setGroup g { x with
      state := .resident, tile := filledTile (homeBytes x.desc.kind / 16384) (ofBytes y.1) x.guard,
      poison := x.poison || y.2.1 }).mxAdvance c) := by
  refine acts_of_exec rfl ((if_neg (not_not_intro h)).trans ?_)
  extract_lets n cb
  split
  rename_i bs pz p he
  obtain rfl := hy.symm.trans he
  rfl

/-! ### Close and send -/

theorem acts_groupCloseDone {o : MxOp} {rest : List MxOp} {g : Nat} {tn : BitVec 5} {inc : BitVec 16}
    (hc : (s.p.core c).closing = o :: rest) (ho : o.op = .grpClose g tn inc) :
    Acts (.groupCloseDone c) s
      (((s.p.setCore c { s.p.core c with closing := rest }).closeDone c g tn inc o.seq).mxAdvance c) := by
  refine acts_of_exec rfl ?_
  simp only [hc, List.find?_cons, ho, Panel.modCore, List.erase_cons_head]

theorem length_flatMap_toBytes (n w : Nat) (f : Nat → Nat) :
    ((List.range n).flatMap fun i => toBytes w (f i)).length = n * w := by
  simp [List.length_flatMap]

theorem contribBytes_length (la : Bool) (cell : Nat → Nat) (nf : Nat → Bool) (n0 : Nat) :
    (contribBytes la cell nf n0).length = 512 := by
  cases la with
  | false => exact length_flatMap_toBytes 128 4 cell
  | true => exact length_flatMap_toBytes 32 16 fun i => cell (n0 + i) + b2n (nf (n0 + i)) * 2 ^ 104

/-- The contribution packets of the group that an ACC.SEND sends (R108, R235). -/
def Panel.sentPackets (p : Panel) (c g : Nat) (o : MxOp) (h : W64) : List Packet :=
  let x := (p.core c).group g
  let la := x.desc.kind == kindLA96
  contribPackets (c / 16) (c % 16) (((p.net.waiting.find? fun w => w.kind == .send c o.seq).map (·.tag)).getD 0) h x.desc.kind
    (bits x.desc.w0.toNat 21 12) (x.family == some true) (la && x.family.isNone) x.poison
    (fun m n => (smGetD x.tile (m * 128 + n) 0).toNat) (fun m n => la && (x.nfRow.getLsbD m || x.nfCol.getLsbD n))

section
variable {p : Panel} {g : Nat} {o : MxOp} {h : W64}

theorem sentPackets_length : (p.sentPackets c g o h).length = 128 * if ((p.core c).group g).desc.kind = 0 then 4 else 1 := by
  simp only [Panel.sentPackets, contribPackets, List.length_flatMap, List.length_map, List.map_const', List.length_range,
    List.sum_replicate, beq_iff_eq, smul_eq_mul, kindLA96]

theorem sentPackets_to_handle {m : Packet} (hm : m ∈ p.sentPackets c g o h) :
    m.opcode = 0x10 ∧ m.dstNode.toNat = h.toNat % 128 ∧ m.payload.length = 512 := by
  unfold Panel.sentPackets contribPackets at hm
  extract_lets at hm
  obtain ⟨row, -, hrow⟩ := List.mem_flatMap.1 hm
  obtain ⟨block, -, rfl⟩ := List.mem_map.1 hrow
  refine ⟨rfl, ?_, ?_⟩
  · show (BitVec.ofNat 7 (bits h.toNat 6 0)).toNat = _
    rw [BitVec.toNat_ofNat, bits_eq]
    omega
  · dsimp only
    exact contribBytes_length _ _ _ _

end

theorem acts_accSendAccepted {o : MxOp} {rest : List MxOp} {g : Nat} {h : W64} {tn : BitVec 5} {inc : BitVec 16}
    (hc : (s.p.core c).closing = o :: rest) (ho : o.op = .accSend g h tn inc) :
    let q := (((s.p.sentPackets c g o h).foldl (fun p m => p.inject (c / 16) m) s.p).unawait
      fun w => w.kind == .send c o.seq).modCore c fun k => ({ k with closing := k.closing.erase o }).closeGroup g
    Acts (.accSendAccepted c) s ((if inc = 0 then q else q.tokenAdd c tn.toNat inc.toNat).mxAdvance c) := by
  refine acts_of_exec rfl ?_
  simp only [hc, List.find?_cons, ho]
  rfl

end

/-- Settles O26: a lemma per event, and `landPass_leaves`. -/
theorem matrixEngineEvents : Obligations.MatrixEngineEvents := by
  unfold Obligations.MatrixEngineEvents
  refine ⟨fun s c => ⟨?_, ?_, fun r rest hr hs => ⟨fun g a b x y fa fb n => acts_passDone hr hs,
    fun wd a b x y fa fb n add => acts_directDone hr hs⟩, fun g h => ?_, fun g h => ?_,
    fun o rest g tn inc => acts_groupCloseDone, fun o rest g h tn inc hc ho => ?_⟩,
    fun k r g hs => landPass_leaves hs r g⟩
  · exact fun o rest g wa wb x y fa fb n pos hq ho hp =>
      acts_matrixPassStart hq (by rw [splitPass, ho]) (startPass_pass ho hp)
  · exact fun o rest wd wa wb x y fa fb n add hq ho hs hr hp =>
      acts_matrixPassStart hq (by rw [splitPass, ho]) (startPass_direct ho hs hr hp)
  · exact ⟨_, fun hk => if_neg hk, Group.smGetD_spilledGuard, acts_groupSpillDone h⟩
  · exact ⟨_, fun i => smGetD_filledTile, acts_groupFillDone h rfl⟩
  · exact ⟨_, fun m => sentPackets_to_handle, sentPackets_length, acts_accSendAccepted hc ho⟩

end Sys2Proof.Machine
end

section
/-! The vector engine (R71, R139 to R142, R145, R152, R153): an instruction whose checks find nothing joins the queue of 16, and the
operation at the head takes effect. -/

namespace Sys2Proof.Machine

/-! ### Issue -/

/-- Each of the twenty vector instructions is `Panel.vecIssue` of its operation. -/
theorem acts_vec {s : State} {c : Nat} {f : VecForm} {i : Instr} {o : VOp} {q : Panel}
    (hm : (i, o) ∈ ([(.vadd c f, .vadd), (.vsub c f, .vsub), (.vmul c f, .vmul), (.vfma c f, .vfma), (.vmin c f, .vmin),
      (.vmax c f, .vmax), (.vcmp c f, .vcmp), (.vsel c f, .vsel), (.vlogic c f, .vlogic), (.vcvt c f, .vcvt),
      (.vsf c f, .vsf), (.vred c f, .vred), (.vscan c f, .vscan), (.vsort c f, .vsort), (.vbcast c f, .vbcast),
      (.vextr c f, .vextr), (.vld c f, .vld), (.vst c f, .vst), (.rngGen c f, .rng), (.vmxq c f, .vmxq)]
        : List (Instr × VOp)))
    (hq : s.p.vecIssue c o f = q) : Acts i s q := by
  have he : exec i s = .next (s.upd fun p => p.vecIssue c o f) := by
    simp only [List.mem_cons, Prod.mk.injEq, List.not_mem_nil, or_false] at hm
    obtain ⟨rfl, rfl⟩ | ⟨rfl, rfl⟩ | ⟨rfl, rfl⟩ | ⟨rfl, rfl⟩ | ⟨rfl, rfl⟩ | ⟨rfl, rfl⟩ | ⟨rfl, rfl⟩ | ⟨rfl, rfl⟩ | ⟨rfl, rfl⟩ |
      ⟨rfl, rfl⟩ | ⟨rfl, rfl⟩ | ⟨rfl, rfl⟩ | ⟨rfl, rfl⟩ | ⟨rfl, rfl⟩ | ⟨rfl, rfl⟩ | ⟨rfl, rfl⟩ | ⟨rfl, rfl⟩ | ⟨rfl, rfl⟩ |
      ⟨rfl, rfl⟩ | ⟨rfl, rfl⟩ := hm
    all_goals rfl
  exact acts_of_exec he hq

/-- An instruction whose checks find nothing, with room in the queue, joins it with what it captures; a VLD or VST where its place is
allowed. Here d is the descriptor that detail[26:23] names. -/
theorem vecIssue_joins {p q : Panel} {c : Nat} {o : VOp} {f : VecForm} {d : W256}
    (hdn : (p.core c).dreg (BitVec.ofNat 4 (bits f.detail.toNat 26 23)) = d) (hi : p.canIssue c .issues = true)
    (hf : vecIllegal o f = false) (hr : ∀ r ∈ vecScalars o f, (p.core c).unready r = false)
    (hd : o = .vextr → (p.core c).unready f.vd = false) (hl : (p.core c).vecQ.length < 16)
    (hp : o = .vld ∨ o = .vst →
      ∃ x, p.vecPlace c f (descOf d) ((p.core c).sreg f.va).toNat ((p.core c).sreg f.vb).toNat = .inl x)
    (hq : Completes p c (p.setCore c { p.core c with vecQ := (p.core c).vecQ ++ [⟨o, f, (p.core c).sreg f.va, (p.core c).sreg f.vb,
      (p.core c).sreg f.vc, d, (p.core c).q.seq, (p.core c).spec.isSome⟩] }) q) :
    p.vecIssue c o f = q := by
  subst hdn
  have hready : ¬ ((vecScalars o f).any (p.core c).unready || (o == .vextr && (p.core c).unready f.vd) ||
      decide (16 ≤ (p.core c).vecQ.length)) = true := by
    simpa [hl] using And.intro hr hd
  refine (issue_ok hf).trans (issue_done hi ((if_neg hready).trans ?_) hq)
  extract_lets dn go
  split
  case isFalse => rfl
  case isTrue hmem =>
    obtain ⟨x, hx⟩ := hp (by simpa using hmem)
    rw [hx]

/-- Settles O22: each instruction is `Panel.vecIssue` of its operation, which joins the queue. -/
theorem vectorInstructionsQueue : Obligations.VectorInstructionsQueue := by
  unfold Obligations.VectorInstructionsQueue
  intro s c f q i o hm hi hf k d hr hd hl hp hq
  have hdn : k.dreg (BitVec.ofNat 4 (bits f.detail.toNat 26 23)) = d :=
    congrArg (fun n => k.dreg (BitVec.ofNat 4 n)) (bits_eq f.detail.toNat 26 23)
  exact acts_vec hm (vecIssue_joins hdn hi hf hr hd hl hp hq)

/-! ### Execution -/

section
variable {p : Panel} {c : Nat} {o : VecOp}

/-- An operation that writes one vector register writes its lanes there, poisoned if a register it read is (R152). -/
theorem vecRun_writes (h : o.op ∈ [VOp.vadd, .vsub, .vmul, .vfma, .vmin, .vmax, .vcmp, .vsel, .vlogic, .vcvt, .vsf, .vred, .vscan,
      .vbcast, .rng]) :
    p.vecRun c o = p.setCore c ((p.core c).setV o.f.vd (o.result (p.core c)) (o.reads.any (p.core c).vpoisoned)) := by
  unfold Panel.vecRun
  cases ho : o.op
  case vextr | vld | vst | vsort | vmxq => simp [ho] at h
  all_goals rfl

/-- VEXTR of a poisoned register raises ENGINE_FAULT with reason VX_POISON alone (R152). -/
theorem vecRun_vextr_poisoned (ho : o.op = .vextr) (hz : o.reads.any (p.core c).vpoisoned = true) :
    p.vecRun c o = p.raiseAsync c 0x14 (0x51 * 2 ^ 56 + o.seq % 2 ^ 48) := by
  simp only [Panel.vecRun, ho, hz, if_true, asyncEngine]

theorem acts_vectorOpDone {s : State} {rest : List VecOp} (hq : (s.p.core c).vecQ = o :: rest) (ho : o.spec = false) :
    Acts (.vectorOpDone c) s ((s.p.vecRun c o).modCore c fun k => { k with vecQ := rest }) := by
  refine acts_of_exec rfl ?_
  simp only [hq, ho, Bool.false_eq_true, if_false]

end

/-- Settles O23: the end of the head of the queue, and what a run does by its operation. -/
theorem vectorOperationsTakeEffect : Obligations.VectorOperationsTakeEffect := by
  unfold Obligations.VectorOperationsTakeEffect
  exact fun s c o rest hq ho => ⟨acts_vectorOpDone hq ho, vecRun_writes, vecRun_vextr_poisoned⟩

end Sys2Proof.Machine
end

section
/-! Scratchpad and cluster memory (R157, R167, R169, R171, R172, R175): grants, scrubs, fills and the end of a clear; the epoch of a
remote cache; the partition of a cluster memory. -/

namespace Sys2Proof.Machine

/-! ### Lines of a cluster's cache -/

theorem mem_of_smGet {V : Type} {m : SMap V} {i : Nat} {x : V} (h : smGet m i = some x) : (i, x) ∈ m := by
  induction m with
  | nil => cases h
  | cons e m ih =>
    obtain ⟨k, v⟩ := e
    simp only [smGet] at h
    split at h
    next hk =>
      obtain rfl := Option.some.inj h
      exact hk ▸ List.mem_cons_self
    next =>
      split at h
      · cases h
      · exact List.mem_cons_of_mem _ (ih h)

theorem smGet_smFilter_dropped {V : Type} {m : SMap V} {f : Nat → Bool} {i : Nat} (hf : f i = false) (x : V) :
    smGet (smFilter m f) i ≠ some x := fun h => by
  have hi : f i = true := (List.mem_filter.1 (mem_of_smGet h)).2
  simp [hf] at hi

theorem rcKey_cluster (die cl : Nat) {line : Nat} (h : line < 2 ^ 48) : rcKey die cl line / 2 ^ 48 = die * 2 + cl := by
  unfold rcKey
  omega

/-- A clear of a cluster's lines leaves none of them (R167, R172). -/
theorem smGet_cleared_rcKey {V : Type} (m : SMap V) (die cl : Nat) {line : Nat} (h : line < 2 ^ 48) (x : V) :
    smGet (smFilter m fun k => k / 2 ^ 48 != die * 2 + cl) (rcKey die cl line) ≠ some x :=
  smGet_smFilter_dropped (f := fun k => k / 2 ^ 48 != die * 2 + cl) (bne_eq_false_iff_eq.2 (rcKey_cluster die cl h)) x

section
variable {p : Panel} {die cl : Nat}

theorem rcTakes_iff {epoch : Nat} : p.rcTakes die cl epoch = true ↔
    epoch = p.fget F.CD_RC_EPOCH_epoch die cl ∧ p.flag F.CD_RC_EPOCH_clearing die cl = false ∧ 0 < p.rcBytes die cl := by
  simp [Panel.rcTakes, and_assoc]

/-! ### The epoch -/

theorem advanceEpoch_below (h : p.fget F.CD_RC_EPOCH_epoch die cl < 65535) :
    p.advanceEpoch die cl 1 = p.fput F.CD_RC_EPOCH_epoch (p.fget F.CD_RC_EPOCH_epoch die cl + 1) die cl :=
  if_pos (show _ + 1 ≤ 0xFFFF by omega)

theorem advanceEpoch_carry (h : p.fget F.CD_RC_EPOCH_epoch die cl = 65535) :
    p.advanceEpoch die cl 1 =
      let q := (p.fput F.CD_RC_EPOCH_epoch 65536 die cl).fput F.CD_RC_EPOCH_clearing 1 die cl
      { q with st := { q.st with rc := smFilter q.st.rc fun k => k / 2 ^ 48 != die * 2 + cl } } := by
  simp [Panel.advanceEpoch, h]

theorem advanceEpoch_below_effect (hp : p.wf) (h : p.fget F.CD_RC_EPOCH_epoch die cl < 65535) :
    let q := p.advanceEpoch die cl 1
    q.fget F.CD_RC_EPOCH_epoch die cl = p.fget F.CD_RC_EPOCH_epoch die cl + 1 ∧ q.st = p.st ∧
      q.fget F.CD_RC_EPOCH_clearing die cl = p.fget F.CD_RC_EPOCH_clearing die cl := by
  intro q
  have hq : q = _ := advanceEpoch_below h
  rw [hq]
  exact ⟨(Panel.fget_fput hp.1 _ _ _ _ _ (by decide)).trans (Nat.mod_eq_of_lt (show _ + 1 < 65536 by omega)), rfl,
    Panel.fget_fput_field hp.1 F.CD_RC_EPOCH_epoch _ _ _ _ _ rfl (by decide) (by decide) (by decide)⟩

theorem advanceEpoch_carry_effect (hp : p.wf) (h : p.fget F.CD_RC_EPOCH_epoch die cl = 65535) :
    let q := p.advanceEpoch die cl 1
    q.fget F.CD_RC_EPOCH_epoch die cl = 0 ∧ q.fget F.CD_RC_EPOCH_clearing die cl = 1 ∧
      ∀ line l, line < 2 ^ 48 → smGet q.st.rc (rcKey die cl line) ≠ some l := by
  intro q
  have hq : q = _ := advanceEpoch_carry h
  have he := Panel.fget_fput hp.1 F.CD_RC_EPOCH_epoch 65536 die cl 0 (by decide)
  have hs := Panel.sorted_fput hp.1 F.CD_RC_EPOCH_epoch 65536 die cl 0
  rw [hq]
  refine ⟨?_, Panel.fget_fput hs F.CD_RC_EPOCH_clearing 1 die cl 0 (by decide), fun line l hl => smGet_cleared_rcKey _ die cl hl l⟩
  exact (Panel.fget_fput_field hs F.CD_RC_EPOCH_clearing F.CD_RC_EPOCH_epoch 1 die cl 0 rfl (by decide) (by decide)
    (by decide)).trans he

theorem advanceEpoch_effect (hp : p.wf) (die cl : Nat) :
    let e := p.fget F.CD_RC_EPOCH_epoch die cl
    let q := p.advanceEpoch die cl 1
    q.fget F.CD_RC_EPOCH_epoch die cl = (e + 1) % 65536 ∧
    (e < 65535 → q.st = p.st ∧ q.fget F.CD_RC_EPOCH_clearing die cl = p.fget F.CD_RC_EPOCH_clearing die cl) ∧
    (e = 65535 → q.fget F.CD_RC_EPOCH_clearing die cl = 1 ∧
      ∀ line l, line < 2 ^ 48 → smGet q.st.rc (rcKey die cl line) ≠ some l) := by
  intro e q
  have hlt : e < 65536 := Panel.fget_lt p F.CD_RC_EPOCH_epoch die cl 0
  obtain hb | hc : e < 65535 ∨ e = 65535 := by omega
  · obtain ⟨he, hst, hcl⟩ := advanceEpoch_below_effect hp hb
    exact ⟨he.trans (by omega), fun _ => ⟨hst, hcl⟩, fun hc => by omega⟩
  · obtain ⟨he, hcl, hrc⟩ := advanceEpoch_carry_effect hp hc
    exact ⟨he.trans (by omega), fun hb => by omega, fun _ => ⟨hcl, hrc⟩⟩

/-! ### Partition writes -/

/-- What a write of CD_CMEM_PART_c needs to be accepted (R167). -/
def PartOk (p : Panel) (die cl : Nat) (v : W64) : Prop :=
  F.CD_CMEM_PART_rc_mib.read v + F.CD_CMEM_PART_kv_mib.read v ≤ 128 ∧ F.CD_CMEM_PART_rc_mib.read v ≤ 64 ∧
    (∀ i, i < 8 → p.halted (die * 16 + cl * 8 + i) = true) ∧
    p.flag F.RQE_CONTROL_enable 0 = false ∧ p.flag F.RQE_CONTROL_enable 3 = false

/-- The register of an accepted partition write: the sizes it gives, and no refusal. -/
def Panel.putSizes (p : Panel) (die cl rc kv : Nat) : Panel :=
  ((p.fput F.CD_CMEM_PART_rc_mib rc die cl).fput F.CD_CMEM_PART_kv_mib kv die cl).fput F.CD_CMEM_PART_refused 0 die cl

/-- The loss of a cluster memory's contents (R167): its cache holds no line and the rest is undefined. -/
def Panel.loseCmem (p : Panel) (die cl : Nat) : Panel :=
  Panel.markUndef { p with st := { p.st with rc := smFilter p.st.rc fun k => k / 2 ^ 48 != die * 2 + cl } } [die * 2 + cl]

theorem cmemPartWrite_eq (v : W64) [Decidable (PartOk p die cl v)] : p.cmemPartWrite die cl v =
    if PartOk p die cl v then
      (p.putSizes die cl (F.CD_CMEM_PART_rc_mib.read v) (F.CD_CMEM_PART_kv_mib.read v)).loseCmem die cl
    else p.fput F.CD_CMEM_PART_refused 1 die cl := by
  unfold Panel.cmemPartWrite
  refine ite_congr (propext ?_) (fun _ => rfl) fun _ => rfl
  simp [PartOk]

theorem putSizes_fields (hp : p.wf) (rc kv : Nat) :
    let q := p.putSizes die cl rc kv
    q.fget F.CD_CMEM_PART_rc_mib die cl = rc % 2 ^ 7 ∧ q.fget F.CD_CMEM_PART_kv_mib die cl = kv % 2 ^ 8 ∧
      q.fget F.CD_CMEM_PART_refused die cl = 0 := by
  have h1 := Panel.sorted_fput hp.1 F.CD_CMEM_PART_rc_mib rc die cl 0
  have h2 := Panel.sorted_fput h1 F.CD_CMEM_PART_kv_mib kv die cl 0
  have hk := Panel.fget_fput h1 F.CD_CMEM_PART_kv_mib kv die cl 0 (by decide)
  have hr := (Panel.fget_fput_field h1 F.CD_CMEM_PART_kv_mib F.CD_CMEM_PART_rc_mib kv die cl 0 rfl (by decide) (by decide)
    (by decide)).trans (Panel.fget_fput hp.1 F.CD_CMEM_PART_rc_mib rc die cl 0 (by decide))
  have keeps (g : RField) := Panel.fget_fput_field h2 F.CD_CMEM_PART_refused g 0 die cl 0
  exact ⟨(keeps F.CD_CMEM_PART_rc_mib rfl (by decide) (by decide) (by decide)).trans hr,
    (keeps F.CD_CMEM_PART_kv_mib rfl (by decide) (by decide) (by decide)).trans hk,
    Panel.fget_fput h2 F.CD_CMEM_PART_refused 0 die cl 0 (by decide)⟩

theorem fget_loseCmem (f : RField) (u i j : Nat) : (p.loseCmem die cl).fget f u i j = p.fget f u i j :=
  Panel.fget_congr rfl f u i j

theorem loseCmem_lost (p : Panel) (die cl : Nat) :
    (∀ line l, line < 2 ^ 48 → smGet (p.loseCmem die cl).st.rc (rcKey die cl line) ≠ some l) ∧
      smGet (p.loseCmem die cl).st.undef (die * 2 + cl) = some [] :=
  ⟨fun _ l hl => smGet_cleared_rcKey _ die cl hl l, smGet_smSet_same _ _ _⟩

end

/-! ### Commands -/

/-- What the return of a line that can be read leaves: clean data goes to the cache, where its epoch still holds, and poisoned data
does not (R171, R175). -/
def Panel.lineReturns (p : Panel) (die cl line epoch : Nat) : Panel :=
  let x := p.readTagged (line * 256) 256
  if x.1.any (·.2) then x.2
  else
    let q := x.2.rcInstall die cl line epoch (x.1.map (·.1))
    if x.2.rcTakes die cl epoch then q.fillMissed die cl line else q

section
variable {s : State} {die cl : Nat} (hd : s.p.hasDie die = true) (hc : cl < 2)
include hd hc

theorem cluster_guard : (s.p.hasDie die && decide (cl < 2)) = true := by simp [hd, hc]

theorem acts_cmemScrubTick (he : s.p.flag F.CD_CMEM_SCRUB_enable die cl = true) :
    Acts (.cmemScrubTick die cl) s (s.p.scrubCmem die cl) :=
  acts_of_exec rfl (if_pos (by simp [hd, hc, he]))

theorem acts_rcEpochClearDone : Acts (.rcEpochClearDone die cl) s (s.p.fput F.CD_RC_EPOCH_clearing 0 die cl) :=
  acts_of_exec rfl (if_pos (cluster_guard hd hc))

theorem acts_rcEpochAdvanceWrite {v : W64} (hv : v.getLsbD F.CD_RC_EPOCH_advance.lo = true) :
    Acts (.rcEpochAdvanceWrite die cl v) s (s.p.advanceEpoch die cl 1) :=
  acts_of_exec rfl ((if_pos (cluster_guard hd hc)).trans (if_pos ((bit_eq_testBit _ _).trans hv)))

theorem acts_rcLineFill_failed (line : Nat) (epoch : BitVec 16) :
    Acts (.rcLineFill die cl line epoch .failed) s (s.p.lineFails die cl line) :=
  acts_of_exec rfl ((if_neg (by simp [hd, hc])).trans (if_pos rfl))

theorem acts_cdCmemPartWrite (v : W64) : Acts (.cdCmemPartWrite die cl v) s (s.p.cmemPartWrite die cl v) :=
  acts_of_exec rfl (if_pos (cluster_guard hd hc))

/-- An accepted partition write gives the sizes, and the contents are lost (R167). -/
theorem acts_cdCmemPartWrite_accepted {v : W64} (hv : PartOk s.p die cl v) :
    ∃ q, Acts (.cdCmemPartWrite die cl v) s q ∧
      (s.p.wf → q.fget F.CD_CMEM_PART_rc_mib die cl = F.CD_CMEM_PART_rc_mib.read v ∧
        q.fget F.CD_CMEM_PART_kv_mib die cl = F.CD_CMEM_PART_kv_mib.read v ∧ q.fget F.CD_CMEM_PART_refused die cl = 0) ∧
      (∀ line l, line < 2 ^ 48 → smGet q.st.rc (rcKey die cl line) ≠ some l) ∧
      smGet q.st.undef (die * 2 + cl) = some [] := by
  classical
  refine ⟨_, acts_cdCmemPartWrite hd hc v, ?_⟩
  rw [cmemPartWrite_eq, if_pos hv]
  refine ⟨fun hp => ?_, loseCmem_lost _ die cl⟩
  obtain ⟨hr, hk, hf⟩ := putSizes_fields (die := die) (cl := cl) hp (F.CD_CMEM_PART_rc_mib.read v)
    (F.CD_CMEM_PART_kv_mib.read v)
  simp only [fget_loseCmem]
  exact ⟨hr.trans (Nat.mod_mod _ _), hk.trans (Nat.mod_mod _ _), hf⟩

theorem acts_cdCmemPartWrite_refused {v : W64} (hv : ¬ PartOk s.p die cl v) :
    Acts (.cdCmemPartWrite die cl v) s (s.p.fput F.CD_CMEM_PART_refused 1 die cl) := by
  classical
  have h := acts_cdCmemPartWrite hd hc v
  rwa [cmemPartWrite_eq, if_neg hv] at h

section
variable {line : Nat} (ha : s.p.accessStatus (line * 256) 256 = 0) (epoch : BitVec 16)
include ha

theorem acts_rcLineFill_poisoned : Acts (.rcLineFill die cl line epoch .poisoned) s s.p := by
  refine acts_of_exec rfl ?_
  rw [if_neg (by simp [hd, hc]), if_neg (by simp [ha])]
  rfl

theorem acts_rcLineFill_ok : Acts (.rcLineFill die cl line epoch .ok) s (s.p.lineReturns die cl line epoch.toNat) := by
  refine acts_of_exec rfl ?_
  rw [if_neg (by simp [hd, hc]), if_neg (by simp [ha])]
  rfl

theorem acts_rcLineFill_clean (hz : (s.p.readTagged (line * 256) 256).1.any (·.2) = false) :
    let x := s.p.readTagged (line * 256) 256
    let q := x.2.rcInstall die cl line epoch.toNat (x.1.map (·.1))
    Acts (.rcLineFill die cl line epoch .ok) s (if x.2.rcTakes die cl epoch.toNat = true then q.fillMissed die cl line else q) := by
  have h := acts_rcLineFill_ok hd hc ha epoch
  rwa [Panel.lineReturns, if_neg (by simp [hz])] at h

theorem acts_rcLineFill_tainted (hz : (s.p.readTagged (line * 256) 256).1.any (·.2) = true) :
    Acts (.rcLineFill die cl line epoch .ok) s (s.p.readTagged (line * 256) 256).2 := by
  have h := acts_rcLineFill_ok hd hc ha epoch
  rwa [Panel.lineReturns, if_pos hz] at h

end
end

/-- Settles O27: each command by its guard, then what an advance of the epoch and an install leave. -/
theorem clusterMemoryCommands : Obligations.ClusterMemoryCommands := by
  unfold Obligations.ClusterMemoryCommands
  refine ⟨fun s => ⟨fun c r hk => acts_of_exec rfl (if_pos hk), fun die cl hd hc => ?_⟩,
    fun p die cl hp _ _ => advanceEpoch_effect hp die cl,
    fun p die cl line epoch d => ⟨fun h => if_pos (rcTakes_iff.2 h), fun h => if_neg (mt rcTakes_iff.1 h)⟩⟩
  refine ⟨acts_cmemScrubTick hd hc, acts_rcEpochClearDone hd hc, fun v => acts_rcEpochAdvanceWrite hd hc,
    fun line epoch ha => ⟨acts_rcLineFill_clean hd hc ha epoch, acts_rcLineFill_tainted hd hc ha epoch,
      acts_rcLineFill_poisoned hd hc ha epoch⟩,
    acts_rcLineFill_failed hd hc, fun v => ⟨fun hv => ?_, acts_cdCmemPartWrite_refused hd hc⟩⟩
  obtain ⟨q, hq, hf, hrc, hun⟩ := acts_cdCmemPartWrite_accepted hd hc hv
  refine ⟨q, hq, fun hp _ => ?_⟩
  obtain ⟨h1, h2, h3⟩ := hf hp
  exact ⟨h1, h2, h3, hrc, fun _ => hun⟩

end Sys2Proof.Machine
end

section
/-! HBM upkeep (R193 to R195, R200): what an interval, a mode write, a scrub, a reading and a loss leave of a stack that is up. -/

namespace Sys2Proof.Machine

/-! ### Fields of one register -/

/-- A flag shows what was written to it. -/
theorem flag_fput {p : Panel} (h : smSorted p.regs = true) (f : RField) (b : Bool) (u i j : Nat) (hf : f.hi < 64)
    (h1 : f.hi = f.lo) : (p.fput f (b2n b) u i j).flag f u i j = b := by
  rw [Panel.flag, Panel.fget_fput h f _ u i j hf, h1, Nat.add_sub_cancel_left]
  cases b <;> rfl

/-- A flag keeps what it shows while another field of its register is written. -/
theorem flag_fput_field {p : Panel} (h : smSorted p.regs = true) (f g : RField) (v u i j : Nat) (hr : g.reg = f.reg)
    (hg : g.hi < 64) (hd : g.hi < f.lo ∨ f.hi < g.lo) (hf : f.lo ≤ f.hi) : (p.fput f v u i j).flag g u i j = p.flag g u i j := by
  rw [Panel.flag, Panel.fget_fput_field h f g v u i j hr hg hd hf, Panel.flag]

/-! ### Temperature (R195) -/

section
variable {p : Panel} {stack t : Nat}

/-- A temperature doubles the refresh at its limit, and ends the doubling 3 °C below (R195). -/
def Panel.refreshDoubled (p : Panel) (stack t limit : Nat) : Panel :=
  if limit ≤ t then p.fput F.MPD_HBM_STATUS_refresh_x2 1 stack
  else if t + 3 ≤ limit then p.fput F.MPD_HBM_STATUS_refresh_x2 0 stack else p

/-- The stack's status shows a temperature and what it asks for (R195). -/
def Panel.temperatureShown (p : Panel) (stack t : Nat) : Panel :=
  let shown := (p.fput F.MPD_HBM_STATUS_temp_c t stack).refreshDoubled stack t (p.fget F.MPD_TEMP_LIMITS_refresh_x2_c stack)
  (shown.fput F.MPD_HBM_STATUS_throttle_req (b2n (decide (p.fget F.MPD_TEMP_LIMITS_throttle_c stack ≤ t))) stack).fput
    F.MPD_HBM_STATUS_over_temp (b2n (decide (p.fget F.MPD_TEMP_LIMITS_shutdown_c stack ≤ t))) stack

theorem sorted_refreshDoubled (h : smSorted p.regs = true) (limit : Nat) :
    smSorted (p.refreshDoubled stack t limit).regs = true := by
  unfold Panel.refreshDoubled
  split
  · exact Panel.sorted_fput h ..
  · split
    · exact Panel.sorted_fput h ..
    · exact h

/-- The three bands of refresh doubling: on, off, and between them as it was. -/
theorem flag_refreshDoubled (h : smSorted p.regs = true) (limit : Nat) :
    (p.refreshDoubled stack t limit).flag F.MPD_HBM_STATUS_refresh_x2 stack =
      if limit ≤ t then true else if t + 3 ≤ limit then false else p.flag F.MPD_HBM_STATUS_refresh_x2 stack := by
  unfold Panel.refreshDoubled
  split
  · exact flag_fput h F.MPD_HBM_STATUS_refresh_x2 true stack 0 0 (by decide) rfl
  · split
    · exact flag_fput h F.MPD_HBM_STATUS_refresh_x2 false stack 0 0 (by decide) rfl
    · rfl

theorem temp_refreshDoubled (h : smSorted p.regs = true) (limit : Nat) :
    (p.refreshDoubled stack t limit).fget F.MPD_HBM_STATUS_temp_c stack = p.fget F.MPD_HBM_STATUS_temp_c stack := by
  have hx (v : Nat) := Panel.fget_fput_field h F.MPD_HBM_STATUS_refresh_x2 F.MPD_HBM_STATUS_temp_c v stack 0 0 rfl (by decide)
    (by decide) (by decide)
  unfold Panel.refreshDoubled
  split
  · exact hx 1
  · split
    · exact hx 0
    · rfl

/-- What a status that shows a temperature reads (R195). -/
theorem temperatureShown_fields (h : smSorted p.regs = true) (ht : t < 256) : let q := p.temperatureShown stack t
    q.fget F.MPD_HBM_STATUS_temp_c stack = t ∧
      q.flag F.MPD_HBM_STATUS_refresh_x2 stack = (if p.fget F.MPD_TEMP_LIMITS_refresh_x2_c stack ≤ t then true
        else if t + 3 ≤ p.fget F.MPD_TEMP_LIMITS_refresh_x2_c stack then false else p.flag F.MPD_HBM_STATUS_refresh_x2 stack) ∧
      q.flag F.MPD_HBM_STATUS_throttle_req stack = decide (p.fget F.MPD_TEMP_LIMITS_throttle_c stack ≤ t) ∧
      q.flag F.MPD_HBM_STATUS_over_temp stack = decide (p.fget F.MPD_TEMP_LIMITS_shutdown_c stack ≤ t) := by
  have h1 := Panel.sorted_fput h F.MPD_HBM_STATUS_temp_c t stack 0 0
  have h2 := sorted_refreshDoubled (stack := stack) (t := t) h1 (p.fget F.MPD_TEMP_LIMITS_refresh_x2_c stack)
  have h3 := Panel.sorted_fput h2 F.MPD_HBM_STATUS_throttle_req
    (b2n (decide (p.fget F.MPD_TEMP_LIMITS_throttle_c stack ≤ t))) stack 0 0
  refine ⟨?_, ?_, ?_, flag_fput h3 _ _ _ _ _ (by decide) rfl⟩
  · rw [Panel.temperatureShown,
      Panel.fget_fput_field h3 F.MPD_HBM_STATUS_over_temp F.MPD_HBM_STATUS_temp_c _ _ _ _ rfl (by decide) (by decide) (by decide),
      Panel.fget_fput_field h2 F.MPD_HBM_STATUS_throttle_req F.MPD_HBM_STATUS_temp_c _ _ _ _ rfl (by decide) (by decide)
        (by decide), temp_refreshDoubled h1, Panel.fget_fput h _ _ _ _ _ (by decide)]
    exact Nat.mod_eq_of_lt ht
  · rw [Panel.temperatureShown,
      flag_fput_field h3 F.MPD_HBM_STATUS_over_temp F.MPD_HBM_STATUS_refresh_x2 _ _ _ _ rfl (by decide) (by decide) (by decide),
      flag_fput_field h2 F.MPD_HBM_STATUS_throttle_req F.MPD_HBM_STATUS_refresh_x2 _ _ _ _ rfl (by decide) (by decide) (by decide),
      flag_refreshDoubled h1,
      flag_fput_field h F.MPD_HBM_STATUS_temp_c F.MPD_HBM_STATUS_refresh_x2 _ _ _ _ rfl (by decide) (by decide) (by decide)]
  · rw [Panel.temperatureShown,
      flag_fput_field h3 F.MPD_HBM_STATUS_over_temp F.MPD_HBM_STATUS_throttle_req _ _ _ _ rfl (by decide) (by decide) (by decide)]
    exact flag_fput h2 _ _ _ _ _ (by decide) rfl

end

/-! ### What the commands act as -/

section
variable {s : State} {stack : Nat} (hn : s.p.nodeUp (0x40 + stack) = true) (hs : stack < 36)
include hn hs

theorem stack_guard : (s.p.nodeUp (0x40 + stack) && decide (stack < 36)) = true := by simp [hn, hs]

theorem acts_hbmRefresh : Acts (.hbmRefresh stack) s { s.p with st := { s.p.st with
    refreshMode := smPut s.p.st.refreshMode 0 stack (s.p.fget F.MPD_HBM_CONFIG_refresh_mode stack) } } :=
  acts_of_exec rfl (if_pos (stack_guard hn hs))

theorem acts_mpdRefreshModeWrite (v : W64) : Acts (.mpdRefreshModeWrite stack v) s (s.p.mpdConfigWrite stack v) :=
  acts_of_exec rfl (if_pos (stack_guard hn hs))

theorem acts_hbmPatrolScrub_enabled (he : s.p.flag F.MPD_SCRUB_enable stack = true) :
    Acts (.hbmPatrolScrub stack) s ((List.replicate (max 1 (s.p.fget F.MPD_SCRUB_words_per_refi stack)) stack).foldl
      Panel.patrolOne s.p) := by
  refine acts_of_exec rfl ((if_pos (by rw [stack_guard hn hs, he]; rfl)).trans ?_)
  rw [← List.length_range (n := max 1 (s.p.fget F.MPD_SCRUB_words_per_refi stack)), ← List.map_const', List.foldl_map,
    List.length_range]

omit hn hs in
theorem acts_hbmPatrolScrub_disabled (he : s.p.flag F.MPD_SCRUB_enable stack = false) : Acts (.hbmPatrolScrub stack) s s.p :=
  acts_of_exec rfl (if_neg (by simp [he]))

theorem acts_hbmEcsRead (count : Nat) : ∃ q : Panel, Acts (.hbmEcsRead stack count) s q ∧
    q.st = { s.p.st with ecsLast := smPut s.p.st.ecsLast 0 stack count } ∧
    (smSorted s.p.regs = true → q.fget F.MPD_ECS_ecs_total stack =
      min F.MPD_ECS_ecs_total.max (s.p.fget F.MPD_ECS_ecs_total stack + (count - smGetD s.p.st.ecsLast stack 0))) := by
  refine ⟨_, acts_of_exec rfl (if_pos (stack_guard hn hs)), rfl, fun hr => ?_⟩
  refine (Panel.fget_fput hr F.MPD_ECS_ecs_total _ stack 0 0 (by decide)).trans (Nat.mod_eq_of_lt ?_)
  exact (Nat.min_le_left ..).trans_lt (by decide)

theorem acts_hbmTempRead (temp : BitVec 8) : Acts (.hbmTempRead stack temp) s
    (if s.p.fget F.MPD_TEMP_LIMITS_shutdown_c stack ≤ temp.toNat then
      (s.p.temperatureShown stack temp.toNat).zoneShutdown (s.p.zoneOf (0x40 + stack))
    else s.p.temperatureShown stack temp.toNat) :=
  acts_of_exec rfl (if_pos (stack_guard hn hs))

theorem acts_stackLost : Acts (.stackLost stack) s
    ((s.p.fput F.MPD_HBM_STATUS_state 5 stack).reportNode (0x40 + stack) 0x0203 clsUF) :=
  acts_of_exec rfl (if_pos (stack_guard hn hs))

end

/-- Settles O37: a lemma per command, and `temperatureShown_fields` for the bands of a temperature. -/
theorem hbmUpkeep : Obligations.HbmUpkeep := by
  unfold Obligations.HbmUpkeep
  intro s stack hn hs
  refine ⟨acts_hbmRefresh hn hs, fun v => ⟨fun hv => ?_, fun hv => ?_⟩, acts_hbmPatrolScrub_enabled hn hs,
    acts_hbmPatrolScrub_disabled, acts_hbmEcsRead hn hs, fun temp => ⟨_, acts_hbmTempRead hn hs temp, fun hr => ?_⟩,
    _, _, _, acts_stackLost hn hs, rfl, rfl, rfl, fun hr => Panel.fget_fput hr F.MPD_HBM_STATUS_state 5 stack 0 0 (by decide)⟩
  · exact (acts_mpdRefreshModeWrite hn hs v).congr (if_neg (Nat.not_le.2 hv))
  · exact (acts_mpdRefreshModeWrite hn hs v).congr (if_pos hv)
  · obtain ⟨htemp, hx2, hthr, hover⟩ := temperatureShown_fields (stack := stack) hr temp.isLt
    refine ⟨htemp, fun h => ?_, fun h => ?_, fun h h' => ?_, ?_, ?_⟩
    · rw [hx2, if_pos h]
    · rw [hx2, if_neg (by omega), if_pos h]
    · rw [hx2, if_neg (by omega), if_neg (by omega)]
    · rw [hthr, decide_eq_true_iff]
    · rw [hover, decide_eq_true_iff]

end Sys2Proof.Machine
end

section
/-! The test pattern engine (R197, R198) and the region map (R185): what a start, the end of a run, an apply and a load leave. -/

namespace Sys2Proof.Machine

/-! ### The site of a stack -/

section
variable {p : Panel} {stack v : Nat}

theorem zoneOfEnd_lt (e : Nat) : zoneOfEnd e < 14 := by
  unfold zoneOfEnd
  split
  · omega
  · split
    · omega
    · split <;> decide

/-- A write of MPD_TPE_CONTROL leaves every register of another name. -/
theorem fget_fput_mode (h : smSorted p.regs = true) (hs : stack < 36) {g : RField} (hg : g.reg ≠ .MPD_TPE_CONTROL) {i : Nat}
    (hi : i < 8192) : (p.fput F.MPD_TPE_CONTROL_mode v stack).fget g 0 i = p.fget g 0 i :=
  Panel.fget_fput_reg h v hg ⟨by omega, by decide, by decide⟩ ⟨by decide, hi, by decide⟩

theorem stackSites_fput_mode (h : smSorted p.regs = true) (hs : stack < 36) :
    (p.fput F.MPD_TPE_CONTROL_mode v stack).stackSites = p.stackSites := by
  have hz (e : Nat) : (p.fput F.MPD_TPE_CONTROL_mode v stack).siteUp e = p.siteUp e := by
    unfold Panel.siteUp Panel.zoneState
    rw [fget_fput_mode h hs (by decide) ((zoneOfEnd_lt e).trans (by decide))]
    rfl
  simp only [Panel.stackSites, hz, Panel.fput_bring]

theorem tpeSite_fput_mode (h : smSorted p.regs = true) (hs : stack < 36) :
    (p.fput F.MPD_TPE_CONTROL_mode v stack).tpeSite stack = p.tpeSite stack := by
  have hn : (p.fput F.MPD_TPE_CONTROL_mode v stack).nStacks = p.nStacks := fget_fput_mode h hs (by decide) (by decide)
  have hv : (p.fput F.MPD_TPE_CONTROL_mode v stack).shapeValid = p.shapeValid :=
    congrArg (· == 1) (fget_fput_mode h hs (by decide) (by decide))
  have hk : (p.fput F.MPD_TPE_CONTROL_mode v stack).stackSite stack = p.stackSite stack := by
    rw [Panel.stackSite, fget_fput_mode h hs (by decide) (by omega), Panel.stackSite]
  rw [Panel.tpeSite, Panel.hasStack, stackSites_fput_mode h hs, hn, hv, hk, Panel.tpeSite, Panel.hasStack]

end

/-! ### Starting a run -/

theorem mayWrite_pmc (p : Panel) : MayWrite p .pmc := ⟨by decide, fun _ h => by cases h⟩

/-- The conditions of R197 under which a write of MPD_TPE_CONTROL starts a run. -/
def Panel.startsRun (p : Panel) (site : Nat) (v : W64) (src : Writer) : Bool :=
  v.getLsbD 0 && src == .pmc && p.inBringup && p.siteUp (72 + site) && p.railsUp (zoneOfEnd (72 + site)) == 4 &&
    !p.tpeRunning site

theorem startsRun_iff {p : Panel} {site : Nat} {v : W64} {src : Writer} : p.startsRun site v src = true ↔
    v.getLsbD 0 = true ∧ src = .pmc ∧ p.inBringup = true ∧ p.siteUp (72 + site) = true ∧
      p.railsUp (zoneOfEnd (72 + site)) = 4 ∧ p.tpeRunning site = false := by
  simp only [Panel.startsRun, Bool.and_eq_true, beq_iff_eq, Bool.not_eq_true', and_assoc]

section
variable {s : State} {stack site : Nat} {v : W64} (hsite : s.p.tpeSite stack = some site) (hs : stack < 36)
include hsite hs

theorem acts_tpeStart {src : Writer} (hw : MayWrite s.p src) : Acts (.tpeStart stack v src) s (s.p.tpeControl stack v src) :=
  acts_of_exec rfl ((if_pos (by simp [hsite, hs])).trans (asWriter_may hw _))

variable (hr : smSorted s.p.regs = true)
include hr

/-- A write of MPD_TPE_CONTROL puts the mode, and starts a run where it may. -/
theorem tpeControl_eq (src : Writer) : let q := s.p.fput F.MPD_TPE_CONTROL_mode (F.MPD_TPE_CONTROL_mode.read v) stack
    s.p.tpeControl stack v src = if q.startsRun site v src = true then
      q.setRun stack site ⟨1, q.flag F.MPD_TPE_CONTROL_mode stack, 3, 0, 0, 1000⟩ else q := by
  simp only [Panel.tpeControl, tpeSite_fput_mode hr hs, hsite, bit_eq_testBit]
  rfl

theorem acts_tpeStart_starts : let q := s.p.fput F.MPD_TPE_CONTROL_mode (F.MPD_TPE_CONTROL_mode.read v) stack
    v.getLsbD 0 = true → q.inBringup = true → q.siteUp (72 + site) = true → q.railsUp (zoneOfEnd (72 + site)) = 4 →
      q.tpeRunning site = false →
      Acts (.tpeStart stack v .pmc) s (q.setRun stack site ⟨1, q.flag F.MPD_TPE_CONTROL_mode stack, 3, 0, 0, 1000⟩) := by
  intro q hv hb hu ha hn
  refine (acts_tpeStart hsite hs (mayWrite_pmc s.p)).congr ((tpeControl_eq hsite hs hr .pmc).trans (if_pos ?_))
  exact startsRun_iff.2 ⟨hv, rfl, hb, hu, ha, hn⟩

theorem acts_tpeStart_ignored {src : Writer} (hw : MayWrite s.p src) :
    let q := s.p.fput F.MPD_TPE_CONTROL_mode (F.MPD_TPE_CONTROL_mode.read v) stack
    src ≠ .pmc ∨ q.inBringup = false ∨ v.getLsbD 0 = false → Acts (.tpeStart stack v src) s q := by
  intro q h
  refine (acts_tpeStart hsite hs hw).congr ((tpeControl_eq hsite hs hr src).trans (if_neg fun hc => ?_))
  obtain ⟨hv, hp, hb, -⟩ := startsRun_iff.1 hc
  obtain h | h | h := h
  · exact h hp
  · exact Bool.false_ne_true (h.symm.trans hb)
  · exact Bool.false_ne_true (h.symm.trans hv)

end

/-! ### The end of a run -/

section
variable {r : TpeRun}

theorem TpeRun.next_quick {x : TpeRun} (h : r.next = some x) : x.quick = r.quick := by
  unfold TpeRun.next at h
  split at h
  · obtain rfl := Option.some.inj h
    rfl
  · obtain ⟨e, -, rfl⟩ := Option.map_eq_some_iff.1 h
    rfl

/-- A run keeps its mode through its elements. -/
theorem TpeRun.through_quick (last n : Nat) : (TpeRun.through last n r).quick = r.quick := by
  induction n generalizing r with
  | zero => rfl
  | succ n ih =>
    rw [TpeRun.through]
    split
    next x hx =>
      split
      · rfl
      · exact ih.trans (TpeRun.next_quick hx)
    next => rfl

/-- Element 6 runs at two levels, and element 7 follows it whichever of them it is at. -/
theorem TpeRun.through_six (hq : r.quick = false) (h : r.element = 6) : (TpeRun.through 7 9 r).element = 7 := by
  obtain ⟨e, quick, result, rows, left, level⟩ := r
  subst hq h
  by_cases hl : level = 970
  · subst hl
    rfl
  · simp [TpeRun.through, TpeRun.next, hl, tpeNext, tpeElements]

/-- From any element of its mode a run comes to element 7. -/
theorem TpeRun.through_element (h : (tpeElements r.quick).contains r.element = true) : (TpeRun.through 7 9 r).element = 7 := by
  obtain ⟨e, quick, result, rows, left, level⟩ := r
  rw [List.contains_iff_mem] at h
  cases quick <;> simp only [tpeElements, if_true, Bool.false_eq_true, if_false, List.mem_cons, List.not_mem_nil, or_false] at h
  case false =>
    obtain rfl | rfl | rfl | rfl | rfl | rfl | rfl := h
    iterate 5 rfl
    · exact TpeRun.through_six rfl rfl
    · rfl
  case true => obtain rfl | rfl | rfl | rfl := h <;> rfl

theorem TpeRun.ended_pass (h : (tpeElements r.quick).contains r.element = true) (rows left : Nat) :
    r.ended true 7 rows left = ⟨7, r.quick, 1, rows, left, 1000⟩ := by
  rw [TpeRun.ended, TpeRun.through_element h, TpeRun.through_quick]
  rfl

end

section
variable {s : State} {stack site : Nat} {run : TpeRun} (hsite : s.p.tpeSite stack = some site)
  (hrun : smGet s.p.bring.runs site = some run) (hres : run.result = 3) (le : BitVec 8) (rows : BitVec 16) (rl : BitVec 8)
include hsite hrun hres

theorem acts_tpeRunDone_pass : Acts (.tpeRunDone stack true le rows rl) s
    ((s.p.setRun stack site (run.ended true 7 rows.toNat rl.toNat)).zeroStack stack) := by
  refine acts_of_exec rfl ?_
  simp only [hsite, hrun, hres]
  rfl

theorem acts_tpeRunDone_fail : let q := s.p.setRun stack site { run.ended false 7 rows.toNat rl.toNat with element := le.toNat }
    Acts (.tpeRunDone stack false le rows rl) s
      { q with bring := { q.bring with stackFailed := insertAsc q.bring.stackFailed site } } := by
  refine acts_of_exec rfl ?_
  simp only [hsite, hrun, hres]
  rfl

end

/-- A stack that is zeroed lists none of its bytes. -/
theorem smGet_zeroStack (p : Panel) {stack a : Nat} (h : a / 2 ^ 36 = stack) : smGet (p.zeroStack stack).st.mem a = none :=
  Option.eq_none_iff_forall_ne_some.2
    (smGet_smFilter_dropped (f := fun k => k / 2 ^ 36 != stack) (bne_eq_false_iff_eq.2 h))

/-! ### The region map -/

theorem acts_hbmMapApply {s : State} {src : Writer} {v : W64} (hw : MayWrite s.p src) :
    Acts (.hbmMapApply src v) s (s.p.mapControl v) := acts_of_exec rfl (asWriter_may hw _)

/-- An apply while no table loads: the first fault of the written table shows, and a table with none begins to load (R185). -/
theorem mapControl_applies {p : Panel} {v : W64} (hv : v.getLsbD F.HUB_HBM_MAP_CONTROL_apply.lo = true)
    (hb : p.flag F.HUB_HBM_MAP_CONTROL_busy = false) :
    let e := if p.mapIdle then p.tableError p.writtenTable else 1
    let p1 := p.fput F.HUB_HBM_MAP_CONTROL_error e
    p.mapControl v = if e ≠ 0 then p1
      else ({ p1 with st := { p1.st with loading := some p.writtenTable } }).fput F.HUB_HBM_MAP_CONTROL_busy 1 := by
  rw [BitVec.getLsbD, ← bit_eq_testBit] at hv
  rw [Panel.mapControl, hv, hb]
  cases p.mapIdle <;> rfl

/-- One row of the table shows its base and its number of stacks; the regions left are those of the rows behind it. -/
def showRow (acc : Panel × List Region) (e : W64 × Nat) : Panel × List Region :=
  match bit e.1.toNat 63, acc.2 with
  | true, r :: rest =>
    ((acc.1.put .HUB_HBM_REGION_BASE (BitVec.ofNat 64 r.base) 0 e.2).fput F.HUB_HBM_REGION_CFG_stacks r.stks.length 0 e.2, rest)
  | _, rs => ((acc.1.put .HUB_HBM_REGION_BASE 0 0 e.2).fput F.HUB_HBM_REGION_CFG_stacks 0 0 e.2, rs)

/-- The decoders hold a table, and the mirrored ranges load with it (R185, R386). -/
def Panel.tableHeld (p : Panel) (ws : List W64) : Panel :=
  Panel.loadRanges { p with st := { p.st with regions := p.regionsOf ws, heldTable := some ws, loading := none } }

theorem loadTable_eq (p : Panel) (ws : List W64) : p.loadTable ws =
    ((ws.zipIdx.foldl showRow (p.tableHeld ws, p.regionsOf ws)).1.fput F.HUB_HBM_MAP_CONTROL_applied 1).fput
      F.HUB_HBM_MAP_CONTROL_busy 0 := rfl

/-- The rows only write registers. -/
theorem showRow_leaves (acc : Panel × List Region) (e : W64 × Nat) : (showRow acc e).1.st = acc.1.st ∧
    (smSorted acc.1.regs = true → smSorted (showRow acc e).1.regs = true) := by
  unfold showRow
  split <;> exact ⟨rfl, fun h => Panel.sorted_fput (Panel.sorted_put h ..) ..⟩

/-- A loaded table is the one in force (R185). -/
theorem loadTable_leaves (p : Panel) (ws : List W64) : let q := p.loadTable ws
    q.st.regions = p.regionsOf ws ∧ q.st.heldTable = some ws ∧ q.st.loading = none ∧ q.st.mem = p.st.mem ∧
      (smSorted p.regs = true → q.flag F.HUB_HBM_MAP_CONTROL_applied = true ∧ q.flag F.HUB_HBM_MAP_CONTROL_busy = false) := by
  intro q
  have hq : q = _ := loadTable_eq p ws
  have hst := foldl_leaves (fun x : Panel × List Region => x.1.st) (fun x e => (showRow_leaves x e).1) ws.zipIdx
    (p.tableHeld ws, p.regionsOf ws)
  have hreg (hr : smSorted p.regs = true) := foldl_keeps (fun x : Panel × List Region => smSorted x.1.regs = true) showRow
    (fun x e => (showRow_leaves x e).2) ws.zipIdx (p.tableHeld ws, p.regionsOf ws) hr
  rw [hq]
  refine ⟨congrArg Store.regions hst, congrArg Store.heldTable hst, congrArg Store.loading hst,
    (congrArg Store.mem hst :), fun hr => ?_⟩
  have h1 := Panel.sorted_fput (hreg hr) F.HUB_HBM_MAP_CONTROL_applied 1 0 0 0
  refine ⟨(flag_fput_field h1 F.HUB_HBM_MAP_CONTROL_busy F.HUB_HBM_MAP_CONTROL_applied 0 0 0 0 rfl (by decide) (by decide)
    (by decide)).trans ?_, flag_fput h1 F.HUB_HBM_MAP_CONTROL_busy false 0 0 0 (by decide) rfl⟩
  exact flag_fput (hreg hr) F.HUB_HBM_MAP_CONTROL_applied true 0 0 0 (by decide) rfl

/-- Settles O38: the start and the end of a run, `mapControl_applies` for an apply, `loadTable_leaves` for its load. -/
theorem testEngineAndRegionMap : Obligations.TestEngineAndRegionMap := by
  unfold Obligations.TestEngineAndRegionMap
  intro s
  refine ⟨fun stack site v hr hs hsite => ⟨acts_tpeStart_starts hsite hs hr, fun src hw => acts_tpeStart_ignored hsite hs hr hw⟩,
    fun stack site run pass le rows rl hsite hrun hres => ?_, fun src v hw hv hb => ?_, fun ws hl => ?_⟩
  · cases pass with
    | true =>
      refine ⟨_, acts_tpeRunDone_pass hsite hrun hres le rows rl, rfl, fun _ => ⟨fun a ha => smGet_zeroStack _ ha, fun h => ?_⟩,
        nofun⟩
      exact (smGet_smSet_same _ site _).trans (congrArg some (TpeRun.ended_pass h _ _))
    | false =>
      refine ⟨_, acts_tpeRunDone_fail hsite hrun hres le rows rl, rfl, nofun, fun _ => ⟨?_, rfl, ?_⟩⟩
      · exact mem_insertAsc.2 (.inr rfl)
      · refine (smGet_smSet_same _ site _).trans (congrArg some ?_)
        rw [← TpeRun.through_quick (r := run) 7 9]
        rfl
  · have h := mapControl_applies hv hb
    exact ⟨fun he => (acts_hbmMapApply hw).congr (h.trans (if_pos he)),
      fun he => (acts_hbmMapApply hw).congr (h.trans (if_neg (not_not.2 he)))⟩
  · have h : Acts .hbmMapLoadDone s (s.p.loadTable ws) := acts_of_exec rfl (by simp only [hl])
    exact ⟨_, h, loadTable_leaves s.p ws⟩

end Sys2Proof.Machine
end

section
/-! Routers at the panel network's ports (R209, R214, R215, R220, R222), and multicast groups (R230, R244). -/

namespace Sys2Proof.Machine

/-! ### Packets at a router -/

section
variable {s : State} {node port : Nat} {flits : List (List Byte × BitVec 16)}

/-- The router leaves alone what comes to a paused LOCAL port, waits behind another packet, or has no credits. -/
theorem acts_routerPacketReceive_waits (h : let k := packetOf (flits.map (·.1))
    (s.p.flag F.PNW_POOL_STATUS_paused node = true ∧ port = portLocal ∧ (k.tclass = 0 ∨ k.tclass = 2)) ∨
      s.p.behind node port k = true ∨ s.p.creditsFor node port (chanOf k) flits.length = none) :
    Acts (.routerPacketReceive node port flits) s s.p := by
  refine acts_of_exec rfl ?_
  dsimp only
  obtain ⟨hf, hp, hc⟩ | hb | hn := h
  · have hc' : ((packetOf (flits.map (·.1))).tclass == 0 || (packetOf (flits.map (·.1))).tclass == 2) = true := by
      rwa [Bool.or_eq_true, beq_iff_eq, beq_iff_eq]
    exact if_pos (by rw [hf, hp, hc', beq_self_eq_true]; simp only [Bool.and_self, Bool.or_true, Bool.true_or])
  · exact if_pos (by rw [hb, Bool.or_true])
  · rw [hn]
    exact ite_self _

/-- The packet that a router takes has left the link it came by, and one that was not in flight is numbered. -/
def Panel.taken (p : Panel) (f : Option Flying) : Panel :=
  { p with net := { p.net with
    flying := (f.map p.net.flying.erase).getD p.net.flying
    nextBorn := max p.net.nextBorn ((f.map (·.born)).getD p.net.nextBorn + 1) } }

/-- A packet whose flits fail on a link is discarded: counted at the port, and its link reported. -/
def Panel.discards (p : Panel) (node port : Nat) : Panel :=
  let counted := { p with pmc := { p.pmc with ceCounts := countOne p.pmc.ceCounts (4096 + p.endOf node * 16 + port) } }
  (counted.addHold F.PNW_PORT_STATUS_crc_discards 1 node port).reportLink node port 0x0301 clsInfo

section
variable {k : Packet} (hk : packetOf (flits.map (·.1)) = k) {good : Bool} (hg : (flits.all fun f => flitCrc f.1 == f.2) = good)
  (hr : s.p.routers.contains node = true) (hne : flits ≠ [])
  (hh : ¬(s.p.flag F.PNW_POOL_STATUS_paused node = true ∧ port = portLocal ∧ (k.tclass = 0 ∨ k.tclass = 2)))
  (hb : s.p.behind node port k = false)
  {room : Room} (hc : s.p.creditsFor node port (chanOf k) flits.length = some room)
include hk hg hr hne hh hb hc

/-- A packet that nothing holds is taken: routed where its flits are good, discarded where one fails on a link. -/
theorem acts_routerPacketReceive_taken :
    let f := s.p.arriving node port k good
    let p := s.p.taken f
    (good = true → Acts (.routerPacketReceive node port flits) s
      ((if port = portLocal then p.awaitHub node k else p).routePacket node port
        ((f.map (·.born)).getD s.p.net.nextBorn) room k)) ∧
      (good = false → port < 15 → Acts (.routerPacketReceive node port flits) s (p.discards node port)) := by
  subst hk
  have hopen : ¬((!s.p.routers.contains node || flits.isEmpty || (s.p.flag F.PNW_POOL_STATUS_paused node && port == portLocal &&
      ((packetOf (flits.map (·.1))).tclass == 0 || (packetOf (flits.map (·.1))).tclass == 2)) ||
      s.p.behind node port (packetOf (flits.map (·.1)))) = true) := by
    rw [hr, hb, List.isEmpty_eq_false_iff.2 hne, Bool.or_false, Bool.or_false]
    simpa only [Bool.not_true, Bool.false_or, Bool.and_eq_true, Bool.or_eq_true, beq_iff_eq, and_assoc] using hh
  refine ⟨fun h => acts_of_exec rfl ((if_neg hopen).trans ?_), fun h hp => acts_of_exec rfl ((if_neg hopen).trans ?_)⟩
  all_goals
    subst h
    rw [hc, hg]
    dsimp only
    cases s.p.arriving node port (packetOf (flits.map (·.1))) _
  · exact if_pos rfl
  · exact if_pos rfl
  · exact (if_neg Bool.false_ne_true).trans (if_pos hp)
  · exact (if_neg Bool.false_ne_true).trans (if_pos hp)

end
end

/-- What a discard leaves: the network, the memories and the cores as they were, one more discard at the port, and its report. -/
theorem discards_leaves (p : Panel) (node port : Nat) : let q := p.discards node port
    q.net = p.net ∧ q.st = p.st ∧ q.cores = p.cores ∧
      (smSorted p.regs = true → q.fget F.PNW_PORT_STATUS_crc_discards node port =
        min F.PNW_PORT_STATUS_crc_discards.max (p.fget F.PNW_PORT_STATUS_crc_discards node port + 1)) ∧
      ∃ h r, q.reports = p.reports ++ [(h, r)] ∧ r.event = 0x0301 := by
  refine ⟨rfl, rfl, rfl, fun hs => ?_, _, _, rfl, rfl⟩
  refine (Panel.fget_fput (p := { p with pmc := _ }) hs F.PNW_PORT_STATUS_crc_discards _ node port 0 (by decide)).trans
    (Nat.mod_eq_of_lt ?_)
  exact Nat.lt_of_le_of_lt (min_le_left _ _) (by decide)

/-- Settles O28: `acts_routerPacketReceive_waits` for what waits, `acts_routerPacketReceive_taken` for what is taken, and
`discards_leaves`. -/
theorem routersTakeOrDiscardPackets : Obligations.RoutersTakeOrDiscardPackets := by
  unfold Obligations.RoutersTakeOrDiscardPackets
  intro s node port flits hr hne k good held credits
  refine ⟨acts_routerPacketReceive_waits, fun room hh hb hc => ?_⟩
  obtain ⟨hroute, hdiscard⟩ := acts_routerPacketReceive_taken rfl rfl hr hne hh hb hc
  refine ⟨hroute, fun hg hp => ?_⟩
  obtain ⟨hnet, hst, hcores, hcount, hrep⟩ := discards_leaves (s.p.taken (s.p.arriving node port k good)) node port
  exact ⟨_, hdiscard hg hp, hnet, hst, hcores, fun hs _ => hcount hs, hrep⟩

/-! ### Multicast groups -/

theorem acts_mcGroupApply {s : State} {src : Writer} {v : W64} (hw : MayWrite s.p src) :
    Acts (.mcGroupApply src v) s (s.p.mcControl v) := acts_of_exec rfl (asWriter_may hw _)

/-- A write without apply selects the group. -/
theorem mcControl_selects {p : Panel} {v : W64} (hv : v.getLsbD F.PNW_MC_CONTROL_apply.lo = false) :
    p.mcControl v = p.fput F.PNW_MC_CONTROL_group (F.PNW_MC_CONTROL_group.read v) := by
  rw [BitVec.getLsbD, ← bit_eq_testBit] at hv
  exact if_pos (by rw [hv]; rfl)

section
variable {p : Panel} {v : W64} (hv : v.getLsbD F.PNW_MC_CONTROL_apply.lo = true)
include hv

/-- An apply withdraws a disabled group, refuses one with an absent die and fixes any other. -/
theorem mcControl_applies :
    let g := F.PNW_MC_CONTROL_group.read v
    let q := p.fput F.PNW_MC_CONTROL_group g
    let fixed : Panel := { q with net := { q.net with groups := smSet q.net.groups g (q.get .PNW_MC_DEF 0 g) } }
    p.mcControl v =
      if !q.flag F.PNW_MC_UNIT_enable 0 g then
        (((({ q with net := { q.net with groups := smDel q.net.groups g } } : Panel).clearGroup g).fput
          F.PNW_MC_UNIT_members 0 0 g).fput F.PNW_MC_CONTROL_error 0)
      else if !(q.definedDies g).all q.hasDie then q.fput F.PNW_MC_CONTROL_error 1
      else ((fixed.writeGroup g).fput F.PNW_MC_UNIT_members (fixed.groupDies g).length 0 g).fput F.PNW_MC_CONTROL_error 0 := by
  rw [BitVec.getLsbD, ← bit_eq_testBit] at hv
  exact if_neg (by rw [hv]; decide)

end

/-- Settles O32: `mcControl_selects` and the cases of `mcControl_applies`. -/
theorem multicastGroupsApply : Obligations.MulticastGroupsApply := by
  unfold Obligations.MulticastGroupsApply
  intro s src v hw g p
  refine ⟨fun hv => (acts_mcGroupApply hw).congr (mcControl_selects hv), fun hv => ?_⟩
  have h := (acts_mcGroupApply hw).congr (mcControl_applies hv)
  refine ⟨fun he => h.congr (if_pos (by rw [he]; rfl)), fun he hd => h.congr ((if_neg (by rw [he]; decide)).trans (if_neg ?_)),
    fun he hd => h.congr ((if_neg (by rw [he]; decide)).trans (if_pos ?_))⟩
  · rw [List.all_eq_true.2 hd]
    decide
  · obtain ⟨d, hm, ha⟩ := hd
    rw [Bool.not_eq_true', List.all_eq_false]
    exact ⟨d, hm, by rw [ha]; decide⟩

end Sys2Proof.Machine
end

section
/-! Accords (R219, R221, R234 to R241, R245): descriptor writes, the canonical tree, delivery, forwarding and timeouts. -/

namespace Sys2Proof.Machine

/-! ### Sums (R130, R236, R237) -/

theorem FVal.add_comm (x y : FVal) : x.add y = y.add x := by
  cases x with
  | nan => cases y <;> rfl
  | inf a =>
    cases y with
    | nan => rfl
    | inf b =>
      by_cases h : a = b
      · rw [h]
      · rw [add, add, if_neg h, if_neg (Ne.symm h)]
    | fin => rfl
  | fin a m e =>
    cases y with
    | nan => rfl
    | inf => rfl
    | fin b m' e' => simp only [add, min_comm e e', Int.add_comm (toGrid a m e _), Bool.and_comm a b]

theorem f32Add_comm (a b : Nat) : f32Add a b = f32Add b a := by
  simp only [f32Add, FVal.add_comm (fmtFP32.decode a), Bool.and_comm (fmtFP32.decode a).finite]

/-- The tree reads no leaf but those it is over. -/
theorem treeSum_congr {leaf leaf' : Nat → Option Nat} {n lo : Nat} (h : ∀ i, lo ≤ i → i < lo + 2 ^ n → leaf i = leaf' i) :
    treeSum leaf n lo = treeSum leaf' n lo := by
  induction n generalizing lo with
  | zero => rw [treeSum, treeSum, h lo le_rfl (by omega)]
  | succ n ih =>
    rw [treeSum, treeSum, ih fun i hl hi => h i hl (by omega), ih fun i hl hi => h i (by omega) (by omega)]

/-- Settles O34: `f32Add_comm`, and `treeSum_congr` over the leaves from 0. -/
theorem accordSumsAreReproducible : Obligations.AccordSumsAreReproducible := by
  unfold Obligations.AccordSumsAreReproducible
  refine ⟨fun a b _ _ => f32Add_comm a b, fun leaf => rfl, fun leaf leaf' n h => treeSum_congr fun i _ hi => h i ?_⟩
  omega

/-! ### Descriptors (R234, R245) -/

section
variable {s : State} {node slot : Nat} (ha : s.p.hasAcc node = true) (hs : slot < 64)
include ha hs

section
variable {w : Nat} {v : W64} (hw : w < 4)
include hw

theorem acts_accDescWrite : Acts (.accDescWrite node slot w v) s (s.p.accDescWrite node slot w v) :=
  acts_of_exec rfl (if_pos (by simp [ha, hs, hw]))

theorem acts_accDescWrite_busy (h : s.p.accState node slot ≠ 0) : Acts (.accDescWrite node slot w v) s
    ((s.p.fput F.ACC_ERR_busy_write 1 node).fput F.ACC_ERR_last_slot slot node) :=
  (acts_accDescWrite ha hs hw).congr (if_pos h)

variable (hi : s.p.accState node slot = 0)
include hi

theorem acts_accDescWrite_taken (h : w ≠ 0 ∨ bit v.toNat 63 = false ∨
      s.p.accValid node slot { s.p.accDesc node slot with w0 := v.toNat } = true) :
    Acts (.accDescWrite node slot w v) s (s.p.put .ACC_DESC v node slot w) := by
  refine (acts_accDescWrite ha hs hw).congr ((if_neg (not_not_intro hi)).trans ?_)
  by_cases hen : w = 0 ∧ bit v.toNat 63 = true
  · obtain ⟨rfl, hb⟩ := hen
    have hv := (h.resolve_left (not_not_intro rfl)).resolve_left (by rw [hb]; decide)
    exact (if_pos ⟨rfl, hb⟩).trans (if_pos hv)
  · exact if_neg hen

theorem acts_accDescWrite_invalid (h0 : w = 0) (hb : bit v.toNat 63 = true)
    (hv : s.p.accValid node slot { s.p.accDesc node slot with w0 := v.toNat } = false) :
    Acts (.accDescWrite node slot w v) s
      (((s.p.put .ACC_DESC (putBits v 63 63 0) node slot 0).fput F.ACC_ERR_desc_error 1 node).fput F.ACC_ERR_last_slot slot
        node) :=
  (acts_accDescWrite ha hs hw).congr
    ((if_neg (not_not_intro hi)).trans ((if_pos ⟨h0, hb⟩).trans (if_neg (ne_true_of_eq_false hv))))

end

omit hs in
theorem acts_accContrib {k : Packet} (hk : k.dstNode.toNat = node) (he : s.p.early k = false) :
    Acts (.accContrib k) s ((s.p.takePacket k).contribution k) := by
  refine acts_of_exec rfl (if_pos ?_)
  rw [hk, ha, he]
  rfl

end

/-! ### The canonical tree of a slot (R237) -/

section
variable {s : State} {node slot : Nat}

/-- A cell of a fixative slot: the sum of its contributors' cells in the canonical tree. -/
def AccDesc.cellSum (d : AccDesc) (cells : SMap (BitVec 105)) (i : Nat) : Option Nat × Bool :=
  treeSum (fun c => if c < d.count then some (smGetD cells (c * 16384 + i) 0).toNat else none) (log2Up d.count) 0

/-- One cell joins the combined tile: listed behind the cells before it unless zero, with its overflow. -/
def combineCell (f : Nat → Option Nat × Bool) (acc : List (Nat × BitVec 105) × Bool) (i : Nat) :
    List (Nat × BitVec 105) × Bool :=
  let v := BitVec.ofNat 105 ((f i).1.getD 0)
  (if v = 0 then acc.1 else (i, v) :: acc.1, acc.2 || (f i).2)

/-- The combined cells in ascending order, and whether one of them overflowed. -/
theorem foldl_combineCell (f : Nat → Option Nat × Bool) (l : List Nat) (acc : List (Nat × BitVec 105) × Bool) :
    (l.foldl (combineCell f) acc).1.reverse =
        acc.1.reverse ++ l.foldr (fun i => smCons 0 i (BitVec.ofNat 105 ((f i).1.getD 0))) [] ∧
      (l.foldl (combineCell f) acc).2 = (acc.2 || l.any fun i => (f i).2) := by
  induction l generalizing acc with
  | nil => simp
  | cons i l ih =>
    obtain ⟨h1, h2⟩ := ih (combineCell f acc i)
    rw [List.foldl_cons, h1, h2, List.foldr_cons, List.any_cons]
    refine ⟨?_, Bool.or_assoc ..⟩
    dsimp only [combineCell]
    rw [smCons]
    split
    · rfl
    · rw [List.reverse_cons, List.append_assoc]
      rfl

/-- The cells of a list combined, and the slot delivered. -/
def Panel.combineOver (p : Panel) (l : List Nat) (node slot : Nat) : Panel :=
  let x := p.accSlot node slot
  let t := l.foldl (combineCell ((p.accDesc node slot).cellSum x.cells)) ([], false)
  ((if t.2 then p.fput F.ACC_SLOT_STATUS_overflow 1 node slot else p).setAccSlot node slot
    { x with cells := t.1.reverse }).accDeliver node slot

/-- The command combines all 16384 cells. The list of them is kept opaque, so that no check evaluates it. -/
theorem exec_accordCombineDone : exec (.accordCombineDone node slot) s = .next (s.upd fun p =>
    if p.hasAcc node && decide (slot < 64) && p.accState node slot == accCombining then
      p.combineOver (List.range 16384) node slot else p) := by
  show execAccordCombineDone node slot s = _
  unfold execAccordCombineDone
  obtain ⟨l, hl⟩ : ∃ l, l = List.range 16384 := ⟨_, rfl⟩
  rw [← hl]
  rfl

/-- Over cells in ascending order: each holds its sum, and an overflow of any of them shows. -/
theorem combineOver_delivers (p : Panel) {l : List Nat} (hl : l.Pairwise (· < ·)) :
    let x := p.accSlot node slot
    let sum := (p.accDesc node slot).cellSum x.cells
    ∃ cells ov, (ov = true ↔ ∃ i, i ∈ l ∧ (sum i).2 = true) ∧
      (∀ i, i ∈ l → smGetD cells i 0 = BitVec.ofNat 105 ((sum i).1.getD 0)) ∧
      p.combineOver l node slot = ((if ov then p.fput F.ACC_SLOT_STATUS_overflow 1 node slot else p).setAccSlot node slot
        { x with cells := cells }).accDeliver node slot := by
  intro x sum
  obtain ⟨hcells, hov⟩ := foldl_combineCell sum l ([], false)
  refine ⟨(l.foldl (combineCell sum) ([], false)).1.reverse, (l.foldl (combineCell sum) ([], false)).2, ?_, fun i hi => ?_, rfl⟩
  · rw [hov, Bool.false_or, List.any_eq_true]
  · rw [hcells]
    exact smGetD_foldr_smCons hl hi

theorem acts_accordCombineDone (ha : s.p.hasAcc node = true) (hs : slot < 64) (h : s.p.accState node slot = 2) :
    let x := s.p.accSlot node slot
    let sum := (s.p.accDesc node slot).cellSum x.cells
    ∃ cells ov, (ov = true ↔ ∃ i, i < 16384 ∧ (sum i).2 = true) ∧
      (∀ i, i < 16384 → smGetD cells i 0 = BitVec.ofNat 105 ((sum i).1.getD 0)) ∧
      Acts (.accordCombineDone node slot) s
        (((if ov then s.p.fput F.ACC_SLOT_STATUS_overflow 1 node slot else s.p).setAccSlot node slot
          { x with cells := cells }).accDeliver node slot) := by
  intro x sum
  obtain ⟨cells, ov, hov, hcells, he⟩ := combineOver_delivers (node := node) (slot := slot) s.p (l := List.range 16384)
    List.pairwise_lt_range
  simp only [List.mem_range] at hov hcells
  refine ⟨cells, ov, hov, hcells, acts_of_exec exec_accordCombineDone ((if_pos ?_).trans he)⟩
  rw [ha, h, decide_eq_true hs]
  rfl

end

/-! ### How a delivery in close mode stands (R221, R238) -/

section
variable {p : Panel} {node slot : Nat} (hf : (p.accDesc node slot).forward = false)
include hf

theorem deliveryEnd_rowFailed (e : DeliveryEnd) (h : (p.accSlot node slot).rowFailed = true) :
    p.deliveryEnd node slot e = some false := by
  simp [Panel.deliveryEnd, hf, h]

variable (h : (p.accSlot node slot).rowFailed = false)
include h

/-- Rows still awaited are too late outside a drain. -/
theorem deliveryEnd_rowsLate (hr : (p.accSlot node slot).rowsLeft ≠ 0) :
    p.deliveryEnd node slot .rowFailed = if p.flag F.PNW_DRAIN_STATUS_in_progress then none else some false := by
  cases hd : p.flag F.PNW_DRAIN_STATUS_in_progress <;> simp [Panel.deliveryEnd, hf, h, hr, hd]

variable (hr : (p.accSlot node slot).rowsLeft = 0)
include hr

/-- With every row acknowledged the delivery is done where nothing is posted, or the post was taken. -/
theorem deliveryEnd_done (e : DeliveryEnd)
    (hp : (p.accDesc node slot).increment = 0 ∨ (p.accSlot node slot).postOk = some true) :
    p.deliveryEnd node slot e = some true := by
  by_cases hi : (p.accDesc node slot).increment = 0
  · simp [Panel.deliveryEnd, hf, h, hr, hi]
  · simp [Panel.deliveryEnd, hf, h, hr, hi, hp.resolve_left hi]

variable (hi : (p.accDesc node slot).increment ≠ 0)
include hi

theorem deliveryEnd_postRefused (e : DeliveryEnd) (hp : (p.accSlot node slot).postOk = some false) :
    p.deliveryEnd node slot e = some false := by
  simp [Panel.deliveryEnd, hf, h, hr, hi, hp]

/-- A post still awaited is too late outside a drain. -/
theorem deliveryEnd_postLate (hs : (p.accSlot node slot).posted = true) (hp : (p.accSlot node slot).postOk = none) :
    p.deliveryEnd node slot .postTimedOut = if p.flag F.PNW_DRAIN_STATUS_in_progress then none else some false := by
  cases hd : p.flag F.PNW_DRAIN_STATUS_in_progress <;> simp [Panel.deliveryEnd, hf, h, hr, hi, hs, hp, hd]

end

/-! ### The end of a use (R221, R238 to R241) -/

section
variable {s : State} {node slot : Nat} (ha : s.p.hasAcc node = true) (hs : slot < 64)
include ha hs

section
variable (h3 : s.p.accState node slot = 3)
include h3

section
variable (hf : (s.p.accDesc node slot).forward = false)
include hf

theorem acts_accordOutputAcked (hr : (s.p.accSlot node slot).rowsLeft = 0) (hfail : (s.p.accSlot node slot).rowFailed = false)
    (hp : (s.p.accSlot node slot).posted = false) (hinc : (s.p.accDesc node slot).increment ≠ 0) :
    let d := s.p.accDesc node slot
    let q := s.p.modAcc node slot fun x => { x with posted := true }
    (s.p.hasCore d.core = true → Acts (.accordOutputAcked node slot) s
      ((q.await node 19 (.accordPost slot)).2.inject node { plainPacket 0x02 0 node 19 (d.core / 16) s.p.net.nextTag with
        w2 := BitVec.ofNat 64 (d.increment * 2 ^ 15 + d.counter * 2 ^ 10 + d.core) })) ∧
    (s.p.hasCore d.core = false → Acts (.accordOutputAcked node slot) s
      (q.modAcc node slot fun x => { x with postOk := some false })) := by
  intro d q
  have hc : (s.p.hasAcc node && decide (slot < 64) && s.p.accState node slot == accDelivering && !d.forward &&
      (s.p.accSlot node slot).rowsLeft == 0 && !(s.p.accSlot node slot).rowFailed && d.increment != 0 &&
      !(s.p.accSlot node slot).posted) = true := by
    simp [d, ha, hs, h3, hf, hr, hfail, hp, hinc, accDelivering]
  have hq : q.hasCore d.core = s.p.hasCore d.core := rfl
  exact ⟨fun hcore => acts_of_exec rfl ((if_pos hc).trans (if_neg (by rw [hq, hcore]; decide))),
    fun hcore => acts_of_exec rfl ((if_pos hc).trans (if_pos (by rw [hq, hcore]; rfl)))⟩

omit ha hs h3 hf in
/-- The post is sent once. -/
theorem acts_accordOutputAcked_posted (hp : (s.p.accSlot node slot).posted = true) :
    Acts (.accordOutputAcked node slot) s s.p :=
  acts_of_exec rfl (if_neg (by simp [hp]))

/-- The overflow of a slot's output is reported, where its mode asks for it, as the delivery ends. -/
def Panel.overflowReported (p : Panel) (node slot : Nat) : Panel :=
  p.accOvf node slot (p.accDesc node slot) (p.flag F.ACC_SLOT_STATUS_overflow node slot)
    (p.flag F.ACC_SLOT_STATUS_out_sat node slot)

/-- A delivery that has ended returns its slot to IDLE or fails; one that goes on is left alone. -/
theorem acts_accordDeliveryEnd {e : DeliveryEnd} {r : Option Bool} (he : s.p.deliveryEnd node slot e = r) :
    Acts (.accordDeliveryEnd node slot e) s (r.elim s.p fun ok =>
      if ok then (s.p.overflowReported node slot).accToIdle node slot else (s.p.overflowReported node slot).accFail node slot) := by
  refine acts_of_exec rfl ((if_pos (by simp [ha, hs, h3, accDelivering])).trans ?_)
  rw [he]
  cases r with
  | none => rfl
  | some ok => exact if_neg (by rw [hf]; decide)

/-- An end that is a timeout fails the delivery outside a drain. -/
theorem acts_accordDeliveryEnd_late {e : DeliveryEnd}
    (he : s.p.deliveryEnd node slot e = if s.p.flag F.PNW_DRAIN_STATUS_in_progress then none else some false) :
    Acts (.accordDeliveryEnd node slot e) s
      (if s.p.flag F.PNW_DRAIN_STATUS_in_progress then s.p else (s.p.overflowReported node slot).accFail node slot) := by
  refine (acts_accordDeliveryEnd ha hs h3 hf he).congr ?_
  split <;> rfl

end

theorem acts_accordForwardAccepted (hf : (s.p.accDesc node slot).forward = true) :
    let d := s.p.accDesc node slot
    let x := s.p.accSlot node slot
    let la := d.kind == kindLA96
    let cell (m n : Nat) : BitVec 105 := smGetD x.cells (m * 128 + n) 0
    let q := (contribPackets node 19 0 (BitVec.ofNat 64 d.w1) d.kind (bits d.w0 37 28)
      (x.hasFamily && s.p.flag F.ACC_SLOT_STATUS_family node slot) (la && !x.hasFamily)
      (s.p.flag F.ACC_SLOT_STATUS_poison node slot) (fun m n => ((cell m n).setWidth 104).toNat)
      (fun m n => la && (cell m n).getLsbD 104)).foldl (fun p k => p.inject node k) s.p
    Acts (.accordForwardAccepted node slot) s
      ((if la then q else q.accOvf node slot d (s.p.flag F.ACC_SLOT_STATUS_overflow node slot) false).accToIdle node slot) := by
  intro d x la cell q
  have hflag : q.flag F.ACC_SLOT_STATUS_overflow node slot = s.p.flag F.ACC_SLOT_STATUS_overflow node slot :=
    foldl_leaves (fun p : Panel => p.flag F.ACC_SLOT_STATUS_overflow node slot) (f := fun p k => p.inject node k)
      (fun _ _ => rfl) _ s.p
  refine acts_of_exec rfl ((if_pos (by simp [ha, hs, h3, hf, accDelivering])).trans ?_)
  rw [← hflag]

end

section
variable (hd : s.p.flag F.PNW_DRAIN_STATUS_in_progress = false)
include hd

/-- A timeout outside a drain runs by the slot's state. -/
theorem acts_accordTimeout : 
    (s.p.accState node slot = 4 → Acts (.accordTimeout node slot) s (s.p.accToIdle node slot)) ∧
    (s.p.accState node slot = 1 → Acts (.accordTimeout node slot) s
      ((s.p.accError node slot F.ACC_ERR_incompletes 0x0308
        (some (s.p.fget F.ACC_SLOT_STATUS_packets node slot))).accToIdle node slot)) := by
  have hc : (s.p.hasAcc node && decide (slot < 64) && !s.p.flag F.PNW_DRAIN_STATUS_in_progress) = true := by simp [ha, hs, hd]
  refine ⟨fun h => acts_of_exec rfl ((if_pos hc).trans ?_), fun h => acts_of_exec rfl ((if_pos hc).trans (if_pos h))⟩
  exact (if_neg (by rw [h]; decide)).trans (if_pos h)

end

omit ha hs in
theorem acts_accordTimeout_drain (hd : s.p.flag F.PNW_DRAIN_STATUS_in_progress = true) :
    Acts (.accordTimeout node slot) s s.p := acts_of_exec rfl (if_neg (by simp [hd]))

end

/-- Settles O33: a lemma per command; the `deliveryEnd_` lemmas say how a delivery stands. -/
theorem accordsRun : Obligations.AccordsRun := by
  unfold Obligations.AccordsRun
  intro s node slot ha hs
  refine ⟨fun w v hw => ⟨acts_accDescWrite_busy ha hs hw, acts_accDescWrite_taken ha hs hw, fun hi h0 hb hv =>
      acts_accDescWrite_invalid ha hs hw hi h0 hb hv⟩, fun k => acts_accContrib ha, acts_accordCombineDone ha hs,
    fun h3 hf => ?_, acts_accordForwardAccepted ha hs, acts_accordTimeout ha hs, acts_accordTimeout_drain⟩
  exact ⟨acts_accordOutputAcked ha hs h3 hf, acts_accordOutputAcked_posted,
    fun e h => acts_accordDeliveryEnd ha hs h3 hf (deliveryEnd_rowFailed hf e h),
    fun e h hr hp => acts_accordDeliveryEnd ha hs h3 hf (deliveryEnd_done hf h hr e hp),
    fun e h hr hi hp => acts_accordDeliveryEnd ha hs h3 hf (deliveryEnd_postRefused hf h hr hi e hp),
    fun hr h => acts_accordDeliveryEnd_late ha hs h3 hf (deliveryEnd_rowsLate hf h hr),
    fun h hr hi hs' hp => acts_accordDeliveryEnd_late ha hs h3 hf (deliveryEnd_postLate hf h hr hi hs' hp)⟩

end Sys2Proof.Machine
end

section
/-! Zones that go down (R220, R327 to R336): eFuses, shutdowns, temperatures, the end of a drain, and the panel trip. -/

namespace Sys2Proof.Machine

/-! ### eFuses and shutdowns -/

/-- The zone's eFuse is latched. -/
def Panel.fuseLatched (p : Panel) (z : Nat) : Panel := { p with pwr := { p.pwr with efuse := insertAsc p.pwr.efuse z } }

section
variable {s : State} {z : Nat}

section
variable (hz : z < 14) (h44 : s.p.pwr.in44 = true) (he : s.p.pwr.efuse.contains z = false)
include hz h44 he

theorem acts_efuseOpen : Acts (.efuseOpen z) s
    (let p' := s.p.fuseLatched z
     if s.p.pwr.resetHeld then p'.fuseInReset z
     else if s.p.zoneState z = 1 ∨ s.p.zoneState z = 2 then p'.zoneLostNow z true else p'.setZoneState z 4) :=
  acts_of_exec rfl (if_pos (by rw [decide_eq_true hz, h44, he]; rfl))

theorem acts_efuseOpen_reset (hr : s.p.pwr.resetHeld = true) : Acts (.efuseOpen z) s ((s.p.fuseLatched z).fuseInReset z) :=
  (acts_efuseOpen hz h44 he).congr (if_pos hr)

theorem acts_efuseOpen_lost (hr : s.p.pwr.resetHeld = false) (h : s.p.zoneState z = 1 ∨ s.p.zoneState z = 2) :
    Acts (.efuseOpen z) s ((s.p.fuseLatched z).zoneLostNow z true) :=
  (acts_efuseOpen hz h44 he).congr ((if_neg (ne_true_of_eq_false hr)).trans (if_pos h))

theorem acts_efuseOpen_off (hr : s.p.pwr.resetHeld = false) (h1 : s.p.zoneState z ≠ 1) (h2 : s.p.zoneState z ≠ 2) :
    Acts (.efuseOpen z) s ((s.p.fuseLatched z).setZoneState z 4) :=
  (acts_efuseOpen hz h44 he).congr ((if_neg (ne_true_of_eq_false hr)).trans (if_neg (not_or.2 ⟨h1, h2⟩)))

end

/-- In a reset the zone's rails go down, with no register or report of it (R13, R327). -/
theorem fuseInReset_leaves (p : Panel) (z : Nat) : let q := (p.fuseLatched z).fuseInReset z
    (smSorted p.pwr.rails = true → q.railsUp z = 0) ∧ q.regs = p.regs ∧ q.reports = p.reports ∧
      q.pwr.efuse.contains z = true := by
  intro q
  have hrails : q.pwr.rails = smPut p.pwr.rails 0 z 0 := by
    show (Panel.fuseInReset _ z).pwr.rails = _
    unfold Panel.fuseInReset
    split_ifs <;> rfl
  have hfuse : q.pwr.efuse = insertAsc p.pwr.efuse z := by
    show (Panel.fuseInReset _ z).pwr.efuse = _
    unfold Panel.fuseInReset
    split_ifs <;> rfl
  refine ⟨fun hs => ?_, rfl, rfl, ?_⟩
  · rw [Panel.railsUp, hrails]
    exact smGetD_smPut_same hs 0 z 0
  · rw [hfuse, List.contains_iff_mem, mem_insertAsc]
    exact .inr rfl

theorem acts_zoneShutdownTimeout (hz : z < 14) (h : s.p.zoneState z = 2) :
    Acts (.zoneShutdownTimeout z) s (s.p.zoneLostNow z false) := acts_of_exec rfl (if_pos ⟨hz, h⟩)

theorem acts_zoneShutdownTimeout_done (h : s.p.zoneState z ≠ 2) : Acts (.zoneShutdownTimeout z) s s.p :=
  acts_of_exec rfl (if_neg fun hc => h hc.2)

end

/-! ### Temperature samples (R330 to R336) -/

/-- The thresholds before a flacon has loaded any (R331). -/
theorem thermLimits_default {p : Panel} (hf : p.bring.flacon = none) (h : p.get .PWR_THERM_LIMITS = 0) :
    p.throttleC = 95 ∧ p.shutdownC = 110 ∧ p.tripC = 118 := by
  have hd : (p.bring.flacon.isNone && p.get .PWR_THERM_LIMITS == 0) = true := by rw [hf, h]; rfl
  exact ⟨if_pos hd, if_pos hd, if_pos hd⟩

section
variable {p : Panel} {z t : Nat}

/-- A zone's temperature is held. -/
def Panel.tempHeld (p : Panel) (z t : Nat) : Panel := { p with pwr := { p.pwr with temps := smSet p.pwr.temps z t } }

/-- A held temperature is shown out of reset. -/
def Panel.tempShown (p : Panel) (z t : Nat) : Panel := if p.pwr.resetHeld then p else p.fput F.PWR_ZONE_STATUS_temp_c t 0 z

/-- What a sample does in q, where the thresholds and the temperature before it are those of p: a trip first, then the loss of
the zone, its shutdown, and what a zone that is on does below that. -/
def Panel.sampleActs (p q : Panel) (z t : Nat) (a b : Bool) : Panel :=
  let st := q.zoneState z
  if q.tripC ≤ t then q.panelTrip
  else if (st = 1 ∨ st = 2) ∧ p.shutdownC + 4 ≤ t then
    (if st = 1 then q.reportZone z 0x0404 clsPF else q).zoneLostNow z false
  else if st = 1 ∧ p.shutdownC ≤ t then q.zoneShutdown z
  else if st ≠ 1 then q
  else if 12 ≤ z then
    if p.throttleC ≤ t ∧ p.fget F.PWR_ZONE_STATUS_temp_c 0 z < p.throttleC then q.reportZone z 0x0403 clsInfo else q
  else q.heatPending z t a b

/-- Showing a temperature leaves the zone's state and the thresholds. -/
theorem tempShown_reads (hs : smSorted p.regs = true) (hz : z < 14) :
    (p.tempShown z t).zoneState z = p.zoneState z ∧ (p.tempShown z t).tripC = p.tripC := by
  unfold Panel.tempShown
  split
  · exact ⟨rfl, rfl⟩
  · refine ⟨Panel.fget_fput_field hs F.PWR_ZONE_STATUS_temp_c F.PWR_ZONE_STATUS_state t 0 z 0 rfl (by decide) (by decide)
      (by decide), ?_⟩
    have hget : (p.fput F.PWR_ZONE_STATUS_temp_c t 0 z).get .PWR_THERM_LIMITS = p.get .PWR_THERM_LIMITS :=
      Panel.get_put_reg hs _ (by decide) ⟨by decide, by omega, by decide⟩ ⟨by decide, by decide, by decide⟩
    unfold Panel.tripC Panel.thermLimit Panel.fget
    rw [hget]
    rfl

section
variable {q : Panel} {a b : Bool} {st : Nat}

theorem sampleActs_trips (h : q.tripC ≤ t) : p.sampleActs q z t a b = q.panelTrip := if_pos h

variable (hst : q.zoneState z = st) (ht : ¬q.tripC ≤ t)
include hst ht

/-- 4 °C over the shutdown limit a zone that is on is reported and lost. -/
theorem sampleActs_lost_on (h1 : st = 1) (h : p.shutdownC + 4 ≤ t) :
    p.sampleActs q z t a b = (q.reportZone z 0x0404 clsPF).zoneLostNow z false := by
  refine (if_neg ht).trans ((if_pos ⟨.inl (hst.trans h1), h⟩).trans ?_)
  rw [if_pos (hst.trans h1)]

/-- One that drains, and so has been reported, is lost. -/
theorem sampleActs_lost_draining (h2 : st = 2) (h : p.shutdownC + 4 ≤ t) :
    p.sampleActs q z t a b = q.zoneLostNow z false := by
  refine (if_neg ht).trans ((if_pos ⟨.inr (hst.trans h2), h⟩).trans ?_)
  rw [if_neg (by rw [hst, h2]; decide)]

theorem sampleActs_shutdown (h1 : st = 1) (h : p.shutdownC ≤ t) (h4 : t < p.shutdownC + 4) :
    p.sampleActs q z t a b = q.zoneShutdown z := by
  subst hst
  exact (if_neg ht).trans ((if_neg fun hc => Nat.not_le.2 h4 hc.2).trans (if_pos ⟨h1, h⟩))

/-- Below the shutdown limit a compute zone's changes are decided, and an edge zone's crossing of throttle is logged. -/
theorem sampleActs_cool (h1 : st = 1) (h : t < p.shutdownC) : p.sampleActs q z t a b =
    if 12 ≤ z then
      if p.throttleC ≤ t ∧ p.fget F.PWR_ZONE_STATUS_temp_c 0 z < p.throttleC then q.reportZone z 0x0403 clsInfo else q
    else q.heatPending z t a b := by
  subst hst
  exact (if_neg ht).trans ((if_neg fun hc => by omega).trans ((if_neg fun hc => Nat.not_le.2 h hc.2).trans
    (if_neg (not_not_intro h1))))

theorem sampleActs_off (h1 : st ≠ 1) (h : st = 2 → t < p.shutdownC + 4) : p.sampleActs q z t a b = q := by
  subst hst
  refine (if_neg ht).trans ((if_neg fun hc => ?_).trans ((if_neg fun hc => h1 hc.1).trans (if_pos h1)))
  exact Nat.not_le.2 (h (hc.1.resolve_left h1)) hc.2

end
end

section
variable {s : State} {z : Nat} {rs : List (BitVec 8)} {a b : Bool} (hz : z < 14) (h44 : s.p.pwr.in44 = true) (hne : rs ≠ [])
include hz h44 hne

theorem acts_zoneTempSample :
    let st := s.p.zoneState z
    let t := (if st = 1 ∨ st = 2 then s.p.heldReadings z else []).foldl max (rs.foldl (fun (a : Nat) r => max a r.toNat) 0)
    let held := s.p.tempHeld z t
    Acts (.zoneTempSample z rs a b) s (held.sampleActs (held.tempShown z t) z t a b) :=
  acts_of_exec rfl (if_pos (by simp [hz, h44, hne]))

end

/-! ### The end of a drain -/

section
variable {s : State}

theorem acts_drainRoutersEmpty (hd : s.p.flag F.PNW_DRAIN_STATUS_in_progress = true) (hh : s.p.swapHeld = false)
    (he : ∀ n ∈ s.p.routers, s.p.poolEmpty n = true) :
    let p1 := (s.p.swapTables).finishDraining
    let p2 := p1.routers.foldl (fun (p : Panel) n => p.fput F.PNW_POOL_STATUS_paused 0 n) p1
    let q := (((p2.draw 51).2.fput F.PNW_DRAIN_STATUS_last_pause_us (p2.draw 51).1).fput
      F.PNW_DRAIN_STATUS_in_progress 0).addWrap F.PNW_DRAIN_STATUS_drains 1
    Acts .drainRoutersEmpty s (q.net.held.foldl Panel.access { q with net := { q.net with held := [] } }) :=
  acts_of_exec rfl (if_neg (by rw [hd, hh, List.all_eq_true.2 he]; decide))

/-- A drain that does not run, waits for its tables, or has a packet in a router does not end. -/
theorem acts_drainRoutersEmpty_goesOn (h : s.p.flag F.PNW_DRAIN_STATUS_in_progress = false ∨ s.p.swapHeld = true ∨
    ∃ n ∈ s.p.routers, s.p.poolEmpty n = false) : Acts .drainRoutersEmpty s s.p := by
  refine acts_of_exec rfl (if_pos ?_)
  obtain hd | hh | ⟨n, hn, he⟩ := h
  · simp [hd]
  · simp [hh]
  · have hall : s.p.routers.all s.p.poolEmpty = false := List.all_eq_false.2 ⟨n, hn, by rw [he]; decide⟩
    simp [hall]

end

/-! ### The panel trip (R336) -/

section
variable (p : Panel)

/-- What a panel trip shows: the trip, the reports and the zones lost. -/
def Panel.tripShown : Bool × List (Nat × Report) × List Nat := (p.pwr.trip, p.reports, p.bring.zonesLost)

variable {γ : Type} (g : Panel → γ) (hg : ∀ (q : Panel) r v u i j, g (q.put r v u i j) = g q)
include hg

/-- What writes of registers leave, new routes leave. -/
theorem Panel.writeRoutes_leaves (shadow : Bool) : g (p.writeRoutes shadow) = g p := by
  unfold writeRoutes
  extract_lets reg none' _ _ _ q
  have hq : g q = g p := foldl_leaves g (fun q _ => foldl_leaves g (fun _ _ => hg ..) _ q) _ p
  refine (foldl_leaves g (fun q _ => ?_) _ q).trans hq
  exact (foldl_leaves g (fun _ _ => hg ..) _ _).trans (hg ..)

theorem Panel.writePorts_leaves : g p.writePorts = g p :=
  foldl_leaves g (fun q _ => foldl_leaves g (fun _ _ => by simp only [fput, hg]) _ q) _ p

end

theorem noChange_tripShown (p : Panel) (z : Nat) : (p.noChange z).tripShown = p.tripShown := by
  unfold Panel.noChange
  extract_lets
  split <;> rfl

/-- A compute zone that goes down joins the zones lost, with no report. -/
theorem computeZoneDown_tripShown (p : Panel) (z st : Nat) :
    (p.computeZoneDown z st).tripShown = (p.pwr.trip, p.reports, insertAsc p.bring.zonesLost z) := by
  unfold Panel.computeZoneDown
  extract_lets _ p1 p2 _ p3 p4 _ p5 p6 p7 _ p8 p9
  have h3 : p3.tripShown = p.tripShown := noChange_tripShown p z
  have h4 : p4.tripShown = p3.tripShown :=
    foldl_leaves Panel.tripShown (fun q _ => foldl_leaves Panel.tripShown (fun _ _ => by rfl) _ q) _ p3
  have h5 : p5.tripShown = p4.tripShown :=
    foldl_leaves Panel.tripShown (fun q _ => foldl_leaves Panel.tripShown (fun _ _ => by rfl) _ q) _ p4
  have h7 : p7.tripShown = p5.tripShown := foldl_leaves Panel.tripShown (fun _ _ => by rfl) _ p6
  have h9 : p9.tripShown = p8.tripShown :=
    (Panel.writeRoutes_leaves _ Panel.tripShown (fun _ _ _ _ _ _ => by rfl) _).trans
      (Panel.writePorts_leaves _ Panel.tripShown fun _ _ _ _ _ _ => by rfl)
  have h := h7.trans (h5.trans (h4.trans h3))
  simp only [Panel.tripShown, Prod.mk.injEq] at h
  obtain ⟨ht, hr, hz⟩ := h
  rw [← ht, ← hr, ← hz]
  clear_value p7 p9
  exact h9

section
variable {p : Panel}

theorem foldl_computeZoneDown_tripShown (st : Nat) (l : List Nat) (q : Panel) :
    (l.foldl (fun q z => q.computeZoneDown z st) q).tripShown = (q.pwr.trip, q.reports, addAll q.bring.zonesLost l) := by
  induction l generalizing q with
  | nil => rfl
  | cons z l ih =>
    have h := computeZoneDown_tripShown q z st
    simp only [Panel.tripShown, Prod.mk.injEq] at h
    obtain ⟨ht, hr, hz⟩ := h
    rw [List.foldl_cons, ih, ht, hr, hz]
    rfl

variable (ht : p.pwr.trip = false)
include ht

/-- In a reset only the trip itself is left of it. -/
theorem panelTrip_reset (hr : p.pwr.resetHeld = true) : p.panelTrip = { p with pwr := { p.pwr with trip := true } } :=
  (if_neg (ne_true_of_eq_false ht)).trans (if_pos hr)

/-- Out of reset it is reported, and the compute zones that were on are lost. -/
theorem panelTrip_tripShown (hr : p.pwr.resetHeld = false) :
    let r := ({ p with pwr := { p.pwr with trip := true } } : Panel).reportPanel p.primaryHub 0x0406 clsPF
    p.panelTrip.tripShown = (true, r.reports,
      addAll p.bring.zonesLost (upTo 12 fun z => p.zoneState z == zoneOn || p.zoneState z == zoneDraining)) := by
  intro r
  have he : p.panelTrip = _ := (if_neg (ne_true_of_eq_false ht)).trans (if_neg (ne_true_of_eq_false hr))
  rw [he]
  refine (foldl_leaves Panel.tripShown (fun _ _ => by rfl) _ _).trans ?_
  exact foldl_computeZoneDown_tripShown zoneOff _ r

end

/-- Settles O40: a lemma per command and per case of a sample, and what a panel trip leaves. -/
theorem zonesGoDown : Obligations.ZonesGoDown := by
  unfold Obligations.ZonesGoDown
  intro s p
  refine ⟨fun z hz h44 he => ⟨fun hr => ⟨_, acts_efuseOpen_reset hz h44 he hr, fuseInReset_leaves s.p z⟩,
      fun hr => ⟨acts_efuseOpen_lost hz h44 he hr, acts_efuseOpen_off hz h44 he hr⟩⟩,
    fun z => acts_zoneShutdownTimeout, fun z => acts_zoneShutdownTimeout_done, fun z rs a b hz h44 hne hs => ?_,
    acts_drainRoutersEmpty, acts_drainRoutersEmpty_goesOn, ?_, thermLimits_default⟩
  · intro st t held q shut
    have h := acts_zoneTempSample (a := a) (b := b) hz h44 hne
    obtain ⟨hst, htrip⟩ := tempShown_reads (p := held) (t := t) hs hz
    refine ⟨fun hc => h.congr (sampleActs_trips (htrip.le.trans hc)), fun hc => ?_⟩
    have hc' : ¬(held.tempShown z t).tripC ≤ t := fun hn => Nat.not_le.2 hc (htrip.ge.trans hn)
    exact ⟨fun h1 h4 => h.congr (sampleActs_lost_on hst hc' h1 h4),
      fun h2 h4 => h.congr (sampleActs_lost_draining hst hc' h2 h4),
      fun h1 hs h4 => h.congr (sampleActs_shutdown hst hc' h1 hs h4),
      fun h1 hl h12 => h.congr ((sampleActs_cool hst hc' h1 hl).trans (if_neg (Nat.not_le.2 h12))),
      fun h1 hl h12 => h.congr ((sampleActs_cool hst hc' h1 hl).trans (if_pos h12)),
      fun h1 hl => h.congr (sampleActs_off hst hc' h1 hl)⟩
  · refine fun ht => ⟨?_, fun hr => ?_⟩
    · cases hr : p.pwr.resetHeld with
      | true => rw [panelTrip_reset ht hr]
      | false => exact congrArg Prod.fst (panelTrip_tripShown ht hr)
    · have h := congrArg Prod.snd (panelTrip_tripShown ht hr)
      obtain ⟨hrep, hlost⟩ := Prod.ext_iff.1 h
      dsimp only [Panel.tripShown] at hrep hlost
      refine ⟨⟨_, _, by rw [hrep]; exact List.mem_append_right _ List.mem_cons_self, rfl, rfl⟩, fun z hz hs => ?_⟩
      rw [hlost, mem_addAll, mem_upTo]
      exact .inr ⟨hz, by rcases hs with hs | hs <;> simp [hs, zoneOn, zoneDraining]⟩

end Sys2Proof.Machine
end

section
/-! The host ports (R220, R435 to R439, R445, R447): the lease, the links, D3hot and the BAR2 window. -/

namespace Sys2Proof.Machine

/-! ### The lease (R439) -/

section
variable {s : State} {host : Bool}

section
variable (hu : s.p.leaseUp = true)
include hu

theorem acts_lease_free (h : s.p.fget F.PCI_LEASE_holder = 0) :
    Acts (.leaseAcquire host) s (s.p.setHolder (if host then 2 else 1)) ∧ Acts .leaseExpire s s.p :=
  ⟨acts_of_exec rfl ((if_pos hu).trans (if_pos h)), acts_of_exec rfl (if_neg (by simp [h, leaseNone]))⟩

theorem acts_lease_taken (h : s.p.fget F.PCI_LEASE_holder ≠ 0) :
    Acts (.leaseAcquire host) s s.p ∧ Acts .leaseExpire s (s.p.setHolder 0) :=
  ⟨acts_of_exec rfl ((if_pos hu).trans (if_neg h)), acts_of_exec rfl (if_pos (by simp [hu, h, leaseNone]))⟩

theorem acts_lease_held (h : s.p.holdsLease host = true) :
    Acts (.leaseRenew host) s (s.p.fput F.PCI_LEASE_remaining_ms 1000) ∧ Acts (.leaseRelease host) s (s.p.setHolder 0) :=
  ⟨acts_of_exec rfl ((if_pos hu).trans (if_pos h)), acts_of_exec rfl ((if_pos hu).trans (if_pos h))⟩

theorem acts_lease_notHeld (h : s.p.holdsLease host = false) :
    Acts (.leaseRenew host) s s.p ∧ Acts (.leaseRelease host) s s.p :=
  ⟨acts_of_exec rfl ((if_pos hu).trans (if_neg (ne_true_of_eq_false h))),
    acts_of_exec rfl ((if_pos hu).trans (if_neg (ne_true_of_eq_false h)))⟩

end

theorem acts_lease_down (h : s.p.leaseUp = false) :
    ∀ i ∈ ([.leaseAcquire host, .leaseRenew host, .leaseRelease host, .leaseExpire] : List Instr), Acts i s s.p := by
  have hn : ¬s.p.leaseUp = true := ne_true_of_eq_false h
  simp only [List.forall_mem_cons]
  exact ⟨acts_of_exec rfl (if_neg hn), acts_of_exec rfl (if_neg hn), acts_of_exec rfl (if_neg hn),
    acts_of_exec rfl (if_neg (by simp [h])), by simp⟩

/-! ### Links (R435, R445, R447) -/

theorem acts_link_down {c : PciCommand} (h : s.p.hubUp (portHub host) = false) :
    ∀ i ∈ ([.pcieLinkReset host, .pcieLinkReturn host, .configurationWrite host c] : List Instr), Acts i s s.p := by
  simp only [List.forall_mem_cons]
  exact ⟨acts_of_exec rfl (if_neg (ne_true_of_eq_false h)), acts_of_exec rfl (if_pos (by rw [h]; rfl)),
    acts_of_exec rfl (if_pos (by rw [h]; rfl)), by simp⟩

section
variable (hu : s.p.hubUp (portHub host) = true)
include hu

theorem acts_pcieLinkReset : Acts (.pcieLinkReset host) s (s.p.linkReset host) := acts_of_exec rfl (if_pos hu)

theorem acts_pcieLinkReturn :
    let h := portHub host
    let w := s.p.draw 5
    let x := w.2.draw 6
    let q := (((x.2.fput F.PCI_PORT_STATUS_width w.1 h).fput F.PCI_PORT_STATUS_speed x.1 h).fput F.PCI_PORT_STATUS_link_up 1 h).fput
      F.PCI_PORT_STATUS_bus_master 1 h
    Acts (.pcieLinkReturn host) s ((q.modPort host fun y => { y with d3hot := false }).portServes host) :=
  acts_of_exec rfl (if_neg (by rw [hu]; decide))

variable {c : PciCommand}

omit hu in
theorem acts_configurationWrite_untrained (h : s.p.flag F.PCI_PORT_STATUS_link_up (portHub host) = false) :
    Acts (.configurationWrite host c) s s.p :=
  acts_of_exec rfl (if_pos (by rw [h, Bool.not_false, Bool.or_true]))

variable (hl : s.p.flag F.PCI_PORT_STATUS_link_up (portHub host) = true)
include hl

theorem acts_configurationWrite : Acts (.configurationWrite host c) s
    (if c.d3hot then (if (s.p.port host).d3hot then s.p else s.p.portReset host true)
    else ((s.p.fput F.PCI_PORT_STATUS_bus_master (b2n c.busMaster) (portHub host)).modPort host
      fun y => { y with d3hot := false }).portServes host) :=
  acts_of_exec rfl (if_neg (by rw [hu, hl]; decide))

/-- In D0 the host switches bus mastering. -/
theorem acts_configurationWrite_d0 (h : c.d3hot = false) : Acts (.configurationWrite host c) s
    (((s.p.fput F.PCI_PORT_STATUS_bus_master (if c.busMaster then 1 else 0) (portHub host)).modPort host
      fun y => { y with d3hot := false }).portServes host) := by
  exact (acts_configurationWrite hu hl).congr (if_neg (ne_true_of_eq_false h))

theorem acts_configurationWrite_d3hot (h : c.d3hot = true) :
    ((s.p.port host).d3hot = true → Acts (.configurationWrite host c) s s.p) ∧
      ((s.p.port host).d3hot = false → Acts (.configurationWrite host c) s (s.p.portReset host true)) :=
  ⟨fun hd => (acts_configurationWrite hu hl).congr ((if_pos h).trans (if_pos hd)),
    fun hd => (acts_configurationWrite hu hl).congr ((if_pos h).trans (if_neg (ne_true_of_eq_false hd)))⟩

end

theorem acts_hostLossTimeout (ht : (s.p.port host).lossTimer = true)
    (h : s.p.flag F.PCI_PORT_STATUS_link_up (portHub host) = false ∨ (s.p.port host).d3hot = true) :
    Acts (.hostLossTimeout host) s (s.p.loseHost host) := by
  refine acts_of_exec rfl (if_pos ?_)
  rcases h with h | h <;> simp [Panel.linkServes, ht, h]

theorem acts_hostLossTimeout_ignored (h : (s.p.port host).lossTimer = false ∨
    (s.p.flag F.PCI_PORT_STATUS_link_up (portHub host) = true ∧ (s.p.port host).d3hot = false)) :
    Acts (.hostLossTimeout host) s s.p := by
  refine acts_of_exec rfl (if_neg ?_)
  rcases h with h | ⟨hl, hd⟩
  · simp [h]
  · simp [Panel.linkServes, hl, hd]

end

/-! ### What a reset of the port leaves of its status (R435, R447) -/

section
variable {host host' : Bool} {w : W64} {p q : Panel}

/-- The registers are listed in order, and the port's status register reads w. -/
def PortStatusIs (host : Bool) (w : W64) (p : Panel) : Prop :=
  smSorted p.regs = true ∧ p.get .PCI_PORT_STATUS (portHub host) = w

theorem portHub_lt (host : Bool) : portHub host < 4 := by cases host <;> decide

theorem modPort_regs (p : Panel) (host : Bool) (f : Port → Port) : (p.modPort host f).regs = p.regs := by
  cases host <;> rfl

theorem PortStatusIs.of_regs (h : PortStatusIs host w p) (e : q.regs = p.regs) : PortStatusIs host w q :=
  ⟨e ▸ h.1, (Panel.get_congr e ..).trans h.2⟩

theorem PortStatusIs.ite {c : Prop} [Decidable c] (hp : PortStatusIs host w p) (hq : PortStatusIs host w q) :
    PortStatusIs host w (if c then p else q) := by
  split
  · exact hp
  · exact hq

theorem PortStatusIs.put (h : PortStatusIs host w p) {r : Reg} (hr : Reg.PCI_PORT_STATUS ≠ r) (v : W64) (host' : Bool) :
    PortStatusIs host w (p.put r v (portHub host')) := by
  have file (b : Bool) : InFile (portHub b) 0 0 := ⟨(portHub_lt b).trans (by decide), by decide, by decide⟩
  exact ⟨Panel.sorted_put h.1 .., (Panel.get_put_reg h.1 v hr (file host') (file host)).trans h.2⟩

theorem PortStatusIs.fput (h : PortStatusIs host w p) {f : RField} (hf : Reg.PCI_PORT_STATUS ≠ f.reg) (v : Nat) (host' : Bool) :
    PortStatusIs host w (p.fput f v (portHub host')) := h.put hf _ host'

theorem PortStatusIs.modPort (h : PortStatusIs host w p) (f : Port → Port) : PortStatusIs host w (p.modPort host' f) :=
  h.of_regs (modPort_regs ..)

theorem PortStatusIs.sendVector (h : PortStatusIs host w p) (v : Nat) : PortStatusIs host w (p.sendVector host' v) := by
  have he : PortStatusIs host w (p.emit (.msix host' v)) := h.of_regs rfl
  exact .ite (.ite (he.fput (by decide) _ host') he) (h.modPort _)

theorem PortStatusIs.showStore (h : PortStatusIs host w p) : PortStatusIs host w (p.showStore host') := by
  have hh : PortStatusIs host w (p.fput F.PCI_CSTORE_held (min 131072 (p.port host').store.length) (portHub host')) :=
    h.fput (by decide) _ host'
  exact .ite (hh.fput (by decide) _ host') hh

theorem PortStatusIs.hostLost (h : PortStatusIs host w p) : PortStatusIs host w (p.hostLost host') := by
  have h1 := (h.modPort (host' := host') fun x => { x with store := [], lossDue := false, lossTimer := false }).showStore
    (host' := host')
  have h2 := h1.fput (f := F.PCI_CSTORE_host_lost) (by decide) 1 host'
  exact .ite ((h2.fput (f := F.PCI_EVENT_COUNT_host_lost) (by decide) _ (!host')).sendVector 0) h2

theorem PortStatusIs.loseHost (h : PortStatusIs host w p) : PortStatusIs host w (p.loseHost host') :=
  .ite h.hostLost (h.modPort _)

theorem PortStatusIs.storeFull (h : PortStatusIs host w p) : PortStatusIs host w (p.storeFull host') := by
  have hw (v : Nat) : PortStatusIs host w (p.fput F.PCI_CSTORE_cq_wait v (portHub host')) := h.fput (by decide) v host'
  exact .ite (.ite (hw 1) h) (.ite (hw 0).loseHost (hw 0))

theorem PortStatusIs.flag (h : PortStatusIs host (q.get .PCI_PORT_STATUS (portHub host)) p) {f : RField}
    (hf : f.reg = .PCI_PORT_STATUS) : p.flag f (portHub host) = q.flag f (portHub host) := by
  rw [Panel.flag, Panel.fget, hf, h.2, Panel.flag, Panel.fget, hf]

/-- A reset of the port ends bus mastering and leaves the link as it is. -/
theorem portReset_status (hs : smSorted p.regs = true) (d3hot : Bool) : let q := p.portReset host d3hot
    q.flag F.PCI_PORT_STATUS_link_up (portHub host) = p.flag F.PCI_PORT_STATUS_link_up (portHub host) ∧
      q.flag F.PCI_PORT_STATUS_bus_master (portHub host) = false := by
  intro q
  have h1 := Panel.sorted_fput hs F.PCI_PORT_STATUS_bus_master 0 (portHub host) 0 0
  have hq : PortStatusIs host (((p.fput F.PCI_PORT_STATUS_bus_master 0 (portHub host)).addWrap F.PCI_PORT_STATUS_link_resets 1
      (portHub host)).get .PCI_PORT_STATUS (portHub host)) q :=
    ((PortStatusIs.put ⟨Panel.sorted_fput h1 .., rfl⟩ (r := .PCI_BAR2_BASE) (by decide) _ host).modPort _).storeFull
  have hkept (f : RField) (hf : f.reg = .PCI_PORT_STATUS) (hd : f.hi < 32) : q.flag f (portHub host) =
      (p.fput F.PCI_PORT_STATUS_bus_master 0 (portHub host)).flag f (portHub host) :=
    (hq.flag hf).trans (flag_fput_field h1 F.PCI_PORT_STATUS_link_resets f _ _ 0 0 hf (by omega) (.inl hd) (by decide))
  rw [hkept _ rfl (by decide), hkept _ rfl (by decide)]
  exact ⟨flag_fput_field hs F.PCI_PORT_STATUS_bus_master F.PCI_PORT_STATUS_link_up _ _ 0 0 rfl (by decide) (by decide)
      (by decide),
    flag_fput hs F.PCI_PORT_STATUS_bus_master false _ 0 0 (by decide) rfl⟩

end

/-! ### BAR2 (R436 to R438) -/

section
variable {s : State} {host : Bool}

/-- A TLP behind one that the hub holds waits with it (R220). -/
theorem acts_bar2_held (h : (s.p.net.held.any fun x => heldHost x == host) = true) :
    (∀ off len, Acts (.bar2ReadTlp host off len) s
      { s.p with net := { s.p.net with held := s.p.net.held ++ [.bar2Read host off len] } }) ∧
    (∀ off data pz, Acts (.bar2WriteTlp host off data pz) s
      { s.p with net := { s.p.net with held := s.p.net.held ++ [.bar2Write host off data pz] } }) :=
  ⟨fun _ _ => acts_of_exec rfl (if_pos h), fun _ _ _ => acts_of_exec rfl (if_pos h)⟩

section
variable (hh : (s.p.net.held.any fun x => heldHost x == host) = false) {off len : Nat} {data : List Byte} {pz : Bool}
include hh

theorem acts_bar2Read : Acts (.bar2ReadTlp host off len) s (s.p.bar2Read host off len) :=
  acts_of_exec rfl (if_neg (ne_true_of_eq_false hh))

theorem acts_bar2Write : Acts (.bar2WriteTlp host off data pz) s (s.p.bar2Write host off data pz) :=
  acts_of_exec rfl (if_neg (ne_true_of_eq_false hh))

end

section
variable {p : Panel} {off len : Nat} (hl : p.barLive host off len (2 ^ 36) = true) (hn : len ≤ 4096)
include hl hn

/-- A read in the bounds of a TLP, by the status of its access. -/
theorem bar2Read_live : p.bar2Read host off len =
    let pa := p.bar2Addr host off
    let st := p.accessStatus pa len
    if inRegs pa ∨ st = 1 then (p.modPort host fun x => { x with aerUr := x.aerUr + 1 }).emit (.unsupported host)
    else if st ≠ 0 then (p.modPort host fun x => { x with aerCa := x.aerCa + 1 }).emit (.completerAbort host)
    else
      let r := p.readRange pa len
      r.2.2.emit (.readData host r.1 r.2.1) := by
  rw [Panel.bar2Read, Panel.onBar_live hl, if_neg (Nat.not_lt.2 hn)]

end

section
variable {p : Panel} {off : Nat} {data : List Byte} {pz : Bool} (hl : p.barLive host off data.length (2 ^ 36) = true)
  (hn : data.length ≤ 512)
include hl hn

/-- A write in the bounds of a TLP, by the status of its access; a poisoned one is counted. -/
theorem bar2Write_live : p.bar2Write host off data pz =
    let q := if pz then p.modPort host fun x => { x with aerPoison := x.aerPoison + 1 } else p
    let pa := q.bar2Addr host off
    let st := q.accessStatus pa data.length
    if inRegs pa ∨ st = 1 then q.modPort host fun x => { x with aerUr := x.aerUr + 1 }
    else if st ≠ 0 then q
    else q.storePa pa (data.map (·, pz)) := by
  rw [Panel.bar2Write, Panel.onBar_live hl, if_neg (Nat.not_lt.2 hn)]

end

end

/-- Settles O48: a lemma per command and case; `portReset_status` for D3hot, `bar2Read_live` and `bar2Write_live` for the window. -/
theorem hostPortsRun : Obligations.HostPortsRun := by
  unfold Obligations.HostPortsRun
  intro s host p h serves fatal
  refine ⟨fun hu => ⟨acts_lease_free hu, acts_lease_taken hu, acts_lease_held hu, acts_lease_notHeld hu⟩, acts_lease_down,
    fun hu c => acts_link_down hu, fun hu => ⟨acts_pcieLinkReset hu, acts_pcieLinkReturn hu, fun c => ⟨fun hl => ?_,
      acts_configurationWrite_untrained⟩⟩, acts_hostLossTimeout, acts_hostLossTimeout_ignored, acts_bar2_held, fun hh => ?_⟩
  · refine ⟨acts_configurationWrite_d0 hu hl, fun hd => (acts_configurationWrite_d3hot hu hl hd).1,
      fun hd hn => ⟨(acts_configurationWrite_d3hot hu hl hd).2 hn, fun hs => ?_⟩⟩
    obtain ⟨hup, hbm⟩ := portReset_status (host := host) hs true
    exact ⟨hup.trans hl, hbm⟩
  · refine ⟨fun off len hb => (acts_bar2Read hh).congr (Panel.onBar_dead hb),
      fun off data pz hb => (acts_bar2Write hh).congr (Panel.onBar_dead hb),
      fun off len hb hn => (acts_bar2Read hh).congr ((Panel.onBar_live hb).trans (if_pos hn)),
      fun off data pz hb hn => (acts_bar2Write hh).congr ((Panel.onBar_live hb).trans (if_pos hn)),
      fun off len hb hn => ?_, fun off data pz hb hn => ?_⟩
    · have hr := (acts_bar2Read hh).congr (bar2Read_live hb hn)
      exact ⟨fun hu => hr.congr (if_pos hu),
        fun hi h1 h0 => hr.congr ((if_neg (not_or.2 ⟨ne_true_of_eq_false hi, h1⟩)).trans (if_pos h0)),
        fun hi h0 => hr.congr ((if_neg (not_or.2 ⟨ne_true_of_eq_false hi, fun h1 => Nat.zero_ne_one (h0.symm.trans h1)⟩)).trans
          (if_neg (not_not_intro h0)))⟩
    · have hw := (acts_bar2Write (pz := pz) hh).congr (bar2Write_live hb hn)
      exact ⟨fun hu => hw.congr (if_pos hu),
        fun hi h1 h0 => hw.congr ((if_neg (not_or.2 ⟨ne_true_of_eq_false hi, h1⟩)).trans (if_pos h0)),
        fun hi h0 => hw.congr ((if_neg (not_or.2 ⟨ne_true_of_eq_false hi, fun h1 => Nat.zero_ne_one (h0.symm.trans h1)⟩)).trans
          (if_neg (not_not_intro h0)))⟩

end Sys2Proof.Machine
end

section
/-! The request engine's steps and cold moves (R256 to R276, R301, R383): what a command of a step acts as, by the phase of the
step in progress. -/

namespace Sys2Proof.Machine

/-! ### Formation (R256) -/

section
variable {s : State} {hub : Nat}

/-- What holds the formation of the next step back. -/
def Panel.formBarred (p : Panel) (hub : Nat) : Prop :=
  (p.eng hub).step.isSome = true ∨ (p.eng hub).draining = true ∨ (p.eng hub).frozen = true ∨
    p.flag F.PCI_CSTORE_cq_wait 0 = true ∨ p.flag F.PCI_CSTORE_cq_wait 3 = true

theorem acts_stepForm_barred (hb : s.p.formBarred hub) : Acts (.stepForm hub) s s.p :=
  acts_of_exec rfl (if_pos (.inr (.inr hb)))

section
variable (ha : s.p.role hub = roleActive) (hu : s.p.hubUp hub = true)
include ha hu

theorem acts_stepForm (hb : ¬s.p.formBarred hub) :
    let n := s.p.fget F.RQE_STEP_committed hub + 1
    Acts (.stepForm hub) s ((if s.p.replaying hub then s.p.replayForm hub n else s.p.serveForm hub n).showEngine hub) := by
  refine acts_of_exec rfl (if_neg ?_)
  rintro (h | h | h)
  · exact h ha
  · rw [hu] at h
    cases h
  · exact hb h

theorem acts_stepForm_serving (hb : ¬s.p.formBarred hub) (hr : s.p.replaying hub = false) :
    Acts (.stepForm hub) s ((s.p.serveForm hub (s.p.fget F.RQE_STEP_committed hub + 1)).showEngine hub) :=
  (acts_stepForm ha hu hb).congr (by rw [if_neg (ne_true_of_eq_false hr)])

theorem acts_stepForm_replaying (hb : ¬s.p.formBarred hub) (hr : s.p.replaying hub = true) :
    Acts (.stepForm hub) s ((s.p.replayForm hub (s.p.fget F.RQE_STEP_committed hub + 1)).showEngine hub) :=
  (acts_stepForm ha hu hb).congr (by rw [if_pos hr])

end

end

/-! ### What a poll of the done record does (R264, R273, R275) -/

/-- What the engine does once it has read the done record, by the phase of the attempt. -/
def Panel.pollRead (p : Panel) (hub : Nat) (r : StepRec) : Option (Nat × Nat × Bool) → Panel
  | none => p
  | some (att, st, pz) =>
    match r.phase with
    | .running =>
      if att ≠ r.attempt.toNat then p
      else if pz then (p.reportPanel hub 0x0502 clsInfo (some 0)).abortAttempt hub
      else if st = 0 then p.readResults hub r
      else p.nextAttempt hub
    | .aborting =>
      if st = 2 ∧ !pz ∧ (att = r.attempt.toNat ∨ r.takeover) then
        if r.takeover then p.modStep hub fun x => { x with phase := .formed, takeover := false } else p.nextAttempt hub
      else p
    | _ => p

theorem pollDone_eq_pollRead (p : Panel) (hub : Nat) (r : StepRec) :
    p.pollDone hub r = (p.doneRecord r).2.pollRead hub r (p.doneRecord r).1 := by
  refine of_text (fun f => f p hub r = (p.doneRecord r).2.pollRead hub r (p.doneRecord r).1) (f := Panel.pollDone)
    (by delta Panel.pollDone; rfl) ?_
  generalize p.doneRecord r = d
  obtain ⟨_ | x, q⟩ := d <;> rfl

section
variable {p : Panel} {hub : Nat} {r : StepRec} {att st : Nat} {pz : Bool}

theorem pollRead_none : p.pollRead hub r none = p := rfl

theorem pollRead_running (hp : r.phase = .running) :
    (att ≠ r.attempt.toNat → p.pollRead hub r (some (att, st, pz)) = p) ∧
    (att = r.attempt.toNat → pz = true →
      p.pollRead hub r (some (att, st, pz)) = (p.reportPanel hub 0x0502 clsInfo (some 0)).abortAttempt hub) ∧
    (att = r.attempt.toNat → pz = false → st = 0 → p.pollRead hub r (some (att, st, pz)) = p.readResults hub r) ∧
    (att = r.attempt.toNat → pz = false → st ≠ 0 → p.pollRead hub r (some (att, st, pz)) = p.nextAttempt hub) := by
  unfold Panel.pollRead
  dsimp only
  rw [hp]
  exact ⟨fun hn => if_pos hn, fun he hz => (if_neg (not_not_intro he)).trans (if_pos hz),
    fun he hz h0 => (if_neg (not_not_intro he)).trans ((if_neg (ne_true_of_eq_false hz)).trans (if_pos h0)),
    fun he hz h0 => (if_neg (not_not_intro he)).trans ((if_neg (ne_true_of_eq_false hz)).trans (if_neg h0))⟩

section
variable (hp : r.phase = .aborting)
include hp

/-- An ABORTED record ends the wait of the attempt it is of, and that of a takeover whatever attempt it is of. -/
theorem pollRead_aborted (h2 : st = 2) (hz : pz = false) :
    (r.takeover = true → p.pollRead hub r (some (att, st, pz)) =
      p.modStep hub fun x => { x with phase := .formed, takeover := false }) ∧
    (r.takeover = false → att = r.attempt.toNat → p.pollRead hub r (some (att, st, pz)) = p.nextAttempt hub) ∧
    (r.takeover = false → att ≠ r.attempt.toNat → p.pollRead hub r (some (att, st, pz)) = p) := by
  have hz' : (!pz) = true := by rw [hz]; rfl
  unfold Panel.pollRead
  dsimp only
  rw [hp]
  exact ⟨fun ht => (if_pos ⟨h2, hz', .inr ht⟩).trans (if_pos ht),
    fun ht he => (if_pos ⟨h2, hz', .inl he⟩).trans (if_neg (ne_true_of_eq_false ht)),
    fun ht he => if_neg fun ⟨_, _, hor⟩ => hor.elim he (ne_true_of_eq_false ht)⟩

theorem pollRead_notAborted (hn : st ≠ 2 ∨ pz = true) : p.pollRead hub r (some (att, st, pz)) = p := by
  unfold Panel.pollRead
  dsimp only
  rw [hp]
  refine if_neg fun ⟨h2, hz, _⟩ => ?_
  rcases hn with hn | hn
  · exact hn h2
  · rw [hn] at hz
    cases hz

end

end

/-! ### What a commit does (R265, R266, R293) -/

section
variable {p : Panel} {hub : Nat} {r : StepRec}

theorem commitStep_waiting (h : p.mayCommit r = false) : p.commitStep hub r = p :=
  if_pos (by rw [h]; rfl)

section
variable (h : p.mayCommit r = true)
include h

theorem commitStep_plain (hd : p.flag F.RQE_ILOG_CONFIG_commit_digest = false ∨ p.replaying hub = true) :
    p.commitStep hub r = p.applyCommit hub r := by
  rw [Panel.commitStep, if_neg (by rw [h]; decide), if_neg]
  rcases hd with hd | hd <;> simp [hd]

theorem commitStep_recorded (hd : p.flag F.RQE_ILOG_CONFIG_commit_digest = true) (hr : p.replaying hub = false) :
    let t := p.tryRecord recCommitDigest r.n (toBytes 8 (r.entries.length % 2 ^ 13) ++ digestBE r.digest)
    p.commitStep hub r = if t.2 then t.1.applyCommit hub r else t.1 := by
  rw [Panel.commitStep, if_neg (by rw [h]; decide), if_pos (by rw [hd, hr]; rfl)]

end

end

/-! ### The commands of the step in progress -/

section
variable {s : State} {hub : Nat} {r : StepRec} (ha : s.p.role hub = roleActive) (hu : s.p.hubUp hub = true)
  (hr : (s.p.eng hub).step = some r)
include ha hu hr

/-- A command of the step in progress acts on the active engine's step. -/
theorem acts_onStep {i : Instr} {f : Panel → StepRec → Panel} {q : Panel}
    (he : exec i s = .next (s.upd fun p => p.onStep hub f)) (hf : f s.p r = q) : Acts i s q := by
  refine acts_of_exec he ?_
  rw [Panel.onStep, hr]
  exact (if_pos ⟨ha, hu⟩).trans hf

theorem acts_stepStart_first (hp : r.phase = .formed) (h0 : r.attempt.toNat % 128 = 0) :
    Acts (.stepStart hub) s (({ s.p with pmc := { s.p.pmc with des := [] } }).startStep hub r) :=
  acts_onStep ha hu hr rfl ((if_neg (not_not_intro hp)).trans (if_pos h0))

theorem acts_stepStart_again (hp : r.phase = .formed) (h0 : r.attempt.toNat % 128 ≠ 0) :
    Acts (.stepStart hub) s
      (if s.p.askRepairs.mir.repairs.isEmpty then s.p.askRepairs.startStep hub r else s.p.askRepairs) :=
  acts_onStep ha hu hr rfl ((if_neg (not_not_intro hp)).trans (if_neg h0))

theorem acts_stepStart_started (hp : r.phase ≠ .formed) : Acts (.stepStart hub) s s.p :=
  acts_onStep ha hu hr rfl (if_pos hp)

theorem acts_donePoll {d : Option (Nat × Nat × Bool)} (h : (s.p.doneRecord r).1 = d) {q : Panel}
    (hq : (s.p.doneRecord r).2.pollRead hub r d = q) : Acts (.donePoll hub) s q :=
  acts_onStep ha hu hr rfl ((pollDone_eq_pollRead ..).trans (h ▸ hq))

theorem acts_stepTimeout : (r.phase = .running →
      Acts (.stepTimeout hub) s ((s.p.reportPanel hub 0x0501 clsInfo (some r.n)).abortAttempt hub)) ∧
    (r.phase ≠ .running → Acts (.stepTimeout hub) s s.p) :=
  ⟨fun hp => acts_onStep ha hu hr rfl (if_pos hp), fun hp => acts_onStep ha hu hr rfl (if_neg hp)⟩

theorem acts_abortedWaitTimeout : (r.phase = .aborting → Acts (.abortedWaitTimeout hub) s (s.p.rqeStopped hub)) ∧
    (r.phase ≠ .aborting → Acts (.abortedWaitTimeout hub) s s.p) :=
  ⟨fun hp => acts_onStep ha hu hr rfl (if_pos hp), fun hp => acts_onStep ha hu hr rfl (if_neg hp)⟩

/-- A dry-down or a return that waited for the commit goes on after it. -/
theorem acts_stepCommit {q : Panel} (h : s.p.commitStep hub r = q) :
    Acts (.stepCommit hub) s ((q.dryAdvance).returnAdvance) :=
  acts_onStep ha hu hr rfl (by rw [h])

end

/-! ### Cold moves (R270, R271, R301) -/

section
variable {s : State} {hub ctx : Nat} {m : ColdMove} (he : hasEngine hub = true)
  (hm : ((s.p.eng hub).cold.find? fun m => m.ctx == ctx && m.result.isNone) = some m)
include he hm

theorem acts_coldMoveFinish_marked (h : s.p.markedFailed hub m = true) (ok : Bool) :
    Acts (.coldMoveFinish hub ctx ok) s s.p := by
  refine acts_of_exec rfl ?_
  rw [if_pos he, hm]
  exact if_pos h

/-- A move ends well where it was to and its pages and slots answer; its pages are copied then. -/
theorem acts_coldMoveFinish (h : s.p.markedFailed hub m = false) {ok done : Bool} (hd : (ok && s.p.coldReachable m) = done) :
    let q := s.p.modEng hub fun e =>
      { e with cold := e.cold.map fun x => if x = m then { x with result := some done } else x }
    Acts (.coldMoveFinish hub ctx ok) s (if done then q.coldCopy m else q) := by
  refine acts_of_exec rfl ?_
  rw [if_pos he, hm, ← hd]
  exact if_neg (ne_true_of_eq_false h)

end

/-- Settles O45: a lemma per command; `pollDone_` and `commitStep_` lemmas say what a poll and a commit do by the step's phase. -/
theorem engineStepsRun : Obligations.EngineStepsRun := by
  unfold Obligations.EngineStepsRun
  refine ⟨fun s hub ha hu => ⟨fun hb => ⟨acts_stepForm_serving ha hu hb, acts_stepForm_replaying ha hu hb⟩, acts_stepForm_barred,
    fun r hr => ?_⟩, fun s hub ctx m he hm => ⟨fun h => ?_, acts_coldMoveFinish_marked he hm⟩⟩
  · obtain ⟨htime, htimed⟩ := acts_stepTimeout ha hu hr
    obtain ⟨hwait, hwaited⟩ := acts_abortedWaitTimeout ha hu hr
    refine ⟨acts_stepStart_first ha hu hr, acts_stepStart_again ha hu hr, acts_stepStart_started ha hu hr,
      ⟨fun h => acts_donePoll ha hu hr h pollRead_none, fun att st pz h => ?_⟩, htime, htimed, hwait, hwaited,
      fun h => ⟨fun hd => acts_stepCommit ha hu hr (commitStep_plain h hd),
        fun hd hn => acts_stepCommit ha hu hr (commitStep_recorded h hd hn)⟩,
      fun h => acts_stepCommit ha hu hr (commitStep_waiting h)⟩
    have hd {q : Panel} := acts_donePoll ha hu hr h (q := q)
    refine ⟨fun hp => ?_, fun hp h2 hz => ?_, fun hp hn => hd (pollRead_notAborted hp hn)⟩
    · obtain ⟨hother, hpoison, hdone, hfailed⟩ := pollRead_running hp
      exact ⟨fun hn => hd (hother hn), fun he hz => hd (hpoison he hz), fun he hz h0 => hd (hdone he hz h0),
        fun he hz h0 => hd (hfailed he hz h0)⟩
    · obtain ⟨htake, hmine, hother⟩ := pollRead_aborted hp h2 hz
      exact ⟨fun ht => hd (htake ht), fun ht he => hd (hmine ht he), fun ht hn => hd (hother ht hn)⟩
  · have hend {ok done : Bool} := acts_coldMoveFinish (ok := ok) (done := done) he hm h
    exact ⟨hend (Bool.false_and _), fun hc => hend ((Bool.true_and _).trans hc), fun hc => hend ((Bool.true_and _).trans hc)⟩

end Sys2Proof.Machine
end

section
/-! The standby, its journal and RQE_CONTROL (R247, R272, R274, R275, R277, R298): what a command acts as, and what it leaves of
the standby's status. -/

namespace Sys2Proof.Machine

/-! ### Engines, and status fields that both engines show -/

section
variable {p : Panel}

theorem eng_setEng (hub : Nat) (e : Engine) : (p.setEng hub e).eng hub = e := by
  unfold Panel.setEng Panel.eng
  split <;> rfl

theorem sorted_setEng (hs : smSorted p.regs = true) {hub : Nat} {e : Engine} : smSorted (p.setEng hub e).regs = true := by
  unfold Panel.setEng
  split <;> exact hs

theorem activeHub_range {a : Nat} (h : p.activeHub = some a) : a = 0 ∨ a = 3 := by
  unfold Panel.activeHub at h
  split at h
  · exact .inl (Option.some.inj h).symm
  · split at h
    · exact .inr (Option.some.inj h).symm
    · cases h

variable (hs : smSorted p.regs = true)
include hs

theorem sorted_bothEngines (f : RField) (v : Nat) : smSorted (p.bothEngines f v).regs = true :=
  Panel.sorted_fput (Panel.sorted_fput hs ..) ..

/-- A write of one unit's register leaves the other units'. -/
theorem fget_fput_unit {f : RField} (ho : f.reg.info.share = .own) {u u' : Nat} (hu : u < 2048) (hu' : u' < 2048) (hne : u' ≠ u)
    (v : Nat) : (p.fput f v u).fget f u' = p.fget f u' := by
  have hfar : homeUnit f.reg u' ≠ homeUnit f.reg u := by
    rw [homeUnit_own ho, homeUnit_own ho]
    exact hne
  rw [Panel.fget, Panel.fput, Panel.get_put_far hs _ ⟨hu, by decide, by decide⟩ ⟨hu', by decide, by decide⟩
    fun _ h => absurd h hfar, Panel.fget]

theorem fget_addHold (f : RField) (n u : Nat) (hf : f.hi < 64) : (p.addHold f n u).fget f u = min f.max (p.fget f u + n) := by
  refine (Panel.fget_fput hs f _ u 0 0 hf).trans (Nat.mod_eq_of_lt ((Nat.min_le_left ..).trans_lt ?_))
  exact Nat.sub_lt (by positivity) Nat.one_pos

end

/-! ### The journal (R247, R274) -/

section
variable {s : State} {hub : Nat} {r : JRec}

theorem acts_journalRecord_other (h : (s.p.eng (3 - hub)).journal[(s.p.eng (3 - hub)).received]? ≠ some r) :
    Acts (.journalRecord hub r) s s.p :=
  acts_of_exec rfl (if_pos (.inr (.inr (.inr h))))

/-- The next record is received: the count of missed heartbeats starts again, and the record is the last one seen. -/
def Panel.recordReceived (p : Panel) (hub : Nat) (r : JRec) : Panel :=
  ((p.modEng (3 - hub) fun e => { e with received := e.received + 1 }).bothEngines
    F.RQE_STBY_STATUS_missed_heartbeats 0).modEng hub fun e => { e with seen := some (jrecLast r) }

/-- The standby applies a record. -/
def Panel.recordApplied (p : Panel) (hub : Nat) : JRec → Panel
  | .heartbeat .. => p
  | .input _ i _ _ => p.standbyInput hub i
  | .commit n rs _ _ => p.standbyCommit hub n rs

theorem acts_journalRecord (hr : s.p.role hub = roleStandby) (hu : s.p.hubUp hub = true) (he : hasEngine hub = true)
    (h : (s.p.eng (3 - hub)).journal[(s.p.eng (3 - hub)).received]? = some r) :
    Acts (.journalRecord hub r) s (((s.p.recordReceived hub r).recordApplied hub r).caughtUp (3 - hub)) :=
  acts_of_exec rfl ((if_neg (by simp [hr, hu, he, h])).trans (by cases r <;> rfl))

/-- What waited for a record's acknowledgement goes on: the head of its queue, or the commit of its step. -/
def Panel.recordAcked (p : Panel) (hub : Nat) : JRec → Panel
  | .heartbeat .. => p
  | .input _ i _ _ => match inputQueue i with | some (h, x) => p.headReady hub h x true | none => p
  | .commit n _ _ _ => (p.modStep hub fun x => if x.n = n then { x with journalAcked := true } else x).fput
      F.RQE_STATUS_journal_wait 0 hub

theorem acts_journalAck {rest : List JRec} {k : Nat} (he : hasEngine hub = true) (hj : (s.p.eng hub).journal = r :: rest)
    (hk : (s.p.eng hub).received = k + 1) :
    let q := s.p.setEng hub { s.p.eng hub with journal := rest, received := k, unwaited := (s.p.eng hub).unwaited - 1 }
    Acts (.journalAck hub) s (if 0 < (s.p.eng hub).unwaited then q else q.recordAcked hub r) := by
  refine acts_of_exec rfl ?_
  dsimp only
  rw [if_pos he, hj, hk]
  cases r <;> rfl

end

/-! ### Heartbeats (R274, R275) -/

section
variable {s : State} {hub : Nat}

theorem acts_heartbeat (ha : s.p.role hub = roleActive) (hb : s.p.role (3 - hub) = roleStandby)
    (hj : (s.p.eng hub).journal = []) : Acts (.heartbeat hub) s
      (s.p.modEng hub fun e => { e with journal := [.heartbeat s.p.lastSeq s.p.ing.lastDigest] }) :=
  acts_of_exec rfl (if_pos ⟨ha, hb, by rw [hj]; rfl⟩)

/-- Ten heartbeats missed are counted in the status of both engines. -/
def Panel.heartbeatsMissed (p : Panel) : Panel :=
  (p.addHold F.RQE_STBY_STATUS_missed_heartbeats 10 0).addHold F.RQE_STBY_STATUS_missed_heartbeats 10 3

theorem fget_heartbeatsMissed {p : Panel} (hs : smSorted p.regs = true) (hub : Nat) (h : hub = 0 ∨ hub = 3) :
    p.heartbeatsMissed.fget F.RQE_STBY_STATUS_missed_heartbeats hub =
      min F.RQE_STBY_STATUS_missed_heartbeats.max (p.fget F.RQE_STBY_STATUS_missed_heartbeats hub + 10) := by
  have h0 := fget_addHold hs F.RQE_STBY_STATUS_missed_heartbeats 10 0 (by decide)
  have hs0 : smSorted (p.addHold F.RQE_STBY_STATUS_missed_heartbeats 10 0).regs = true := Panel.sorted_fput hs ..
  rcases h with rfl | rfl
  · exact (fget_fput_unit hs0 rfl (by decide) (by decide) (by decide) _).trans h0
  · refine (fget_addHold hs0 _ _ _ (by decide)).trans ?_
    rw [Panel.addHold, fget_fput_unit hs rfl (by decide) (by decide) (by decide)]

theorem find_standby {p : Panel} (h : hub = 0 ∨ hub = 3) (hu : p.hubUp hub = true) (hr : p.role hub = roleStandby)
    (ho : p.role (3 - hub) ≠ roleStandby) : ([0, 3].find? fun h => p.hubUp h && p.role h == roleStandby) = some hub := by
  rcases h with rfl | rfl
  · simp [hu, hr]
  · have ho' : p.role 0 ≠ roleStandby := ho
    simp [hu, hr, ho']

theorem acts_heartbeatMiss (h : hub = 0 ∨ hub = 3) (hu : s.p.hubUp hub = true) (hr : s.p.role hub = roleStandby)
    (ho : s.p.role (3 - hub) ≠ roleStandby) : Acts .heartbeatMiss s
      (s.p.heartbeatsMissed.sendReport hub 0x0505 clsUF lvEdge 5 (BitVec.ofNat 8 (3 - hub)) 0 none none) := by
  refine acts_of_exec rfl ?_
  rw [find_standby h hu hr ho]
  rfl

end

/-! ### The snapshot (R274) -/

section
variable {s : State} {a : Nat} (ha : s.p.activeHub = some a)
include ha

theorem acts_standbySnapshot (hr : s.p.role (3 - a) = roleStandby) (hi : s.p.inSync = false)
    (hd : (s.p.eng a).snapshotDone = false) :
    let n := s.p.fget F.RQE_STEP_committed a
    let q := ((s.p.setEng (3 - a) { s.p.eng a with
      inputs := [], taking := [], headsDue := [], journal := [], received := 0, unwaited := 0, snapshotDone := false
      seen := some (s.p.lastSeq, s.p.ing.lastDigest) }).fput F.RQE_STEP_committed n (3 - a)).bothEngines
        F.RQE_STBY_STATUS_journaled_step n
    Acts (.standbySnapshot ((s.p.eng a).ctxs.map (·.2)) (s.p.eng a).used n) s ((q.journalFrom a).showEngine (3 - a)) := by
  refine acts_of_exec rfl ?_
  rw [ha]
  exact if_neg (by simp [hr, hi, hd])

theorem acts_standbySnapshot_other {cs : List CtxRec} {us : List Nat} {m : Nat}
    (h : cs ≠ (s.p.eng a).ctxs.map (·.2) ∨ us ≠ (s.p.eng a).used ∨ m ≠ s.p.fget F.RQE_STEP_committed a) :
    Acts (.standbySnapshot cs us m) s s.p := by
  refine acts_of_exec rfl ?_
  rw [ha]
  refine if_pos ?_
  rcases h with h | h | h <;> simp [h]

end

section
variable {p : Panel} {a : Nat} (hs : smSorted p.regs = true)
include hs

theorem caughtUp_inSync (hd : (p.eng a).snapshotDone = true) (hu : (p.eng a).unwaited ≤ (p.eng a).received) :
    (p.caughtUp a).inSync = true := by
  have h0 := sorted_setEng hs (hub := a) (e := { p.eng a with snapshotDone := false })
  rw [Panel.caughtUp, if_pos (by rw [hd, decide_eq_true hu]; rfl), Panel.inSync, Panel.flag, Panel.bothEngines,
    fget_fput_unit (Panel.sorted_fput h0 ..) rfl (by decide) (by decide) (by decide), Panel.fget_fput h0 _ _ _ _ _ (by decide)]
  rfl

/-- With no step in progress no record follows the snapshot, and the standby is in sync. -/
theorem journalFrom_inSync (h : (p.eng a).step = none) : (p.journalFrom a).inSync = true := by
  unfold Panel.journalFrom
  extract_lets e j
  have hj : j = [] := by
    dsimp only [j, e]
    rw [h]
  refine caughtUp_inSync (sorted_setEng hs) ?_ ?_ <;> rw [eng_setEng]
  rw [hj]
  rfl

end

/-! ### RQE_CONTROL (R272, R275, R277) -/

section
variable {p : Panel} {hub : Nat}

theorem rqeControl_live (he : hasEngine hub = true) (hu : p.hubUp hub = true) (v : W64) : p.rqeControl hub v =
    let q := if bit v.toNat F.RQE_CONTROL_enable.lo then (if p.role hub = roleFailed then p else p.tryEnable hub)
      else if p.role hub = roleActive ∨ p.flag F.RQE_CONTROL_enable hub = false then p else p.rqeOff hub
    let q := if bit v.toNat F.RQE_CONTROL_drain.lo then q.rqeDrain hub else q
    let q := if bit v.toNat F.RQE_CONTROL_retry.lo then q.retryStep hub else q
    if bit v.toNat F.RQE_CONTROL_takeover.lo then q.rqeTakeover hub else q := by
  rw [Panel.rqeControl, if_neg (by simp [he, hu])]
  simp only [Bool.not_eq_true']

/-- An enable of the engine that would serve shows the error of a check that fails. -/
theorem tryEnable_error (h : p.enableError ≠ 0) (hf : p.flag F.RQE_CONTROL_enable hub = false)
    (ho : p.role (3 - hub) ≠ roleActive) (hs : p.bring.servingHd3 = decide (hub = 3) ∨ p.hubUp (3 - hub) = false) :
    p.tryEnable hub = p.fput F.RQE_STATUS_config_error p.enableError hub := by
  have hserves : ¬(p.role (3 - hub) = roleActive ∨ p.bring.servingHd3 ≠ decide (hub = 3) ∧ p.hubUp (3 - hub) = true) := by
    rintro (h | ⟨h3, hu⟩)
    · exact ho h
    · exact hs.elim h3 (ne_true_of_eq_false · hu)
  exact (if_neg (ne_true_of_eq_false hf)).trans ((if_neg hserves).trans (if_pos h))

end

section
variable {s : State} {hub : Nat} {src : Writer} {v : W64}

theorem acts_rqeControl (hw : MayWrite s.p src) :
    Acts (.rqeEnable hub src v) s (s.p.rqeControl hub v) ∧
    Acts (.rqeDrain hub src v) s (s.p.rqeControl hub (s.p.keepEnable hub (v ||| 64))) ∧
    Acts (.rqeRetry hub src v) s (s.p.rqeControl hub (s.p.keepEnable hub (v ||| 32))) ∧
    Acts (.rqeTakeover hub src v) s (s.p.rqeControl hub (s.p.keepEnable hub (v ||| 128))) :=
  ⟨acts_of_exec rfl (asWriter_may hw _), acts_of_exec rfl (asWriter_may hw _), acts_of_exec rfl (asWriter_may hw _),
    acts_of_exec rfl (asWriter_may hw _)⟩

/-! ### The stream (R298, R439) -/

theorem acts_rqeIlogStreamWrite (he : hasEngine hub = true) (hu : s.p.hubUp hub = true)
    (hw : MayWrite s.p src ∨ ∃ h, writerHost src = some h ∧ s.p.holdsStream h = true) :
    Acts (.rqeIlogStreamWrite hub src v) s ((s.p.ilogStream v).handoffOut) := by
  refine acts_of_exec rfl ((if_neg (by simp [he, hu])).trans ?_)
  by_cases hh : (writerHost src).any s.p.holdsStream = true
  · exact if_pos hh
  · rcases hw with hw | ⟨h, hsrc, hs⟩
    · exact (if_neg hh).trans (asWriter_may hw _)
    · exact absurd (by rw [hsrc]; exact hs) hh

end

/-- Settles O46: a lemma per command; `fget_heartbeatsMissed` and `journalFrom_inSync` for the standby's status, `rqeControl_live`
for the control register. -/
theorem standbyAndControlsAct : Obligations.StandbyAndControlsAct := by
  unfold Obligations.StandbyAndControlsAct
  refine ⟨fun s => ⟨fun hub r hr hu he => ⟨acts_journalRecord_other, fun h => ?_⟩, fun hub r rest k he hj hk => ?_,
      fun hub => acts_heartbeat, fun hub h hu hr ho => ?_, fun a ha hr hi hd => ⟨acts_standbySnapshot ha hr hi hd, fun h hs => ?_,
        fun cs us m => acts_standbySnapshot_other ha⟩⟩,
    fun s hub src v hw he hu => ?_, fun s hub src v h hsrc hs he hu => acts_rqeIlogStreamWrite he hu (.inr ⟨h, hsrc, hs⟩)⟩
  · have hact := acts_journalRecord hr hu he h
    exact ⟨by rintro l d rfl; exact hact, by rintro n i l d rfl; exact hact, by rintro n rs l d rfl; exact hact⟩
  · have hact := acts_journalAck he hj hk
    refine ⟨fun h0 => hact.congr (if_pos h0), fun h0 => ?_⟩
    have hact := hact.congr (if_neg h0.not_gt)
    exact ⟨by rintro l d rfl; exact hact, by rintro n i l d h x rfl hq; exact hact.congr (by rw [Panel.recordAcked, hq]),
      by rintro n i l d rfl hq; exact hact.congr (by rw [Panel.recordAcked, hq]), by rintro n rs l d rfl; exact hact⟩
  · exact ⟨_, _, _, acts_heartbeatMiss h hu hr ho, rfl, rfl, rfl, rfl, fun hs => fget_heartbeatsMissed hs hub h⟩
  · refine journalFrom_inSync (sorted_bothEngines (Panel.sorted_fput (sorted_setEng hs) ..) ..) ?_
    rcases activeHub_range ha with rfl | rfl <;> exact h
  · intro p write
    obtain ⟨henable, hdrain, hretry, htake⟩ := acts_rqeControl (v := v) (hub := hub) hw
    have hlive (v : W64) : p.rqeControl hub v = write v := rqeControl_live he hu v
    exact ⟨henable.congr (hlive _), hdrain.congr (hlive _), hretry.congr (hlive _), htake.congr (hlive _),
      acts_rqeIlogStreamWrite he hu (.inl hw), tryEnable_error⟩

end Sys2Proof.Machine
end

section
/-! Extended barriers and their calibration (R305, R306, R430, R431): what the root does, and what a member does. -/

namespace Sys2Proof.Machine

/-! ### The root -/

section
variable {s : State} {ch : Nat} (he : s.p.extended ch = true) (hr : s.p.isRoot ch = true)
include he hr

theorem extended_and_isRoot : (s.p.extended ch && s.p.isRoot ch) = true := by rw [he, hr]; rfl

/-- The arrival of a member panel counts, and the generation is released when it is the last. -/
theorem acts_fabricBarArrive (coord : BitVec 12) : Acts (.fabricBarArrive ch coord) s
    ((s.p.modBar ch fun b => { b with panels := smSet b.panels coord.toNat () }).rootCheck ch) :=
  acts_of_exec rfl (if_pos (extended_and_isRoot he hr))

/-- A timeout aborts the barrier on every member while the root waits and a member panel is not counted. -/
theorem acts_extBarrierTimeout (ho : (s.p.bar ch).outside = true) (hu : s.p.uncounted ch = true) :
    Acts (.extBarrierTimeout ch) s (s.p.extAbort ch) :=
  acts_of_exec rfl (if_pos (by rw [extended_and_isRoot he hr, ho, hu]; rfl))

theorem acts_barJoin (coord : BitVec 12) : Acts (.barJoin ch coord) s
    ((s.p.modBar ch fun b => { b with cal := { b.cal with joined := insertAsc b.cal.joined coord.toNat } }).sendControl
      coord 0x1C ch 0) :=
  acts_of_exec rfl (if_pos (extended_and_isRoot he hr))

/-- The echo of a panel that has joined gives its wire latency. -/
theorem acts_calEcho {coord : BitVec 12} (hj : (s.p.bar ch).cal.joined.contains coord.toNat = true) (rt : Nat)
    (ro rb : BitVec 32) : Acts (.calEcho ch coord rt ro rb) s ((s.p.modBar ch fun b => { b with cal := { b.cal with
      echoes := smSet b.cal.echoes coord.toNat ((rt - ro.toNat - rb.toNat) / 2) } }).calFinish ch) :=
  acts_of_exec rfl (if_pos (by rw [extended_and_isRoot he hr, hj]; rfl))

end

/-! ### A member: the end of its wait -/

section
variable {s : State} {ch : Nat} (he : s.p.extended ch = true)
include he

theorem acts_barAbort (hc : ch < 16) : Acts (.barAbort ch) s (s.p.extAbortLocal ch) :=
  acts_of_exec rfl (if_pos (by rw [he, decide_eq_true hc]; rfl))

variable (ho : (s.p.bar ch).outside = true)
include ho

/-- A panel that awaits its release does not ignore it. -/
theorem release_awaited : ¬(!s.p.extended ch || !(s.p.bar ch).outside) = true := by rw [he, ho]; decide

theorem acts_barRelease_waits {r : BitVec 32}
    (h : r.toNat ≤ s.p.fget F.HUB_BAR_EXT_delay_cycles 0 ch * 32 + s.p.fget F.HJF_BAR_CAL_delay_frac 0 ch) :
    Acts (.barRelease ch r) s (s.p.modBar ch fun b => { b with releaseDue := true }) :=
  acts_of_exec rfl ((if_neg (release_awaited he ho)).trans (if_neg h.not_gt))

/-- A release whose residency exceeds the delay acts at once and is counted and logged as late. -/
theorem acts_barRelease_late {r : BitVec 32}
    (h : s.p.fget F.HUB_BAR_EXT_delay_cycles 0 ch * 32 + s.p.fget F.HJF_BAR_CAL_delay_frac 0 ch < r.toNat) :
    Acts (.barRelease ch r) s (((s.p.barReleaseLocal ch).addHold F.HJF_BAR_CAL_late_releases 1 0 ch).reportPanel
      s.p.primaryHub 0x0708 clsInfo (some ch)) :=
  acts_of_exec rfl ((if_neg (release_awaited he ho)).trans (if_pos h))

/-- A member that has heard no release ends its wait by itself. -/
theorem acts_extBarrierSelfAbort (hr : s.p.isRoot ch = false) (hd : (s.p.bar ch).releaseDue = false) :
    Acts (.extBarrierSelfAbort ch) s (s.p.extAbortLocal ch) :=
  acts_of_exec rfl (if_pos (by rw [he, hr, ho, hd]; rfl))

end

/-! ### A member: its calibration -/

section
variable {s : State} {ch : Nat} (he : s.p.extended ch = true) (hr : s.p.isRoot ch = false)
include he hr

theorem extended_and_not_isRoot : (s.p.extended ch && !s.p.isRoot ch) = true := by rw [he, hr]; rfl

theorem acts_calProbe (r : BitVec 32) :
    Acts (.calProbe ch r) s (s.p.sendControl (s.p.rootCoord ch) 0x1D ch r.toNat) :=
  acts_of_exec rfl (if_pos (extended_and_not_isRoot he hr))

theorem acts_calDelay (d : Nat) : Acts (.calDelay ch d) s (s.p.setDelay ch d) :=
  acts_of_exec rfl (if_pos (extended_and_not_isRoot he hr))

end

/-- Calibration runs again on a channel that has been applied, on the root and on a member alike. -/
theorem acts_calibrationTimer {s : State} {ch : Nat} (ha : s.p.flag F.HUB_BAR_STATUS_applied 0 ch = true) :
    Acts (.calibrationTimer ch) s (s.p.calibrate ch) :=
  acts_of_exec rfl (if_pos ha)

/-- Settles O36: a lemma per command, the root's and a member's, and two for a release that is in time and one that is late. -/
theorem extendedBarriersRun : Obligations.ExtendedBarriersRun := by
  unfold Obligations.ExtendedBarriersRun
  intro s ch he hc
  refine ⟨fun hr => ?root, fun ho => ?waiting, acts_barAbort he hc, fun hr => ?member, acts_calibrationTimer⟩
  case root =>
    exact ⟨acts_fabricBarArrive he hr, acts_extBarrierTimeout he hr, acts_barJoin he hr,
      fun coord rt ro rb hj => acts_calEcho he hr hj rt ro rb⟩
  case waiting =>
    exact ⟨fun r => acts_barRelease_waits he ho, fun r => acts_barRelease_late he ho, acts_extBarrierSelfAbort he ho⟩
  case member => exact ⟨acts_calProbe he hr, acts_calDelay he hr⟩

end Sys2Proof.Machine
end

section
/-! Clock islands (R315, R317, R318, R320, R323, R324): what a command about an island that exists acts as, and what its status shows. -/

namespace Sys2Proof.Machine

/-! ### Points (R315, R317, R318) -/

/-- The end of a change shows the point, and that the island is stopped if it is STOP. -/
theorem endMove_shows {p : Panel} (hs : smSorted p.regs = true) (node n k : Nat) :
    (p.endMove node n k).fget F.CLK_ISLAND_current node n = k % 8 ∧
    ((p.endMove node n k).flag F.CLK_ISLAND_stopped node n = true ↔ k = pointStop) := by
  let p1 : Panel := { p with pwr := { p.pwr with moving := smDel p.pwr.moving (islandKey node n) } }
  have hs1 : smSorted p1.regs = true := hs
  have hs2 := Panel.sorted_fput hs1 F.CLK_ISLAND_current k node n 0
  have hs3 := Panel.sorted_fput hs2 F.CLK_ISLAND_stopped (b2n (k == pointStop)) node n 0
  constructor
  · refine (Panel.fget_fput_field hs3 F.CLK_ISLAND_changes F.CLK_ISLAND_current _ _ _ _ rfl (by decide) (by decide)
      (by decide)).trans ?_
    rw [Panel.fget_fput_field hs2 F.CLK_ISLAND_stopped F.CLK_ISLAND_current _ _ _ _ rfl (by decide) (by decide) (by decide)]
    exact Panel.fget_fput hs1 F.CLK_ISLAND_current k node n 0 (by decide)
  · have hflag : (p.endMove node n k).flag F.CLK_ISLAND_stopped node n = (k == pointStop) :=
      (flag_fput_field hs3 F.CLK_ISLAND_changes F.CLK_ISLAND_stopped _ _ _ _ rfl (by decide) (by decide) (by decide)).trans
        (flag_fput hs2 F.CLK_ISLAND_stopped _ _ _ _ (by decide) rfl)
    rw [hflag, beq_iff_eq]

section
variable {s : State} {node n : Nat}

theorem acts_pointChangeDone_none (hm : smGet s.p.pwr.moving (islandKey node n) = none) :
    Acts (.pointChangeDone node n) s s.p :=
  acts_of_exec rfl (by rw [hm])

/-- No droop lengthens the periods of an island that is stopped or changes point (R318). -/
theorem acts_droopStretch_none {k : Nat}
    (h : s.p.flag F.CLK_ISLAND_stopped node n = true ∨ smHas s.p.pwr.moving (islandKey node n) = true) :
    Acts (.droopStretch node n k) s s.p := by
  refine acts_of_exec rfl (if_neg ?_)
  rcases h with h | h <;> simp [h]

end

section
variable {s : State} {node n : Nat} (hi : s.p.hasIsland node n = true)
include hi

theorem acts_clkPointWrite (v : W64) : Acts (.clkPointWrite node n v) s (s.p.clkPointWrite node n v) :=
  acts_of_exec rfl (if_pos hi)

theorem acts_pointChangeDone {k : Nat} (hm : smGet s.p.pwr.moving (islandKey node n) = some k) :
    Acts (.pointChangeDone node n) s ((s.p.endMove node n k).startMove node n) := by
  refine acts_of_exec rfl ?_
  rw [hm]
  exact if_pos hi

/-! ### Droops and the end of a stretch (R320, R324) -/

/-- A droop sets the greater of its factor and the one in force. -/
theorem acts_droopStretch {k : Nat} (h1 : 1 ≤ k) (h4 : k ≤ 4) (hstop : s.p.flag F.CLK_ISLAND_stopped node n = false)
    (hm : smHas s.p.pwr.moving (islandKey node n) = false) :
    let i := islandKey node n
    let q : Panel := { s.p with pwr := { s.p.pwr with
      droop := smSet s.p.pwr.droop i (max k (smGetD s.p.pwr.droop i 0)) } }
    Acts (.droopStretch node n k) s ((q.addHold F.CLK_ISLAND_stretch_events 1 node n).showStretch node n) :=
  acts_of_exec rfl (if_pos (by simp [hi, h1, h4, hstop, hm]))

theorem acts_stretchRecover (hd : smHas s.p.pwr.droop (islandKey node n) = true) :
    let q : Panel := { s.p with pwr := { s.p.pwr with droop := smDel s.p.pwr.droop (islandKey node n) } }
    Acts (.stretchRecover node n) s
      (((q.draw 0).2.addHold F.CLK_ISLAND_stretch_events (16 + (q.draw 0).1) node n).showStretch node n) :=
  acts_of_exec rfl (if_pos (by rw [hi, hd]; rfl))

theorem acts_marginAlarmRelease : Acts (.marginAlarmRelease node n) s
    (({ s.p with pwr := { s.p.pwr with alarmed := smDel s.p.pwr.alarmed (islandKey node n) } } : Panel).showStretch node n) :=
  acts_of_exec rfl (if_pos hi)

end

/-! ### Margin samples (R323, R324) -/

/-- The island's margin: the least of the codes. -/
def leastCode (codes : List (BitVec 6)) : Nat := codes.foldl (fun (a : Nat) (c : BitVec 6) => min a c.toNat) 63

theorem leastCode_lt (codes : List (BitVec 6)) : leastCode codes < 64 :=
  foldl_keeps (· < 64) _ (fun _ _ h => (Nat.min_le_left ..).trans_lt h) codes 63 (by decide)

section
variable {p : Panel} {node n m : Nat}

/-- A margin is shown, and the lowest so far is kept. -/
def Panel.marginShown (p : Panel) (node n m : Nat) : Panel :=
  let q := p.fput F.CLK_MARGIN_now m node n
  q.fput F.CLK_MARGIN_low (min m (q.fget F.CLK_MARGIN_low node n)) node n

/-- A margin at or below warn is counted and logged, once a millisecond. -/
def Panel.marginWarned (p : Panel) (node n m warn : Nat) (due : Bool) : Panel :=
  if m ≤ warn ∧ due = true then (p.addHold F.CLK_MARGIN_warns 1 node n).reportNode node 0x0401 clsInfo (some n) else p

theorem marginShown_fields (hs : smSorted p.regs = true) (hm : m < 64) :
    (p.marginShown node n m).fget F.CLK_MARGIN_now node n = m ∧
    (p.marginShown node n m).fget F.CLK_MARGIN_low node n = min m (p.fget F.CLK_MARGIN_low node n) := by
  have hs1 := Panel.sorted_fput hs F.CLK_MARGIN_now m node n 0
  constructor
  · rw [Panel.marginShown, Panel.fget_fput_field hs1 F.CLK_MARGIN_low F.CLK_MARGIN_now _ _ _ _ rfl (by decide) (by decide)
      (by decide), Panel.fget_fput hs _ _ _ _ _ (by decide)]
    exact Nat.mod_eq_of_lt hm
  · rw [Panel.marginShown, Panel.fget_fput hs1 _ _ _ _ _ (by decide),
      Panel.fget_fput_field hs F.CLK_MARGIN_now F.CLK_MARGIN_low _ _ _ _ rfl (by decide) (by decide) (by decide)]
    exact Nat.mod_eq_of_lt ((Nat.min_le_left ..).trans_lt hm)

/-- A warning leaves the fields of the margin below its own counter. -/
theorem fget_marginWarned (hs : smSorted p.regs = true) (warn : Nat) (due : Bool) {g : RField} (hr : g.reg = .CLK_MARGIN)
    (hg : g.hi < 32) : (p.marginWarned node n m warn due).fget g node n = p.fget g node n := by
  unfold Panel.marginWarned
  split
  · exact Panel.fget_fput_field hs F.CLK_MARGIN_warns g _ node n 0 hr (hg.trans (by decide)) (.inl hg) (by decide)
  · rfl

theorem marginWarned_reports (warn : Nat) (due : Bool) : let q := p.marginWarned node n m warn due
    if m ≤ warn ∧ due = true then ∃ h r, q.reports = p.reports ++ [(h, r)] ∧ r.event = 0x0401 else q.reports = p.reports := by
  intro q
  by_cases hw : m ≤ warn ∧ due = true
  · have hq : q = (p.addHold F.CLK_MARGIN_warns 1 node n).reportNode node 0x0401 clsInfo (some n) := if_pos hw
    rw [if_pos hw, hq]
    exact ⟨_, _, rfl, rfl⟩
  · have hq : q = p := if_neg hw
    rw [if_neg hw, hq]

end

theorem acts_marginSample {s : State} {node n : Nat} (hi : s.p.hasIsland node n = true) {codes : List (BitVec 6)}
    (hne : codes ≠ []) (warnDue stepDue : Bool) :
    let m := leastCode codes
    let q := (s.p.marginShown node n m).marginWarned node n m (s.p.marginLimits node).1 warnDue
    Acts (.marginSample node n codes warnDue stepDue) s
      (if m ≤ (s.p.marginLimits node).2 then q.marginAlarm node n stepDue else q) :=
  acts_of_exec rfl (if_pos (by simp [hi, hne]))

/-- Settles O39: a lemma per command; `endMove_shows` for a point reached, and the lemmas on `marginShown` and `marginWarned` for a
sample. -/
theorem clockIslandsRun : Obligations.ClockIslandsRun := by
  unfold Obligations.ClockIslandsRun
  intro s node n hi p i
  refine ⟨fun v => ?write, fun k => acts_pointChangeDone hi, acts_pointChangeDone_none, fun k hs => endMove_shows hs node n k,
    fun k h1 h4 hstop hm => ⟨_, acts_droopStretch hi h1 h4 hstop hm, smGet_smSet_same _ _ _, rfl, rfl⟩,
    fun k => acts_droopStretch_none, fun hd hs => ⟨_, acts_stretchRecover hi hd, smGet_smDel_same hs _, rfl, rfl⟩,
    fun codes warnDue stepDue hne hs => ?sample, fun hs => ⟨_, acts_marginAlarmRelease hi, ?released, rfl⟩⟩
  case write =>
    exact ⟨fun hb => (acts_clkPointWrite hi v).congr (if_pos hb), fun hb => (acts_clkPointWrite hi v).congr (if_neg hb)⟩
  case sample =>
    intro m
    obtain ⟨hnow, hlow⟩ := marginShown_fields (node := node) (n := n) hs (leastCode_lt codes)
    have hs1 := Panel.sorted_fput (Panel.sorted_fput hs F.CLK_MARGIN_now m node n 0) F.CLK_MARGIN_low
      (min m ((p.fput F.CLK_MARGIN_now m node n).fget F.CLK_MARGIN_low node n)) node n 0
    exact ⟨_, acts_marginSample hi hne warnDue stepDue, (fget_marginWarned hs1 _ _ rfl (by decide)).trans hnow,
      (fget_marginWarned hs1 _ _ rfl (by decide)).trans hlow, marginWarned_reports _ _⟩
  case released => exact congrArg Option.isSome (smGet_smDel_same hs i)

end Sys2Proof.Machine
end

section
/-! The throttle token and the power cap (R319, R332, R333, R338): grants, a ceiling that is reached, and samples of the input power. -/

namespace Sys2Proof.Machine

/-! ### Grants and ceilings (R319, R332, R333) -/

/-- The power state apart from the islands that are changing point. -/
def Panel.pwrUnmoved (p : Panel) : Power := { p.pwr with moving := [] }

theorem startMove_pwrUnmoved (p : Panel) (node n : Nat) : (p.startMove node n).pwrUnmoved = p.pwrUnmoved := by
  unfold Panel.startMove
  extract_lets q k
  split <;> rfl

theorem moveZone_pwrUnmoved (p : Panel) (z : Nat) : (p.moveZone z).pwrUnmoved = p.pwrUnmoved :=
  foldl_leaves Panel.pwrUnmoved (fun q node => foldl_leaves Panel.pwrUnmoved (fun q n => startMove_pwrUnmoved q node n) _ q) _ p

/-- Zone z takes the token for a change of its ceiling to c, and none of its changes is pending any more. -/
def Panel.tokenTaken (p : Panel) (z c : Nat) : Panel :=
  let drop (l : List Nat) : List Nat := l.filter (· != z)
  let q : Panel := { p with pwr := { p.pwr with
    heatDown := drop p.pwr.heatDown, capDown := drop p.pwr.capDown, up := drop p.pwr.up, change := some (z, c) } }
  ((q.fput F.PWR_TOKEN_STATUS_last z).fput F.PWR_TOKEN_STATUS_busy 1).addWrap F.PWR_TOKEN_STATUS_grants 1

/-- A grant names one change, and drops what was pending of its zone. -/
theorem grant_leaves (p : Panel) (z c : Nat) : let q := (p.tokenTaken z c).moveZone z
    q.pwr.change = some (z, c) ∧ z ∉ q.pwr.heatDown ∧ z ∉ q.pwr.capDown ∧ z ∉ q.pwr.up := by
  intro q
  have hq : q.pwrUnmoved = (p.tokenTaken z c).pwrUnmoved := moveZone_pwrUnmoved _ z
  have hdrop (l : List Nat) : z ∉ l.filter (· != z) := by simp [List.mem_filter]
  have hheat : q.pwr.heatDown = p.pwr.heatDown.filter (· != z) := congrArg Power.heatDown hq
  have hcap : q.pwr.capDown = p.pwr.capDown.filter (· != z) := congrArg Power.capDown hq
  have hup : q.pwr.up = p.pwr.up.filter (· != z) := congrArg Power.up hq
  exact ⟨congrArg Power.change hq, hheat ▸ hdrop _, hcap ▸ hdrop _, hup ▸ hdrop _⟩

section
variable {s : State}

/-- Only one change runs at a time. -/
theorem acts_throttleTokenGrant_busy (hc : s.p.pwr.change ≠ none) : Acts .throttleTokenGrant s s.p :=
  acts_of_exec rfl (if_pos (Option.isSome_iff_ne_none.2 hc))

section
variable (hc : s.p.pwr.change = none) {z : Nat}
include hc

theorem acts_throttleTokenGrant_down (hd : s.p.nextZone (s.p.pwr.heatDown ++ s.p.pwr.capDown) = some z) :
    Acts .throttleTokenGrant s
      ((s.p.tokenTaken z (min 4 (s.p.fget F.PWR_ZONE_STATUS_ceiling 0 z + 1))).moveZone z) := by
  refine acts_of_exec rfl ((if_neg (by simp [hc])).trans ?_)
  rw [hd]
  rfl

variable (hd : s.p.nextZone (s.p.pwr.heatDown ++ s.p.pwr.capDown) = none)
include hd

theorem acts_throttleTokenGrant_up (hu : s.p.nextZone s.p.ups = some z) :
    Acts .throttleTokenGrant s ((s.p.tokenTaken z (s.p.fget F.PWR_ZONE_STATUS_ceiling 0 z - 1)).moveZone z) := by
  refine acts_of_exec rfl ((if_neg (by simp [hc])).trans ?_)
  rw [hd]
  dsimp only
  rw [hu]
  rfl

theorem acts_throttleTokenGrant_none (hu : s.p.nextZone s.p.ups = none) : Acts .throttleTokenGrant s s.p := by
  refine acts_of_exec rfl ((if_neg (by simp [hc])).trans ?_)
  rw [hd]
  dsimp only
  rw [hu]

end

theorem acts_ceilingChangeDone {z c : Nat} (hc : s.p.pwr.change = some (z, c)) :
    let p1 := (s.p.fput F.PWR_ZONE_STATUS_ceiling c 0 z).fput F.PWR_TOKEN_STATUS_busy 0
    let p2 : Panel := { p1 with pwr := { p1.pwr with change := none, coreMv := smSet p1.pwr.coreMv z (railMv c) } }
    Acts .ceilingChangeDone s
      ((p2.zoneNodes z).foldl (fun p n => (p.usedIslands n).foldl (fun p i => p.takePoint n i) p) p2) :=
  acts_of_exec rfl (by rw [hc])

theorem acts_ceilingChangeDone_none (hc : s.p.pwr.change = none) : Acts .ceilingChangeDone s s.p :=
  acts_of_exec rfl (by rw [hc])

end

/-! ### The power cap (R338) -/

section
variable {p : Panel}

/-- Each zone shows its input power. -/
def Panel.wattsShown (p : Panel) (watts : List (BitVec 16)) : Panel :=
  ((watts.take 14).map (·.toNat)).zipIdx.foldl (fun p e => p.fput F.PWR_ZONE_STATUS_input_w e.1 0 e.2) p

/-- The panel's samples are held, and their mean is shown. -/
def Panel.samplesHeld (p : Panel) (l : List Nat) : Panel :=
  ({ p with pwr := { p.pwr with samples := l } } : Panel).fput F.PWR_PANEL_input_w (sumL l / l.length)

/-- Over the cap, a down change of the zone of highest power is pending. -/
def Panel.capExceeded (p : Panel) : Panel :=
  let q := p.fput F.PWR_PANEL_cap_active 1
  match q.hungriest with
  | some z => { q with pwr := { q.pwr with capDown := insertAsc q.pwr.capDown z } }
  | none => q

/-- What a mean does: over the cap, 5 % below it for long enough, or neither. -/
def Panel.capDecided (p : Panel) (mean : Nat) (below : Bool) : Panel :=
  if p.capW < mean then p.capExceeded
  else if below = true ∧ mean * 100 ≤ p.capW * 95 then p.fput F.PWR_PANEL_cap_active 0 else p

/-- The zones' input power leaves the panel's register and the power state. -/
theorem wattsShown_leaves (hs : smSorted p.regs = true) (watts : List (BitVec 16)) : let q := p.wattsShown watts
    smSorted q.regs = true ∧ q.get .PWR_PANEL = p.get .PWR_PANEL ∧ q.pwr = p.pwr := by
  refine List.foldlRecOn (motive := fun q : Panel => smSorted q.regs = true ∧ q.get .PWR_PANEL = p.get .PWR_PANEL ∧
    q.pwr = p.pwr) _ _ ⟨hs, rfl, rfl⟩ fun q hq e he => ?_
  obtain ⟨hsq, hget, hpwr⟩ := hq
  have hz : e.2 < 14 := (List.snd_lt_of_mem_zipIdx he).trans_le (by simp)
  exact ⟨Panel.sorted_fput hsq .., (Panel.get_put_reg hsq _ (by decide) ⟨by decide, by omega, by decide⟩
    ⟨by decide, by decide, by decide⟩).trans hget, hpwr⟩

/-- A sample is held, and leaves the cap, whether it is active, and the changes pending for it. -/
theorem sample_leaves (hs : smSorted p.regs = true) (watts : List (BitVec 16)) (l : List Nat) :
    let q := (p.wattsShown watts).samplesHeld l
    smSorted q.regs = true ∧ q.capW = p.capW ∧ q.flag F.PWR_PANEL_cap_active = p.flag F.PWR_PANEL_cap_active ∧
      q.pwr.samples = l ∧ q.pwr.capDown = p.pwr.capDown := by
  intro q
  obtain ⟨hs1, hget, hpwr⟩ := wattsShown_leaves hs watts
  have hfield (g : RField) (hr : g.reg = .PWR_PANEL) (hg : g.hi < 64) (hlo : 15 < g.lo) : q.fget g = p.fget g := by
    refine (Panel.fget_fput_field (p := { p.wattsShown watts with pwr := { (p.wattsShown watts).pwr with samples := l } }) hs1
      F.PWR_PANEL_input_w g _ 0 0 0 hr hg (.inr hlo) (by decide)).trans ?_
    rw [Panel.fget, Panel.fget, hr]
    exact congrArg g.read hget
  have hdown : (p.wattsShown watts).pwr.capDown = p.pwr.capDown := congrArg Power.capDown hpwr
  refine ⟨Panel.sorted_fput hs1 .., ?_, ?_, rfl, hdown⟩
  · rw [Panel.capW, hfield _ rfl (by decide) (by decide), Panel.capW]
  · rw [Panel.flag, hfield _ rfl (by decide) (by decide), Panel.flag]

theorem capExceeded_leaves (hs : smSorted p.regs = true) : p.capExceeded.flag F.PWR_PANEL_cap_active = true ∧
    p.capExceeded.pwr.samples = p.pwr.samples ∧
    ∀ z, p.capExceeded.hungriest = some z → z ∈ p.capExceeded.pwr.capDown := by
  have hactive : (p.fput F.PWR_PANEL_cap_active 1).flag F.PWR_PANEL_cap_active = true :=
    flag_fput hs F.PWR_PANEL_cap_active true 0 0 0 (by decide) rfl
  unfold Panel.capExceeded
  extract_lets q
  cases hq : q.hungriest with
  | none => exact ⟨hactive, rfl, fun z hz => absurd (hq.symm.trans hz) nofun⟩
  | some y =>
    refine ⟨hactive, rfl, fun z hz => ?_⟩
    obtain rfl : y = z := Option.some.inj (hq.symm.trans hz)
    exact mem_insertAsc.2 (.inr rfl)

end

section
variable {s : State} {watts : List (BitVec 16)} {below : Bool}

theorem acts_powerCapSample_off (h : s.p.pwr.in44 = false ∨ s.p.pwr.resetHeld = true) :
    Acts (.powerCapSample watts below) s s.p :=
  acts_of_exec rfl (if_pos (by rcases h with h | h <;> simp [h]))

theorem acts_powerCapSample (h44 : s.p.pwr.in44 = true) (hr : s.p.pwr.resetHeld = false) (hs : smSorted s.p.regs = true) :
    let l := (sumL ((watts.take 14).map (·.toNat)) :: s.p.pwr.samples).take 10
    Acts (.powerCapSample watts below) s (((s.p.wattsShown watts).samplesHeld l).capDecided (sumL l / l.length) below) := by
  obtain ⟨-, -, hpwr⟩ := wattsShown_leaves hs watts
  refine acts_of_exec rfl ((if_neg (by simp [h44, hr])).trans ?_)
  rw [← hpwr]
  rfl

end

/-- Settles O41: a lemma per command and case; `grant_leaves` for a grant, `sample_leaves` and `capExceeded_leaves` for the cap. -/
theorem throttleAndCapRun : Obligations.ThrottleAndCapRun := by
  unfold Obligations.ThrottleAndCapRun
  intro s p downs ups ceiling
  refine ⟨fun z hc => ⟨fun hd => ⟨_, acts_throttleTokenGrant_down hc hd, grant_leaves ..⟩, fun hd hu => ?up⟩, fun h => ?none,
    fun z c => acts_ceilingChangeDone, acts_ceilingChangeDone_none, fun h ws below => acts_powerCapSample_off h,
    fun ws below h44 hr hs => ?sample⟩
  case up =>
    obtain ⟨hchange, -, -, hup⟩ := grant_leaves p z (ceiling z - 1)
    exact ⟨_, acts_throttleTokenGrant_up hc hd hu, hchange, hup⟩
  case none =>
    by_cases hc : p.pwr.change = none
    · obtain ⟨hd, hu⟩ := h.resolve_left (not_not_intro hc)
      exact acts_throttleTokenGrant_none hc hd hu
    · exact acts_throttleTokenGrant_busy hc
  case sample =>
    intro l mean
    have hact : Acts (.powerCapSample ws below) s (((p.wattsShown ws).samplesHeld l).capDecided mean below) :=
      acts_powerCapSample h44 hr hs
    obtain ⟨hs1, hcap, hflag, hsamples, hdown⟩ := sample_leaves hs ws l
    rw [Panel.capDecided, hcap] at hact
    rcases Nat.lt_or_ge p.capW mean with hover | hunder
    · obtain ⟨hactive, hkept, hasked⟩ := capExceeded_leaves hs1
      exact ⟨_, hact.congr (if_pos hover), hkept.trans hsamples, fun _ => ⟨hactive, hasked⟩, fun h => absurd hover h.not_gt⟩
    · have hact := hact.congr (if_neg hunder.not_gt)
      by_cases hb : below = true ∧ mean * 100 ≤ p.capW * 95
      · have hended := flag_fput hs1 F.PWR_PANEL_cap_active false 0 0 0 (by decide) rfl
        exact ⟨_, hact.congr (if_pos hb), hsamples, fun h => absurd h hunder.not_gt,
          fun _ => ⟨hdown, fun _ => hended, fun h => absurd hb h⟩⟩
      · exact ⟨_, hact.congr (if_neg hb), hsamples, fun h => absurd h hunder.not_gt,
          fun _ => ⟨hdown, fun h => absurd h hb, fun _ => hflag⟩⟩

end Sys2Proof.Machine
end

section
/-! The queue of commands (log 2): a command changes the panel alone, so a step keeps the rest of the queue. -/

namespace Sys2Proof.Machine

/-- A command changes the panel alone: the queue of commands is neither read nor written. -/
theorem exec_eq_upd (c : Instr) : ∃ f : Panel → Panel, ∀ s : State, exec c s = .next (s.upd f) := by
  cases c <;> exact ⟨_, fun _ => rfl⟩

/-- Settles O1: a step is defined as its front command's `exec`, which `exec_eq_upd` says changes the panel alone. -/
theorem stepRunsTheFrontCommand : Obligations.StepRunsTheFrontCommand := by
  unfold Obligations.StepRunsTheFrontCommand
  refine ⟨fun _ _ _ => rfl, fun c s => ?_⟩
  obtain ⟨f, hf⟩ := exec_eq_upd c
  exact ⟨f s.p, hf s⟩

end Sys2Proof.Machine
end

section
/-! The error managers, the PMC's watchdog and predictive margins (R366, R372 to R377, R381, R382, R398). -/

namespace Sys2Proof.Machine

/-! ### Reports (R372, R373) -/

theorem mgr_modMgr (p : Panel) (hub : Nat) (f : ErrMgr → ErrMgr) : (p.modMgr hub f).mgr hub = f (p.mgr hub) := by
  simp [Panel.modMgr, Panel.mgr, smGetD]

theorem settle_idle {p : Panel} {hub : Nat} (h : (p.mgr hub).handling = none) : p.settle hub = p := by rw [Panel.settle, h]

theorem settle_acting {p : Panel} {hub : Nat} {h : Handling} (hh : (p.mgr hub).handling = some h) (hr : ∀ n, h.phase ≠ .retry n) :
    p.settle hub = p := by
  rw [Panel.settle, hh]
  dsimp only
  split
  · exact absurd ‹_› (hr _)
  · rfl

/-- The model's erasure is the library's, whatever decides equality. -/
theorem eraseFirst_eq (l : List (Nat × Report)) (x : Nat × Report) : eraseFirst l x = l.erase x := by
  unfold eraseFirst
  congr 1
  exact lawful_beq_subsingleton _ _

/-- A report that an armed manager has heard: it is no longer on its way, and a DE is noted for the step in progress. -/
def Panel.heard (p : Panel) (hub : Nat) (r : Report) : Panel :=
  let q : Panel := { p with reports := eraseFirst p.reports (hub, r) }
  if r.cls = clsDE ∧ q.activeHub.any (fun a => (q.eng a).step.isSome) then
    { q with pmc := { q.pmc with des := q.pmc.des ++ [r.detail0.toNat] } }
  else q

theorem heard_eq (p : Panel) (hub : Nat) (r : Report) :
    p.heard hub r = { p with reports := eraseFirst p.reports (hub, r), pmc := (p.heard hub r).pmc } := by
  unfold Panel.heard
  extract_lets q
  split <;> rfl

theorem heard_starting (p : Panel) (hub : Nat) {r : Report} (h : reportStarts r = true) :
    p.heard hub r = { p with reports := eraseFirst p.reports (hub, r) } := by
  refine if_neg fun hd => ?_
  rw [reportStarts, hd.1] at h
  cases h

section
variable {p : Panel} {hub : Nat} {r : Report}

theorem takeReport_unarmed (ha : p.pmc.armed = false) : p.takeReport hub r =
    ({ p with reports := eraseFirst p.reports (hub, r) } : Panel).unarmedReport hub r := by
  have hn : (!p.pmc.armed) = true := by rw [ha]; rfl
  exact if_pos hn

variable (ha : p.pmc.armed = true)
include ha

/-- With nothing in handling an armed manager queues the report. -/
theorem takeReport_idle (hh : (p.mgr hub).handling = none) : p.takeReport hub r = (p.heard hub r).enqueueReport hub r := by
  unfold Panel.takeReport
  extract_lets q _ q1 q2
  have hn : ¬ (!q.pmc.armed) = true := by rw [show q.pmc.armed = true from ha]; decide
  have h2 : q2 = p.heard hub r := settle_idle (hub := hub) (p := p.heard hub r) (by rw [heard_eq]; exact hh)
  rw [if_neg hn, h2, heard_eq]
  dsimp only
  split
  · rename_i h he
    cases hh.symm.trans he
  · rfl

/-- A report that starts a handling and is related to the one in hand escalates it. -/
theorem takeReport_escalates {h : Handling} (hh : (p.mgr hub).handling = some h)
    (hp : ∀ n, h.phase ≠ .retry n) (hre : h.phase ≠ .reshape) (hst : reportStarts r = true)
    (hstorm : p.flag F.PMC_ERR_STATUS_storm = false) (hdry : p.pmc.dry = none)
    (hrs : p.pmc.restarting.contains hub = false) (hrel : p.related h r = true) :
    p.takeReport hub r = ({ p with reports := eraseFirst p.reports (hub, r) } : Panel).escalate hub h r := by
  unfold Panel.takeReport
  extract_lets q _ q1 q2
  have hn : ¬ (!q.pmc.armed) = true := by rw [show q.pmc.armed = true from ha]; decide
  have h2 : q2 = q := (congrArg (Panel.settle · hub) (heard_starting p hub hst)).trans (settle_acting (p := q) (hub := hub) hh hp)
  rw [if_neg hn, h2]
  split
  · rename_i x he
    obtain rfl : h = x := Option.some.inj (hh.symm.trans he)
    refine if_pos ?_
    change (reportStarts r && !p.flag F.PMC_ERR_STATUS_storm && p.pmc.dry.isNone && !p.pmc.restarting.contains hub &&
      h.phase != .reshape && p.related h r) = true
    simp only [hst, hstorm, hdry, hrs, hrel, Bool.not_false, Bool.and_true, Option.isNone_none, bne_iff_ne.2 hre]
  · rename_i he
    cases hh.symm.trans he

end

section
variable {s : State} {hub : Nat} {r : Report}

theorem acts_errorReport (hlt : hub < 4) (hup : s.p.hubUp hub = true) :
    Acts (.errorReport hub r) s (s.p.takeReport hub r) :=
  acts_of_exec rfl (if_pos (by simp [hlt, hup]))

end

theorem enqueueReport_storm {p : Panel} (h : p.flag F.PMC_ERR_STATUS_storm = true) (hub : Nat) (r : Report) :
    p.enqueueReport hub r = p.addHold F.PMC_ERR_STATUS_lost 1 := if_pos h

/-- Out of a storm, a report that does not coalesce joins the queue if there is room. -/
theorem enqueueReport_joins {p : Panel} {hub : Nat} {r : Report} (hs : p.flag F.PMC_ERR_STATUS_storm = false)
    (hc : 2 ≤ r.cls.toNat) (hl : (p.mgr hub).queue.length < 256) :
    p.enqueueReport hub r = p.modMgr hub fun m => { m with queue := m.queue ++ [⟨r, 1, hub, none⟩] } := by
  refine (if_neg (by simp [hs])).trans ((if_neg ?_).trans (if_pos hl))
  have : ¬ r.cls.toNat ≤ 1 := by omega
  simp [this]

/-! ### Taking entries (R374) -/

/-- The entries up to the first that starts a handling are logged, and that one is taken up. -/
theorem takeEntries_starts (hub : Nat) {e : QEntry} (he : reportStarts e.r = true) (rest : List QEntry) :
    ∀ (pre : List QEntry) (p : Panel), (∀ x ∈ pre, reportStarts x.r = false) → takeEntries hub (pre ++ e :: rest) p =
      ((pre.foldl (fun p e => p.logError e.src e.r e.r.level false false 0 e.count) p).modMgr hub fun m =>
        { m with queue := rest }).startHandling hub e
  | [], p, _ => if_pos he
  | x :: pre, p, h => (if_neg (by simp [h x])).trans (takeEntries_starts hub he rest pre _ fun y hy => h y (.tail _ hy))

/-- Where no entry starts a handling all are logged. -/
theorem takeEntries_logs (hub : Nat) : ∀ (l : List QEntry) (p : Panel), (∀ x ∈ l, reportStarts x.r = false) →
    takeEntries hub l p = (l.foldl (fun p e => p.logError e.src e.r e.r.level false false 0 e.count) p).modMgr hub fun m =>
      { m with queue := [] }
  | [], _, _ => rfl
  | x :: l, p, h => (if_neg (by simp [h x])).trans (takeEntries_logs hub l _ fun y hy => h y (.tail _ hy))

theorem acts_errorHandlingStart_stopped {s : State} {hub : Nat}
    (h : s.p.pmc.restarting.contains hub = true ∨ s.p.pmc.halted.contains hub = true) : Acts (.errorHandlingStart hub) s s.p :=
  acts_of_exec rfl (if_pos (by rcases h with h | h <;> simp only [h, Bool.or_true, Bool.true_or]))

theorem acts_errorHandlingStart {s : State} {hub : Nat} (hlt : hub < 4) (hup : s.p.hubUp hub = true)
    (hr : s.p.pmc.restarting.contains hub = false) (hh : s.p.pmc.halted.contains hub = false) (ha : s.p.pmc.armed = true)
    (hn : (s.p.mgr hub).handling = none) : Acts (.errorHandlingStart hub) s (takeEntries hub (s.p.mgr hub).queue s.p) := by
  refine acts_of_exec rfl ((if_neg ?_).trans ?_)
  · simp only [hup, hr, hh, Nat.not_le.2 hlt, Bool.not_true, decide_false, Bool.or_self, Bool.false_eq_true,
      not_false_eq_true]
  · rw [settle_idle hn]
    exact (if_neg (by simp [ha])).trans (if_neg (by simp [hn]))

/-! ### Ends of actions (R375, R381, R382) -/

/-- The hub's manager waits for the check of a spare. -/
def Panel.checksSpare (p : Panel) (hub : Nat) : Bool :=
  match (p.mgr hub).handling with
  | some h => (match h.phase with | .spareCheck .. => true | _ => false)
  | none => false

theorem checksSpare_of {p : Panel} {hub die cl c : Nat} {h : Handling} (hh : (p.mgr hub).handling = some h)
    (hp : h.phase = .spareCheck die cl c) : p.checksSpare hub = true := by
  rw [Panel.checksSpare, hh]
  dsimp only
  rw [hp]

theorem checksSpare_eq_false {p : Panel} {hub : Nat} (hm : ∀ x a b d, (p.mgr hub).handling = some x → x.phase ≠ .spareCheck a b d) :
    p.checksSpare hub = false := by
  unfold Panel.checksSpare
  split
  · split
    · exact absurd ‹_› (hm _ _ _ _ ‹_›)
    · rfl
  · rfl

/-- The first hub whose manager waits for a spare is found. -/
theorem find_checksSpare {p : Panel} {hub : Nat} (hlt : hub < 4) (h : p.checksSpare hub = true)
    (hm : ∀ m, m < hub → p.checksSpare m = false) : (List.range 4).find? p.checksSpare = some hub := by
  rw [List.find?_range_eq_some]
  exact ⟨h, by simpa using hlt, fun j hj => by simp [hm j hj]⟩

theorem acts_spareCheckDone {s : State} {hub die cl c : Nat} {h : Handling} (hlt : hub < 4)
    (hh : (s.p.mgr hub).handling = some h) (hp : h.phase = .spareCheck die cl c)
    (hm : ∀ m x a b d, m < hub → (s.p.mgr m).handling = some x → x.phase ≠ .spareCheck a b d) (ok : Bool) :
    Acts (.spareCheckDone ok) s (if ok = true then (s.p.spareStarts c).endAction hub h
      else
        let r : Report := ⟨0x0106, clsUC, lvCore, 2, BitVec.ofNat 8 (s.p.dieSite die), BitVec.ofNat 8 (cl * 9 + 8), 0, 0⟩
        (s.p.addFfl 2 r.site r.sub 3).escalate hub { h with r := r } r) := by
  have hf := find_checksSpare hlt (checksSpare_of hh hp) fun m hlt => checksSpare_eq_false fun x a b d => hm m x a b d hlt
  refine acts_of_exec rfl ?_
  change (match (List.range 4).find? s.p.checksSpare with | none => _ | some hub => _) = _
  rw [hf]
  dsimp only
  rw [hh]
  dsimp only
  rw [hp]

/-! ### The PMC watchdog (R366, R377) -/

section
variable (p : Panel) (hub : Nat) (again : Bool)

/-- The trip is counted, and the hub's PMC restarts. -/
def Panel.tripCounted : Panel :=
  let q := p.addHold F.PMC_WATCHDOG_trips 1
  { q with pmc := { q.pmc with restarting := insertAsc q.pmc.restarting hub } }

/-- The alternate takes over from a primary that tripped. -/
def Panel.tripTakenOver : Panel :=
  let q := p.tripCounted hub
  if p.primaryHub = hub ∧ p.hubUp (3 - hub) = true ∧ q.pmc.restarting.contains (3 - hub) = false then
    { q with pmc := { q.pmc with primaryHd3 := !p.pmc.primaryHd3, tookOver := true } }
  else q

/-- The trip is reported, and HUB_LOST with a second one within 60 s. -/
def Panel.tripReported : Panel :=
  let q := (p.tripTakenOver hub).reportHubEdge hub 0x0601 clsUC
  if again then q.reportHubEdge hub 0x0602 clsUF else q

/-- A trip of the primary PMC in a stage: the stage fails, or is entered once more. -/
def Panel.tripEnds (was : Bool) : Panel :=
  if was && decide (1 ≤ p.stage) && decide (p.stage ≤ 9) then
    if p.bring.pmcRetried then p.failStage p.stage detPmcRestart (p.wordsNow p.stage)
    else
      let q := p.stageRecord p.stage resFail detPmcRestart (p.wordsNow p.stage)
      ({ q with bring := { q.bring with pmcRetried := true } } : Panel).enterStage p.stage
  else p

theorem tripEnds_outside {was : Bool} (h : was = false ∨ p.stage = 0 ∨ 9 < p.stage) : p.tripEnds was = p := by
  refine if_neg ?_
  simp only [Bool.and_eq_true, decide_eq_true_eq]
  rintro ⟨⟨hw, h1⟩, h9⟩
  rcases h with h | h | h
  · exact absurd hw (by simp [h])
  · omega
  · omega

theorem tripEnds_inside (h1 : 1 ≤ p.stage) (h9 : p.stage ≤ 9) :
    (p.bring.pmcRetried = true → p.tripEnds true = p.failStage p.stage detPmcRestart (p.wordsNow p.stage)) ∧
    (p.bring.pmcRetried = false → ∃ q : Panel, q.bring.pmcRetried = true ∧ p.tripEnds true = q.enterStage p.stage) := by
  have hin : (true && decide (1 ≤ p.stage) && decide (p.stage ≤ 9)) = true := by simp [h1, h9]
  exact ⟨fun h => (if_pos hin).trans (if_pos h), fun h => ⟨_, rfl, (if_pos hin).trans (if_neg (by simp [h]))⟩⟩

theorem tripTakenOver_eq : p.tripTakenOver hub = { p.tripCounted hub with pmc := (p.tripTakenOver hub).pmc } := by
  unfold Panel.tripTakenOver
  extract_lets q
  split <;> rfl

theorem tripReported_regs : (p.tripReported hub again).regs = (p.addHold F.PMC_WATCHDOG_trips 1).regs := by
  have h : (p.tripTakenOver hub).regs = (p.addHold F.PMC_WATCHDOG_trips 1).regs := by rw [tripTakenOver_eq]; rfl
  unfold Panel.tripReported
  cases again <;> exact h

theorem tripReported_bring : (p.tripReported hub again).bring = p.bring := by
  have h : (p.tripTakenOver hub).bring = p.bring := by rw [tripTakenOver_eq]; rfl
  unfold Panel.tripReported
  cases again <;> exact h

/-- A trip leaves the stage. -/
theorem tripReported_stage {p : Panel} (hs : smSorted p.regs = true) : (p.tripReported hub again).stage = p.stage :=
  (Panel.fget_congr (tripReported_regs p hub again) ..).trans
    (Panel.fget_fput_reg hs _ (by decide) ⟨by decide, by decide, by decide⟩ ⟨by decide, by decide, by decide⟩)

end

section
variable {s : State} {hub : Nat} {again : Bool} (hlt : hub < 4) (hup : s.p.hubUp hub = true)
include hlt hup

theorem acts_pmcWatchdogTrip : Acts (.pmcWatchdogTrip hub again) s
    ((s.p.tripReported hub again).tripEnds (decide (s.p.primaryHub = hub))) := by
  refine acts_of_exec rfl ((if_neg (by simp [hup, hlt])).trans ?_)
  extract_lets was p1 _ p2 other _ p3 p4 p5
  have h3 : p3 = s.p.tripTakenOver hub := by
    refine if_congr ?_ rfl rfl
    simp only [was, other, Bool.and_eq_true, decide_eq_true_eq, Bool.not_eq_true', and_assoc]
    rfl
  have h5 : p5 = s.p.tripReported hub again := congrArg (fun x : Panel =>
    let y := x.reportHubEdge hub 0x0601 clsUC
    if again then y.reportHubEdge hub 0x0602 clsUF else y) h3
  exact congrArg (fun q : Panel => q.tripEnds was) h5

end

/-! ### The PMC resumes, and predictive margins (R377, R398, R400) -/

theorem acts_pmcResume (s : State) (hub : Nat) :
    let r := s.p.pmc.restarting.filter (· != hub)
    let q : Panel := { s.p with pmc := { s.p.pmc with restarting := r, tookOver := s.p.pmc.tookOver && !r.isEmpty } }
    Acts (.pmcResume hub) s (if s.p.pmc.dry.isSome then q.dryBegin else q.handoffOut) := by
  intro r q
  refine acts_of_exec rfl ?_
  let q1 : Panel := { s.p with pmc := { s.p.pmc with restarting := r } }
  have hq : (if r.isEmpty = true then ({ q1 with pmc := { q1.pmc with tookOver := false } } : Panel) else q1) = q := by
    cases hr : r.isEmpty
    · simp only [Bool.false_eq_true, if_false, q1, q, hr, Bool.not_false, Bool.and_true]
    · simp only [if_true, q1, q, hr, Bool.not_true, Bool.and_false]
  exact congrArg (fun x : Panel => if x.pmc.dry.isSome then x.dryBegin else x.handoffOut) hq

theorem acts_predictMarginCross_none {s : State} {a : PredictAt}
    (h : s.p.hasPrimary = false ∨ 8 < a.margin.toNat ∨ s.p.mayCross a = false) : Acts (.predictMarginCross a) s s.p :=
  acts_of_exec rfl (if_pos (by rcases h with h | h | h <;> simp [h]))

section
variable {p : Panel}

theorem platformEvent_regs (sensor value : Nat) : (p.platformEvent sensor value).regs = p.regs := by
  unfold Panel.platformEvent
  split <;> rfl

theorem sorted_addWrap (hs : smSorted p.regs = true) (f : RField) (n u i j : Nat) :
    smSorted (p.addWrap f n u i j).regs = true := Panel.sorted_fput hs ..

theorem sorted_sendVector (hs : smSorted p.regs = true) (host : Bool) (v : Nat) : smSorted (p.sendVector host v).regs = true := by
  unfold Panel.sendVector
  split
  · extract_lets q
    split
    · exact sorted_addWrap (p := q) hs ..
    · exact hs
  · cases host <;> exact hs

theorem sorted_hostEvent (hs : smSorted p.regs = true) (host : Bool) (f : RField) : smSorted (p.hostEvent host f).regs = true := by
  unfold Panel.hostEvent
  split
  · exact sorted_sendVector (sorted_addWrap hs ..) ..
  · exact hs

theorem sorted_bothHosts (hs : smSorted p.regs = true) (f : RField) : smSorted (p.bothHosts f).regs = true :=
  sorted_hostEvent (sorted_hostEvent hs ..) ..

/-- A record keeps the register file in order. -/
theorem sorted_logError (hs : smSorted p.regs = true) (hub : Nat) (r : Report) (level : BitVec 3) (escalated replaced : Bool)
    (related count : Nat) : smSorted (p.logError hub r level escalated replaced related count).regs = true := by
  unfold Panel.logError
  dsimp -zeta only
  extract_lets p1 p2
  have h1 : smSorted p1.regs = true := Panel.sorted_fput (foldl_keeps (fun q : Panel => smSorted q.regs = true) _
    (fun q w hq => Panel.sorted_put hq ..) _ _ hs) ..
  have h2 : smSorted p2.regs = true := Panel.sorted_fput h1 ..
  split
  · exact sorted_bothHosts h2 _
  · split
    · rw [platformEvent_regs]
      exact sorted_bothHosts h2 _
    · exact h2

end

/-- The crossing of a margin shows in its bit of PMC_HEALTH. -/
theorem acts_predictMarginCross {s : State} {a : PredictAt} (hp : s.p.hasPrimary = true) (ha : a.margin.toNat ≤ 8)
    (hm : s.p.mayCross a = true) : ∃ q, Acts (.predictMarginCross a) s q ∧
      (smSorted s.p.regs = true → bit (q.fget F.PMC_HEALTH_margins) a.margin.toNat = true) := by
  refine ⟨_, acts_of_exec rfl (if_neg (by simp [hp, hm, Nat.not_lt.2 ha])), fun hs => ?_⟩
  have h1 := sorted_logError hs s.p.primaryHub ⟨0x0606, clsInfo, predictLevel a, a.kind, a.site, a.sub, 0, 0⟩
    (predictLevel a) false false 0 1
  rw [Panel.fget_congr (platformEvent_regs _ _), Panel.fget_fput (sorted_addWrap h1 ..) F.PMC_HEALTH_margins _ _ _ _ (by decide),
    bit_eq_testBit, Nat.testBit_mod_two_pow, Nat.testBit_or, Nat.testBit_two_pow_self]
  simp only [Bool.or_true, Bool.and_true, decide_eq_true_eq]
  omega

/-- Settles O44: a report by what its manager has in hand, the entries by induction over the queue (`takeEntries_starts`,
`takeEntries_logs`), then a lemma per command. -/
theorem errorManagersRun : Obligations.ErrorManagersRun := by
  unfold Obligations.ErrorManagersRun
  intro s p logged
  refine ⟨fun hub r hlt hup => ⟨fun ha hh hc => ⟨fun hs hl => ?queued, fun hs => ?lost⟩,
      fun h ha hh hp hre hst hstorm hdry hrs hrel => ?escalated, fun ha => ?unarmed⟩,
    fun hub hlt hup hr hh ha hn => ⟨fun pre e rest hq hpre he => ?taken, fun hq => ?logged⟩,
    fun hub => acts_errorHandlingStart_stopped, fun hub h die cl c hlt hh hp hm => ?spare, ?timeout,
    fun hub again hlt hup hs => ?trip, fun hub => acts_pmcResume s hub,
    fun a => acts_predictMarginCross, fun a => acts_predictMarginCross_none⟩
  case queued =>
    refine ⟨_, (acts_errorReport hlt hup).congr ((takeReport_idle ha hh).trans (enqueueReport_joins ?_ hc ?_)), ?_, ?_, ?_, ?_⟩
    all_goals rw [heard_eq]
    · exact hs
    · exact hl
    · exact congrArg ErrMgr.queue (mgr_modMgr _ hub _)
    · exact eraseFirst_eq _ _
    · rfl
    · rfl
  case lost =>
    refine ⟨_, (acts_errorReport hlt hup).congr ((takeReport_idle ha hh).trans (enqueueReport_storm ?_ hub r)), ?_, ?_⟩
    all_goals rw [heard_eq]
    exact hs
  case escalated =>
    exact ⟨_, (acts_errorReport hlt hup).congr (takeReport_escalates ha hh hp hre hst hstorm hdry hrs hrel), eraseFirst_eq _ _⟩
  case unarmed =>
    rw [← eraseFirst_eq]
    exact (acts_errorReport hlt hup).congr (takeReport_unarmed ha)
  case taken =>
    exact (acts_errorHandlingStart hlt hup hr hh ha hn).congr (hq ▸ takeEntries_starts hub he rest pre p hpre)
  case logged => exact (acts_errorHandlingStart hlt hup hr hh ha hn).congr (takeEntries_logs hub _ p hq)
  case spare =>
    exact ⟨(acts_spareCheckDone hlt hh hp hm true).congr (if_pos rfl), _, rfl, rfl, rfl, rfl, rfl,
      (acts_spareCheckDone hlt hh hp hm false).congr (if_neg Bool.false_ne_true)⟩
  case timeout => exact acts_of_exec rfl rfl
  case trip =>
    intro p1 p2 p3 p4 p5
    have hact : Acts (.pmcWatchdogTrip hub again) s (p5.tripEnds (decide (p.primaryHub = hub))) := acts_pmcWatchdogTrip hlt hup
    have hst : p5.stage = p.stage := tripReported_stage hub again hs
    have hb : p5.bring = p.bring := tripReported_bring p hub again
    refine ⟨fun h => hact.congr (tripEnds_outside _ (by rw [hst]; simpa using h)), fun hh h1 h9 => ?_⟩
    rw [decide_eq_true hh] at hact
    obtain ⟨hretried, hfirst⟩ := tripEnds_inside p5 (hst ▸ h1) (hst ▸ h9)
    rw [hb, hst] at hretried hfirst
    refine ⟨fun hr => hact.congr (hretried hr), fun hr => ?_⟩
    obtain ⟨q, hq, he⟩ := hfirst hr
    exact ⟨q, hq, hact.congr he⟩

end Sys2Proof.Machine
end

section
/-! Management (R364, R456, R464, R465, R475 to R479): MCTP control and I3C addresses, PLDM updates, sensors and JTAG. -/

namespace Sys2Proof.Machine

/-! ### MCTP control (R475, R476) -/

section
variable {p : Panel} {hub : Nat} {t : Transport}

theorem mgmtOf_modMgmt (p : Panel) (hub : Nat) (f : Mgmt → Mgmt) : (p.modMgmt hub f).mgmtOf hub = f (p.mgmtOf hub) := by
  simp [Panel.modMgmt, Panel.mgmtOf, smGetD]

theorem mctp_up (h : p.transportUp hub t = true) (a : Answer) : p.mctp hub t a = p.reply hub (some t) a := if_pos h

theorem mctp_down (h : p.transportUp hub t = false) (a : Answer) : p.mctp hub t a = p := if_neg (by simp [h])

/-- Whether a transport works hangs on the I3C address alone of what an endpoint holds. -/
theorem transportUp_modMgmt {f : Mgmt → Mgmt} (h : ∀ m, (f m).i3cAddr = m.i3cAddr) :
    (p.modMgmt hub f).transportUp hub t = p.transportUp hub t := by
  cases t with
  | pcieVdm => rfl
  | i3c => exact congrArg (fun m : Mgmt => p.secUp hub && m.i3cAddr.isSome) (mgmtOf_modMgmt p hub f) |>.trans (by rw [h]; rfl)
  | smbus => exact congrArg (fun m : Mgmt => p.secUp hub && m.i3cAddr.isNone) (mgmtOf_modMgmt p hub f) |>.trans (by rw [h]; rfl)

theorem reply_out (p : Panel) (hub : Nat) (t : Transport) (a : Answer) :
    (p.reply hub (some t) a).out = .answer hub a :: if t = .i3c then .inBand hub :: p.out else p.out := by
  cases t <;> rfl

theorem reply_mgmt (p : Panel) (hub : Nat) (t : Option Transport) (a : Answer) : (p.reply hub t a).mgmt = p.mgmt := by
  unfold Panel.reply
  split <;> rfl

/-- The endpoint takes an identifier that is neither null nor broadcast. -/
def Panel.eidTaken (p : Panel) (hub : Nat) (t : Transport) (eid : BitVec 8) : Panel :=
  if eid = 0 ∨ eid = 0xFF then p else p.modMgmt hub fun m => { m with eids := smSet m.eids (transportKey t) eid }

theorem eidTaken_leaves (p : Panel) (hub : Nat) (t : Transport) (eid : BitVec 8) : let q := p.eidTaken hub t eid
    q.transportUp hub t = p.transportUp hub t ∧ (q.mgmtOf hub).i3cAddr = (p.mgmtOf hub).i3cAddr ∧ q.out = p.out ∧
      (eid ≠ 0 → eid ≠ 0xFF → q.eid hub t = eid) ∧ (eid = 0 ∨ eid = 0xFF → q.eid hub t = p.eid hub t) := by
  intro q
  by_cases h : eid = 0 ∨ eid = 0xFF
  · rw [show q = p from if_pos h]
    exact ⟨rfl, rfl, rfl, fun h0 h1 => absurd h (not_or.2 ⟨h0, h1⟩), fun _ => rfl⟩
  · rw [show q = _ from if_neg h]
    refine ⟨transportUp_modMgmt fun _ => rfl, ?_, rfl, fun _ _ => ?_, fun h' => absurd h' h⟩
    · rw [mgmtOf_modMgmt]
    · rw [Panel.eid, mgmtOf_modMgmt]
      simp [smGetD]

end

section
variable {s : State} {hub : Nat} {t : Transport}

theorem acts_mctp_down (h : s.p.transportUp hub t = false) (eid : BitVec 8) : ∀ i ∈ ([.setEndpointId hub t eid, .getEndpointId hub t,
    .getMctpVersionSupport hub t, .getMessageTypeSupport hub t, .getVendorDefinedMessageSupport hub t] : List Instr),
    Acts i s s.p := by
  simp only [List.forall_mem_cons, List.not_mem_nil, false_implies, implies_true, and_true]
  exact ⟨acts_of_exec rfl (if_neg (by simp [h])), acts_of_exec rfl (mctp_down h _), acts_of_exec rfl (mctp_down h _),
    acts_of_exec rfl (mctp_down h _), acts_of_exec rfl (mctp_down h _)⟩

theorem acts_setEndpointId (h : s.p.transportUp hub t = true) (eid : BitVec 8) : let q := s.p.eidTaken hub t eid
    Acts (.setEndpointId hub t eid) s (q.reply hub (some t) (.mctpEid (q.eid hub t))) := by
  obtain ⟨hup, -⟩ := eidTaken_leaves s.p hub t eid
  exact acts_of_exec rfl ((if_pos h).trans (mctp_up (hup.trans h) _))

end

/-! ### I3C addresses (R475) -/

section
variable {s : State} {hub : Nat} (hu : s.p.secUp hub = true) (addr : BitVec 7)
include hu

theorem acts_i3c_taken (h : (s.p.mgmtOf hub).i3cAddr = none) :
    Acts (.entdaa hub addr) s (s.p.modMgmt hub fun m => { m with i3cAddr := some addr }) ∧
      Acts (.setdasa hub 0x3A addr) s (s.p.modMgmt hub fun m => { m with i3cAddr := some addr }) :=
  ⟨acts_of_exec rfl (if_pos (by simp [hu, h])), acts_of_exec rfl (if_pos (by simp [hu, h]))⟩

omit hu in
theorem acts_i3c_kept (h : (s.p.mgmtOf hub).i3cAddr ≠ none) :
    Acts (.entdaa hub addr) s s.p ∧ Acts (.setdasa hub 0x3A addr) s s.p :=
  ⟨acts_of_exec rfl (if_neg (by simp [h])), acts_of_exec rfl (if_neg (by simp [h]))⟩

omit hu in
theorem acts_setdasa_other {static : BitVec 7} (h : static ≠ 0x3A) : Acts (.setdasa hub static addr) s s.p :=
  acts_of_exec rfl (if_neg (by rw [beq_eq_false_iff_ne.2 h, Bool.and_false, Bool.false_and]; decide))

theorem acts_rstdaa : Acts (.rstdaa hub) s (s.p.modMgmt hub fun m => { m with i3cAddr := none }) := acts_of_exec rfl (if_pos hu)

end

/-! ### Who answers PLDM (R364, R475, R476) -/

/-- The hub is in ROM in the safe talkative state, and serves its own NVM. -/
abbrev Panel.romServes (p : Panel) (hub : Nat) : Prop := p.bring.inRom.contains hub = true ∧ p.stage = stageSafe

/-- The hub has a path to the primary PMC. -/
abbrev Panel.joinsPrimary (p : Panel) (hub : Nat) : Prop := p.hasPrimary = true ∧ p.bring.running.contains hub = true

/-- The hub whose update a command of type 5 is about. -/
def Panel.updateHub (p : Panel) (hub : Nat) : Nat := if p.romServes hub then hub else p.primaryHub

section
variable {p q : Panel} {hub : Nat} {t : Transport} {a : Answer} {g : Panel → Panel × Answer} {f : Nat → Panel → Panel × Answer}

theorem pldm_down (h : p.transportUp hub t = false) : p.pldm ⟨hub, t⟩ g = p := if_pos (by simp [h])

theorem romServes_guard (h : p.transportUp hub t = true) :
    (p.transportUp hub t && p.bring.inRom.contains hub && p.stage == stageSafe) = true ↔ p.romServes hub := by
  rw [h, Bool.true_and, Bool.and_eq_true, beq_iff_eq]

theorem pldm5_down (h : p.transportUp hub t = false) : p.pldm5 ⟨hub, t⟩ f = p :=
  (if_neg (by simp [h])).trans (pldm_down h)

section
variable (h : p.transportUp hub t = true)
include h

theorem pldm_notReady (hj : ¬p.joinsPrimary hub) : p.pldm ⟨hub, t⟩ g = p.reply hub (some t) .notReady := by
  refine (if_neg (by simp [h])).trans (if_pos ?_)
  rw [Bool.or_eq_true, Bool.not_eq_true', Bool.not_eq_true']
  by_contra hc
  rw [not_or, Bool.not_eq_false, Bool.not_eq_false] at hc
  exact hj hc

theorem pldm_joined (hj : p.joinsPrimary hub) (hg : g p = (q, a)) : p.pldm ⟨hub, t⟩ g = q.reply hub (some t) a := by
  obtain ⟨hp, hr⟩ := hj
  refine (if_neg (by simp [h])).trans ((if_neg ?_).trans ?_)
  · rw [hp, hr]
    decide
  · rw [hg]

theorem pldm5_notReady (hr : ¬p.romServes hub) (hj : ¬p.joinsPrimary hub) :
    p.pldm5 ⟨hub, t⟩ f = p.reply hub (some t) .notReady :=
  (if_neg fun hc => hr ((romServes_guard h).1 hc)).trans (pldm_notReady h hj)

theorem pldm5_served (hs : p.romServes hub ∨ p.joinsPrimary hub) (hf : f (p.updateHub hub) p = (q, a)) :
    p.pldm5 ⟨hub, t⟩ f = q.reply hub (some t) a := by
  unfold Panel.updateHub at hf
  by_cases hr : p.romServes hub
  · rw [if_pos hr] at hf
    refine (if_pos ((romServes_guard h).2 hr)).trans ?_
    rw [hf]
  · rw [if_neg hr] at hf
    exact (if_neg fun hc => hr ((romServes_guard h).1 hc)).trans (pldm_joined h (hs.resolve_left hr) hf)

end

end

/-! ### Updates (R456, R477) -/

/-- The command is a PLDM command of type 5 at an endpoint. -/
def IsPldm5 (hub : Nat) (t : Transport) (i : Instr) : Prop := ∃ f : Nat → Panel → Panel × Answer,
  ∀ s : State, exec i s = .next (s.upd fun p => p.pldm5 ⟨hub, t⟩ f)

/-- The commands of an update are. -/
theorem isPldm5_update (hub : Nat) (t : Transport) (c off : Nat) (data : List Byte) (ok : Bool) : ∀ i ∈ ([.requestUpdate ⟨hub, t⟩ c,
    .pldmType5Transfer ⟨hub, t⟩ off data, .verifyComplete ⟨hub, t⟩ ok, .activateFirmware hub t] : List Instr), IsPldm5 hub t i := by
  simp only [List.forall_mem_cons, List.not_mem_nil, false_implies, implies_true, and_true]
  exact ⟨⟨_, fun _ => rfl⟩, ⟨_, fun _ => rfl⟩, ⟨_, fun _ => rfl⟩, ⟨_, fun _ => rfl⟩⟩

section
variable {s : State} {hub : Nat} {t : Transport} {c off : Nat} {data : List Byte} {ok : Bool}

theorem acts_pldm5_down (h : s.p.transportUp hub t = false) {i : Instr} (hi : IsPldm5 hub t i) : Acts i s s.p := by
  obtain ⟨f, hf⟩ := hi
  exact acts_of_exec (hf s) (pldm5_down h)

theorem acts_pldm5_notReady (h : s.p.transportUp hub t = true) (hr : ¬s.p.romServes hub) (hj : ¬s.p.joinsPrimary hub)
    {i : Instr} (hi : IsPldm5 hub t i) : Acts i s (s.p.reply hub (some t) .notReady) := by
  obtain ⟨f, hf⟩ := hi
  exact acts_of_exec (hf s) (pldm5_notReady h hr hj)

section
variable (h : s.p.transportUp hub t = true) (hs : s.p.romServes hub ∨ s.p.joinsPrimary hub)
include h hs

theorem acts_update {i : Instr} {f : Nat → Panel → Panel × Answer} {q : Panel} {a : Answer}
    (he : exec i s = .next (s.upd fun p => p.pldm5 ⟨hub, t⟩ f)) (hf : f (s.p.updateHub hub) s.p = (q, a)) :
    Acts i s (q.reply hub (some t) a) := acts_of_exec he (pldm5_served h hs hf)

/-- With no update in hand only a request begins one. -/
theorem acts_update_none (hu : (s.p.mgmtOf (s.p.updateHub hub)).update = none) :
    ∀ i ∈ ([.pldmType5Transfer ⟨hub, t⟩ off data, .verifyComplete ⟨hub, t⟩ ok, .activateFirmware hub t] : List Instr),
      Acts i s (s.p.reply hub (some t) .pldmFail) := by
  simp only [List.forall_mem_cons, List.not_mem_nil, false_implies, implies_true, and_true]
  exact ⟨acts_update h hs rfl (by rw [hu]), acts_update h hs rfl (by rw [hu]), acts_update h hs rfl (by rw [hu])⟩

theorem acts_requestUpdate :
    (s.p.nvmClosed = true → Acts (.requestUpdate ⟨hub, t⟩ c) s (s.p.reply hub (some t) .pldmRetry)) ∧
    (s.p.nvmClosed = false →
      (s.p.ownComponent (s.p.updateHub hub) c = false → Acts (.requestUpdate ⟨hub, t⟩ c) s (s.p.reply hub (some t) .pldmFail)) ∧
      (s.p.ownComponent (s.p.updateHub hub) c = true → s.p.nvmProtected c = true →
        Acts (.requestUpdate ⟨hub, t⟩ c) s (s.p.reply hub (some t) .pldmNotUpdateable)) ∧
      (s.p.ownComponent (s.p.updateHub hub) c = true → s.p.nvmProtected c = false → Acts (.requestUpdate ⟨hub, t⟩ c) s
        ((s.p.setUpdate (s.p.updateHub hub) (some ⟨c, [], false⟩)).reply hub (some t) .pldmOk))) := by
  refine ⟨fun hn => acts_update h hs rfl (if_pos hn), fun hn => ?_⟩
  have hopen : ¬ s.p.nvmClosed = true := by simp [hn]
  refine ⟨fun ho => acts_update h hs rfl ((if_neg hopen).trans (if_pos (by simp [ho]))), fun ho hp => ?_, fun ho hp => ?_⟩
  · exact acts_update h hs rfl ((if_neg hopen).trans ((if_neg (by simp [ho])).trans (if_pos hp)))
  · exact acts_update h hs rfl ((if_neg hopen).trans ((if_neg (by simp [ho])).trans (if_neg (by simp [hp]))))

theorem acts_transfer {u : Update} (hu : (s.p.mgmtOf (s.p.updateHub hub)).update = some u) :
    let fits := data.length ≤ 4096 ∧ off + data.length ≤ 120 * 2 ^ 20
    let i : Instr := .pldmType5Transfer ⟨hub, t⟩ off data
    (s.p.nvmClosed = true → Acts i s (s.p.reply hub (some t) .pldmRetry)) ∧
    (s.p.nvmClosed = false → s.p.nvmProtected u.component = true → Acts i s (s.p.reply hub (some t) .pldmNotUpdateable)) ∧
    (s.p.nvmClosed = false → s.p.nvmProtected u.component = false → ¬ fits → Acts i s (s.p.reply hub (some t) .pldmFail)) ∧
    (s.p.nvmClosed = false → s.p.nvmProtected u.component = false → fits → Acts i s
      (((s.p.writeImage u.component off data).setUpdate (s.p.updateHub hub)
        (some { u with data := (data.zipIdx).foldl (fun m e => smSet m (off + e.2) e.1) u.data, verified := false })).reply
          hub (some t) .pldmOk)) := by
  intro fits i
  refine ⟨fun hn => ?_, fun hn hp => ?_, fun hn hp hf => ?_, fun hn hp hf => ?_⟩
  all_goals
    refine acts_update h hs rfl ?_
    rw [hu]
  · exact if_pos hn
  · exact (if_neg (by simp [hn])).trans (if_pos hp)
  · exact (if_neg (by simp [hn])).trans ((if_neg (by simp [hp])).trans (if_pos (by omega)))
  · exact (if_neg (by simp [hn])).trans ((if_neg (by simp [hp])).trans (if_neg (by omega)))

theorem acts_verifyComplete {u : Update} (hu : (s.p.mgmtOf (s.p.updateHub hub)).update = some u) :
    (ok = true → Acts (.verifyComplete ⟨hub, t⟩ ok) s
      ((s.p.setUpdate (s.p.updateHub hub) (some { u with verified := true })).reply hub (some t) .pldmOk)) ∧
    (ok = false → Acts (.verifyComplete ⟨hub, t⟩ ok) s (s.p.reply hub (some t) .pldmFail)) := by
  refine ⟨fun ho => ?_, fun ho => ?_⟩
  all_goals
    refine acts_update h hs rfl ?_
    rw [hu]
  · exact if_pos ho
  · exact if_neg (by simp [ho])

theorem acts_activateFirmware {u : Update} (hu : (s.p.mgmtOf (s.p.updateHub hub)).update = some u) :
    (u.verified = false → Acts (.activateFirmware hub t) s (s.p.reply hub (some t) .pldmFail)) ∧
    (u.verified = true →
      let q := s.p.setUpdate (s.p.updateHub hub) none
      let restarts := q.serving = servDown ∨ q.serving = servDried ∨ q.stage = stageSafe
      (restarts → Acts (.activateFirmware hub t) s (((q.restartHubs).beginBringup 1).reply hub (some t) .pldmOk)) ∧
      (¬ restarts → Acts (.activateFirmware hub t) s (q.reply hub (some t) .pldmPending))) := by
  refine ⟨fun hv => ?_, fun hv => ⟨fun hr => ?_, fun hr => ?_⟩⟩
  all_goals
    refine acts_update h hs rfl ?_
    rw [hu]
  · exact if_pos (by simp [hv])
  · exact (if_neg (by simp [hv])).trans (if_pos hr)
  · exact (if_neg (by simp [hv])).trans (if_neg hr)

end

end

theorem nvmOf_setNvm (p : Panel) (hub : Nat) (n : Nvm) : (p.setNvm hub n).nvmOf hub = n := by
  unfold Panel.setNvm Panel.nvmOf
  split <;> rfl

/-- Bytes written one by one into a map: each is read at its place, and every other place as before. -/
theorem smGet_foldl_smSet {V : Type} (l : List V) (off : Nat) (m : SMap V) (a : Nat) (n : Nat) :
    smGet ((l.zipIdx n).foldl (fun m e => smSet m (off + e.2) e.1) m) a =
      if off + n ≤ a ∧ a < off + n + l.length then l[a - (off + n)]? else smGet m a := by
  induction l generalizing m n with
  | nil => exact (if_neg (by rw [List.length_nil]; omega)).symm
  | cons x l ih =>
    rw [List.zipIdx_cons, List.foldl_cons, ih]
    rcases Nat.lt_trichotomy a (off + n) with h | rfl | h
    · rw [if_neg (by omega), if_neg (by omega), smGet_smSet_other _ _ (by omega)]
    · have hin : off + n ≤ off + n ∧ off + n < off + n + (x :: l).length := by simp
      rw [if_neg (by omega), if_pos hin, smGet_smSet_same, Nat.sub_self, List.getElem?_cons_zero]
    · have hk : a - (off + n) = a - (off + (n + 1)) + 1 := by omega
      rw [smGet_smSet_other _ _ (by omega), hk, List.getElem?_cons_succ]
      exact if_congr (by rw [List.length_cons]; omega) rfl rfl

/-! ### Sensors (R478) -/

/-- What a refresh of the sensors leaves: cores, memories and the register file. -/
def Panel.unsensed (p : Panel) : SMap Core × Store × SMap W64 := (p.cores, p.st, p.regs)

section
variable (p : Panel)

theorem sensor_unsensed (id : Nat) (live : Bool) (reading code : Nat) : (p.sensor id live reading code).unsensed = p.unsensed := by
  unfold Panel.sensor
  split
  · rfl
  · split
    · rfl
    · unfold Panel.platformEvent
      split <;> rfl

theorem vinSensors_unsensed : p.vinSensors.unsensed = p.unsensed := (sensor_unsensed ..).trans (sensor_unsensed ..)

theorem stackSensor_unsensed (site : Nat) : (p.stackSensor site).unsensed = p.unsensed := by
  unfold Panel.stackSensor
  split <;> exact sensor_unsensed ..

theorem opticalSensor_unsensed (k : Nat) : (p.opticalSensor k).unsensed = p.unsensed := by
  unfold Panel.opticalSensor
  split <;> exact sensor_unsensed ..

theorem marginSensor_unsensed : p.marginSensor.unsensed = p.unsensed := by
  unfold Panel.marginSensor
  extract_lets nodes l
  clear_value l
  cases l <;> exact sensor_unsensed ..

end

theorem acts_pldmSensorRefresh_none {s : State} (h : s.p.hasPrimary = false) : Acts .pldmSensorRefresh s s.p :=
  acts_of_exec rfl (if_pos (by simp [h]))

/-- A refresh, by the primary PMC, leaves cores, memories and registers. -/
theorem acts_pldmSensorRefresh {s : State} (h : s.p.hasPrimary = true) :
    ∃ q : Panel, Acts .pldmSensorRefresh s q ∧ q.unsensed = s.p.unsensed := by
  refine ⟨_, acts_of_exec rfl (if_neg (by simp [h])), ?_⟩
  calc Panel.unsensed _ = _ := sensor_unsensed ..
    _ = _ := marginSensor_unsensed _
    _ = _ := foldl_leaves Panel.unsensed (fun q k => opticalSensor_unsensed q k) _ _
    _ = _ := foldl_leaves Panel.unsensed (fun q k => stackSensor_unsensed q k) _ _
    _ = _ := foldl_leaves Panel.unsensed (fun q z => sensor_unsensed q ..) _ _
    _ = _ := vinSensors_unsensed _
    _ = _ := sensor_unsensed ..

/-! ### JTAG (R464, R465, R479) -/

section
variable {s : State} {hub : Nat}

theorem acts_jtagInstruction_off (i : JtagInstr) (h : 4 ≤ hub ∨ s.p.hubUp hub = false) : Acts (.jtagInstruction hub i) s s.p :=
  acts_of_exec rfl (if_pos (by rcases h with h | h <;> simp [h]))

theorem acts_jtagInstruction (i : JtagInstr) (hlt : hub < 4) (hup : s.p.hubUp hub = true) {a : JtagInstr}
    (ha : s.p.jtagActs i = a) : Acts (.jtagInstruction hub i) s
      (((s.p.modMgmt hub fun m => { m with jtag := a }).emit (.jtag hub a)).jtagEffect hub a) :=
  acts_of_exec rfl ((if_neg (by simp [hup, hlt])).trans (by rw [ha]))

/-- What no scope opens does nothing but select. -/
theorem jtagEffect_none (p : Panel) {a : JtagInstr} (h1 : a ≠ .idcode) (h2 : a ≠ .pmcHalt) (h3 : a ≠ .pmcResume)
    (h4 : a ≠ .pmcRegs) (h5 : a ≠ .sramRead) : p.jtagEffect hub a = p := by
  cases a with
  | idcode => exact absurd rfl h1
  | pmcHalt => exact absurd rfl h2
  | pmcResume => exact absurd rfl h3
  | pmcRegs => exact absurd rfl h4
  | sramRead => exact absurd rfl h5
  | _ => rfl

end

/-- What acts of an instruction that the debug scopes may close (R464, R465). -/
theorem jtagActs_cases (p : Panel) (i : JtagInstr) :
    (p.jtagOpen = false → i ≠ .samplePreload → i ≠ .idcode → p.jtagActs i = .bypass) ∧
    (i = .bypass ∨ i = .samplePreload ∨ i = .idcode → p.jtagActs i = i) ∧
    (p.jtagOpen = true → i = .extest ∨ (∃ n, i = .other n) → p.jtagActs i = i) ∧
    (i = .pmcHalt ∨ i = .pmcStep ∨ i = .pmcResume ∨ i = .pmcRegs →
      p.jtagActs i = if p.jtagOpen = true ∧ p.scopeOpen 1 = true then i else .bypass) ∧
    (i = .sramRead → p.jtagActs i = if p.jtagOpen = true ∧ p.scopeOpen 2 = true then i else .bypass) := by
  cases i <;> simp +contextual [Panel.jtagActs]

/-- Settles O56: MCTP by `eidTaken_leaves`, PLDM by who serves it (`pldm5_served`), the bytes of an image by
`smGet_foldl_smSet`, and JTAG by what acts. -/
theorem managementAnswers : Obligations.ManagementAnswers := by
  unfold Obligations.ManagementAnswers
  intro s hub p
  refine ⟨fun t => ⟨fun h eid => acts_mctp_down h eid, fun h => ⟨fun eid hs => ?eid, acts_of_exec rfl (mctp_up h _),
      acts_of_exec rfl (mctp_up h _), acts_of_exec rfl (mctp_up h _), acts_of_exec rfl (mctp_up h _)⟩⟩,
    fun hu => ⟨fun addr => ⟨acts_i3c_taken hu addr, acts_i3c_kept addr, fun static => acts_setdasa_other addr⟩, acts_rstdaa hu⟩,
    fun t eid c off data ok => ⟨fun h => ?down, fun h hj => ?notReady, fun h hj => ?receiver, fun h hs => ?update⟩,
    fun component off data => ?image, acts_pldmSensorRefresh_none, fun h => ?sensors, fun i => ?jtag⟩
  case eid =>
    obtain ⟨-, haddr, hout, htaken, hkept⟩ := eidTaken_leaves p hub t eid
    let q := p.eidTaken hub t eid
    have hm : (q.reply hub (some t) (.mctpEid (q.eid hub t))).mgmtOf hub = q.mgmtOf hub :=
      congrArg (fun m => smGetD m hub Mgmt.empty) (reply_mgmt ..)
    have he : (q.reply hub (some t) (.mctpEid (q.eid hub t))).eid hub t = q.eid hub t :=
      congrArg (fun m : Mgmt => smGetD m.eids (transportKey t) 0) hm
    refine ⟨_, acts_setEndpointId h eid, (congrArg Mgmt.i3cAddr hm).trans haddr, fun h0 h1 => he.trans (htaken h0 h1),
      fun h01 => he.trans (hkept h01), ?_⟩
    rw [reply_out, he, ← hout]
  case down =>
    rw [List.forall_mem_cons]
    exact ⟨acts_of_exec rfl (pldm_down h), fun i hi => acts_pldm5_down h (isPldm5_update hub t c off data ok i hi)⟩
  case notReady =>
    exact ⟨acts_of_exec rfl (pldm_notReady h hj),
      fun hr i hi => acts_pldm5_notReady h hr hj (isPldm5_update hub t c off data ok i hi)⟩
  case receiver => exact acts_of_exec rfl (pldm_joined h hj rfl)
  case update =>
    obtain ⟨hclosed, hopen⟩ := acts_requestUpdate (c := c) h hs
    refine ⟨hclosed, hopen, acts_update_none h hs, fun u hu => ?_⟩
    obtain ⟨htclosed, htprot, htbad, htfits⟩ := acts_transfer (off := off) (data := data) h hs hu
    obtain ⟨hv, hvbad⟩ := acts_verifyComplete (ok := ok) h hs hu
    refine ⟨htclosed, htprot, htbad, fun hn hp hf => ⟨_, htfits hn hp hf, fun _ a => smGet_foldl_smSet data off u.data a 0⟩, hv,
      hvbad, acts_activateFirmware h hs hu⟩
  case image =>
    intro h q _ a
    have hq : (q.nvmOf h).image = (data.zipIdx).foldl (fun m e => smSet m (off + e.2) e.1) (p.nvmOf h).image :=
      congrArg Nvm.image (nvmOf_setNvm p h _)
    rw [hq]
    exact smGet_foldl_smSet data off _ a 0
  case sensors =>
    obtain ⟨q, hq, he⟩ := acts_pldmSensorRefresh h
    exact ⟨q, hq, congrArg (·.1) he, congrArg (·.2.1) he, congrArg (·.2.2) he⟩
  case jtag =>
    refine ⟨acts_jtagInstruction_off i, fun hlt hup => ?_, jtagActs_cases p i⟩
    have hact {a : JtagInstr} (ha : p.jtagActs i = a) := acts_jtagInstruction i hlt hup ha
    refine ⟨fun ha => ?_, fun ha => ?_, fun ha => ?_, fun ha => ?_,
      fun h1 h2 h3 h4 h5 => (hact rfl).congr (jtagEffect_none _ h1 h2 h3 h4 h5)⟩
    · rw [ha]
      exact hact ha
    · rw [ha]
      exact hact ha
    · rw [ha]
      exact hact ha
    · rcases ha with ha | ha <;> rw [ha] <;> exact hact ha

end Sys2Proof.Machine
end

section
/-! Mirroring, hand-off and service control (R384 to R394, R401). -/

namespace Sys2Proof.Machine

/-! ### Copies (R385, R386) -/

section
variable {p : Panel} {k : FPacket} {region : Nat}

/-- The copy lies in the window of its region. -/
def Panel.inGuestWindow (p : Panel) (region off len : Nat) : Prop :=
  region ≤ 3 ∧ F.MIR_GUEST_WIN_enable.read (p.get .MIR_GUEST_WIN 0 region) = 1 ∧
    off + len ≤ F.MIR_GUEST_WIN_size_mib.read (p.get .MIR_GUEST_WIN 0 region) * 2 ^ 20

/-- Where a copy that has a place lies. -/
def Panel.copyPlace (p : Panel) (region off : Nat) : Nat :=
  if region = 0 then p.kvBase + p.adoptPage (off / 0x40000) * 0x40000 + off % 0x40000
  else F.MIR_GUEST_WIN_base.read (p.get .MIR_GUEST_WIN 0 region) * 2 ^ 20 + off

theorem guestPlace_some {off len : Nat} (h : region = 0 ∨ p.inGuestWindow region off len) :
    p.guestPlace region off len = some (p.copyPlace region off) := by
  unfold Panel.guestPlace Panel.copyPlace
  by_cases h0 : region = 0
  · rw [if_pos h0, if_pos h0]
  · obtain ⟨h3, hen, hfit⟩ := h.resolve_left h0
    rw [if_neg h0, if_neg h0, if_pos h3]
    exact if_pos (by rw [mibOf, if_pos hen]; exact hfit)

/-- No copy lies elsewhere. -/
theorem guestPlace_cases (p : Panel) (region off len : Nat) :
    p.guestPlace region off len = none ∨ p.guestPlace region off len = some (p.copyPlace region off) := by
  unfold Panel.guestPlace Panel.copyPlace
  split
  · exact .inr rfl
  · split
    · dsimp only
      split
      · exact .inr rfl
      · exact .inl rfl
    · exact .inl rfl

theorem guestPlace_none {off len : Nat} (h0 : region ≠ 0) (hlen : len ≠ 0) (h : ¬p.inGuestWindow region off len) :
    p.guestPlace region off len = none := by
  refine (if_neg h0).trans ?_
  split
  · rename_i h3
    refine if_neg fun hfit => ?_
    unfold mibOf at hfit
    split at hfit
    · exact h ⟨h3, ‹_›, hfit⟩
    · omega
  · rfl

end

section
variable {s : State} {k : FPacket} {q : Panel} (hq : s.p.dropArrived k = q) {region : Nat}
include hq

theorem acts_mirrorWr_some {pa : Nat} (h : q.guestPlace region k.addr.toNat k.payload.length = some pa) :
    (q.mirrorOn = true → q.accessStatus pa k.payload.length = 0 → Acts (.mirrorWr k region) s
      ((q.writeTagged pa (k.payload.map fun b => (b, k.poison))).mirrorAnswer k 0)) ∧
    (q.mirrorOn = false ∨ q.accessStatus pa k.payload.length ≠ 0 → Acts (.mirrorWr k region) s q) := by
  refine ⟨fun hm ha => acts_of_exec rfl ?_, fun hn => acts_of_exec rfl ?_⟩
  all_goals
    dsimp only
    rw [hq, h]
  · exact if_pos (by rw [hm, ha]; rfl)
  · refine if_neg ?_
    rw [Bool.and_eq_true, beq_iff_eq]
    rintro ⟨hm, ha⟩
    rcases hn with hn | hn
    · simp [hm] at hn
    · exact hn ha

theorem acts_mirrorWr_none (h : q.guestPlace region k.addr.toNat k.payload.length = none) : Acts (.mirrorWr k region) s q := by
  refine acts_of_exec rfl ?_
  dsimp only
  rw [hq, h]

theorem acts_mirrorWr_dropped
    (h : q.mirrorOn = false ∨ q.accessStatus (q.copyPlace region k.addr.toNat) k.payload.length ≠ 0) :
    Acts (.mirrorWr k region) s q := by
  rcases guestPlace_cases q region k.addr.toNat k.payload.length with hn | hs
  · exact acts_mirrorWr_none hq hn
  · exact (acts_mirrorWr_some hq hs).2 h

/-! ### Deltas (R387) -/

theorem acts_mirrorDelta_off (n : Nat) (recs : List JRec) (h : q.mirrorOn = false) : Acts (.mirrorDelta k n recs) s q := by
  refine acts_of_exec rfl ?_
  dsimp only
  rw [hq]
  exact if_pos (by simp [h])

theorem acts_mirrorDelta_on {n : Nat} {recs : List JRec} (h : q.mirrorOn = true) :
    (n ≤ q.mir.guest.step → Acts (.mirrorDelta k n recs) s (q.mirrorAnswer k n)) ∧
    (n = q.mir.guest.step + 1 → (deltaCommit recs).isSome = true →
      Acts (.mirrorDelta k n recs) s ((q.applyDelta n recs).mirrorAnswer k n)) ∧
    (q.mir.guest.step + 1 < n ∨ (q.mir.guest.step < n ∧ deltaCommit recs = none) → Acts (.mirrorDelta k n recs) s q) := by
  have hon : ¬ (!q.mirrorOn) = true := by simp [h]
  refine ⟨fun hn => acts_of_exec rfl ?_, fun hn hc => acts_of_exec rfl ?_, fun hn => acts_of_exec rfl ?_⟩
  all_goals
    dsimp only
    rw [hq]
    refine (if_neg hon).trans ?_
  · exact if_pos hn
  · exact (if_neg (by omega)).trans (if_pos ⟨hn, hc⟩)
  · refine (if_neg (by omega)).trans (if_neg ?_)
    rintro ⟨hs, hc⟩
    rcases hn with hn | ⟨-, hn⟩
    · omega
    · rw [hn] at hc
      cases hc

end

/-! ### Acknowledgements (R386, R387, R423) -/

section
variable {s : State} {k : FPacket} {q : Panel} (hq : (s.p.dropArrived k).echoed s.p.mirHub true k = q)
include hq

theorem acts_mirrorAck_off (h : q.mirrorOn = false) (n : Option Nat) : Acts (.mirrorAck k n) s q := by
  refine acts_of_exec rfl ?_
  dsimp only
  rw [hq]
  exact if_pos (by simp [h])

theorem acts_mirrorAck_late (h : q.mirrorOn = true) (ha : (q.mir.awaits.any fun a => a.tag == k.tag) = false) (n : Option Nat) :
    Acts (.mirrorAck k n) s (q.countLate q.mirHub) := by
  refine acts_of_exec rfl ?_
  dsimp only
  rw [hq]
  exact (if_neg (by simp [h])).trans (if_pos (by rw [ha]; rfl))

section
variable (h : q.mirrorOn = true) (ha : (q.mir.awaits.any fun a => a.tag == k.tag) = true)
include h ha

theorem acts_mirrorAck (n : Option Nat) :
    let x : Panel := { q with mir := { q.mir with awaits := q.mir.awaits.filter fun a => a.tag != k.tag } }
    Acts (.mirrorAck k n) s (match n with
      | none => x.copyAcked
      | some n => if x.mir.deltas.contains n then x.deltasAcked n else x) := by
  refine acts_of_exec rfl ?_
  dsimp only
  rw [hq]
  exact (if_neg (by simp [h])).trans (if_neg (by rw [ha]; decide))

end

end

/-- The deltas of step n have been acknowledged, and MIR_STATUS shows it. -/
def Panel.ackShown (p : Panel) (n : Nat) : Panel :=
  ({ p with mir := { p.mir with deltas := p.mir.deltas.filter (· != n) } } : Panel).fput F.MIR_STATUS_acked_step n

/-- The acknowledged step, if it is in progress, waits for the partner no more. -/
theorem deltasAcked_cases (p : Panel) (n : Nat) : let q := p.ackShown n
    (∀ x, (q.eng q.mirHub).step = some x → x.n = n → p.deltasAcked n =
      (q.modStep q.mirHub fun x => { x with partnerAcked := true }).fput F.RQE_STATUS_partner_wait 0 q.mirHub) ∧
    ((∀ x, (q.eng q.mirHub).step = some x → x.n ≠ n) → p.deltasAcked n = q) := by
  intro q
  have he : p.deltasAcked n = match (q.eng q.mirHub).step with
    | some x => if x.n = n then
        (q.modStep q.mirHub fun x => { x with partnerAcked := true }).fput F.RQE_STATUS_partner_wait 0 q.mirHub else q
    | none => q := rfl
  rw [he]
  refine ⟨fun x hx hn => ?_, fun hn => ?_⟩
  · rw [hx]
    exact if_pos hn
  · split
    · exact if_neg (hn _ ‹_›)
    · rfl

/-! ### Silence, hand-off and its acknowledgement (R388, R391, R394) -/

section
variable {s : State}

/-- Something that the partner has to acknowledge is outstanding. -/
def Panel.awaitsPartner (p : Panel) : Prop := p.mirrorOn = true ∧ (p.mir.copies ≠ 0 ∨ p.mir.deltas ≠ [])

theorem awaitsPartner_iff (p : Panel) : (p.mirrorOn && (p.mir.copies != 0 || !p.mir.deltas.isEmpty)) = true ↔ p.awaitsPartner := by
  simp [Panel.awaitsPartner]

theorem acts_mirrorAckTimeout_none (h : ¬s.p.awaitsPartner) : Acts .mirrorAckTimeout s s.p :=
  acts_of_exec rfl (if_neg fun hc => h ((awaitsPartner_iff s.p).1 hc))

/-- Commits are held: nothing more goes to the partner but messages, and MIR_STATUS shows it. -/
def Panel.commitsHeld (p : Panel) : Panel :=
  ({ p with mir := { p.mir with
    queue := p.mir.queue.filter (·.isMsg), awaits := [], copies := 0, unsent := [], deltas := [], repairs := [] } } : Panel).fput
      F.MIR_STATUS_commits_wait 1

theorem acts_mirrorAckTimeout (h : s.p.awaitsPartner) : Acts .mirrorAckTimeout s (s.p.partnerSilent).dryAdvance :=
  acts_of_exec rfl (if_pos ((awaitsPartner_iff s.p).2 h))

section
variable {p q : Panel} (hq : (p.logPanel 0x0604 clsInfo).setMirSt mirUnpaired = q)
include hq

/-- A panel that commits on its own goes on. -/
theorem partnerSilent_alone (hl : q.flag F.MIR_CONFIG_on_loss = false) : p.partnerSilent = q.partnerDone := by
  unfold Panel.partnerSilent
  rw [hq]
  exact if_neg (by rw [hl]; decide)

/-- One that holds its commits shows it, in its active engine too. -/
theorem partnerSilent_held (hl : q.flag F.MIR_CONFIG_on_loss = true) :
    (q.commitsHeld.activeHub = none → p.partnerSilent = q.commitsHeld) ∧
    (∀ h, q.commitsHeld.activeHub = some h → p.partnerSilent = q.commitsHeld.fput F.RQE_STATUS_partner_wait 1 h) := by
  unfold Panel.partnerSilent
  rw [hq, if_pos hl]
  extract_lets _ _ r
  refine ⟨fun ha => ?_, fun h ha => ?_⟩
  · rw [show r.activeHub = none from ha]
    rfl
  · rw [show r.activeHub = some h from ha]
    rfl

end

theorem handoffAcked_sent {p : Panel} {ret : Bool} {cs : List Nat} (h : p.mir.handoff = .sent ret cs) :
    p.handoffAcked = ({ p with mir := { p.mir with handoff := .acked ret cs } } : Panel).handoffOut := by
  rw [Panel.handoffAcked, h]

theorem handoffAcked_none {p : Panel} (h : ∀ ret cs, p.mir.handoff ≠ .sent ret cs) : p.handoffAcked = p := by
  unfold Panel.handoffAcked
  split
  · exact absurd ‹_› (h _ _)
  · rfl

theorem acts_handoffAck (n : Nat) : ∀ i ∈ ([.handoffAck n, .mirrorCtrl (.handoffAck n)] : List Instr), Acts i s s.p.handoffAcked := by
  simp only [List.forall_mem_cons, List.not_mem_nil, false_implies, implies_true, and_true]
  exact ⟨acts_of_exec rfl rfl, acts_of_exec rfl rfl⟩

theorem acts_handoffAckTimeout_none (h : ∀ ret cs, s.p.mir.handoff ≠ .sent ret cs) : Acts .handoffAckTimeout s s.p := by
  refine acts_of_exec rfl ?_
  dsimp only
  split
  · exact absurd ‹_› (h _ _)
  · exact absurd ‹_› (h _ _)
  · rfl

/-- A hand-off that is lost fails the dry-down, once a primary PMC exists (R377). -/
theorem dryAdvance_lost {p : Panel} (h : p.mir.handoff = .lost) :
    (p.serving = servDrying → p.hasPrimary = true → p.dryAdvance = p.dryFail) ∧
    (p.serving ≠ servDrying ∨ p.hasPrimary = false → p.dryAdvance = p) := by
  refine ⟨fun hs hp => (if_neg ?_).trans (if_pos h), fun hn => if_pos ?_⟩
  · simp [hs, hp]
  · simpa using hn

theorem acts_handoffAckTimeout_dry {cs : List Nat} (h : s.p.mir.handoff = .sent false cs) : Acts .handoffAckTimeout s
    (({ s.p with mir := { s.p.mir with handoff := .lost } } : Panel).dryAdvance) := by
  refine acts_of_exec rfl ?_
  dsimp only
  rw [h]

theorem acts_handoffAckTimeout_return {cs : List Nat} (h : s.p.mir.handoff = .sent true cs) {q : Panel}
    (hq : ({ s.p with mir := { s.p.mir with handoff := .none, returnDue := true } } : Panel) = q) :
    (∀ h, q.activeHub = some h → Acts .handoffAckTimeout s (q.modEng h fun e => { e with frozen := false })) ∧
    (q.activeHub = none → Acts .handoffAckTimeout s q) := by
  refine ⟨fun a ha => acts_of_exec rfl ?_, fun ha => acts_of_exec rfl ?_⟩
  all_goals
    dsimp only
    rw [h]
    dsimp only
    rw [hq, ha]

/-! ### Messages of the partner's mirror engine (R383, R384, R389, R394) -/

theorem acts_askReturn (c : BitVec 12) :
    (s.p.mirSt = mirPaired → c = s.p.partner → Acts (.mirrorCtrl (.askReturn c)) s
      ({ s.p with mir := { s.p.mir with returnDue := true } } : Panel).returnAdvance) ∧
    (s.p.mirSt ≠ mirPaired ∨ c ≠ s.p.partner → Acts (.mirrorCtrl (.askReturn c)) s s.p) :=
  ⟨fun hs hc => acts_of_exec rfl (if_pos ⟨hs, hc⟩), fun h => acts_of_exec rfl (if_neg (not_and_or.2 h))⟩

theorem acts_repairRead (r off : Nat) : let d := s.p.repairBytes r off
    (s.p.mirrorOn = true → Acts (.mirrorCtrl (.repairRead r off)) s (d.2.mirPush (.msg (.repairData r off d.1)))) ∧
    (s.p.mirrorOn = false → Acts (.mirrorCtrl (.repairRead r off)) s s.p) :=
  ⟨fun h => acts_of_exec rfl (if_pos h), fun h => acts_of_exec rfl (if_neg (by simp [h]))⟩

end

/-- The answer to a repair: for a repair in hand the 64 B are written whole and counted, or the poison remains (R383). -/
theorem repairDone_cases {p : Panel} {r off a : Nat} (ha : ((p.st.mirRanges.find? fun x => x.1 == r).map fun x => x.2.1 + off) = some a) :
    let q : Panel := { p with mir := { p.mir with
      repairs := p.mir.repairs.filter (· != a), awaits := p.mir.awaits.filter (·.repair != some a) } }
    (p.mir.repairs.contains a = true →
      (∀ l, l.length = 64 → p.repairDone r off (some l) = (q.writeTagged a l).addHold F.MIR_COUNTS_poison_repairs 1) ∧
      (∀ l, l.length ≠ 64 → p.repairDone r off (some l) = q) ∧ p.repairDone r off none = q) ∧
    (p.mir.repairs.contains a = false → ∀ d, p.repairDone r off d = p) := by
  intro q
  refine ⟨fun hc => ⟨fun l hl => ?_, fun l hl => ?_, ?_⟩, fun hc d => ?_⟩
  all_goals rw [Panel.repairDone, ha]
  · exact (if_neg (by rw [hc]; decide)).trans (if_pos hl)
  · exact (if_neg (by rw [hc]; decide)).trans (if_neg hl)
  · exact if_neg (by rw [hc]; decide)
  · exact if_pos (by rw [hc]; rfl)

theorem repairDone_unmirrored {p : Panel} {r : Nat} (h : (p.st.mirRanges.find? fun x => x.1 == r) = none) (off : Nat)
    (d : Option (List (Byte × Bool))) : p.repairDone r off d = p := by
  rw [Panel.repairDone, h]
  rfl

/-! ### Service control (R390, R394, R401) -/

section
variable {s : State} {src : Writer}

theorem acts_serviceDrydown (h : MayManage s.p src) :
    (s.p.serving = servServing →
      Acts (.serviceDrydown src) s ((s.p.fput F.PMC_SERVICE_CONTROL_refused 0).startDry .hold)) ∧
    (s.p.serving ≠ servServing → Acts (.serviceDrydown src) s (s.p.fput F.PMC_SERVICE_CONTROL_refused 1)) := by
  have hact : Acts (.serviceDrydown src) s s.p.serviceDrydown := acts_of_exec rfl (Panel.asManager_of_mayManage h _)
  refine ⟨fun hs => hact.congr ?_, fun hs => hact.congr ?_⟩ <;> simp [Panel.serviceDrydown, hs]

theorem acts_serviceReturn (h : MayWrite s.p src) :
    (s.p.mirSt = mirPaired → let q := s.p.fput F.PMC_SERVICE_CONTROL_refused 0
      Acts (.serviceReturn src) s (q.mirPush (.msg (.askReturn q.coord)))) ∧
    (s.p.mirSt ≠ mirPaired → Acts (.serviceReturn src) s (s.p.fput F.PMC_SERVICE_CONTROL_refused 1)) := by
  have hact : Acts (.serviceReturn src) s s.p.serviceReturn := acts_of_exec rfl (asWriter_may h _)
  refine ⟨fun hs => hact.congr ?_, fun hs => hact.congr ?_⟩ <;> simp [Panel.serviceReturn, hs]

theorem acts_serviceRestart (h : MayWrite s.p src) (v : W64) : let q := s.p.store .PMC_SERVICE_CONTROL false v
    let n := q.fget F.PMC_SERVICE_CONTROL_restart_stage
    (q.serving = servDried → n = 3 → Acts (.serviceRestart src v) s ((q.fput F.PMC_SERVICE_CONTROL_refused 0).beginBringup 3)) ∧
    (q.serving = servDried → n = 1 → Acts (.serviceRestart src v) s
      (((q.fput F.PMC_SERVICE_CONTROL_refused 0).restartHubs).beginBringup 1)) ∧
    (q.serving ≠ servDried ∨ (n ≠ 1 ∧ n ≠ 3) → Acts (.serviceRestart src v) s (q.fput F.PMC_SERVICE_CONTROL_refused 1)) := by
  intro q n
  have hact : Acts (.serviceRestart src v) s q.serviceRestart := acts_of_exec rfl (asWriter_may h _)
  have he : q.serviceRestart = if q.serving = servDried ∧ (n = 1 ∨ n = 3) then
      (if n = 1 then ((q.fput F.PMC_SERVICE_CONTROL_refused 0).restartHubs).beginBringup 1
        else (q.fput F.PMC_SERVICE_CONTROL_refused 0).beginBringup 3)
      else q.fput F.PMC_SERVICE_CONTROL_refused 1 := by
    by_cases hok : q.serving = servDried ∧ (n = 1 ∨ n = 3)
    · simp only [Panel.serviceRestart, n, hok]
      rfl
    · simp only [Panel.serviceRestart, n, hok, if_false]
  rw [he] at hact
  refine ⟨fun hs hn => hact.congr ((if_pos ⟨hs, .inr hn⟩).trans (if_neg (by omega))),
    fun hs hn => hact.congr ((if_pos ⟨hs, .inl hn⟩).trans (if_pos hn)), fun hn => hact.congr (if_neg ?_)⟩
  rintro ⟨hs, h1⟩
  rcases hn with hn | hn
  · exact hn hs
  · omega

end

/-- Settles O50: a lemma per command and case; `guestPlace_cases` for where a copy lies, `deltasAcked_cases` for what an
acknowledgement lets go. -/
theorem mirroringRuns : Obligations.MirroringRuns := by
  unfold Obligations.MirroringRuns
  intro s p
  refine ⟨fun x => ?attempt, fun x => ?pairs, fun k region => ?copy, fun k n recs => ?delta, fun k => ?ack, ?silence,
    fun n => ?handoffAck, fun cs h => ?lost, fun cs h => acts_handoffAckTimeout_return h rfl, acts_handoffAckTimeout_none,
    acts_of_exec rfl rfl, fun src step seq d ret cs => acts_of_exec rfl rfl, acts_askReturn,
    fun x => ?snapshot, fun x => ?pairing, fun r off => acts_repairRead r off, fun r off a ha => ?repairData,
    fun r off d h => acts_of_exec rfl (repairDone_unmirrored h off d), fun h => acts_of_exec rfl (if_neg h), ?synced,
    fun src => acts_serviceDrydown, fun src h => ?service⟩
  case attempt =>
    intro due
    have hdue : (p.flag F.MIR_CONFIG_enable && p.mirSt == mirUnpaired && p.inService) = true ↔ due := by
      simp only [due, Bool.and_eq_true, beq_iff_eq, and_assoc]
    exact ⟨fun h => acts_of_exec rfl (if_pos (hdue.2 h)), fun h => acts_of_exec rfl (if_neg (mt hdue.1 h))⟩
  case pairs => exact ⟨fun h => if_pos h, fun h => if_neg (not_not_intro h)⟩
  case copy =>
    intro p1 off w inWin pa
    exact ⟨fun hm hw ha => (acts_mirrorWr_some rfl (guestPlace_some hw)).1 hm ha, acts_mirrorWr_dropped rfl,
      fun h0 hne hw => acts_mirrorWr_none rfl (guestPlace_none h0 (mt List.length_eq_zero_iff.1 hne) hw)⟩
  case delta => exact ⟨acts_mirrorDelta_off rfl n recs, acts_mirrorDelta_on rfl⟩
  case ack =>
    refine ⟨fun h n => acts_mirrorAck_off rfl h n, fun h ha n => acts_mirrorAck_late rfl h ha n, fun h ha => ?_⟩
    have hact := acts_mirrorAck rfl h ha
    refine ⟨hact none, fun n hn => (hact (some n)).congr (if_neg (by rw [hn]; decide)), fun n hn => ?_⟩
    obtain ⟨hcommits, hother⟩ := deltasAcked_cases _ n
    exact ⟨fun x hx hxn => (hact (some n)).congr ((if_pos hn).trans (hcommits x hx hxn)),
      fun hx => (hact (some n)).congr ((if_pos hn).trans (hother hx))⟩
  case silence =>
    refine ⟨acts_mirrorAckTimeout_none,
      fun h hl => (acts_mirrorAckTimeout h).congr (congrArg Panel.dryAdvance (partnerSilent_alone rfl hl)), fun h hl => ?_⟩
    obtain ⟨hnone, hsome⟩ := partnerSilent_held rfl hl
    exact ⟨fun ha => (acts_mirrorAckTimeout h).congr (congrArg Panel.dryAdvance (hnone ha)),
      fun x ha => (acts_mirrorAckTimeout h).congr (congrArg Panel.dryAdvance (hsome x ha))⟩
  case handoffAck =>
    exact ⟨fun ret cs h i hi => (acts_handoffAck n i hi).congr (handoffAcked_sent h),
      fun h i hi => (acts_handoffAck n i hi).congr (handoffAcked_none h)⟩
  case lost =>
    intro q
    obtain ⟨hfails, hstays⟩ := dryAdvance_lost (p := q) rfl
    exact ⟨fun hs hp => (acts_handoffAckTimeout_dry h).congr (hfails hs hp), fun hn => (acts_handoffAckTimeout_dry h).congr (hstays hn)⟩
  case snapshot =>
    exact ⟨fun h => ⟨_, acts_of_exec rfl (if_pos h), rfl, rfl, rfl, rfl, rfl, rfl, rfl, rfl, rfl, rfl⟩,
      fun h => acts_of_exec rfl (if_neg (by rw [h]; decide))⟩
  case pairing => exact acts_of_exec rfl (if_congr (by rw [Bool.and_eq_true, beq_iff_eq]) rfl rfl)
  case repairData =>
    intro q
    obtain ⟨hheld, hnot⟩ := repairDone_cases ha
    refine ⟨fun hc => ?_, fun hc d => acts_of_exec rfl (hnot hc d)⟩
    obtain ⟨hwhole, hpart, hnone⟩ := hheld hc
    exact ⟨fun l hl => acts_of_exec rfl (hwhole l hl), fun l hl => acts_of_exec rfl (hpart l hl), acts_of_exec rfl hnone⟩
  case synced =>
    intro h p1
    exact ⟨fun hr => acts_of_exec rfl ((if_pos h).trans (if_neg (by rw [hr]; decide))),
      fun hr => acts_of_exec rfl ((if_pos h).trans (if_pos hr))⟩
  case service =>
    obtain ⟨hreturn, hrefused⟩ := acts_serviceReturn h
    exact ⟨hreturn, hrefused, acts_serviceRestart h⟩

end Sys2Proof.Machine
end

section
/-! Fabric packets at the switch and at the network interface (R404, R412 to R415, R420 to R425). -/

namespace Sys2Proof.Machine

/-! ### At the switch (R404, R412, R415, R422) -/

theorem fab4_modFab (p : Panel) (hub : Nat) (f : Fabric → Fabric) (hs : smSorted p.fabric = true) :
    (p.modFab hub f).fab4 hub = f (p.fab4 hub) := smGetD_smPut_same hs _ _ _

theorem countCorrected_port (p : Panel) {hub port : Nat} (hs : smSorted p.fabric = true) (hc : smSorted (p.fab4 hub).corrected = true)
    (n : Nat) : smGetD ((p.countCorrected hub port n).fab4 hub).corrected port 0 = smGetD (p.fab4 hub).corrected port 0 + n := by
  rw [Panel.countCorrected, fab4_modFab p hub _ hs]
  exact smGetD_smPut_same hc _ _ _

/-- A port takes the packet: it has power, is up or draining, and the pool has room for the packet. -/
def Panel.portTakes (p : Panel) (hub port : Nat) (k : FPacket) : Prop :=
  p.fPort hub port = true ∧ (p.portState hub port = 1 ∨ p.portState hub port = 2) ∧ (k.tclass = 3 ∨ p.fRoom hub port k ≠ none)

/-- The packet as it is after the residency of this switch is added. -/
def agedPacket (k : FPacket) (r : Nat) : FPacket := { k with residency := BitVec.ofNat 32 r }

section
variable {s : State} {hub port : Nat} {k : FPacket} {fecOk : Bool} {tr : BitVec 32} {corrected : Nat}

theorem portTakes_guard (p : Panel) (hub port : Nat) (k : FPacket) :
    (!p.fPort hub port || !(p.portState hub port == portUp || p.portState hub port == portDraining) ||
      (k.tclass != 3 && (p.fRoom hub port k).isNone)) = true ↔ ¬p.portTakes hub port k := by
  simp only [Panel.portTakes, portUp, portDraining, Bool.or_eq_true, Bool.not_eq_true', Bool.and_eq_true, bne_iff_ne, beq_iff_eq,
    Option.isNone_iff_eq_none, ne_eq, ← Bool.not_eq_true]
  tauto

theorem acts_packetReceive_none (h : ¬s.p.portTakes hub port k) : Acts (.fabricPacketReceive hub port k fecOk tr corrected) s s.p :=
  acts_of_exec rfl (if_pos ((portTakes_guard ..).2 h))

section
variable {q : Panel} (hq : s.p.countCorrected hub port corrected = q) (ht : s.p.portTakes hub port k)
include hq ht

theorem acts_packetReceive_uncorrected : Acts (.fabricPacketReceive hub port k false tr corrected) s
    ((q.addHold F.HJF_PORT_STATUS_fec_uncorrected 1 hub port).reportHubEdge hub 0x0703 clsInfo) := by
  refine acts_of_exec rfl ((if_neg fun h => (portTakes_guard ..).1 h ht).trans ?_)
  dsimp only
  rw [hq]
  exact if_pos rfl

theorem acts_packetReceive_malformed (ho : fOpcodeOk k.opcode.toNat = false) :
    Acts (.fabricPacketReceive hub port k true tr corrected) s
      ((q.modFab hub fun f => { f with malformed := f.malformed + 1 }).reportHubEdge hub 0x0703 clsInfo) := by
  refine acts_of_exec rfl ((if_neg fun h => (portTakes_guard ..).1 h ht).trans ?_)
  dsimp only
  rw [hq]
  exact (if_neg (by decide)).trans (if_pos (by rw [ho]; rfl))

variable (ho : fOpcodeOk k.opcode.toNat = true) {r : Nat} (hr : min 0xFFFFFFFF (k.residency.toNat + tr.toNat) = r)
include ho hr

theorem acts_packetReceive_old (ha : q.maxAge < r) : Acts (.fabricPacketReceive hub port k true tr corrected) s
    ((q.addHold F.HJF_POOL_STATUS_age_discards 1 hub).fDiscard hub (some port) 0x0704) := by
  refine acts_of_exec rfl ((if_neg fun h => (portTakes_guard ..).1 h ht).trans ?_)
  dsimp only
  rw [hq, hr]
  exact (if_neg (by decide)).trans ((if_neg (by simp [ho])).trans (if_pos ha))

theorem acts_packetReceive_here (ha : r ≤ q.maxAge) (hd : k.dstCoord = q.coord) :
    Acts (.fabricPacketReceive hub port k true tr corrected) s (q.fDeliver hub (some port) (agedPacket k r)) := by
  refine acts_of_exec rfl ((if_neg fun h => (portTakes_guard ..).1 h ht).trans ?_)
  dsimp only
  rw [hq, hr]
  exact (if_neg (by decide)).trans ((if_neg (by simp [ho])).trans ((if_neg (Nat.not_lt.2 ha)).trans (if_pos hd)))

theorem acts_packetReceive_through (ha : r ≤ q.maxAge) (hd : k.dstCoord ≠ q.coord) {sent : Panel × Bool}
    (hs : q.fSend hub ((q.fRoom hub port (agedPacket k r)).getD ⟨agedPacket k r, port, fChan (agedPacket k r), 0⟩) = sent) :
    Acts (.fabricPacketReceive hub port k true tr corrected) s
      (if sent.2 = true then sent.1 else q.fDiscard hub (some port) 0x0703) := by
  refine acts_of_exec rfl ((if_neg fun h => (portTakes_guard ..).1 h ht).trans ?_)
  dsimp only
  rw [hq, hr]
  refine (if_neg (by decide)).trans ((if_neg (by simp [ho])).trans ((if_neg (Nat.not_lt.2 ha)).trans ((if_neg hd).trans ?_)))
  rw [← agedPacket, hs]

end
end

/-! ### Delivery (R412, R424) -/

section
variable (p : Panel) {hub : Nat} {port : Option Nat} {k : FPacket}

theorem countMark_unmarked (h : k.mark = false ∨ (k.tclass ≠ 1 ∧ k.tclass ≠ 3)) : p.countMark hub k = p := by
  refine if_neg fun hm => ?_
  simp only [Bool.and_eq_true, Bool.or_eq_true, beq_iff_eq] at hm
  obtain ⟨hmark, hclass⟩ := hm
  rcases h with h | ⟨h1, h3⟩
  · exact absurd hmark (by simp [h])
  · exact hclass.elim h1 h3

theorem countMark_marked (hm : k.mark = true) (hc : k.tclass = 1 ∨ k.tclass = 3) :
    p.countMark hub k = p.modFab hub fun f => { f with oddMarks := f.oddMarks + 1 } :=
  if_pos (by simpa [hm] using hc)

theorem sorted_countMark (hs : smSorted p.fabric = true) : smSorted (p.countMark hub k).fabric = true := by
  unfold Panel.countMark
  split
  · exact smSorted_smPut hs _ _ _
  · exact hs

theorem fab4_countMark_arrived (hs : smSorted p.fabric = true) : ((p.countMark hub k).fab4 hub).arrived = (p.fab4 hub).arrived := by
  unfold Panel.countMark
  split
  · rw [fab4_modFab p hub _ hs]
  · rfl

theorem fDeliver_corrupt (h : fCheck k ≠ k.check) : p.fDeliver hub port k = (p.countMark hub k).fDiscard hub port 0x0703 := if_pos h

theorem fDeliver_control (h : fCheck k = k.check) (hc : k.tclass = 3) : p.fDeliver hub port k = p.countMark hub k :=
  (if_neg (not_not.2 h)).trans (if_pos hc)

theorem fDeliver_arrives (h : fCheck k = k.check) (hc : k.tclass ≠ 3) :
    p.fDeliver hub port k = (p.countMark hub k).modFab hub fun f => { f with arrived := f.arrived ++ [k] } :=
  (if_neg (not_not.2 h)).trans (if_neg hc)

end

/-! ### The network interface as a destination (R420) -/

section
variable {p : Panel} {hub : Nat} {k : FPacket} {allowed : Bool} {len : Option Nat} {g : Panel → Panel}

theorem niServe_outside (h : p.inService = false) : p.niServe hub k allowed len g = p.niAnswer hub k 0x0A 1 [] false :=
  if_pos (by rw [h]; rfl)

section
variable (h : p.inService = true)
include h

theorem niServe_refused : p.niServe hub k false len g = (p.niAnswer hub k 0x0A 3 [] false).reportHubEdge hub 0x0706 clsInfo :=
  (if_neg (by simp [h])).trans (if_pos rfl)

theorem niServe_post : p.niServe hub k true none g = g p := (if_neg (by simp [h])).trans (if_neg (by decide))

theorem niServe_served {n : Nat} (ha : p.accessStatus k.addr.toNat n = 0) : p.niServe hub k true (some n) g = g p := by
  refine (if_neg (by simp [h])).trans ((if_neg (by decide)).trans ?_)
  rw [Option.map_some, Option.getD_some, ha]
  rfl

theorem niServe_silent {n : Nat} (ha : p.accessStatus k.addr.toNat n = 3) : p.niServe hub k true (some n) g = p := by
  refine (if_neg (by simp [h])).trans ((if_neg (by decide)).trans ?_)
  rw [Option.map_some, Option.getD_some, ha]
  rfl

theorem niServe_failed {n e : Nat} (ha : p.accessStatus k.addr.toNat n = e) (h0 : e ≠ 0) (h3 : e ≠ 3) :
    p.niServe hub k true (some n) g = p.niAnswer hub k 0x0A e [] false := by
  refine (if_neg (by simp [h])).trans ((if_neg (by decide)).trans ?_)
  rw [Option.map_some, Option.getD_some, ha]
  split
  · exact absurd rfl h0
  · exact absurd rfl h3
  · rfl

end
end

section
variable {s : State} {hub : Nat} {k : FPacket}

theorem acts_fabricRequest_off (h : s.p.fPort hub 0 = false) :
    ∀ i ∈ ([.fabricRd hub k, .fabricWr hub k, .fpost hub k] : List Instr), Acts i s s.p := by
  simp only [List.forall_mem_cons, List.not_mem_nil, false_implies, implies_true, and_true]
  exact ⟨acts_of_exec rfl (if_pos (by rw [h]; rfl)), acts_of_exec rfl (if_pos (by rw [h]; rfl)),
    acts_of_exec rfl (if_pos (by rw [h]; rfl))⟩

/-- What a read does at its home. -/
def rdServed (hub : Nat) (k : FPacket) (p : Panel) : Panel :=
  let r := p.readRange k.addr.toNat k.length.toNat
  r.2.2.niAnswer hub k 0x08 0 r.1 r.2.1

/-- What a write does at its home. -/
def wrServed (hub : Nat) (k : FPacket) (p : Panel) : Panel :=
  (p.storePa k.addr.toNat (k.payload.map fun b => (b, k.poison))).niAnswer hub k 0x09 0 [] false

/-- What a post does at its home. -/
def postServed (hub : Nat) (k : FPacket) (p : Panel) : Panel := (p.pmcPost k.post.toNat).niAnswer hub k 0x09 0 [] false

variable (h : s.p.fPort hub 0 = true)
include h

theorem acts_fabricRd : Acts (.fabricRd hub k) s ((s.p.takeArrived hub k).niServe hub k
    (s.p.exported k.addr.toNat k.length.toNat false) (some k.length.toNat) (rdServed hub k)) :=
  acts_of_exec rfl (if_neg (by simp [h]))

theorem acts_fabricWr : Acts (.fabricWr hub k) s ((s.p.takeArrived hub k).niServe hub k
    (s.p.exported k.addr.toNat k.payload.length true) (some k.payload.length) (wrServed hub k)) :=
  acts_of_exec rfl (if_neg (by simp [h]))

theorem acts_fpost : Acts (.fpost hub k) s ((s.p.takeArrived hub k).niServe hub k
    (s.p.flag F.HJF_CONFIG_accept_post) none (postServed hub k)) :=
  acts_of_exec rfl (if_neg (by simp [h]))

end

/-! ### Injection rates (R425) -/

section
variable {s : State} {hub : Nat} {mirror : Bool} {coord : BitVec 12}

theorem acts_sillageRecover_none (h : smGet (s.p.rates hub mirror) coord.toNat = none) :
    Acts (.sillageRecover ⟨hub, mirror⟩ coord) s s.p :=
  acts_of_exec rfl (by dsimp only; rw [h])

theorem acts_sillageRecover {r : Nat} (h : smGet (s.p.rates hub mirror) coord.toNat = some r) :
    let r' := r + s.p.fget F.HJF_SILLAGE_add_step
    Acts (.sillageRecover ⟨hub, mirror⟩ coord) s (s.p.setRates hub mirror (if 256 ≤ r' then
      smDel (s.p.rates hub mirror) coord.toNat else smSet (s.p.rates hub mirror) coord.toNat r')) :=
  acts_of_exec rfl (by dsimp only; rw [h])

end

/-- Settles O51, from what the switch, the delivery, the network interface and the limiter each do. -/
theorem fabricPacketsAreServed : Obligations.FabricPacketsAreServed := by
  unfold Obligations.FabricPacketsAreServed
  intro s hub p
  refine ⟨fun port k fecOk tr corrected => ?_, fun port k => ?_, fun hf k => acts_fabricRequest_off hf, fun hf k => ?_,
    fun coord mirror => ⟨acts_sillageRecover_none, fun r hr => ⟨fun h => ?_, fun h => ?_⟩⟩⟩
  · intro i taken r aged p1 sent
    refine ⟨fun hs hc => ?_, acts_packetReceive_none, fun ht hfec => ?_, fun ht hfec ho => ?_, fun ht hfec ho => ?_⟩
    · exact countCorrected_port p hs hc corrected
    all_goals subst hfec
    · exact acts_packetReceive_uncorrected rfl ht
    · exact acts_packetReceive_malformed rfl ht ho
    · refine ⟨acts_packetReceive_old rfl ht ho rfl, acts_packetReceive_here rfl ht ho rfl, fun ha hd => ?_⟩
      have hsent := acts_packetReceive_through (corrected := corrected) rfl ht ho rfl ha hd rfl
      exact ⟨fun hok => hsent.congr (if_pos hok), fun hno => hsent.congr (if_neg (Bool.eq_false_iff.1 hno))⟩
  · refine ⟨countMark_unmarked p, fun hm hc hs => ?_, fDeliver_corrupt p, fDeliver_control p, fun hk hc hs => ?_⟩
    · rw [countMark_marked p hm hc, fab4_modFab p hub _ hs]
    · rw [fDeliver_arrives p hk hc, fab4_modFab _ hub _ (sorted_countMark p hs), fab4_countMark_arrived p hs]
  · intro p1 pa n m refused
    refine ⟨fun hout => ?_, fun hin => ⟨fun he => ?_, fun he => ⟨fun ha => ?_, fun ha => ?_, fun e ha h0 h3 => ?_⟩, fun he => ?_,
      fun he => ⟨fun ha => ?_, fun ha => ?_, fun e ha h0 h3 => ?_⟩, fun he => ?_, fun he => ?_⟩⟩
    · simp only [List.forall_mem_cons, List.not_mem_nil, false_implies, implies_true, and_true]
      exact ⟨(acts_fabricRd hf).congr (niServe_outside hout), (acts_fabricWr hf).congr (niServe_outside hout),
        (acts_fpost hf).congr (niServe_outside hout)⟩
    · exact (acts_fabricRd hf).congr (by rw [he]; exact niServe_refused hin)
    · exact (acts_fabricRd hf).congr (by rw [he]; exact niServe_served hin ha)
    · exact (acts_fabricRd hf).congr (by rw [he]; exact niServe_silent hin ha)
    · exact (acts_fabricRd hf).congr (by rw [he]; exact niServe_failed hin ha h0 h3)
    · exact (acts_fabricWr hf).congr (by rw [he]; exact niServe_refused hin)
    · exact (acts_fabricWr hf).congr (by rw [he]; exact niServe_served hin ha)
    · exact (acts_fabricWr hf).congr (by rw [he]; exact niServe_silent hin ha)
    · exact (acts_fabricWr hf).congr (by rw [he]; exact niServe_failed hin ha h0 h3)
    · exact (acts_fpost hf).congr (by rw [he]; exact niServe_refused hin)
    · exact (acts_fpost hf).congr (by rw [he]; exact niServe_post hin)
  · exact (acts_sillageRecover hr).congr (congrArg _ (if_pos h))
  · exact (acts_sillageRecover hr).congr (congrArg _ (if_neg (by simpa using h)))

end Sys2Proof.Machine
end

section
/-! The command queues of the network interface (R418 to R424). -/

namespace Sys2Proof.Machine

/-! ### The producer index (R418) -/

section
variable {s : State} {hub q : Nat}

theorem acts_fqProducerWrite (hf : s.p.fPort hub 0 = true) (hq : q < 8) (v : W64) :
    Acts (.fqProducerWrite hub q v) s (s.p.store .HJF_FQ_INDEX false v hub q) :=
  acts_of_exec rfl (if_pos (by simp [hf, hq]))

theorem acts_fqProducerWrite_off (h : s.p.fPort hub 0 = false ∨ 8 ≤ q) (v : W64) : Acts (.fqProducerWrite hub q v) s s.p := by
  refine acts_of_exec rfl (if_neg fun hg => ?_)
  obtain ⟨hf, hq⟩ := Bool.and_eq_true_iff.1 hg
  exact h.elim (fun h => absurd hf (by simp [h])) fun h => Nat.not_lt.2 h (of_decide_eq_true hq)

/-- The address of a queue's ring header. -/
def Panel.fqHeader (p : Panel) (hub q : Nat) : Nat := p.fget F.HJF_FQ_CONFIG_base hub q * 64

/-- A queue's producer index is polled, and its header can be read. -/
def Panel.fqPolls (p : Panel) (hub q : Nat) : Prop :=
  p.fPort hub 0 = true ∧ q < 8 ∧ p.flag F.HJF_FQ_CONFIG_enable hub q = true ∧ p.flag F.HJF_FQ_CONFIG_poll hub q = true ∧
    p.accessStatus (p.fqHeader hub q) 8 = 0

theorem fqPolls_guard (p : Panel) (hub q : Nat) : (p.fPort hub 0 && decide (q < 8) && p.flag F.HJF_FQ_CONFIG_enable hub q &&
    p.flag F.HJF_FQ_CONFIG_poll hub q && p.accessStatus (p.fqHeader hub q) 8 == 0) = true ↔ p.fqPolls hub q := by
  simp only [Panel.fqPolls, Bool.and_eq_true, decide_eq_true_eq, beq_iff_eq, and_assoc]

theorem acts_fqPoll (h : s.p.fqPolls hub q) {r : List Byte × Bool × Panel} (hr : s.p.readRange (s.p.fqHeader hub q) 8 = r) :
    Acts (.fqPoll hub q) s (r.2.2.modFab hub fun f => { f with started := smSet f.started (q + 8) (ofBytes r.1 % 65536) }) := by
  refine acts_of_exec rfl ((if_pos ((fqPolls_guard ..).2 h)).trans ?_)
  rw [← Panel.fqHeader, hr]

theorem acts_fqPoll_none (h : ¬s.p.fqPolls hub q) : Acts (.fqPoll hub q) s s.p :=
  acts_of_exec rfl (if_neg (mt (fqPolls_guard ..).1 h))

end

/-! ### Starting a command (R418, R419, R421) -/

/-- Word n of a command. -/
def cmdWord (cmd : List W64) (n : Nat) : Nat := (List.getD cmd n (0 : W64)).toNat

/-- The next command of a queue is due, and its slot can be read. -/
def Panel.fqDue (p : Panel) (hub q : Nat) : Prop :=
  p.fPort hub 0 = true ∧ q < 8 ∧ p.flag F.HJF_FQ_CONFIG_enable hub q = true ∧ p.fqNext hub q ≠ p.fqProducer hub q ∧
    p.mayInject hub = true ∧ (p.fab4 hub).cmds.length < 64 ∧
    ((p.fab4 hub).waiting.any fun x => x.q == q && x.reissued) = false ∧
    p.accessStatus (p.fqSlot hub q (p.fqNext hub q)) 64 = 0

/-- The slot that was read holds the command. -/
def slotHolds (bs : List Byte) (cmd : List W64) : Prop := ∀ n, n < 8 → ofBytes ((bs.drop (8 * n)).take 8) = cmdWord cmd n

/-- The next command is started. -/
def Panel.fqTaken (p : Panel) (hub q n : Nat) : Panel :=
  p.modFab hub fun f => { f with started := smSet f.started q ((n + 1) % 65536) }

/-- Panel and node that a rank names. -/
def Panel.rankAt (p : Panel) (r : Nat) : Option (BitVec 12 × BitVec 7) :=
  if p.flag F.HJF_RANK_valid 0 r = true then
    some (BitVec.ofNat 12 (p.fget F.HJF_RANK_coord 0 r), BitVec.ofNat 7 (p.fget F.HJF_RANK_node 0 r)) else none

/-- The packets of a command. -/
def cmdPieces (cmd : List W64) : List (Nat × Nat) :=
  fPieces (bits (cmdWord cmd 0) 24 0 / 4096 + 2) 0 (bits (cmdWord cmd 3) 55 0) (bits (cmdWord cmd 0) 24 0)

/-- The command as the interface holds it while its packets are out. -/
def cmdHeld (q n : Nat) (cmd : List W64) (dst : BitVec 12 × BitVec 7) : FCmd :=
  ⟨q, n, BitVec.ofNat 8 (bits (cmdWord cmd 0) 63 56), dst.1, dst.2, bits (cmdWord cmd 2) 55 0, bits (cmdWord cmd 3) 55 0,
    BitVec.ofNat 31 (cmdWord cmd 4), BitVec.ofNat 31 (cmdWord cmd 5), (cmdWord cmd 0).testBit 54, (cmdPieces cmd).length, 0⟩

/-- The panel and node that a command names, by their rank or by themselves. -/
def Panel.cmdNames (p : Panel) (cmd : List W64) (dst : BitVec 12 × BitVec 7) : Prop :=
  ((cmdWord cmd 0).testBit 55 = true → p.rankAt (bits (cmdWord cmd 1) 51 40) = some dst) ∧
    (¬(cmdWord cmd 0).testBit 55 = true → dst = (BitVec.ofNat 12 (bits (cmdWord cmd 1) 63 52), BitVec.ofNat 7 (cmdWord cmd 1)))

section
variable {p : Panel} {hub q : Nat} {cmd : List W64} {ops : Nat → Bool}

theorem slotHolds_guard (bs : List Byte) (cmd : List W64) :
    ((List.range 8).any fun i => ofBytes ((bs.drop (8 * i)).take 8) != cmdWord cmd i) = true ↔ ¬slotHolds bs cmd := by
  simp [slotHolds]

theorem fqDue_guard (p : Panel) (hub q : Nat) (hops : ops (bits (cmdWord cmd 0) 63 56) = true) :
    (!p.fPort hub 0 || !decide (q < 8) || !p.flag F.HJF_FQ_CONFIG_enable hub q || p.fqNext hub q == p.fqProducer hub q ||
      !p.mayInject hub || decide (64 ≤ (p.fab4 hub).cmds.length) || ((p.fab4 hub).waiting.any fun x => x.q == q && x.reissued) ||
      !ops (bits (cmdWord cmd 0) 63 56) || p.accessStatus (p.fqSlot hub q (p.fqNext hub q)) 64 != 0) = true ↔ ¬p.fqDue hub q := by
  have hroom : (p.fab4 hub).cmds.length < 64 ↔ ¬64 ≤ (p.fab4 hub).cmds.length := Nat.not_le.symm
  rw [Panel.fqDue, hops, hroom]
  simp only [Bool.or_eq_true, Bool.not_eq_true', decide_eq_true_eq, beq_iff_eq, bne_iff_ne, ne_eq,
    ← Bool.not_eq_true, not_true_eq_false, or_false]
  tauto

variable (hops : ops (bits (cmdWord cmd 0) 63 56) = true)
include hops

theorem fqStart_none (h : ¬p.fqDue hub q) : p.fqStart hub q cmd ops = p := if_pos ((fqDue_guard p hub q hops).2 h)

variable (hd : p.fqDue hub q) {slot : List Byte × Bool × Panel} (hslot : p.readRange (p.fqSlot hub q (p.fqNext hub q)) 64 = slot)
include hd hslot

theorem fqStart_mismatch (hh : ¬slotHolds slot.1 cmd) : p.fqStart hub q cmd ops = slot.2.2 := by
  have hdue := mt (fqDue_guard p hub q hops).1 (not_not.2 hd)
  unfold cmdWord at hdue
  unfold Panel.fqStart
  dsimp only
  rw [if_neg hdue, hslot]
  exact if_pos ((slotHolds_guard ..).2 hh)

variable (hh : slotHolds slot.1 cmd) {p2 : Panel} (h2 : slot.2.2.fqTaken hub q (p.fqNext hub q) = p2)
include hh h2

theorem fqStart_ends {st : Nat} (hst : p2.fqCheck (cmdWord cmd) (p2.rankAt (bits (cmdWord cmd 1) 51 40)) = st) (h0 : st ≠ 0) :
    p.fqStart hub q cmd ops = p2.fqEnd hub q (p.fqNext hub q) st
      (if (cmdWord cmd 0).testBit 54 = true then some (bits (cmdWord cmd 5) 30 0) else none) := by
  have hdue := mt (fqDue_guard p hub q hops).1 (not_not.2 hd)
  unfold cmdWord at hdue
  unfold Panel.fqStart
  dsimp only
  rw [if_neg hdue, hslot]
  refine (if_neg fun h => (slotHolds_guard ..).1 h hh).trans ?_
  unfold Panel.fqTaken at h2
  unfold Panel.rankAt cmdWord at hst
  rw [h2, hst, bit_eq_testBit]
  exact if_pos h0

theorem fqStart_sends (hst : p2.fqCheck (cmdWord cmd) (p2.rankAt (bits (cmdWord cmd 1) 51 40)) = 0) {dst : BitVec 12 × BitVec 7}
    (hdst : p2.cmdNames cmd dst) {c : FCmd} (hc : cmdHeld q (p.fqNext hub q) cmd dst = c) {sent : Panel × Bool}
    (hs : (p2.modFab hub fun f => { f with cmds := f.cmds ++ [c] }).fqSend hub c (cmdPieces cmd) = sent) :
    p.fqStart hub q cmd ops =
      if sent.2 = true then sent.1 else sent.1.fqEnd hub q (p.fqNext hub q) 5 c.localPostOf := by
  have hdue := mt (fqDue_guard p hub q hops).1 (not_not.2 hd)
  unfold cmdWord at hdue
  unfold Panel.fqStart
  dsimp only
  rw [if_neg hdue, hslot]
  refine (if_neg fun h => (slotHolds_guard ..).1 h hh).trans ?_
  unfold Panel.fqTaken at h2
  have hname : (if (cmdWord cmd 0).testBit 55 = true then (p2.rankAt (bits (cmdWord cmd 1) 51 40)).getD (0, 0)
      else (BitVec.ofNat 12 (bits (cmdWord cmd 1) 63 52), BitVec.ofNat 7 (cmdWord cmd 1))) = dst := by
    split
    · rename_i hr
      rw [hdst.1 hr]; rfl
    · rename_i hr
      exact (hdst.2 hr).symm
  unfold Panel.rankAt cmdWord at hst hname
  unfold cmdHeld cmdPieces cmdWord at hc
  unfold cmdPieces cmdWord at hs
  rw [h2, hst, bit_eq_testBit, bit_eq_testBit, hname]
  refine (if_neg (not_not.2 rfl)).trans ?_
  rw [hc, hs]

end

/-- The instruction that takes a command is the one its opcode names. -/
theorem acts_fabricCommand (s : State) (hub q : Nat) (cmd : List W64) : ∃ ops : Nat → Bool,
    ops (bits (cmdWord cmd 0) 63 56) = true ∧ Acts (if bits (cmdWord cmd 0) 63 56 = 2 then .fabricPut hub q cmd
      else if bits (cmdWord cmd 0) 63 56 = 3 then .fabricPutPost hub q cmd else .fabricGet hub q cmd) s
      (s.p.fqStart hub q cmd ops) := by
  split
  · rename_i h
    exact ⟨fun o => o == 2, beq_iff_eq.2 h, acts_of_exec rfl rfl⟩
  · rename_i h2
    split
    · rename_i h
      exact ⟨fun o => o == 3, beq_iff_eq.2 h, acts_of_exec rfl rfl⟩
    · rename_i h3
      refine ⟨_, ?_, acts_of_exec rfl rfl⟩
      simp only [Bool.or_eq_true, beq_iff_eq, decide_eq_true_eq]
      omega

/-! ### Answers and time-outs (R421, R423, R424) -/

section
variable {s : State} {hub : Nat} {k : FPacket} {p1 : Panel} (h1 : (s.p.takeArrived hub k).echoed hub false k = p1)
include h1

theorem acts_fabricNak_late (h : p1.fqMatch hub k.tag (fun _ => true) = none) : Acts (.fabricNak hub k) s (p1.countLate hub) :=
  acts_of_exec rfl (by dsimp only; rw [h1, h])

theorem acts_fabricNak {w : FOut} {c : FCmd} (h : p1.fqMatch hub k.tag (fun _ => true) = some (w, c)) :
    Acts (.fabricNak hub k) s (p1.fqEnd hub c.q c.index (if k.status = 3 then 2 else 1) c.localPostOf) :=
  acts_of_exec rfl (by dsimp only; rw [h1, h])

theorem acts_fabricWrAck_late (h : p1.fqMatch hub k.tag (fun o => o == 1 || o == 2) = none) :
    Acts (.fabricWrAck hub k) s (p1.countLate hub) :=
  acts_of_exec rfl (by dsimp only; rw [h1, h])

theorem acts_fabricWrAck {w : FOut} {c : FCmd} (h : p1.fqMatch hub k.tag (fun o => o == 1 || o == 2) = some (w, c)) :
    Acts (.fabricWrAck hub k) s (p1.fqDone hub w c) :=
  acts_of_exec rfl (by dsimp only; rw [h1, h])

theorem acts_fabricRdData_late (h : p1.fqMatch hub k.tag (fun o => o == 0) = none) :
    Acts (.fabricRdData hub k) s (p1.countLate hub) :=
  acts_of_exec rfl (by dsimp only; rw [h1, h])

theorem acts_fabricRdData {w : FOut} {c : FCmd} (h : p1.fqMatch hub k.tag (fun o => o == 0) = some (w, c)) {pa : Nat}
    (hpa : c.localPa + (w.p.addr.toNat - c.remotePa) = pa) : Acts (.fabricRdData hub k) s
      (if p1.accessStatus pa w.p.length.toNat = 0 then
        (p1.storePa pa ((k.payload.take w.p.length.toNat).map fun b => (b, k.poison))).fqDone hub w c
      else p1.fqEnd hub c.q c.index 1 c.localPostOf) :=
  acts_of_exec rfl (by dsimp only; rw [h1, h, ← hpa])

end

section
variable {s : State} {hub : Nat} {tag : BitVec 16}

theorem acts_requestTimeout_none (h : s.p.fqMatch hub tag (fun _ => true) = none)
    (hm : (s.p.mir.awaits.find? fun x => x.hub == hub && x.tag == tag) = none) : Acts (.fabricRequestTimeout hub tag) s s.p :=
  acts_of_exec rfl (by dsimp only; rw [h, hm])

theorem acts_requestTimeout_mirror (h : s.p.fqMatch hub tag (fun _ => true) = none) {x : MirAwait}
    (hm : (s.p.mir.awaits.find? fun x => x.hub == hub && x.tag == tag) = some x) :
    Acts (.fabricRequestTimeout hub tag) s (s.p.mirrorTimeout x) :=
  acts_of_exec rfl (by dsimp only; rw [h, hm])

variable {w : FOut} {c : FCmd} (h : s.p.fqMatch hub tag (fun _ => true) = some (w, c))
include h

theorem acts_requestTimeout_ends (hr : w.reissued = true ∨ w.p.opcode = 0x02 ∨ s.p.flag F.HJF_CONFIG_reissue_enable = false) :
    Acts (.fabricRequestTimeout hub tag) s ((s.p.fqEnd hub c.q c.index 3 c.localPostOf).reportHubEdge hub 0x0705 clsInfo) := by
  refine acts_of_exec rfl ?_
  dsimp only
  rw [h]
  refine if_pos ?_
  simpa only [Bool.or_eq_true, beq_iff_eq, Bool.not_eq_true', or_assoc] using hr

theorem acts_requestTimeout_again (hr : w.reissued = false) (ho : w.p.opcode ≠ 0x02)
    (hc : s.p.flag F.HJF_CONFIG_reissue_enable = true) {k : FPacket} (hk : sealCheck { w.p with reissue := true } = k) :
    Acts (.fabricRequestTimeout hub tag) s (((s.p.modFab hub fun f => { f with
      waiting := f.waiting.map fun x => if x = w then { x with p := k, reissued := true } else x }).niSend hub k).1) := by
  refine acts_of_exec rfl ?_
  dsimp only
  rw [h]
  refine (if_neg ?_).trans (by rw [← hk])
  simp only [Bool.or_eq_true, beq_iff_eq, Bool.not_eq_true', hr, hc, ho, Bool.false_eq_true, Bool.true_eq_false, or_self,
    not_false_eq_true]

end

/-- Settles O52: a command passes `fqStart`, whose ends are `fqStart_none`, `fqStart_mismatch`, `fqStart_ends` and `fqStart_sends`; an
answer or a time-out finds its command by `fqMatch`. -/
theorem fabricCommandsRun : Obligations.FabricCommandsRun := by
  unfold Obligations.FabricCommandsRun
  intro s hub p
  refine ⟨fun q v => ⟨fun hf hq => acts_fqProducerWrite hf hq v, fun h => acts_fqProducerWrite_off h v⟩,
    fun q => ⟨fun h => acts_fqPoll h rfl, acts_fqPoll_none⟩, fun q cmd => ?_, fun k => ?_, fun tag => ?_⟩
  · obtain ⟨ops, hops, hacts⟩ := acts_fabricCommand s hub q cmd
    refine ⟨fun h => hacts.congr (fqStart_none hops h), fun hd hh => hacts.congr (fqStart_mismatch hops hd rfl hh),
      fun hd hh hst => hacts.congr (fqStart_ends hops hd rfl hh rfl rfl hst), fun hd hh hst dst hr hn => ?_⟩
    have hsent := hacts.congr (fqStart_sends hops hd rfl hh rfl hst ⟨hr, hn⟩ rfl rfl)
    exact ⟨fun hok => hsent.congr (if_pos hok), fun hno => hsent.congr (if_neg (Bool.eq_false_iff.1 hno))⟩
  · refine ⟨acts_fabricNak_late rfl, acts_fabricRdData_late rfl, acts_fabricWrAck_late rfl, fun w c h => ⟨fun ha => ?_, fun ha => ?_⟩,
      fun w c => acts_fabricWrAck rfl, fun w c => acts_fabricNak rfl⟩
    · exact (acts_fabricRdData rfl h rfl).congr (if_pos ha)
    · exact (acts_fabricRdData rfl h rfl).congr (if_neg ha)
  · exact ⟨fun h => ⟨acts_requestTimeout_none h, fun x => acts_requestTimeout_mirror h⟩,
      fun w c h => ⟨acts_requestTimeout_ends h, fun hr ho hc => acts_requestTimeout_again h hr ho hc rfl⟩⟩

end Sys2Proof.Machine
end

section
/-! The ports of a hub: route applies, detaches, ports lost and raised (R405, R417, R427 to R429, R433, R482). -/

namespace Sys2Proof.Machine

/-! ### Ports of a hub that has no power -/

theorem fPort_first {p : Panel} {hub i : Nat} (h : p.fPort hub i = true) : p.fPort hub 0 = true := by
  simp only [Panel.fPort, Bool.and_eq_true, decide_eq_true_eq] at h ⊢
  exact ⟨⟨h.1.1, by decide⟩, h.2⟩

theorem fPort_hub {p : Panel} {hub i : Nat} (h : p.fPort hub i = true) : hub < 4 := by
  simp only [Panel.fPort, Bool.and_eq_true, decide_eq_true_eq] at h
  exact h.1.1

theorem isSwapping_fPort {p : Panel} {hub i : Nat} (h : p.isSwapping hub i = true) : p.fPort hub i = true := by
  simp only [Panel.isSwapping, Bool.and_eq_true] at h
  exact h.1.1

/-! ### The control registers of the two hubs of a zone (R434) -/

/-- A write of one hub's HJF_CONTROL leaves the other hubs'. -/
theorem get_fput_control {p : Panel} (hs : smSorted p.regs = true) {f : RField} (hf : f.reg = .HJF_CONTROL) (v : Nat) {a b : Nat}
    (ha : a < 2048) (hb : b < 2048) (hne : b ≠ a) : (p.fput f v a).get .HJF_CONTROL b = p.get .HJF_CONTROL b := by
  unfold Panel.fput
  rw [hf]
  refine Panel.get_put_far hs _ ⟨ha, by decide, by decide⟩ ⟨hb, by decide, by decide⟩ fun _ h => ?_
  rw [homeUnit_own rfl, homeUnit_own rfl] at h
  exact absurd h hne

section
variable {p : Panel} (hs : smSorted p.regs = true) {z : Nat} (hz : z < 2047)
include hs

/-- A hub's apply is in progress, without an error so far. -/
def Panel.showBusy (p : Panel) (h : Nat) : Panel := (p.fput F.HJF_CONTROL_route_busy 1 h).fput F.HJF_CONTROL_route_error 0 h

theorem showBusy_flags (h : Nat) :
    (p.showBusy h).flag F.HJF_CONTROL_route_busy h = true ∧ (p.showBusy h).flag F.HJF_CONTROL_route_error h = false := by
  have h1 := Panel.sorted_fput hs F.HJF_CONTROL_route_busy 1 h 0 0
  exact ⟨(flag_fput_field h1 F.HJF_CONTROL_route_error F.HJF_CONTROL_route_busy 0 h 0 0 rfl (by decide) (by decide) (by decide)).trans
    (flag_fput hs F.HJF_CONTROL_route_busy true h 0 0 (by decide) rfl),
    flag_fput h1 F.HJF_CONTROL_route_error false h 0 0 (by decide) rfl⟩

theorem showBusy_other {a b : Nat} (ha : a < 2048) (hb : b < 2048) (hne : b ≠ a) :
    (p.showBusy a).get .HJF_CONTROL b = p.get .HJF_CONTROL b :=
  (get_fput_control (Panel.sorted_fput hs ..) rfl _ ha hb hne).trans (get_fput_control hs rfl _ ha hb hne)

theorem showBusy_ports {a : Nat} (ha : a < 2048) {b d v : Nat} (hb : InFile b d v) :
    (p.showBusy a).fget F.HJF_ROUTE_ports b d v = p.fget F.HJF_ROUTE_ports b d v :=
  (Panel.fget_fput_reg (Panel.sorted_fput hs ..) _ (by decide) ⟨ha, by decide, by decide⟩ hb).trans
    (Panel.fget_fput_reg hs _ (by decide) ⟨ha, by decide, by decide⟩ hb)

theorem sorted_showBusy (h : Nat) : smSorted (p.showBusy h).regs = true := Panel.sorted_fput (Panel.sorted_fput hs ..) ..

include hz

theorem zoneBusy_flags {h : Nat} (hh : h = z ∨ h = z + 1) :
    ((p.showBusy z).showBusy (z + 1)).flag F.HJF_CONTROL_route_busy h = true ∧
      ((p.showBusy z).showBusy (z + 1)).flag F.HJF_CONTROL_route_error h = false := by
  have h1 := sorted_showBusy hs z
  rcases hh with rfl | rfl
  · have hget := showBusy_other h1 (a := h + 1) (b := h) (by omega) (by omega) (by omega)
    obtain ⟨hb, he⟩ := showBusy_flags hs h
    unfold Panel.flag Panel.fget at hb he ⊢
    exact ⟨by rw [← hb]; exact congrArg (fun w => F.HJF_CONTROL_route_busy.read w == 1) hget,
      by rw [← he]; exact congrArg (fun w => F.HJF_CONTROL_route_error.read w == 1) hget⟩
  · exact showBusy_flags h1 (z + 1)

theorem zoneError_flags {h : Nat} (hh : h = z ∨ h = z + 1) :
    ((p.fput F.HJF_CONTROL_route_error 1 z).fput F.HJF_CONTROL_route_error 1 (z + 1)).flag F.HJF_CONTROL_route_error h = true := by
  have h1 := Panel.sorted_fput hs F.HJF_CONTROL_route_error 1 z 0 0
  rcases hh with rfl | rfl
  · have hget := get_fput_control h1 (f := F.HJF_CONTROL_route_error) rfl 1 (a := h + 1) (b := h) (by omega) (by omega) (by omega)
    have he := flag_fput hs F.HJF_CONTROL_route_error true h 0 0 (by decide) rfl
    unfold Panel.flag Panel.fget at he ⊢
    rw [← he]
    exact congrArg (fun w => F.HJF_CONTROL_route_error.read w == 1) hget
  · exact flag_fput h1 F.HJF_CONTROL_route_error true (z + 1) 0 0 (by decide) rfl

end

theorem zoneHub_lt {hub : Nat} (h : hub < 4) : zoneHub hub < 2047 := by unfold zoneHub; omega

theorem hub_of_zone (hub : Nat) : hub = zoneHub hub ∨ hub = zoneHub hub + 1 := by unfold zoneHub; omega

/-! ### Route applies (R417) -/

/-- The zone's apply begins. -/
def Panel.applyBegun (p : Panel) (hub : Nat) : Panel := (p.showBusy (zoneHub hub)).showBusy (zoneHub hub + 1)

/-- A zone port is one that an apply changes: in or out of an entry, or held by one whose channel changes. -/
def Panel.portChanges (p : Panel) (z k : Nat) (e : Nat × Nat) : Bool :=
  let a := bit (p.fget F.HJF_ROUTE_ports z e.1 e.2) k
  let b := bit (p.fget F.HJF_ROUTE_shadow_ports z e.1 e.2) k
  a != b || (a && p.fget F.HJF_ROUTE_vc_up z e.1 e.2 != p.fget F.HJF_ROUTE_shadow_vc_up z e.1 e.2)

/-- The ports that an apply swaps, in ascending order. -/
def Panel.swapPorts (p : Panel) (z : Nat) : List Nat := upTo 8 fun k => (allEntries.filter (p.entryChanged z)).any (p.portChanges z k)

theorem mem_swapPorts (p : Panel) (z k : Nat) : k ∈ p.swapPorts z ↔ k < 8 ∧ ∃ e ∈ allEntries, p.entryChanged z e = true ∧
    let a := (p.fget F.HJF_ROUTE_ports z e.1 e.2).testBit k
    let b := (p.fget F.HJF_ROUTE_shadow_ports z e.1 e.2).testBit k
    (a ≠ b ∨ (a = true ∧ p.fget F.HJF_ROUTE_vc_up z e.1 e.2 ≠ p.fget F.HJF_ROUTE_shadow_vc_up z e.1 e.2)) := by
  simp only [Panel.swapPorts, mem_upTo, List.any_eq_true, List.mem_filter, and_assoc, Panel.portChanges, bit_eq_testBit,
    Bool.or_eq_true, Bool.and_eq_true, bne_iff_ne, ne_eq]

theorem routeApply_busy {p : Panel} {hub : Nat} (h : p.flag F.HJF_CONTROL_route_busy hub = true) : p.routeApply hub = p := if_pos h

theorem routeApply_idle {p : Panel} {hub : Nat} (h : p.flag F.HJF_CONTROL_route_busy hub = false) {q : Panel} (hq : p.applyBegun hub = q) :
    p.routeApply hub = nextSwap (zoneHub hub) (q.swapPorts (zoneHub hub))
      (q.modFab (zoneHub hub) fun f => { f with swapping := q.swapPorts (zoneHub hub) }) := by
  unfold Panel.applyBegun Panel.showBusy at hq
  unfold Panel.routeApply
  dsimp only
  rw [if_neg (by simp [h]), List.foldl_cons, List.foldl_cons, List.foldl_nil, hq]
  rfl

section
variable {s : State} {hub : Nat}

theorem acts_hub_off (h : s.p.fPort hub 0 = false) (i : Nat) : ∀ x ∈ ([.routeApply hub, .hjfDetach hub, .detachTimeout hub,
    .frefLoss hub, .portQueueEmpty hub i, .portDrainTimeout hub i] : List Instr), Acts x s s.p := by
  have hi : ¬s.p.isSwapping hub i = true := fun hi => by simp [fPort_first (isSwapping_fPort hi)] at h
  simp only [List.forall_mem_cons, List.not_mem_nil, false_implies, implies_true, and_true]
  exact ⟨acts_of_exec rfl (if_neg (by simp [h])), acts_of_exec rfl (if_neg (by simp [h])), acts_of_exec rfl (if_neg (by simp [h])),
    acts_of_exec rfl (if_neg (by simp [h])), acts_of_exec rfl (if_neg hi), acts_of_exec rfl (if_neg hi)⟩

theorem acts_routeApply (h : s.p.fPort hub 0 = true) : Acts (.routeApply hub) s (s.p.routeApply hub) := acts_of_exec rfl (if_pos h)

theorem acts_swap_none {i : Nat} (h : s.p.isSwapping hub i = false) :
    Acts (.portQueueEmpty hub i) s s.p ∧ Acts (.portDrainTimeout hub i) s s.p :=
  ⟨acts_of_exec rfl (if_neg (by simp [h])), acts_of_exec rfl (if_neg (by simp [h]))⟩

section
variable {i : Nat} (h : s.p.isSwapping hub i = true)
include h

theorem acts_portQueueEmpty : Acts (.portQueueEmpty hub i) s ((s.p.fFlush hub i).portSwapped hub i) := acts_of_exec rfl (if_pos h)

theorem acts_portDrainTimeout {d : Panel × Nat} (hd : s.p.dropQueue hub i = d) : Acts (.portDrainTimeout hub i) s
    ((if d.2 = 0 then d.1 else (d.1.routeError hub).reportHubEdge hub 0x0709 clsInfo (some d.2)).portSwapped hub i) := by
  refine acts_of_exec rfl ((if_pos h).trans ?_)
  rw [hd]

end

/-! ### Detaching (R427, R433) -/

section
variable (hf : s.p.fPort hub 0 = true)
include hf

theorem acts_hjfDetach : Acts (.hjfDetach hub) s (s.p.detachHub hub) := acts_of_exec rfl (if_pos hf)

omit hf in
theorem acts_detachTimeout_none (h : s.p.domain hub ≠ 2) : Acts (.detachTimeout hub) s s.p :=
  acts_of_exec rfl (if_neg (by simp [domDetaching, h]))

theorem acts_detachTimeout (h : s.p.domain hub = 2) {d0 d1 d2 d3 : Panel × Nat} (h0 : s.p.dropQueue hub 0 = d0)
    (h1 : d0.1.dropQueue hub 1 = d1) (h2 : d1.1.dropQueue hub 2 = d2) (h3 : d2.1.dropQueue hub 3 = d3) {n : Nat}
    (hn : d0.2 + d1.2 + d2.2 + d3.2 + (smGetD (d3.1.fab4 hub).queues 4 []).length + (smGetD (d3.1.fab4 hub).queues 5 []).length = n)
    {q : Panel} (hq : (d3.1.clearQueue hub 4).clearQueue hub 5 = q) : Acts (.detachTimeout hub) s
      ((if n = 0 then q else q.reportHubEdge hub 0x0707 clsInfo (some n)).endDetach hub) := by
  have hr : List.range 4 = [0, 1, 2, 3] := rfl
  refine acts_of_exec rfl ((if_pos (by simp [domDetaching, h, hf])).trans ?_)
  simp only [hr, List.foldl_cons, List.foldl_nil, h0, h1, h2, h3, Nat.zero_add, hn, hq]

theorem acts_frefLoss :
    Acts (.frefLoss hub) s ((((s.p.portLost hub 0).portLost hub 1).portLost hub 2).portLost hub 3) := by
  have hr : List.range 4 = [0, 1, 2, 3] := rfl
  refine acts_of_exec rfl ((if_pos hf).trans ?_)
  simp only [hr, List.foldl_cons, List.foldl_nil]

end

theorem detachHub_waits {p : Panel} (h : p.domain hub = 1) (hb : p.flag F.HJF_CONTROL_route_busy hub = true) :
    p.detachHub hub = p.modFab hub fun f => { f with detachDue := true } :=
  (if_neg (not_not.2 h)).trans (if_pos hb)

theorem detachHub_starts {p : Panel} (h : p.domain hub = 1) (hb : p.flag F.HJF_CONTROL_route_busy hub = false) :
    p.detachHub hub = (p.startDetach hub).checkDetach hub :=
  (if_neg (not_not.2 h)).trans (if_neg (by simp [hb]))

theorem detachHub_none {p : Panel} (h : p.domain hub ≠ 1) : p.detachHub hub = p := if_pos h

/-! ### Ports down and up (R405, R428, R429) -/

theorem acts_port_off {i : Nat} (h : s.p.fPort hub i = false) (lanes : Lanes) (nb : BitVec 12) (np : PortEnd) :
    ∀ x ∈ ([.detach hub i, .detachAck hub i, .fabricPortDown hub i, .laneDegraded hub i lanes, .fabricPortUp hub i nb np] :
      List Instr), Acts x s s.p := by
  simp only [List.forall_mem_cons, List.not_mem_nil, false_implies, implies_true, and_true]
  exact ⟨acts_of_exec rfl (if_neg (by simp [h])), acts_of_exec rfl (if_neg (by simp [h])), acts_of_exec rfl (if_neg (by simp [h])),
    acts_of_exec rfl (if_pos (by simp [h])), acts_of_exec rfl (if_neg (by simp [h]))⟩

section
variable {i : Nat} (h : s.p.fPort hub i = true)
include h

theorem acts_detach (hst : s.p.portState hub i = 1 ∨ s.p.portState hub i = 2) {p1 : Panel}
    (h1 : (s.p.removePort hub (zoneIndex hub i)).fFlush hub i = p1) : Acts (.detach hub i) s (p1.emit (.fabric (hub * 4 + i)
      (p1.control (BitVec.ofNat 12 (p1.fget F.HJF_PORT_STATUS_neighbour hub i)) 0x21 0 0))) := by
  refine acts_of_exec rfl ((if_pos ?_).trans (by rw [h1]))
  simpa only [h, portUp, portDraining, Bool.true_and, Bool.or_eq_true, beq_iff_eq] using hst

omit h in
theorem acts_detach_none (h1 : s.p.portState hub i ≠ 1) (h2 : s.p.portState hub i ≠ 2) : Acts (.detach hub i) s s.p :=
  acts_of_exec rfl (if_neg (by simp [portUp, portDraining, h1, h2]))

theorem acts_detachAck (hd : s.p.domain hub = 2) : Acts (.detachAck hub i) s
    ((s.p.modFab hub fun f => { f with detaching := f.detaching.filter (· != i) }).checkDetach hub) :=
  acts_of_exec rfl (if_pos (by simp [domDetaching, h, hd]))

omit h in
theorem acts_detachAck_none (hd : s.p.domain hub ≠ 2) : Acts (.detachAck hub i) s s.p :=
  acts_of_exec rfl (if_neg (by simp [domDetaching, hd]))

theorem acts_fabricPortDown : Acts (.fabricPortDown hub i) s (s.p.portLost hub i) := acts_of_exec rfl (if_pos h)

omit h in
theorem acts_laneDegraded_down (hst : s.p.portState hub i = 0) (lanes : Lanes) : Acts (.laneDegraded hub i lanes) s s.p :=
  acts_of_exec rfl (if_pos (by simp [portDown, hst]))

theorem acts_laneDegraded (hst : s.p.portState hub i ≠ 0) {lanes : Lanes} {w : Nat} (hw : trainWidth lanes = w) {q : Panel}
    (hq : (s.p.portLost hub i).reportHubEdge hub 0x0702 clsInfo (some (hub * 4 + i)) = q) : Acts (.laneDegraded hub i lanes) s
      (if w = 0 then q else q.portRaised hub i w (BitVec.ofNat 12 (s.p.fget F.HJF_PORT_STATUS_neighbour hub i))
        (BitVec.ofNat 4 (s.p.fget F.HJF_PORT_STATUS_neighbour_port hub i))) := by
  refine acts_of_exec rfl ((if_neg (by simp [portDown, h, hst])).trans ?_)
  dsimp only
  rw [hq, hw]

theorem acts_fabricPortUp (ht : s.p.flag F.HJF_COORD_valid = true ∧ s.p.domain hub = 1 ∧
    (s.p.portState hub i = 0 ∨ s.p.portState hub i = 3)) (nb : BitVec 12) (np : PortEnd) :
    Acts (.fabricPortUp hub i nb np) s (s.p.trainPort hub i nb np) := by
  refine acts_of_exec rfl (if_pos ?_)
  simpa only [h, domForwarding, portDown, portDetached, Bool.true_and, Bool.and_eq_true, Bool.or_eq_true, beq_iff_eq, and_assoc] using ht

theorem acts_fabricPortUp_none (ht : ¬(s.p.flag F.HJF_COORD_valid = true ∧ s.p.domain hub = 1 ∧
    (s.p.portState hub i = 0 ∨ s.p.portState hub i = 3))) (nb : BitVec 12) (np : PortEnd) :
    Acts (.fabricPortUp hub i nb np) s s.p := by
  refine acts_of_exec rfl (if_neg fun hg => ht ?_)
  simpa only [h, domForwarding, portDown, portDetached, Bool.true_and, Bool.and_eq_true, Bool.or_eq_true, beq_iff_eq, and_assoc] using hg

end
end

theorem portLost_down {p : Panel} {hub i : Nat} (h : p.portState hub i = 0) : p.portLost hub i = p := if_pos h

/-- The width that the lanes which work allow. -/
def laneWidth (ok : BitVec 8) : Nat := if ok = 0xFF then 3 else if ok.toNat % 16 = 15 then 1 else if ok.toNat / 16 = 15 then 2 else 0

theorem trainWidth_eq (x : Lanes) :
    trainWidth x = if x.peer ≠ 0 ∧ (laneWidth x.ok = 3 ↔ x.peer = 3) then laneWidth x.ok else 0 := by
  have hhigh : x.ok.toNat / 16 % 16 = x.ok.toNat / 16 := Nat.mod_eq_of_lt (by have := x.ok.isLt; omega)
  have hw : (if x.ok = 0xFF then 3 else if bits x.ok.toNat 3 0 = 15 then 1 else if bits x.ok.toNat 7 4 = 15 then 2 else 0 : Nat) =
      laneWidth x.ok := by
    rw [bits_eq, bits_eq, laneWidth, ← hhigh]
    simp
  unfold trainWidth
  rw [hw]
  simp only [eq_iff_iff]

theorem laneWidth_eq_three (ok : BitVec 8) : laneWidth ok = 3 ↔ ok = 0xFF := by
  unfold laneWidth
  split <;> rename_i h
  · simp [h]
  · simp only [h, iff_false]
    split <;> [decide; split] <;> decide

theorem laneWidth_eq_zero (ok : BitVec 8) : laneWidth ok = 0 ↔ ok.toNat % 16 ≠ 15 ∧ ok.toNat / 16 ≠ 15 := by
  unfold laneWidth
  split <;> rename_i h
  · simp [h]
  · split <;> rename_i hl
    · simp [hl]
    · split <;> rename_i hh <;> simp [hl, hh]

theorem trainWidth_eq_zero (x : Lanes) : trainWidth x = 0 ↔ x.peer = 0 ∨ (x.ok = 0xFF ∧ x.peer ≠ 3) ∨ (x.ok ≠ 0xFF ∧ x.peer = 3) ∨
    (x.ok.toNat % 16 ≠ 15 ∧ x.ok.toNat / 16 ≠ 15) := by
  rw [trainWidth_eq]
  simp only [ne_eq, ← laneWidth_eq_three, ← laneWidth_eq_zero x.ok]
  split <;> rename_i h
  · tauto
  · tauto

/-- A width that the neighbour comes to as well. -/
theorem trainWidth_both {x : Lanes} {w : Nat} (hw : laneWidth x.ok = w) (h0 : x.peer ≠ 0) (h3 : w = 3 ↔ x.peer = 3) : trainWidth x = w := by
  rw [trainWidth_eq, hw]
  exact if_pos ⟨h0, h3⟩

theorem trainWidth_full {x : Lanes} (h : x.ok = 0xFF) (hp : x.peer = 3) : trainWidth x = 3 :=
  trainWidth_both ((laneWidth_eq_three _).2 h) (by rw [hp]; decide) (by simp [hp])

theorem trainWidth_low {x : Lanes} (h : x.ok ≠ 0xFF) (hl : x.ok.toNat % 16 = 15) (hp : x.peer = 1 ∨ x.peer = 2) : trainWidth x = 1 :=
  trainWidth_both ((if_neg h).trans (if_pos hl)) (by rcases hp with hp | hp <;> rw [hp] <;> decide)
    (by rcases hp with hp | hp <;> rw [hp] <;> decide)

theorem trainWidth_high {x : Lanes} (hl : x.ok.toNat % 16 ≠ 15) (hh : x.ok.toNat / 16 = 15) (hp : x.peer = 1 ∨ x.peer = 2) :
    trainWidth x = 2 := by
  have hf : x.ok ≠ 0xFF := fun h => hl (by rw [h]; rfl)
  exact trainWidth_both ((if_neg hf).trans ((if_neg hl).trans (if_pos hh))) (by rcases hp with hp | hp <;> rw [hp] <;> decide)
    (by rcases hp with hp | hp <;> rw [hp] <;> decide)

/-- Settles O53, from a lemma per event of the ports. -/
theorem fabricPortsRun : Obligations.FabricPortsRun := by
  unfold Obligations.FabricPortsRun
  intro s hub p
  refine ⟨acts_hub_off, fun hf => ?_, fun i => ⟨acts_swap_none, fun hi => ?_⟩, fun i lanes nb np => ⟨fun h => acts_port_off h lanes nb np,
    fun h => ?_⟩, trainWidth_eq_zero⟩
  · refine ⟨fun hb => (acts_routeApply hf).congr (routeApply_busy hb), fun hb => ?_, fun hd hb =>
      (acts_hjfDetach hf).congr (detachHub_starts hd hb), fun hd hb => (acts_hjfDetach hf).congr (detachHub_waits hd hb),
      fun hd => (acts_hjfDetach hf).congr (detachHub_none hd), acts_detachTimeout_none, fun hd => ?_, acts_frefLoss hf⟩
    · have hz := zoneHub_lt (fPort_hub hf)
      refine ⟨_, _, (acts_routeApply hf).congr (routeApply_idle hb rfl), fun k => mem_swapPorts _ _ k, rfl, rfl, fun hs => ?_⟩
      obtain ⟨hbusy, herr⟩ := zoneBusy_flags hs hz (hub_of_zone hub)
      refine ⟨hbusy, herr, fun d v hd hv => ?_⟩
      have hin : InFile (zoneHub hub) d v := ⟨by omega, by omega, by omega⟩
      exact (showBusy_ports (sorted_showBusy hs _) (by omega) hin).trans (showBusy_ports hs (by omega) hin)
    · intro d0 d1 d2 d3 n q
      have hacts := acts_detachTimeout hf hd (d0 := d0) (d1 := d1) (d2 := d2) (d3 := d3) (n := n) (q := q) rfl rfl rfl rfl rfl rfl
      exact ⟨fun hn => hacts.congr (by rw [if_pos hn]), fun hn => hacts.congr (by rw [if_neg hn])⟩
  · intro d
    have hacts := acts_portDrainTimeout hi (d := d) rfl
    exact ⟨acts_portQueueEmpty hi, fun hn => hacts.congr (by rw [if_pos hn]), fun hn => hacts.congr (by rw [if_neg hn]),
      fun hs _ => zoneError_flags hs (zoneHub_lt (fPort_hub (isSwapping_fPort hi)))⟩
  · refine ⟨fun hst => acts_detach h hst rfl, acts_detach_none, acts_detachAck h, acts_detachAck_none, acts_fabricPortDown h,
      fun hst => ⟨portLost_down hst, acts_laneDegraded_down hst lanes⟩, fun hst => ?_, ?_⟩
    · intro q raised
      have hacts {w : Nat} (hw : trainWidth lanes = w) := acts_laneDegraded h hst (q := q) hw rfl
      exact ⟨fun hok hp => hacts (trainWidth_full hok hp), fun hok hl hp => hacts (trainWidth_low hok hl hp),
        fun hl hh hp => hacts (trainWidth_high hl hh hp), fun hw => hacts hw⟩
    · intro trains q
      exact ⟨fun ht hw => (acts_fabricPortUp h ht nb np).congr (if_neg hw), fun ht hw => (acts_fabricPortUp h ht nb np).congr (if_pos hw),
        fun ht => acts_fabricPortUp_none h ht nb np⟩

end Sys2Proof.Machine
end

section
/-! The queues of a host's port (R439, R440, R442, R443, R445, R447, R449). -/

namespace Sys2Proof.Machine

/-! ### Writes of a port's queue registers (R439, R440, R449) -/

theorem hubHost_portHub (host : Bool) : hubHost (portHub host) = host := by cases host <;> rfl

theorem portHub_cases (host : Bool) : portHub host = 0 ∨ portHub host = 3 := by cases host <;> simp [portHub]

section
variable {p : Panel} {host : Bool} {q : Nat} {src : Writer} {f : Panel → Panel}

theorem portWrite_off (h : 64 ≤ q ∨ p.hubUp (portHub host) = false) : p.portWrite (portHub host) q src f = p := by
  refine if_neg fun hg => ?_
  obtain ⟨-, hq, hu⟩ := hg
  exact h.elim (Nat.not_le.2 hq) fun h => absurd hu (by simp [h])

section
variable (hq : q < 64) (hu : p.hubUp (portHub host) = true)
include hq hu

theorem portWrite_own (ho : ownPort src (portHub host) = true) : p.portWrite (portHub host) q src f = f p :=
  (if_pos ⟨portHub_cases host, hq, hu⟩).trans (if_pos ho)

theorem portWrite_other (ho : ownPort src (portHub host) = false) : p.portWrite (portHub host) q src f = p.asWriter src id :=
  (if_pos ⟨portHub_cases host, hq, hu⟩).trans (if_neg (by simp [ho]))

end

theorem portWrite_noEffect (ho : ownPort src (portHub host) = false) (hw : MayWrite p src ∨ src = .bmc) :
    p.portWrite (portHub host) q src f = p := by
  by_cases hg : q < 64 ∧ p.hubUp (portHub host) = true
  · rw [portWrite_other hg.1 hg.2 ho]
    rcases hw with hw | rfl
    · exact asWriter_may hw id
    · rfl
  · exact portWrite_off (by simpa [imp_iff_not_or] using hg)

end

/-- The writes of R440, as their effect on a port of the panel. -/
def IsPortWrite (host : Bool) (q : Nat) (src : Writer) (i : Instr) : Prop :=
  ∃ f : Panel → Panel, ∀ s, exec i s = .next (s.upd fun p => p.portWrite (portHub host) q src f)

theorem isPortWrite_doorbells (host : Bool) (q : Nat) (src : Writer) (v : W64) : ∀ i ∈ ([.sqTailDoorbell (portHub host) q src v,
    .cqHeadDoorbell (portHub host) q src v, .cqEnable (portHub host) q src v] : List Instr), IsPortWrite host q src i := by
  simp only [List.forall_mem_cons, List.not_mem_nil, false_implies, implies_true, and_true]
  exact ⟨⟨_, fun _ => rfl⟩, ⟨_, fun _ => rfl⟩, ⟨_, fun _ => rfl⟩⟩

section
variable {s : State} {host : Bool} {q : Nat} {src : Writer} {i : Instr} (hi : IsPortWrite host q src i)
include hi

theorem acts_portWrite_off (h : 64 ≤ q ∨ s.p.hubUp (portHub host) = false) : Acts i s s.p := by
  obtain ⟨f, hf⟩ := hi
  exact acts_of_exec (hf s) (portWrite_off h)

theorem acts_portWrite_noEffect (ho : ownPort src (portHub host) = false) (hw : MayWrite s.p src ∨ src = .bmc) : Acts i s s.p := by
  obtain ⟨f, hf⟩ := hi
  exact acts_of_exec (hf s) (portWrite_noEffect ho hw)

theorem acts_portWrite_denied (hq : q < 64) (hu : s.p.hubUp (portHub host) = true) (ho : ownPort src (portHub host) = false) {o : Bool}
    (hs : writerHost src = some o) (hl : s.p.holdsLease o = false) :
    Acts i s (s.p.addHold F.PCI_PORT_STATUS_lease_denied 1 (portHub o)) := by
  obtain ⟨f, hf⟩ := hi
  exact acts_of_exec (hf s) ((portWrite_other hq hu ho).trans (Panel.asWriter_denied hs hl))

end

section
variable {s : State} {host : Bool} {q : Nat} {src : Writer} (ho : ownPort src (portHub host) = true) (hq : q < 64)
  (hu : s.p.hubUp (portHub host) = true)
include ho hq hu

theorem acts_sqTailDoorbell (v : W64) :
    Acts (.sqTailDoorbell (portHub host) q src v) s (s.p.store .PCI_SQ_TAIL false v (portHub host) q) :=
  acts_of_exec rfl (portWrite_own hq hu ho)

theorem acts_cqHeadDoorbell (v : W64) :
    Acts (.cqHeadDoorbell (portHub host) q src v) s ((s.p.store .PCI_CQ_HEAD false v (portHub host) q).drainStore host) := by
  refine acts_of_exec rfl ((portWrite_own hq hu ho).trans ?_)
  rw [Panel.cqHeadWrite, hubHost_portHub]

/-- What a completion queue's base register takes: a size out of range does not enable the queue. -/
def cqBaseTaken (v : W64) : W64 :=
  if F.PCI_CQ_BASE_size_log2.read v < 4 ∨ 15 < F.PCI_CQ_BASE_size_log2.read v then putBits v 63 63 0 else v

theorem acts_cqEnable_same {v v' : W64} (hv : cqBaseTaken v = v')
    (hf : s.p.flag F.PCI_CQ_BASE_enable (portHub host) q = true ∨ bit v'.toNat 63 = false) :
    Acts (.cqEnable (portHub host) q src v) s ((s.p.store .PCI_CQ_BASE false v' (portHub host) q).queuesChanged host) := by
  refine acts_of_exec rfl ((portWrite_own hq hu ho).trans ?_)
  unfold cqBaseTaken at hv
  unfold Panel.cqBaseWrite
  dsimp only
  rw [hubHost_portHub, hv, if_neg]
  rcases hf with hf | hf <;> simp [hf]

theorem acts_cqEnable_fresh {v v' : W64} (hv : cqBaseTaken v = v') (hf : s.p.flag F.PCI_CQ_BASE_enable (portHub host) q = false)
    (hb : bit v'.toNat 63 = true) : Acts (.cqEnable (portHub host) q src v) s
      ((((s.p.store .PCI_CQ_BASE false v' (portHub host) q).modPort host fun x => { x with cqFresh := insertAsc x.cqFresh q }).fput
        F.PCI_CSTORE_host_lost 0 (portHub host)).queuesChanged host) := by
  refine acts_of_exec rfl ((portWrite_own hq hu ho).trans ?_)
  unfold cqBaseTaken at hv
  unfold Panel.cqBaseWrite
  dsimp only
  rw [hubHost_portHub, hv, if_pos (by simp [hf, hb])]

end

/-! ### Entries taken from a submission queue (R442) -/

theorem cmdWord_lt (e : List W64) (n : Nat) : cmdWord e n < 2 ^ 64 := BitVec.isLt _

theorem cmdWord_op (e : List W64) : bits (cmdWord e 0) 63 56 = cmdWord e 0 / 2 ^ 56 := by
  rw [bits_eq]
  exact Nat.mod_eq_of_lt (by have := cmdWord_lt e 0; omega)

/-- Something holds submissions back, or it is not the queue's turn. -/
def Panel.sqBarred (p : Panel) (hub : Nat) (host : Bool) (q : Nat) : Prop :=
  (p.eng hub).frozen = true ∨ (p.eng hub).draining = true ∨ p.replaying hub = true ∨
    p.flag F.RQE_ILOG_STATUS_stream_wait hub = true ∨ 64 ≤ q ∨ p.isTurn hub host q = false

/-- The queue's turn is taken. -/
def Panel.turnTaken (p : Panel) (hub : Nat) (host : Bool) (q : Nat) : Panel :=
  p.modEng hub fun x => { x with turn := (turnOf host q + 1) % 128 }

/-- A cancellation with a reserved bit set, or for a completion queue that is not in use. -/
def Panel.badCancel (p : Panel) (host : Bool) (e : List W64) : Prop :=
  cmdWord e 0 % 2 ^ 50 ≠ 0 ∨ (∃ i, 2 ≤ i ∧ i < 8 ∧ cmdWord e i ≠ 0) ∨ (p.port host).cqOn.contains (cmdWord e 0 / 2 ^ 50 % 64) = false

theorem sqBarred_guard (p : Panel) (hub : Nat) (host : Bool) (q : Nat) : ((p.eng hub).frozen || (p.eng hub).draining ||
    p.replaying hub || p.flag F.RQE_ILOG_STATUS_stream_wait hub || decide (64 ≤ q) || !p.isTurn hub host q) = true ↔
      p.sqBarred hub host q := by
  simp only [Panel.sqBarred, Bool.or_eq_true, decide_eq_true_eq, Bool.not_eq_true', or_assoc]

theorem port_modEng (p : Panel) (hub : Nat) (f : Engine → Engine) (host : Bool) : (p.modEng hub f).port host = p.port host := by
  unfold Panel.modEng Panel.setEng
  split <;> rfl

section
variable {p : Panel} {hub : Nat} {host : Bool} {q : Nat} {e : List W64}

theorem takeEntry_idle (h : p.activeHub = none) : p.takeEntry host q e = p := by rw [Panel.takeEntry, h]

section
variable (ha : p.activeHub = some hub)
include ha

theorem takeEntry_barred (h : p.sqBarred hub host q) : p.takeEntry host q e = p := by
  rw [Panel.takeEntry, ha]
  exact if_pos ((sqBarred_guard ..).2 h)

variable (h : ¬p.sqBarred hub host q) {t : Panel} (ht : p.turnTaken hub host q = t)
include h ht

theorem takeEntry_cancel (hop : cmdWord e 0 / 2 ^ 56 = 2) : p.takeEntry host q e = t.takeCancel hub host q e := by
  unfold Panel.turnTaken at ht
  rw [Panel.takeEntry, ha]
  refine (if_neg fun hg => h ((sqBarred_guard ..).1 hg)).trans ?_
  dsimp only
  rw [ht]
  exact if_pos ((cmdWord_op e).trans hop)

theorem takeEntry_rejected (h2 : cmdWord e 0 / 2 ^ 56 ≠ 2) (hbad : cmdWord e 0 / 2 ^ 56 ≠ 1 ∨ t.badSubmit hub host e = true) :
    p.takeEntry host q e = t.answerEntry hub host q e rsnRejected := by
  have hop := cmdWord_op e
  unfold Panel.turnTaken at ht
  rw [Panel.takeEntry, ha]
  refine (if_neg fun hg => h ((sqBarred_guard ..).1 hg)).trans ?_
  dsimp only
  rw [ht]
  refine (if_neg fun hc => h2 (hop.symm.trans hc)).trans (if_pos (hbad.imp_left fun h1 hc => h1 (hop.symm.trans hc)))

theorem takeEntry_submit (h1 : cmdWord e 0 / 2 ^ 56 = 1) (hok : t.badSubmit hub host e = false) : p.takeEntry host q e =
    if 65536 ≤ (p.eng hub).ctxs.length + (p.eng hub).inputs.length + (p.eng hub).taking.length then t
    else t.modEng hub fun x => { x with taking := x.taking ++ [⟨host, q, e⟩] } := by
  have hop : bits (cmdWord e 0) 63 56 = 1 := (cmdWord_op e).trans h1
  unfold Panel.turnTaken at ht
  rw [Panel.takeEntry, ha]
  refine (if_neg fun hg => h ((sqBarred_guard ..).1 hg)).trans ?_
  dsimp only
  rw [ht]
  refine (if_neg fun hc => absurd (hop.symm.trans hc) (by decide)).trans (if_neg fun hc => ?_)
  exact hc.elim (fun hc => hc hop) fun hc => absurd hc (by simp [hok])

end

theorem badCancel_guard (p : Panel) (host : Bool) (e : List W64) :
    (bits (cmdWord e 0) 49 0 ≠ 0 ∨ ((List.range 6).any fun i => List.getD e (2 + i) (0 : W64) != 0) = true ∨
      (!(p.port host).cqOn.contains (bits (cmdWord e 0) 55 50)) = true) ↔ p.badCancel host e := by
  have hrsvd : ((List.range 6).any fun i => List.getD e (2 + i) (0 : W64) != 0) = true ↔ ∃ i, 2 ≤ i ∧ i < 8 ∧ cmdWord e i ≠ 0 := by
    simp only [List.any_eq_true, List.mem_range, bne_iff_ne, cmdWord, ne_eq, BitVec.toNat_eq]
    constructor
    · rintro ⟨i, hi, hne⟩
      exact ⟨2 + i, by omega, by omega, hne⟩
    · rintro ⟨i, h2, h8, hne⟩
      exact ⟨i - 2, by omega, by rwa [Nat.add_sub_cancel' h2]⟩
  rw [hrsvd, bits_eq, bits_eq, Bool.not_eq_true', Panel.badCancel]
  simp only [Nat.pow_zero, Nat.div_one, Nat.reduceAdd, Nat.reduceSub, Nat.reducePow]

theorem takeCancel_rejected (h : p.badCancel host e) : p.takeCancel hub host q e = p.answerEntry hub host q e rsnRejected :=
  if_pos ((badCancel_guard ..).2 h)

section
variable (h : ¬p.badCancel host e)
include h

theorem takeCancel_notFound (hl : (p.eng hub).tagLive host (List.getD e 1 0) = false) :
    p.takeCancel hub host q e = p.answerEntry hub host q e rsnNotFound :=
  (if_neg (mt (badCancel_guard ..).1 h)).trans (if_pos (by rw [Bool.not_eq_true']; exact hl))

theorem takeCancel_taken (hl : (p.eng hub).tagLive host (List.getD e 1 0) = true) : p.takeCancel hub host q e =
    p.modEng hub fun x => { x with
      inputs := x.inputs ++ [.cancel host (BitVec.ofNat 6 q) (cmdWord e 0 / 2 ^ 50 % 64) (List.getD e 1 0)]
      headsDue := x.headsDue ++ [⟨host, q, false, false⟩] } := by
  refine ((if_neg (mt (badCancel_guard ..).1 h)).trans (if_neg (by rw [Bool.not_eq_true']; simpa using hl))).trans ?_
  rw [bits_eq]
  rfl

end
end

theorem acts_takeEntry (s : State) (host : Bool) (q : Nat) (e : List W64) :
    ∀ i ∈ ([.submit host q e, .cancel host q e] : List Instr), Acts i s (s.p.takeEntry host q e) := by
  simp only [List.forall_mem_cons, List.not_mem_nil, false_implies, implies_true, and_true]
  exact ⟨acts_of_exec rfl rfl, acts_of_exec rfl rfl⟩

/-! ### Prompts read (R442, R448) -/

/-- A failed read of host memory as the port counts it. -/
def Panel.readCounted (p : Panel) (host : Bool) (e : ReadEnd) : Panel := p.modPort host fun x =>
  { x with aerTimeout := x.aerTimeout + (if e = .timedOut then 1 else 0), aerPoison := x.aerPoison + (if e = .poisoned then 1 else 0) }

theorem readFailed_eq (p : Panel) (host : Bool) (e : ReadEnd) : p.readFailed host e = p.readCounted host e := by
  cases e <;> rfl

section
variable {s : State} {hub : Nat} {host : Bool} {q : Nat} {ok : ReadEnd} {ts : List W32}

theorem acts_promptReadComplete_idle (h : s.p.activeHub = none) : Acts (.promptReadComplete host q ok ts) s s.p :=
  acts_of_exec rfl (by dsimp only; rw [h])

variable (ha : s.p.activeHub = some hub)
include ha

theorem acts_promptReadComplete_none (h : ((s.p.eng hub).taking.find? fun t => t.host == host && t.queue == q) = none) :
    Acts (.promptReadComplete host q ok ts) s s.p :=
  acts_of_exec rfl (by dsimp only; rw [ha]; dsimp only; rw [h])

variable {t : Taking} (h : ((s.p.eng hub).taking.find? fun t => t.host == host && t.queue == q) = some t) {p1 : Panel}
  (h1 : (s.p.modEng hub fun x => { x with taking := x.taking.filter (· != t) }) = p1)
include h

theorem acts_promptReadComplete_short (hl : ts.length ≠ cmdWord t.entry 0 % 2 ^ 32) :
    Acts (.promptReadComplete host q .done ts) s s.p := by
  refine acts_of_exec rfl ?_
  dsimp only
  rw [ha]
  dsimp only
  rw [h]
  refine (if_neg (not_not.2 rfl)).trans (if_pos ?_)
  rw [bits_eq, Nat.pow_zero, Nat.div_one]
  exact hl

include h1

theorem acts_promptReadComplete_failed (hok : ok ≠ .done) :
    Acts (.promptReadComplete host q ok ts) s ((p1.readCounted host ok).answerEntry hub host q t.entry rsnRejected) := by
  refine acts_of_exec rfl ?_
  dsimp only
  rw [ha]
  dsimp only
  rw [h]
  refine (if_pos hok).trans ?_
  rw [h1, readFailed_eq]

theorem acts_promptReadComplete (hl : ts.length = cmdWord t.entry 0 % 2 ^ 32) :
    Acts (.promptReadComplete host q .done ts) s (p1.modEng hub fun x => { x with
      inputs := x.inputs ++ [.intake host (BitVec.ofNat 6 q) 0 t.entry ts]
      headsDue := x.headsDue ++ [⟨host, q, false, false⟩] }) := by
  refine acts_of_exec rfl ?_
  dsimp only
  rw [ha]
  dsimp only
  rw [h]
  refine (if_neg (not_not.2 rfl)).trans ((if_neg ?_).trans (by rw [h1]))
  rw [bits_eq, Nat.pow_zero, Nat.div_one, not_not]
  exact hl

end

/-- Settles O47, from what a write of a queue register, an entry's turn and a prompt's read each do. -/
theorem queuesAreServed : Obligations.QueuesAreServed := by
  unfold Obligations.QueuesAreServed
  intro s host q p h
  refine ⟨fun src v => ⟨fun hoff => ?_, fun i hi => ?_, fun ho hq hu => ?_⟩, fun hub e ha => ?_, fun ha e ok ts => ?_,
    fun hub ok ts ha hn => acts_promptReadComplete_none ha hn, fun hub t ts ha ht => ?_⟩
  · have hall := isPortWrite_doorbells host q src v
    simp only [List.forall_mem_cons, List.not_mem_nil, false_implies, implies_true, and_true] at hall
    obtain ⟨hsq, hcq, hen⟩ := hall
    exact ⟨acts_portWrite_off hsq hoff, acts_portWrite_off hcq hoff, acts_portWrite_off hen hoff⟩
  · have hw := isPortWrite_doorbells host q src v i hi
    exact ⟨acts_portWrite_noEffect hw, fun o hs ho hl hq hu => acts_portWrite_denied hw hq hu ho hs hl⟩
  · exact ⟨acts_sqTailDoorbell ho hq hu v, acts_cqHeadDoorbell ho hq hu v, acts_cqEnable_same ho hq hu rfl,
      acts_cqEnable_fresh ho hq hu rfl⟩
  · intro w barred t i hi
    have hacts := acts_takeEntry s host q e i hi
    have hbad : t.badCancel host e ↔ p.badCancel host e := by
      unfold Panel.badCancel
      rw [port_modEng]
    refine ⟨fun hb => hacts.congr (takeEntry_barred ha hb), fun hb => ⟨fun h1 => ⟨fun hok => ?_, fun hno => ?_⟩, fun h1 h2 => ?_,
      fun h2 => ⟨fun hc => ?_, fun hz hr hc => ?_⟩⟩⟩
    · have htake := hacts.congr (takeEntry_submit ha hb rfl h1 hok)
      exact ⟨fun hroom => htake.congr (if_neg (Nat.not_le.2 hroom)), fun hfull => htake.congr (if_pos hfull)⟩
    · exact hacts.congr (takeEntry_rejected ha hb rfl (fun h2 => absurd (h1.symm.trans h2) (by decide)) (.inr hno))
    · exact hacts.congr (takeEntry_rejected ha hb rfl h2 (.inl h1))
    · exact hacts.congr ((takeEntry_cancel ha hb rfl h2).trans (takeCancel_rejected (hbad.2 hc)))
    · have hgood : ¬t.badCancel host e := by
        rw [hbad]
        rintro (h | ⟨i, h2, h8, hne⟩ | h)
        · exact h hz
        · exact hne (hr i h2 h8)
        · exact absurd (hc.symm.trans h) (by decide)
      have htake := hacts.congr (takeEntry_cancel ha hb rfl h2)
      exact ⟨fun hl => htake.congr (takeCancel_notFound hgood hl), fun hl => htake.congr (takeCancel_taken hgood hl)⟩
  · simp only [List.forall_mem_cons, List.not_mem_nil, false_implies, implies_true, and_true]
    exact ⟨acts_of_exec rfl (takeEntry_idle ha), acts_of_exec rfl (takeEntry_idle ha), acts_promptReadComplete_idle ha⟩
  · exact ⟨fun e => acts_promptReadComplete_failed ha ht rfl, acts_promptReadComplete_short ha ht,
      acts_promptReadComplete ha ht rfl⟩

end Sys2Proof.Machine
end

section
/-! SPDM and DOE requests (R459, R460, R475). -/

namespace Sys2Proof.Machine

theorem spdm_answered {p : Panel} {hub a : Nat} {t : Option Transport} (h : p.spdmHub hub t = some a) (f : Nat → Answer) :
    p.spdm hub t f = p.reply hub t (f a) := by rw [Panel.spdm, h]

theorem spdm_unanswered {p : Panel} {hub : Nat} {t : Option Transport} (h : p.spdmHub hub t = none) (f : Nat → Answer) :
    p.spdm hub t f = p := by rw [Panel.spdm, h]

theorem reply_i3c (p : Panel) (hub : Nat) (x : Answer) : p.reply hub (some .i3c) x = (p.emit (.inBand hub)).emit (.answer hub x) := rfl

theorem reply_other (p : Panel) (hub : Nat) {t : Option Transport} (h : t ≠ some .i3c) (x : Answer) :
    p.reply hub t x = p.emit (.answer hub x) := congrArg (Panel.emit · _) (if_neg h)

section
variable {s : State} {hub : Nat} {t : Option Transport}

theorem acts_spdm_none (h : s.p.spdmHub hub t = none) (slot index : Nat) (nonce : BitVec 256) : ∀ i ∈ ([.getVersion hub t,
    .getCapabilities hub t, .negotiateAlgorithms hub t, .getDigests hub t, .getCertificate hub t slot, .challenge hub t slot nonce,
    .getMeasurements hub t index nonce] : List Instr), Acts i s s.p := by
  have hk : ¬(s.p.spdmHub hub t).any s.p.keysErased = true := by simp [h]
  simp only [List.forall_mem_cons, List.not_mem_nil, false_implies, implies_true, and_true]
  exact ⟨acts_of_exec rfl (spdm_unanswered h _), acts_of_exec rfl (spdm_unanswered h _), acts_of_exec rfl (spdm_unanswered h _),
    acts_of_exec rfl (spdm_unanswered h _), acts_of_exec rfl (spdm_unanswered h _),
    acts_of_exec rfl ((if_neg hk).trans (spdm_unanswered h _)), acts_of_exec rfl ((if_neg hk).trans (spdm_unanswered h _))⟩

section
variable {a : Nat} (h : s.p.spdmHub hub t = some a)
include h

theorem acts_getCertificate (slot : Nat) : Acts (.getCertificate hub t slot) s
    (s.p.reply hub t (if slot = 0 then .spdmCertificate (s.p.certChain a) else .spdmError)) :=
  acts_of_exec rfl (spdm_answered h _)

theorem acts_spdm_erased (he : s.p.keysErased a = true) (slot index : Nat) (nonce : BitVec 256) :
    Acts (.challenge hub t slot nonce) s s.p ∧ Acts (.getMeasurements hub t index nonce) s s.p := by
  have hk : (s.p.spdmHub hub t).any s.p.keysErased = true := by rw [h]; exact he
  exact ⟨acts_of_exec rfl (if_pos hk), acts_of_exec rfl (if_pos hk)⟩

section
variable (he : s.p.keysErased a = false) (nonce : BitVec 256)
include he

theorem keys_guard : ¬(s.p.spdmHub hub t).any s.p.keysErased = true := by
  rw [h, Option.any_some, he]
  decide

theorem acts_challenge (slot : Nat) : Acts (.challenge hub t slot nonce) s (s.p.reply hub t
    (if slot = 0 then .spdmChallenge nonce (s.p.aliasSign a (bytesBE 32 nonce.toNat)) else .spdmError)) :=
  acts_of_exec rfl ((if_neg (keys_guard h he)).trans (spdm_answered h _))

/-- The measurements that a request asks for: how many there are, all of them, or those of one index. -/
def Panel.measured (p : Panel) (a index : Nat) : List (Nat × List Byte) :=
  if index = 0 then [(0, [BitVec.ofNat 8 (p.measurements a).length])]
  else if index = 0xFF then p.measurements a else (p.measurements a).filter fun m => m.1 == index

theorem acts_getMeasurements (index : Nat) {bs : List (Nat × List Byte)} (hb : s.p.measured a index = bs) :
    Acts (.getMeasurements hub t index nonce) s (s.p.reply hub t (if bs.isEmpty = true then .spdmError
      else .spdmMeasurements bs (s.p.aliasSign a (bytesBE 32 nonce.toNat ++ bs.flatMap (·.2))))) := by
  subst hb
  exact acts_of_exec rfl ((if_neg (keys_guard h he)).trans (spdm_answered h _))

end
end

theorem acts_doeDiscovery_off (h : s.p.secUp hub = false ∨ s.p.flag F.PCI_PORT_STATUS_link_up hub = false) (index : BitVec 8) :
    Acts (.doeDiscovery hub index) s s.p :=
  acts_of_exec rfl (if_neg (by rcases h with h | h <;> simp [h]))

/-- The protocols that a hub offers over DOE: discovery, and SPDM once its firmware runs. -/
def Panel.doeProtocols (p : Panel) (hub : Nat) : List Nat := if p.bring.running.contains hub = true then [0, 1] else [0]

theorem acts_doeDiscovery (hu : s.p.secUp hub = true) (hl : s.p.flag F.PCI_PORT_STATUS_link_up hub = true) (index : BitVec 8)
    {l : List Nat} (hd : ((s.p.doeProtocols hub).drop index.toNat).take 1 = l) :
    Acts (.doeDiscovery hub index) s (s.p.emit (.answer hub (.doeDiscovery l))) := by
  subst hd
  exact acts_of_exec rfl (if_pos (by rw [hu, hl]; rfl))

end

theorem doeProtocols_head (p : Panel) (hub : Nat) : ((p.doeProtocols hub).drop 0).take 1 = [0] := by
  unfold Panel.doeProtocols
  split <;> rfl

theorem doeProtocols_end (p : Panel) (hub : Nat) {n : Nat} (hn : 2 ≤ n) : ((p.doeProtocols hub).drop n).take 1 = [] := by
  have hlen : (p.doeProtocols hub).length ≤ n := by
    unfold Panel.doeProtocols
    split <;> simp only [List.length_cons, List.length_nil] <;> omega
  rw [List.drop_eq_nil_of_le hlen, List.take_nil]

/-- Settles O55: a request goes through `Panel.spdm`, which answers or does not. -/
theorem spdmRequestsAreAnswered : Obligations.SpdmRequestsAreAnswered := by
  unfold Obligations.SpdmRequestsAreAnswered
  intro s hub t p
  refine ⟨fun a ha => ?_, fun x => ⟨fun ht => ht ▸ reply_i3c p hub x, fun ht => reply_other p hub ht x⟩, fun hn => acts_spdm_none hn,
    acts_doeDiscovery_off, fun hu hl => ⟨acts_doeDiscovery hu hl 0 (doeProtocols_head p hub), fun hr => ?_, fun hr => ?_,
      fun index hi => acts_doeDiscovery hu hl index (doeProtocols_end p hub hi)⟩⟩
  · intro say
    refine ⟨acts_of_exec rfl (spdm_answered ha _), acts_of_exec rfl (spdm_answered ha _), acts_of_exec rfl (spdm_answered ha _),
      acts_of_exec rfl (spdm_answered ha _), acts_getCertificate ha 0, fun slot hs => ?_, fun he nonce => ⟨acts_challenge ha he nonce 0,
        fun slot hs => ?_, fun index bs hb => ⟨fun hnil => ?_, fun hne => ?_⟩⟩, acts_spdm_erased ha⟩
    · exact (acts_getCertificate ha slot).congr (congrArg say (if_neg hs))
    · exact (acts_challenge ha he nonce slot).congr (congrArg say (if_neg hs))
    · exact (acts_getMeasurements ha he nonce index hb.symm).congr (congrArg say (if_pos (List.isEmpty_iff.2 hnil)))
    · exact (acts_getMeasurements ha he nonce index hb.symm).congr (congrArg say (if_neg (mt List.isEmpty_iff.1 hne)))
  · exact acts_doeDiscovery hu hl 1 (by rw [Panel.doeProtocols, if_pos hr]; rfl)
  · exact acts_doeDiscovery hu hl 1 (by rw [Panel.doeProtocols, if_neg (by simpa using hr)]; rfl)

end Sys2Proof.Machine
end

section
/-! Signed commands, debug scopes, the entropy source, guests and optical engines (R458, R461 to R464, R468 to R470). -/

namespace Sys2Proof.Machine

/-! ### A submit (R461 to R463) -/

/-- The last command that a hub took shows. -/
def Panel.secNamed (q : Panel) (a c : Nat) : Panel := q.fput F.SEC_CMD_CONTROL_last_command c a

/-- A new nonce is drawn and the result shows. -/
def Panel.secShown (x : Panel) (a r : Nat) : Panel := ((x.romTest a).drawNonce a).fput F.SEC_CMD_CONTROL_result r a

theorem romTest_fab (p : Panel) (a : Nat) : (p.romTest a).fab = p.fab := by
  unfold Panel.romTest
  split <;> rfl

theorem Panel.drawBits_fab (p : Panel) (n : Nat) : (p.drawBits n).2.fab = p.fab := rfl

theorem drawNonce_fab (p : Panel) (a : Nat) : (p.drawNonce a).fab = p.fab :=
  foldl_leaves Panel.fab (fun q _ => (Panel.put_fab ..).trans (q.drawBits_fab 64)) _ p

theorem secShown_fab (x : Panel) (a r : Nat) : (x.secShown a r).fab = x.fab :=
  (Panel.fput_fab ..).trans ((drawNonce_fab ..).trans (romTest_fab x a))

section
variable {p : Panel} {a c : Nat}

/-- The block stands in registers of its own. -/
theorem secCommand_named (hs : smSorted p.regs = true) (ha : a < 2048) : (p.secNamed a c).secCommand a = p.secCommand a := by
  have hget : (p.secNamed a c).get .SEC_CMD a 0 = p.get .SEC_CMD a 0 :=
    Panel.get_put_reg hs _ (by decide) ⟨ha, by decide, by decide⟩ ⟨ha, by decide, by decide⟩
  unfold Panel.secCommand Panel.secWord
  rw [hget]

theorem secApply_ownerProgram (h : p.secCommand a = 1) :
    p.secApply a = p.blow a fun f => f.setSlot (p.secArg a) (p.secHash a, (f.slot (p.secArg a)).2) := if_pos h

theorem secApply_ownerRevoke (h : p.secCommand a = 2) :
    p.secApply a = p.blow a fun f => f.setSlot (p.secArg a) ((f.slot (p.secArg a)).1, true) :=
  (if_neg (by rw [h]; decide)).trans (if_pos h)

theorem secApply_flaconFloor (h : p.secCommand a = 3) : p.secApply a = p.blow a fun f => { f with floorC := p.secArg a } :=
  (if_neg (by rw [h]; decide)).trans ((if_neg (by rw [h]; decide)).trans (if_pos h))

theorem secApply_fwFloor (h : p.secCommand a = 4) : p.secApply a = p.blow a fun f => { f with floorF := p.secArg a } :=
  (if_neg (by rw [h]; decide)).trans ((if_neg (by rw [h]; decide)).trans ((if_neg (by rw [h]; decide)).trans (if_pos h)))

theorem secApply_debugUnlock (h : p.secCommand a = 5) : p.secApply a = p.openDebug a (p.secScopes a) (p.secWindow a) :=
  (if_neg (by rw [h]; decide)).trans ((if_neg (by rw [h]; decide)).trans ((if_neg (by rw [h]; decide)).trans
    (if_neg (by rw [h]; decide))))

section
variable (hc : p.secCommand a = c)
include hc

theorem secSubmit_good (hr : p.secResult a = 0) : p.secSubmit a = ((p.secNamed a c).secApply a).secShown a 0 := by
  unfold Panel.secSubmit
  dsimp only
  rw [hr, hc]
  exact congrArg (Panel.secShown · a 0) (if_pos rfl)

theorem secSubmit_bad (hr : p.secResult a ≠ 0) :
    p.secSubmit a = ((p.secNamed a c).reportPanel a 0x0803 clsInfo).secShown a (p.secResult a) := by
  unfold Panel.secSubmit
  dsimp only
  rw [hc]
  exact congrArg (Panel.secShown · a (p.secResult a)) (if_neg hr)

end

/-- What a submit does that names a command: its effect, found good, or nothing but its result. -/
theorem acts_secSubmit {s : State} {i : Instr} (hi : Acts i s (p.secSubmit a)) (hc : p.secCommand a = c)
    (hs : smSorted p.regs = true) (ha : a < 2048) :
    let p1 := p.secNamed a c
    let n := p1.secArg a
    (p.secResult a = 0 →
      (c = 1 → Acts i s ((p1.blow a fun f => f.setSlot n (p1.secHash a, (f.slot n).2)).secShown a 0)) ∧
      (c = 2 → Acts i s ((p1.blow a fun f => f.setSlot n ((f.slot n).1, true)).secShown a 0)) ∧
      (c = 3 → Acts i s ((p1.blow a fun f => { f with floorC := n }).secShown a 0)) ∧
      (c = 4 → Acts i s ((p1.blow a fun f => { f with floorF := n }).secShown a 0)) ∧
      (c = 5 → Acts i s ((p1.openDebug a (p1.secScopes a) (p1.secWindow a)).secShown a 0))) ∧
    (p.secResult a ≠ 0 →
      let x := (p1.reportPanel a 0x0803 clsInfo).secShown a (p.secResult a)
      Acts i s x ∧ x.fab = p.fab) := by
  intro p1 n
  have hc1 : p1.secCommand a = c := (secCommand_named hs ha).trans hc
  refine ⟨fun hr => ?_, fun hr => ⟨hi.congr (secSubmit_bad hc hr), secShown_fab ..⟩⟩
  have hgood := hi.congr (secSubmit_good hc hr)
  have hshown {x : Panel} (hx : p1.secApply a = x) : Acts i s (x.secShown a 0) := hx ▸ hgood
  exact ⟨fun h => hshown (secApply_ownerProgram (hc1.trans h)), fun h => hshown (secApply_ownerRevoke (hc1.trans h)),
    fun h => hshown (secApply_flaconFloor (hc1.trans h)), fun h => hshown (secApply_fwFloor (hc1.trans h)),
    fun h => hshown (secApply_debugUnlock (hc1.trans h))⟩

end

/-! ### The ways of a block (R439, R461, R463, R476) -/

section
variable {p : Panel} {hub c : Nat}

theorem secUp_lt (h : p.secUp hub = true) : hub < 2048 := by
  simp only [Panel.secUp, Bool.and_eq_true, Bool.or_eq_true, beq_iff_eq] at h
  obtain ⟨⟨h | h, -⟩, -⟩ := h <;> omega

theorem secServer_lt {t : Transport} {a : Nat} (h : p.secServer hub t = some a) : a < 2048 := by
  unfold Panel.secServer at h
  split at h
  · cases h
  · rename_i hup
    split at h
    · cases h
      have hboth : p.transportUp hub t = true := by simpa using hup
      unfold Panel.transportUp at hboth
      exact secUp_lt (Bool.and_eq_true_iff.1 hboth).1
    · split at h <;> cases h
      unfold Panel.primaryHub
      split <;> omega

theorem sorted_putBlock (hs : smSorted p.regs = true) (a : Nat) (block : List W64) : smSorted (p.putBlock a block).regs = true :=
  foldl_keeps (fun q : Panel => smSorted q.regs = true) _ (fun _ _ h => Panel.sorted_put h _ _ _ _ _) _ _ hs

theorem secCmd_submit_none {src : Writer} (h : p.secUp hub = false ∨ p.secCommand hub ≠ c ∨ p.secOwnWay hub src = false) :
    p.secCmd hub c (.submit src) = p := by
  refine if_neg fun hg => ?_
  simp only [Bool.and_eq_true, beq_iff_eq] at hg
  obtain ⟨⟨hu, hc⟩, hw⟩ := hg
  rcases h with h | h | h
  · exact absurd hu (by simp [h])
  · exact h hc
  · exact absurd hw (by simp [h])

theorem secCmd_submit {src : Writer} (hu : p.secUp hub = true) (hc : p.secCommand hub = c) (hw : p.secOwnWay hub src = true) :
    p.secCmd hub c (.submit src) = p.asManager src fun p => p.secSubmit hub :=
  if_pos (by simp [hu, hc, hw])

theorem secCmd_mctp_none {t : Transport} (h : p.secServer hub t = none) (block : List W64) : p.secCmd hub c (.mctp t block) = p := by
  unfold Panel.secCmd
  dsimp only
  rw [h]

section
variable {t : Transport} {a : Nat} {block : List W64} (h : p.secServer hub t = some a)
include h

theorem secCmd_mctp_other (hc : (p.putBlock a block).secCommand a ≠ c) : p.secCmd hub c (.mctp t block) = p := by
  unfold Panel.secCmd
  dsimp only
  rw [h]
  exact if_neg hc

theorem secCmd_mctp (hc : (p.putBlock a block).secCommand a = c) :
    p.secCmd hub c (.mctp t block) = (p.putBlock a block).secSubmit a := by
  unfold Panel.secCmd
  dsimp only
  rw [h]
  exact if_pos hc

end
end

/-- The five commands of R462 differ in the number they name alone. -/
theorem acts_secCmd {s : State} {hub c : Nat} {i : Instr} {v : SecVia} (h : (c, i) ∈ ([(1, .ownerProgram hub v),
    (2, .ownerRevoke hub v), (3, .flaconFloor hub v), (4, .fwFloor hub v), (5, .debugUnlock hub v)] : List (Nat × Instr))) :
    Acts i s (s.p.secCmd hub c v) := by
  simp only [List.mem_cons, List.not_mem_nil, or_false, Prod.mk.injEq] at h
  obtain ⟨rfl, rfl⟩ | ⟨rfl, rfl⟩ | ⟨rfl, rfl⟩ | ⟨rfl, rfl⟩ | ⟨rfl, rfl⟩ := h
  · exact acts_of_exec rfl rfl
  · exact acts_of_exec rfl rfl
  · exact acts_of_exec rfl rfl
  · exact acts_of_exec rfl rfl
  · exact acts_of_exec rfl rfl

/-! ### Results (R463; log 19) -/

section
variable {p : Panel} {hub : Nat} (hb : p.flag F.SEC_CMD_CONTROL_busy hub = false)
include hb

theorem secResult_closed (h : p.secClosed hub = true) : p.secResult hub = 6 := (if_neg (by simp [hb])).trans (if_pos h)

theorem secResult_badSignature (h : p.secClosed hub = false) (hl : p.secLayout hub = true) (hs : p.secSigned hub = false) :
    p.secResult hub = 1 :=
  (if_neg (by simp [hb])).trans ((if_neg (by simp [h])).trans ((if_neg (by simp [hl])).trans (if_pos (by simp [hs]))))

end

/-! ### Debug scopes and the entropy source (R458, R464, R465) -/

section
variable {p : Panel} {hub : Nat}

theorem closeDebug_shows (hs : smSorted p.regs = true) (hh : hub < 2048) : (p.closeDebug hub).fget F.SEC_STATUS_debug_open hub = 0 ∧
    (p.closeDebug hub).fget F.SEC_DEBUG_remaining_ms hub = 0 := by
  have h1 := Panel.sorted_fput hs F.SEC_STATUS_debug_open 0 hub 0 0
  have hopen : ((p.fput F.SEC_STATUS_debug_open 0 hub).fput F.SEC_DEBUG_remaining_ms 0 hub).fget F.SEC_STATUS_debug_open hub = 0 :=
    (Panel.fget_fput_reg h1 _ (by decide) ⟨hh, by decide, by decide⟩ ⟨hh, by decide, by decide⟩).trans
      (Panel.fget_fput hs _ _ _ _ _ (by decide))
  exact ⟨hopen, Panel.fget_fput h1 F.SEC_DEBUG_remaining_ms 0 hub 0 0 (by decide)⟩

/-- An instruction that acts though HUB_JTAG is closed is one of the three that are always open. -/
theorem jtagActs_closed (h : p.jtagOpen = false) (i : JtagInstr) :
    p.jtagActs i = .bypass ∨ p.jtagActs i = .idcode ∨ p.jtagActs i = .samplePreload := by
  obtain ⟨hneed, halways, -⟩ := jtagActs_cases p i
  by_cases ha : i = .bypass ∨ i = .samplePreload ∨ i = .idcode
  · rw [halways ha]
    tauto
  · rw [not_or, not_or] at ha
    exact .inl (hneed h ha.2.1 ha.2.2)

theorem jtagSettle_closed (p : Panel) (e : Nat × Mgmt) (he : e ∈ p.jtagSettle.mgmt) (h : p.jtagSettle.jtagOpen = false) :
    e.2.jtag = .bypass ∨ e.2.jtag = .idcode ∨ e.2.jtag = .samplePreload := by
  obtain ⟨x, -, rfl⟩ := List.mem_map.1 he
  exact jtagActs_closed (p := p) h x.2.jtag

end

section
variable {s : State} {hub : Nat}

theorem acts_relock (h : s.p.secUp hub = true) :
    ∀ i ∈ ([.debugRelock hub, .debugWindowExpire hub] : List Instr), Acts i s (s.p.closeDebug hub) := by
  simp only [List.forall_mem_cons, List.not_mem_nil, false_implies, implies_true, and_true]
  exact ⟨acts_of_exec rfl (if_pos h), acts_of_exec rfl (if_pos h)⟩

theorem acts_relock_off (h : s.p.secUp hub = false) :
    ∀ i ∈ ([.debugRelock hub, .debugWindowExpire hub] : List Instr), Acts i s s.p := by
  simp only [List.forall_mem_cons, List.not_mem_nil, false_implies, implies_true, and_true]
  exact ⟨acts_of_exec rfl (if_neg (by simp [h])), acts_of_exec rfl (if_neg (by simp [h]))⟩

theorem acts_entropyFail (h : s.p.secUp hub = true) : Acts (.entropyFail hub) s
    (((s.p.modSec hub fun x => { x with entropyFailed := true }).fput F.SEC_STATUS_entropy_ok 0 hub).reportHubEdge hub 0x0805 clsUF) :=
  acts_of_exec rfl (if_pos h)

theorem acts_entropyFail_off (h : s.p.secUp hub = false) : Acts (.entropyFail hub) s s.p := acts_of_exec rfl (if_neg (by simp [h]))

end

/-! ### Guests and optical engines (R468 to R470) -/

section
variable {s : State} {site : Nat} {k : Packet}

/-- The site's guest is admitted, and its hub has power. -/
def Panel.guestServed (p : Panel) (site : Nat) : Prop := site < 4 ∧ p.hubUp (guestHub site) = true ∧
  p.fget F.SEC_GUEST_STATUS_state (guestHub site) (site % 2) = gsAdmitted

theorem guestServed_guard (p : Panel) (site : Nat) : (decide (4 ≤ site) || !p.hubUp (guestHub site) ||
    p.fget F.SEC_GUEST_STATUS_state (guestHub site) (site % 2) != gsAdmitted) = true ↔ ¬p.guestServed site := by
  simp only [Panel.guestServed, Bool.or_eq_true, decide_eq_true_eq, Bool.not_eq_true', bne_iff_ne, ne_eq, ← Bool.not_eq_true,
    ← Nat.not_lt]
  tauto

theorem acts_guestTransaction_none (h : ¬s.p.guestServed site) : Acts (.guestTransaction site k) s s.p :=
  acts_of_exec rfl (if_pos ((guestServed_guard ..).2 h))

section
variable (h : s.p.guestServed site)
include h

theorem acts_guestTransaction_denied (hp : s.p.guestPasses site k = false) :
    Acts (.guestTransaction site k) s (s.p.guestDenied site k) :=
  acts_of_exec rfl ((if_neg fun hg => (guestServed_guard ..).1 hg h).trans (if_neg (by simp [hp])))

theorem acts_guestTransaction (hp : s.p.guestPasses site k = true) : Acts (.guestTransaction site k) s (s.p.guestSend site k) :=
  acts_of_exec rfl ((if_neg fun hg => (guestServed_guard ..).1 hg h).trans (if_pos hp))

end

theorem guestSend_fits {p : Panel} (h : (p.guestSite site).into = [] ∧ k.payload.length ≤ (p.guestSite site).bucket) :
    p.guestSend site k = (p.setGuest site { p.guestSite site with
      bucket := (p.guestSite site).bucket - k.payload.length }).guestForward site k :=
  if_pos (by simp [h])

theorem guestSend_waits {p : Panel} (h : ¬((p.guestSite site).into = [] ∧ k.payload.length ≤ (p.guestSite site).bucket)) :
    p.guestSend site k = p.setGuest site { p.guestSite site with into := (p.guestSite site).into ++ [k] } :=
  if_neg (by simpa [List.isEmpty_iff] using h)

end

section
variable {s : State} {k kind : Nat} {v lo hi : BitVec 16}

/-- A reading of an optical engine whose hub has power. -/
def Panel.oeServed (p : Panel) (k kind : Nat) : Prop := k < 8 ∧ kind < 4 ∧ p.hubUp (k / 2) = true

theorem oeServed_guard (p : Panel) (k kind : Nat) :
    (decide (8 ≤ k) || decide (4 ≤ kind) || !p.hubUp (k / 2)) = true ↔ ¬p.oeServed k kind := by
  simp only [Panel.oeServed, Bool.or_eq_true, decide_eq_true_eq, Bool.not_eq_true', ← Bool.not_eq_true, ← Nat.not_lt]
  tauto

theorem acts_oeReading_none (h : ¬s.p.oeServed k kind) : Acts (.oeReading k kind v lo hi) s s.p :=
  acts_of_exec rfl (if_pos ((oeServed_guard ..).2 h))

section
variable (h : s.p.oeServed k kind)
include h

theorem acts_oeReading_kept (hl : lo.toNat ≤ v.toNat) (hh : v.toNat ≤ hi.toNat) :
    Acts (.oeReading k kind v lo hi) s { s.p with oe := smSet s.p.oe (k * 4 + kind) v } :=
  acts_of_exec rfl ((if_neg fun hg => (oeServed_guard ..).1 hg h).trans (if_pos ⟨hl, hh⟩))

theorem acts_oeReading_discarded (ho : v.toNat < lo.toNat ∨ hi.toNat < v.toNat) : Acts (.oeReading k kind v lo hi) s
    (s.p.sendReport (k / 2) 0x0809 clsInfo lvEdge 7 (BitVec.ofNat 8 k) 0 none none) :=
  acts_of_exec rfl ((if_neg fun hg => (oeServed_guard ..).1 hg h).trans (if_neg (by omega)))

end
end

/-- Settles O54: a block reaches `secSubmit` by one of its ways, and `acts_secSubmit` says what a submit does. -/
theorem securityCommandsAct : Obligations.SecurityCommandsAct := by
  unfold Obligations.SecurityCommandsAct
  intro s hub p good
  refine ⟨fun src c i hi => ?_, fun t block c i hi => ?_, fun hb => ⟨secResult_closed hb, secResult_badSignature hb⟩,
    fun i hi => ⟨fun hu => ?_, fun hu => acts_relock_off hu i hi⟩, acts_entropyFail, acts_entropyFail_off,
    fun site k => ⟨acts_guestTransaction_none, fun hg hp => ?_, acts_guestTransaction_denied⟩,
    fun k kind v lo hi => ⟨acts_oeReading_none, acts_oeReading_kept, acts_oeReading_discarded⟩⟩
  · have hcmd := acts_secCmd (s := s) hi
    refine ⟨fun hoff => hcmd.congr (secCmd_submit_none hoff), fun hu hc hw => ?_⟩
    have hsub := hcmd.congr (secCmd_submit hu hc hw)
    exact ⟨fun hm hs => acts_secSubmit (hsub.congr (Panel.asManager_of_mayManage hm _)) hc hs (secUp_lt hu),
      fun h hh hl => hsub.congr (Panel.asManager_denied hh hl)⟩
  · have hcmd := acts_secCmd (s := s) hi
    refine ⟨fun hn => hcmd.congr (secCmd_mctp_none hn block), fun a ha => ⟨fun hc => hcmd.congr (secCmd_mctp_other ha hc),
      fun hc hs => ?_⟩⟩
    exact acts_secSubmit (hcmd.congr (secCmd_mctp ha hc)) hc (sorted_putBlock hs a block) (secServer_lt ha)
  · exact ⟨acts_relock hu i hi, fun hs => closeDebug_shows hs (secUp_lt hu), fun e he hj => jtagSettle_closed _ e he hj⟩
  · have hsend := acts_guestTransaction hg hp
    exact ⟨fun hf => hsend.congr (guestSend_fits hf), fun hf => hsend.congr (guestSend_waits hf)⟩

end Sys2Proof.Machine
end
